-- ==== Sys2Proof/Word.lean ====
section
/-! DEFINITION. Word.lean: the word types of the block. -/
namespace Sys2Proof

/-- A register or a Moss word: 64 bits (R348, R395). -/
abbrev W64 := BitVec 64
/-- A lane element or an instruction word: 32 bits (R61, R90). -/
abbrev W32 := BitVec 32
/-- One byte. -/
abbrev Byte := BitVec 8
/-- A sparse table: (key, value) pairs with strictly rising keys. A key that is not listed stands for the table's default value. -/
abbrev Tbl (α : Type) := List (Nat × α)

end Sys2Proof
end

