-- ==== Sys2Proof/Syntax.lean ====
section
/-! DEFINITION. Syntax.lean: the commands of the block. -/
namespace Sys2Proof

/-- Instruction word of form R without its opcode (Table 4-1). -/
structure RForm where
  e : Bool
  d : BitVec 6
  a : BitVec 7
  b : BitVec 7
  m : BitVec 5
deriving DecidableEq, Repr

/-- Instruction word of form I without its opcode (Table 4-1). -/
structure IForm where
  e : Bool
  d : BitVec 6
  a : BitVec 7
  imm : BitVec 12
deriving DecidableEq, Repr

/-- Instruction word of form B without its opcode (Table 4-1). -/
structure BForm where
  e : Bool
  a : BitVec 7
  mask : BitVec 8
  off : BitVec 10
deriving DecidableEq, Repr

/-- What the check bits of a word show (R356, R362): no error, a single-bit error, or an uncorrectable one. -/
inductive Ecc where
  | clean
  | single
  | double
deriving DecidableEq, Repr

/-- A stream (R25): the command stream of a frond core, or stream `str` of island `isl`. -/
inductive StreamId where
  | frond (f : Nat)
  | queue (isl : BitVec 8) (str : BitVec 5)
deriving DecidableEq, Repr

/-- Where a forecast record arrives (R263). -/
inductive FcDest where
  | core
  | admission
  | rhizome
deriving DecidableEq, Repr

/-- An event t × 100 ps after the period start of group g (R195). -/
structure GroupAt where
  g : BitVec 3
  t : BitVec 16
deriving DecidableEq, Repr

/-- An event of stage n, t × 100 ps after its group's period start (R204). -/
structure StageAt where
  n : BitVec 6
  t : BitVec 16
deriving DecidableEq, Repr

/-- A trip of stage n, t × 100 ps after its group's period start, at i mA (R204). -/
structure StageTrip where
  n : BitVec 6
  t : BitVec 16
  i : BitVec 32
deriving DecidableEq, Repr

/-- Stage n at i mA (R207). -/
structure StageNow where
  n : BitVec 6
  i : BitVec 32
deriving DecidableEq, Repr

/-- The rail of group g falls through the firing threshold; `rose`: the comparator has seen it above the re-arm threshold since the last firing ended (R203). -/
structure RailCross where
  g : BitVec 3
  rose : Bool
deriving DecidableEq, Repr

/-- A rising edge of SYNC_IN: the period since the last one, and how far the next start of each group lies from the position that this edge gives it, 100 ps, signed (R194). -/
structure SyncEdge where
  period : BitVec 16
  offs : List (BitVec 16)
deriving DecidableEq, Repr

/-- The means of one microsecond: the input, and the rail of each group (R198, R199). -/
structure RailMeans where
  vin : BitVec 16
  rails : List (BitVec 14)
deriving DecidableEq, Repr

/-- How a read ends on its way: what the check bits of a Moss word show, and whether a frond core's answer arrives in the expiry cycle of its 1 µs (R185, R356). -/
structure ReadPath where
  ecc : Ecc
  edge : Bool
deriving DecidableEq, Repr

/-- The commands: one constructor per row of spec/opcode_table.json, with the row's operands. What an operand carries is said at the command's meaning. -/
inductive Instr where
  /-- RESET_ASSERT (R420): RST_N goes low, and every domain is reset with its outputs held at their reset levels. -/
  | resetAssert
  /-- RESET_RELEASE (R370): RST_N rises with the supplies in limits, the islands leave reset and the start-up sequence begins. -/
  | resetRelease (r1 : BitVec 512) (r2 : BitVec 512) (r3 : BitVec 512) (pmAddr : BitVec 3)
  /-- FROND_ON_BROADCAST (R370): Once G0 has PG = 1, the active Rhizome sends ON to every frond. -/
  | frondOnBroadcast
  /-- IMAGE_READ (R372): The image is staged in Moss, hashed and verified step by step, falling back to the other slot on failure. -/
  | imageRead (fail : BitVec 2) (ue : BitVec 2)
  /-- IMAGE_APPLY (R374): The active Rhizome applies a verified image in order: stage map, model, loop programs, preload, Fmax points, staging banks, register table. -/
  | imageApply (ue : Bool)
  /-- SPORE_EXIT (R375): Once the image is applied and no frond is starting up, the held entries are sent in table order and Spore mode ends. -/
  | sporeExit
  /-- REF_CLK_ABSENT (R17): After 2 µs without REF_CLK, trims hold, PLL islands fall back, precision samples go invalid, Mat lanes drop and the fault is raised. -/
  | refClkAbsent
  /-- REF_CLK_RETURN (R17): REF_CLK returns, and the trim loops, PLLs, conversions and Mat lanes resume. -/
  | refClkReturn
  /-- HEARTBEAT_TOGGLE (R18): An island's heartbeat toggle arrives at the fault collector and restarts that island's 10 µs watch. -/
  | heartbeatToggle (i : BitVec 8) (edge : Bool)
  /-- ISLAND_STOPPED (R18): 10 µs pass without a heartbeat toggle, so the island is declared stopped and its stop source is raised. -/
  | islandStopped (i : BitVec 8)
  /-- PHASE_HIGH_IMPEDANCE (R19): A phase cell without drive strobes for four sample periods puts its switches in high impedance. -/
  | phaseHighImpedance (f : Nat) (n : Nat)
  /-- STREAM_RESET_HANDSHAKE (R25): A stream reset handshake reaches a receiver, empties the queue and restarts the expected sequence at 0. -/
  | streamResetHandshake (x : StreamId)
  /-- COMMAND_RESEND (R27): The sender resends refused commands on a command stream from the expected sequence number. -/
  | commandResend (x : StreamId)
  /-- QUEUE_WORD (R360): A queue word becomes readable in the receiving island; it is corrected, or on an uncorrectable error its packet is discarded. -/
  | queueWord (i : BitVec 8) (str : BitVec 5) (rx : BitVec 8) (tag : BitVec 2) (word : W64) (ecc : Ecc)
  /-- ISLAND_PROBE (R29): A write to RZ_ISLAND_PROBE starts a snapshot of an island's cycle counter and stream state, or is refused. -/
  | islandProbe (i : BitVec 8) (str : BitVec 5)
  /-- PROBE_SNAPSHOT_ARRIVES (R29): The probed island's snapshot arrives and fills RZ_ISLAND_CYCLES and RZ_ISLAND_SEQ. -/
  | probeSnapshotArrives (queue : Bool) (adv : W64) (edge : Bool)
  /-- PROBE_TIMEOUT (R29): A probe that has no answer within 1 µs ends with STALE = 1 and zero results. -/
  | probeTimeout (queue : Bool)
  /-- QUEUE_PROBE (R363): A write to MS_Q_SEL starts a snapshot of a queue in the receiving island under the probe rules. -/
  | queueProbe (i : BitVec 8) (str : BitVec 5)
  /-- SLOT_BOUNDARY (R67): At each slot boundary the frond core cuts, latches drives, loads inputs, applies remote updates, counts the slot and captures telemetry. -/
  | slotBoundary (f : Nat)
  /-- SLOT_OVERRUN (R72): OVR_CONSEC reaches OVR_LIMIT, and the frond's slot-overrun source is raised. -/
  | slotOverrun (f : Nat)
  /-- GROUP_DISPATCH (R69): The next due group is dispatched in the cycle after the previous group issued END or was cut. -/
  | groupDispatch (f : Nat) (fetch : List (Nat × Ecc))
  /-- RESULT_WRITE_LANDS (R95): An instruction's results land after its latency, and the scoreboard mark clears. -/
  | resultWriteLands (f : Nat)
  /-- NOP (R99): No operation; with E = 1 it ends the program. -/
  | nop (f : Nat) (word : W32)
  /-- ADD (R99): Adds A and the shifted B, wrapping or saturating. -/
  | add (f : Nat) (w : RForm)
  /-- SUB (R99): Subtracts the shifted B from A, wrapping or saturating. -/
  | sub (f : Nat) (w : RForm)
  /-- SBS (R99): Forms A − B in 33 bits and shifts it arithmetically right. -/
  | sbs (f : Nat) (w : RForm)
  /-- ADF (R99): Adds A − B to D. -/
  | adf (f : Nat) (w : RForm)
  /-- INTG (R99): Integrates the shifted A into D with saturation. -/
  | intg (f : Nat) (w : RForm)
  /-- INTGF (R133): Integrates like INTG but freezes an increment toward saturation as SAT indicates. -/
  | intgf (f : Nat) (w : RForm)
  /-- MIN (R99): Writes the signed minimum of A and B. -/
  | min (f : Nat) (w : RForm)
  /-- MAX (R99): Writes the signed maximum of A and B. -/
  | max (f : Nat) (w : RForm)
  /-- AND (R99): Writes A AND B. -/
  | and (f : Nat) (w : RForm)
  /-- OR (R99): Writes A OR B. -/
  | or (f : Nat) (w : RForm)
  /-- XOR (R99): Writes A XOR B. -/
  | xor (f : Nat) (w : RForm)
  /-- ANDN (R99): Writes A AND NOT B. -/
  | andn (f : Nat) (w : RForm)
  /-- SLL (R99): Shifts A left by MOD. -/
  | sll (f : Nat) (w : RForm)
  /-- SRL (R99): Shifts A logically right by MOD. -/
  | srl (f : Nat) (w : RForm)
  /-- SRA (R99): Shifts A arithmetically right by MOD. -/
  | sra (f : Nat) (w : RForm)
  /-- CMP (R99): Writes all ones if A cc B holds, else 0. -/
  | cmp (f : Nat) (w : RForm)
  /-- SEL (R99): Writes B to D where A is non-zero. -/
  | sel (f : Nat) (w : RForm)
  /-- BND (R100): Writes the band state of A against a register or scalar band pair. -/
  | bnd (f : Nat) (w : RForm)
  /-- BFY (R100): Writes A − B and A + B to D and the register after it. -/
  | bfy (f : Nat) (w : RForm)
  /-- IMUL (R99): Multiplies the low halves of A and B exactly into INT32. -/
  | imul (f : Nat) (w : RForm)
  /-- QMUL (R116): Multiplies in Q1.15 or Q2.30 with rounding and saturation. -/
  | qmul (f : Nat) (w : RForm)
  /-- QMAC (R116): Adds a Q product to D in Q2.30 with saturation. -/
  | qmac (f : Nat) (w : RForm)
  /-- ADDI (R99): Adds a sign-extended immediate to A. -/
  | addi (f : Nat) (w : IForm)
  /-- MOVI (R99): Writes a sign-extended immediate. -/
  | movi (f : Nat) (w : IForm)
  /-- TST (R99): Writes all ones if A AND the immediate is non-zero. -/
  | tst (f : Nat) (w : IForm)
  /-- SELI (R99): Writes the immediate to D where A is non-zero. -/
  | seli (f : Nat) (w : IForm)
  /-- EXT (R109): Extracts a bit field of A or of a scalar's high word, sign- or zero-extended. -/
  | ext (f : Nat) (w : IForm)
  /-- BADD (R97): Adds BFP operands and expresses the result at the stage exponent, raising it if needed. -/
  | badd (f : Nat) (w : RForm)
  /-- BSUB (R97): Subtracts BFP operands at the stage exponent. -/
  | bsub (f : Nat) (w : RForm)
  /-- BMUL (R97): Multiplies BFP operands exactly and expresses the result at the stage exponent. -/
  | bmul (f : Nat) (w : RForm)
  /-- BMAC (R97): Adds a BFP product to D at the stage exponent. -/
  | bmac (f : Nat) (w : RForm)
  /-- BCVT (R117): Converts an integer or fixed-point operand to BFP. -/
  | bcvt (f : Nat) (w : RForm)
  /-- BCVI (R117): Converts a BFP value to a target format with rounding and saturation. -/
  | bcvi (f : Nat) (w : RForm)
  /-- STG (R101): Starts a stage and sets the stage format and exponent. -/
  | stg (f : Nat) (w : RForm)
  /-- NRM (R114): Re-expresses A at the least exponent at which every lane fits and sets SX. -/
  | nrm (f : Nat) (w : RForm)
  /-- XSH (R102): Delivers A from lane n XOR 2^k. -/
  | xsh (f : Nat) (w : RForm)
  /-- RSH (R102): Delivers A rotated across the lanes. -/
  | rsh (f : Nat) (w : RForm)
  /-- BCL (R102): Broadcasts A from one lane. -/
  | bcl (f : Nat) (w : RForm)
  /-- RED (R103): Reduces A over the counted lanes and writes the result to them. -/
  | red (f : Nat) (w : RForm)
  /-- MSK (R99): Sets M to E AND (A ≠ 0). -/
  | msk (f : Nat) (w : RForm)
  /-- MAND (R99): Narrows M to M AND (A ≠ 0). -/
  | mand (f : Nat) (w : RForm)
  /-- MNOT (R99): Sets M to E AND NOT M. -/
  | mnot (f : Nat) (w : RForm)
  /-- MALL (R99): Sets M to E. -/
  | mall (f : Nat) (w : RForm)
  /-- BRS (R104): Branches forward if every MASK bit is set in A[7:0]. -/
  | brs (f : Nat) (w : BForm)
  /-- BRC (R104): Branches forward if every MASK bit is clear in A[7:0]. -/
  | brc (f : Nat) (w : BForm)
  /-- BRZ (R104): Branches forward if M is empty. -/
  | brz (f : Nat) (w : BForm)
  /-- DRV (R105): Writes the drive element of each lane in M. -/
  | drv (f : Nat) (w : RForm)
  /-- TEL (R105): Writes a telemetry word from lane 0. -/
  | tel (f : Nat) (w : RForm)
  /-- BXW (R105): Writes the bridge output BX from lane 0. -/
  | bxw (f : Nat) (w : RForm)
  /-- FROND_COMMAND (R88): A command arrives at a frond core, is checked in its arrival cycle and acknowledged on stream 3 within 3 cycles. -/
  | frondCommand (f : Nat) (ecc : Ecc)
  /-- COMMAND_ACK (R396): An island's acknowledgement of a journalled write arrives at the active Rhizome, and the host write is answered. -/
  | commandAck (i : BitVec 8) (edge : Bool)
  /-- REMOTE_UPDATE (R23): A scalar, cap word, band word or other remote update arrives at a frond core and is applied at the next boundary. -/
  | remoteUpdate (f : Nat)
  /-- BX_RECORD (R78): The leader's BX arrives at the follower and is applied to S5 at its next boundary. -/
  | bxRecord (f : Nat)
  /-- GROUP_BIND (R65): A write to FR_GROUP_n with EN = 1 binds a program after the header, overlap and cycle-budget checks. -/
  | groupBind (f : BitVec 6) (n : BitVec 3) (data : W64)
  /-- GROUP_UNBIND (R66): A write to FR_GROUP_n with EN = 0 unbinds a group unless its lanes drive phases under the loop. -/
  | groupUnbind (f : BitVec 6) (n : BitVec 3) (data : W64)
  /-- SAMPLE_PERIOD_WRITE (R71): A write to FR_SAMPLE_CFG changes the sample period after the cycle-budget check. -/
  | samplePeriodWrite (f : BitVec 6) (nper : BitVec 7)
  /-- SCALAR_PUSH (R77): An FC_PUSH_CMD GO pushes a value into a scalar entry of every target frond after commit. -/
  | scalarPush (index : BitVec 6)
  /-- PROGRAM_LOAD (R83): An FC_LOAD_CMD GO copies words from Moss into the instruction RAM of every target frond. -/
  | programLoad (dst : BitVec 12) (len : BitVec 13)
  /-- PROGRAM_LOAD_DONE (R83): A load ends and RESULT is set. -/
  | programLoadDone (ue : Option (BitVec 13))
  /-- CORE_HALT (R87): A write of RUN = 0 in Run enters Halted at the next boundary if the frond is dark. -/
  | coreHalt (f : BitVec 6) (ovrLimit : BitVec 8)
  /-- CORE_RUN (R87): A write of RUN = 1 in Halted enters Run at the next boundary. -/
  | coreRun (f : BitVec 6) (ovrLimit : BitVec 8)
  /-- CORE_STEP (R87): A write of STEP = 1 in Halted runs one slot with drives latched STATE 0. -/
  | coreStep (f : BitVec 6) (run : Bool) (ovrLimit : BitVec 8)
  /-- IMEM_WRITE (R89): A write to FR_IMEM_m writes two instruction words while the core is halted. -/
  | imemWrite (f : BitVec 6) (m : BitVec 11) (data : W64)
  /-- IBUS_OPT_PERIOD (R35): Each optimiser period the G0 target steps from the highest mean duty and a change is committed and sent. -/
  | ibusOptPeriod (duty : List (BitVec 8))
  /-- GUARD_TRIP_POSITIVE (R42): The inductor current crosses the positive trip level and the phase goes to STATE 2 within 2 ns. -/
  | guardTripPositive (f : Nat) (n : Nat)
  /-- GUARD_RELEASE (R42): The current falls 0.5 A below the trip level and the high-side hold is released. -/
  | guardRelease (f : Nat) (n : Nat)
  /-- GUARD_TRIP_NEGATIVE (R43): The current falls below the negative trip level and the low side turns off. -/
  | guardTripNegative (f : Nat) (n : Nat)
  /-- NEGATIVE_CURRENT_RETURN (R43): After a negative trip, the current returns to zero and the phase obeys its next strobe. -/
  | negativeCurrentReturn (f : Nat) (n : Nat)
  /-- PHASE_OVERCURRENT_RUN (R44): A phase's run of trip samples reaches RUN and the phase-overcurrent source is raised once. -/
  | phaseOvercurrentRun (f : Nat) (n : Nat)
  /-- ZCD_CUTOFF (R75): With ZCD or DE in force, the low side turns off as the inductor current reaches zero. -/
  | zcdCutoff (f : Nat) (n : Nat)
  /-- RAIL_OVERVOLTAGE (R45): A sense point crosses above 1.05 V and every high side of the frond is held off. -/
  | railOvervoltage (f : Nat)
  /-- RAIL_OV_RELEASE (R45): The last sense point falls below 1.00 V and the high sides are released. -/
  | railOvRelease (f : Nat)
  /-- BRIDGE_CLOSE (R52): A close command is checked, committed and starts a bridge close. -/
  | bridgeClose (f : BitVec 6) (dir : Bool)
  /-- BRIDGE_OPEN (R53): An open command opens or aborts a bridge with cause 1. -/
  | bridgeOpen (f : BitVec 6) (dir : Bool)
  /-- BRIDGE_CLOSED (R54): The last segment closes and the loop is handed over, making the partner the follower. -/
  | bridgeClosed (f : Nat) (dir : Bool) (hw : Bool) (cause : BitVec 2)
  /-- BRIDGE_CLOSE_ABORT (R54): The rail means differ by more than 10 mV for 64 samples and the close aborts with cause 7. -/
  | bridgeCloseAbort (f : Nat) (dir : Bool)
  /-- BRIDGE_HW_OPEN (R56): A hardware cause (absent strobes, average or peak overcurrent) opens the bridge within 10 ns. -/
  | bridgeHwOpen (f : Nat) (dir : Bool) (cause : BitVec 2)
  /-- BRIDGE_FW_OPEN (R56): A firmware cause (health lost, switch voltage, set-point abort, image) opens the bridge at the leader's next boundary. -/
  | bridgeFwOpen (f : Nat) (dir : Bool) (cause : BitVec 4)
  /-- SATURATION_TRIP (R140): SAT_RUN exceeds the limit and a trip raises output saturation or aborts a soft start. -/
  | saturationTrip (f : Nat)
  /-- INJECTION_GO (R149): An FR_INJ_CFG GO starts a square or PRBS injection, optionally with capture. -/
  | injectionGo (f : BitVec 6) (data : W64)
  /-- INJECTION_STOP (R148): An FR_INJ_CFG STOP ends the active injection at the next boundary. -/
  | injectionStop (f : BitVec 6) (data : W64)
  /-- INJECTION_END (R148): An injection ends on its count, a fault, a bridge change or a set-point, and END_CAUSE is recorded. -/
  | injectionEnd (f : Nat)
  /-- SETPOINT_VOLTAGE (R153): A voltage-form FR_SETPOINT command sets the endpoint to VCODE and F_lim to 255. -/
  | setpointVoltage (f : BitVec 6) (vcode : BitVec 12)
  /-- SETPOINT_FREQUENCY (R155): A frequency-form FR_SETPOINT command derives the endpoint from FREQ and sets F_lim. -/
  | setpointFrequency (f : BitVec 6) (freq : BitVec 8)
  /-- PROFILE_TICK (R159): Every 125 ns the generator forms the next profile code, and the last tick delivers E and clears MOVING. -/
  | profileTick (f : Nat)
  /-- ON (R162): ON in Dark enters Awaiting admission and requests a wake. -/
  | on (f : BitVec 6)
  /-- DARK (R162): DARK withdraws the wake request, publishes FCODE 0 and HOLD 1 and starts the FDROP_WAIT. -/
  | dark (f : BitVec 6)
  /-- DARK_WAIT_EXPIRY (R162): After FDROP_WAIT ticks the frond enters Dark, cancels moves and clears TRIES. -/
  | darkWaitExpiry (f : Nat)
  /-- SOFT_START_GRANT (R163): A grant is applied at a boundary, the frond enters Soft start and a move starts. -/
  | softStartGrant (f : Nat)
  /-- SOFT_START_COMPLETE (R163): The move has ended and VM has settled for 64 slots, so the frond enters In service and reports completion. -/
  | softStartComplete (f : Nat)
  /-- RETRY_WAIT_EXPIRY (R164): Retry wait ends and the frond returns to Awaiting admission. -/
  | retryWaitExpiry (f : Nat)
  /-- PERF_MODE_FREE (R169): RZ_PERF_CTRL MODE 0 lets the governor set F_gov freely. -/
  | perfModeFree (data : W64)
  /-- PERF_MODE_FIXED (R169): RZ_PERF_CTRL MODE 1 enters fixed frequency and issues FREQ = FFIX to every in-service frond. -/
  | perfModeFixed (data : W64)
  /-- PERF_MODE_BOUNDED (R171): RZ_PERF_CTRL MODE 2 enters bounded variation at RHO_SET. -/
  | perfModeBounded (data : W64)
  /-- PERF_FALLBACK (R170): Capping for FB_MS ms, or the limit band, makes fixed frequency fall back to bounded variation. -/
  | perfFallback (thermal : Bool)
  /-- PERF_RETURN (R170): After the return window with headroom and no limit band, fixed frequency resumes. -/
  | perfReturn
  /-- WAKE_REQUEST (R172): A frond or domain wake request arrives in island 0x4B and enters the priority queue. -/
  | wakeRequest (f : Nat)
  /-- ADMISSION_EVALUATION (R175): Every 8 cycles the controller grants at most one queued request that the limits allow. -/
  | admissionEvaluation
  /-- WAKE_COMPLETE (R173): A frond's completion arrives, releasing its frond count and starting its HOLD. -/
  | wakeComplete (f : Nat)
  /-- WAKE_RELEASE (R162): A frond's release after DARK or abort arrives and frees its slope reservation and frond count. -/
  | wakeRelease (f : Nat)
  /-- SLOPE_RESERVATION_RELEASE (R173): A reservation's hold time expires and its slope is released. -/
  | slopeReservationRelease (f : Nat)
  /-- CHARGE_EXPIRY (R173): A grant's charge leaves the 10 µs sum exactly 10 µs after the grant. -/
  | chargeExpiry
  /-- NEIGHBOUR_CURRENT (R177): A frond's measured current is forwarded to island 0x4B for the neighbour deferral test. -/
  | neighbourCurrent (f : Nat) (edge : Bool)
  /-- DEFERRAL_EXPIRY (R178): A request deferred for DEFER_MAX µs stops being deferred and carries the deferred mark. -/
  | deferralExpiry (f : Nat)
  /-- PHASE_OPEN (R179): A phase's low-current STATE 1 count reaches OPEN_RUN, the phase is declared open and taken out of service. -/
  | phaseOpen (f : Nat) (n : Nat)
  /-- LEAF_SENSE_FAIL (R181): A raw code stuck for SENSE_RUN samples declares the leaf sense failed and starts the current estimate. -/
  | leafSenseFail (f : Nat) (n : Nat)
  /-- PHASE_HEALTH_CLEAR (R182): A write to FR_PHASE_HEALTH clears OPEN or SENSE_FAIL bits at the next boundary. -/
  | phaseHealthClear (f : BitVec 6) (data : W64)
  /-- AUTO_BRIDGE_POLICY (R183): When a frond first has more than 4 lost phases and every 1 ms after, the Rhizome may close a bridge to a neighbour. -/
  | autoBridgePolicy (f : Nat)
  /-- DRAIN_START (R184): A frond with more than 8 lost phases opens its bridge and has its issue drained. -/
  | drainStart (f : Nat)
  /-- DRAIN_COMPLETE (R184): The drained current or the drain timeout is reached, and the frond is taken DARK with frond-dark raised. -/
  | drainComplete (f : Nat) (edge : Bool)
  /-- SAG_DETECT (R186): The input stays below V_SAG or V_DEEP for the filter time and a sag is signalled to fronds and admission. -/
  | sagDetect (deep : Bool)
  /-- SAG_SIGNAL (R186): The sag signal arrives at a frond core and the sag issue limit applies at its next boundary. -/
  | sagSignal (f : Nat)
  /-- SAG_END (R187): The input stays above V_SAG + HYST for RELEASE and every frond restores its committed limit. -/
  | sagEnd (toSag : Bool)
  /-- EST_MEAS_DISAGREE (R190): Estimate and measurement differ by over 25 % for 1 ms; the domain uses the measurement and a self-test runs. -/
  | estMeasDisagree (d : BitVec 7)
  /-- GROUP_PERIOD_START (R196): At each group period start the duty and stage duties are computed and trims updated. -/
  | groupPeriodStart (ev : GroupAt) (v : BitVec 14) (cur : List (BitVec 32))
  /-- SYNC_IN_EDGE (R194): A SYNC_IN rising edge is counted and may start a synchronised group period. -/
  | syncInEdge (edge : SyncEdge)
  /-- SYNC_LOCK (R194): 16 consistent SYNC_IN edges give lock. -/
  | syncLock
  /-- SYNC_LOSS (R194): No edge for 4 µs or a 5 % period change loses lock; groups run free and SYNC loss is raised. -/
  | syncLoss
  /-- VREF_SLEW_TICK (R198): Every 1 µs each group's VREF moves toward its VID by the slew step. -/
  | vrefSlewTick (means : RailMeans)
  /-- VID_WRITE (R198): A new VID is written to a group by its writer, or a host write to VP_VID_0 to 5 is answered OWN. -/
  | vidWrite (byHost : Bool) (g : BitVec 3) (vid : BitVec 14)
  /-- POWER_GOOD_RISE (R199): VREF has reached VID and V has stayed within PG_WIN for 10 µs, so PG becomes 1. -/
  | powerGoodRise (g : BitVec 3)
  /-- POWER_GOOD_LOSS (R199): V leaves PG_WIN for 1 µs, PG returns to 0 and power-good loss is raised. -/
  | powerGoodLoss (g : BitVec 3)
  /-- STAGE_CHECK (R200): After 2 µs at mid, VP_SW_n is read and the stage enters service or is locked out for a high-side short. -/
  | stageCheck (n : BitVec 6) (sw : BitVec 16) (rail : BitVec 14)
  /-- SHED_EVALUATION (R201): Every 10 µs, or on an NMIN change, the target active count is formed and stages are shed or un-shed. -/
  | shedEvaluation (g : BitVec 3) (ig : BitVec 32)
  /-- NMIN_UPDATE (R201): A committed NMIN for G0 arrives from the active Rhizome. -/
  | nminUpdate (n : BitVec 6)
  /-- ZERO_CURRENT_TRIP (R202): In diode emulation, a stage's zero-current comparator trips and its line goes to mid until the next rising edge. -/
  | zeroCurrentTrip (ev : StageAt)
  /-- ALL_STAGE_FIRING (R203): The rail crosses VREF − AF_DEPTH and every active or shed stage drives high within 20 ns. -/
  | allStageFiring (cross : RailCross)
  /-- FIRING_END (R203): The rail recovers or AF_TON elapses and the firing ends. -/
  | firingEnd (ev : GroupAt) (recovered : Bool)
  /-- AF_HOLD_EXPIRY (R203): AF_HOLD ends and shedding and diode emulation resume. -/
  | afHoldExpiry (g : BitVec 3)
  /-- SHORT_CIRCUIT_TRIP (R204): VP_IMON_n crosses ISC and the fast comparator drives the stage low within 40 ns. -/
  | shortCircuitTrip (trip : StageTrip)
  /-- HICCUP_OFF_EXPIRY (R205): HIC_OFF ends and the stage check begins. -/
  | hiccupOffExpiry (n : BitVec 6)
  /-- OVERLOAD_FILTER_TICK (R206): Every 1 µs each stage's filtered current updates, pinning trims, raising overload or locking out. -/
  | overloadFilterTick (cur : List (BitVec 32))
  /-- STAGE_FAULT_LINE (R207): VP_FLT_N_n goes low and the stage is disabled and locked out with cause 6. -/
  | stageFaultLine (now : StageNow) (low : Bool)
  /-- INPUT_UNDERVOLTAGE (R208): The input stays below UV for the filter time and every group goes off. -/
  | inputUndervoltage
  /-- INPUT_OVERVOLTAGE (R208): The input stays above OV for the filter time and every group goes off. -/
  | inputOvervoltage
  /-- INPUT_RESTART (R208): The input stays within START to OV − 0.5 V for 100 µs and groups with a VID restart. -/
  | inputRestart
  /-- STAGE_RESTART (R212): VP_STAGE_CMD OP 1 restarts a locked-out stage through the check. -/
  | stageRestart (n : BitVec 6)
  /-- STAGE_STOP (R212): VP_STAGE_CMD OP 2 locks a stage out with cause 12. -/
  | stageStop (n : BitVec 6)
  /-- VPM_RECORD_WRITE (R214): Within 1 ms of a capture the active Rhizome writes the record to the older NVM slot. -/
  | vpmRecordWrite (temp : BitVec 16)
  /-- LASTF_CLEAR (R214): VP_LASTF_STAT CLEAR erases both VPM record slots. -/
  | lastfClear
  /-- LEAF_SAMPLE (R215): Each leaf sensor samples current and voltage every 10 ns, or 100 ns in Spore mode. -/
  | leafSample (f : Nat) (raw : List (BitVec 8)) (volt : List (BitVec 10)) (ibr : BitVec 17)
  /-- ACTIVITY_STROBE (R412): An ACT_STB_f toggle delivers one set of activity counts to the frond core. -/
  | activityStrobe (f : Nat) (a0 : BitVec 7) (rest : List (BitVec 8))
  /-- ACTIVITY_TIMEOUT (R412): 20 ns pass without an activity toggle and each missing interval counts as zero activity. -/
  | activityTimeout (f : Nat)
  /-- CONVERGED (R219): A converter's background correction reaches its limits and samples become valid. -/
  | converged (c : BitVec 3)
  /-- TIMER_TRIGGER (R222): A converter's timer fires every TPER × 10 ns and starts a burst. -/
  | timerTrigger (c : BitVec 3)
  /-- PWM_EVENT (R223): A PWM event from the VPM controller arrives and sets a trigger instant on the scheduled edge. -/
  | pwmEvent (edge : BitVec 2) (sel : BitVec 6)
  /-- PWM_CANCEL (R223): A cancel for a suppressed edge arrives and drops the trigger if no sample was taken yet. -/
  | pwmCancel (edge : BitVec 2) (sel : BitVec 6)
  /-- SKIP_EVENT (R223): A skip event arrives in place of a late PWM event and counts SKIPPED. -/
  | skipEvent (edge : BitVec 2) (sel : BitVec 6)
  /-- SOFT_TRIGGER (R222): A write of SOFT = 1 triggers a burst now. -/
  | softTrigger (c : BitVec 3) (data : W64)
  /-- WINDOW_TRIGGER (R235): A comparator event triggers every converter with SRC = 3 and SEL = w. -/
  | windowTrigger (w : BitVec 6)
  /-- CONVERTER_SAMPLE (R225): A converter takes one sample of a burst and forms its sample word. -/
  | converterSample (c : BitVec 3) (code : BitVec 12)
  /-- BURST_COMPLETE (R224): The last sample of a burst is taken and the converter is free. -/
  | burstComplete (c : BitVec 3)
  /-- DMA_WORD_LANDS (R229): A record word lands in Moss and WR advances by 8, raising the watermark source when crossed. -/
  | dmaWordLands (d : BitVec 4)
  /-- DMA_ENABLE (R229): Enabling a DMA channel sets WR = RD = 0 after its checks. -/
  | dmaEnable (d : BitVec 4) (data : W64)
  /-- DMA_RD_WRITE (R231): A write of RD is accepted if the new FILL lies from 0 to SIZE. -/
  | dmaRdWrite (d : BitVec 4) (rd : W32)
  /-- LCAL_ITEM (R236): The calibration sequencer selects the next phase or sense point and waits 1 µs. -/
  | lcalItem
  /-- LCAL_WINDOW (R236): A 1 µs calibration window closes and gives one pair of leaf and precision means. -/
  | lcalWindow (sumRaw : BitVec 32) (nRaw : BitVec 32) (sumCode : BitVec 32) (nCode : BitVec 32) (bad : Bool)
  /-- LCAL_FIT (R237): The fit of an item is accepted and written, or rejected and the sense declared failed. -/
  | lcalFit
  /-- LCAL_SWEEP_WAIT (R236): PERIOD ms after a sweep, the sequencer starts again from the first frond. -/
  | lcalSweepWait
  /-- LCAL_CMD (R236): An AD_LCAL_CMD GO queues a frond to be calibrated next. -/
  | lcalCmd (f : BitVec 6)
  /-- THERMAL_SAMPLE (R244): A frond's four on-die sensors sample, and readings, bands, rates and the trip are evaluated. -/
  | thermalSample (f : Nat) (codes : List (BitVec 16))
  /-- REMOTE_SAMPLE (R240): A remote diode or thermistor channel takes a reading or is marked invalid. -/
  | remoteSample (m : BitVec 4) (v : BitVec 21) (dv : BitVec 28)
  /-- QUAR_CLEAR (R246): Clearing QUAR returns the sensor to its own reading from the next sample. -/
  | quarClear (n : BitVec 8)
  /-- BAND_REPORT (R248): A frond's band arrives at the active Rhizome, which applies R155 to frequency-form fronds. -/
  | bandReport
  /-- TRIP_SIGNAL (R251): A trip or its end arrives at a frond core, which sets or restores its issue limit and hold at the next boundary. -/
  | tripSignal (f : Nat)
  /-- REFRESH_FALL_HOLD (R250): A lower refresh indication has held for REF_HOLD ms and reaches the stack's lines. -/
  | refreshFallHold (k : BitVec 3)
  /-- FH_ENABLE (R254): A write of FH_CTRL.EN starts or stops forecast cycles and resets the streams. -/
  | fhEnable (en : Bool)
  /-- FORECAST_CYCLE (R254): Every 1 µs a forecast cycle latches inputs, applies hint tokens, ages hint state and runs the model. -/
  | forecastCycle
  /-- FORECAST_RECORDS_SENT (R255): The model finishes and the 64 forecast records are sent on streams 0 to 2. -/
  | forecastRecordsSent (reads : List (BitVec 24 × Ecc))
  /-- FORECAST_RECORD (R263): A forecast record arrives at a frond core, the admission controller or the Rhizome and is taken up. -/
  | forecastRecord (d : FcDest) (f : Nat) (edge : Bool)
  /-- FH_INPUT_RECORD (R257): A forwarded frond input record arrives at Fiddlehead. -/
  | fhInputRecord (f : Nat)
  /-- HINT_TOKEN (R259): A token arrives at the hint intake, is checked and sent to Fiddlehead and the Rhizome, or dropped. -/
  | hintToken (src : BitVec 4) (w : W64)
  /-- JOB_BEGIN (R299): A JOB_BEGIN token at the Rhizome requests a cut and opens a job keyed by JOB_ID and epoch. -/
  | jobBegin
  /-- JOB_END (R299): A JOB_END token at the Rhizome requests a cut and closes the matching job, writing its record. -/
  | jobEnd
  /-- MODEL_CHECK (R275): FH_MODEL_CMD OP 1 checks a model slot without changing what runs. -/
  | modelCheck (slot : Bool) (wide : Bool)
  /-- MODEL_SWITCH (R275): FH_MODEL_CMD OP 2 checks a slot and switches to it at the next cycle beginning. -/
  | modelSwitch (slot : Bool) (wide : Bool)
  /-- MODEL_CHECK_DONE (R274): A model check completes and RESULT is set. -/
  | modelCheckDone (reads : List (BitVec 24 × Ecc))
  /-- TELEMETRY_RECORD (R280): A frond telemetry record arrives at the active Rhizome and is forwarded and used. -/
  | telemetryRecord (f : Nat)
  /-- BUDGET_PERIOD (R288): Every 100 µs the Rhizome forms the cap and splits it into per-frond cap and governor words. -/
  | budgetPeriod
  /-- CURRENT_REPORT (R294): Every 1 ms the Rhizome writes a report record to the report ring. -/
  | currentReport
  /-- CUT_REQUEST (R297): A cut request arrives at a frond core or the VPM controller and its energy counters are answered. -/
  | cutRequest (i : BitVec 8)
  /-- ENERGY_RECORD (R297): An energy answer to a cut arrives at the active Rhizome. -/
  | energyRecord (i : BitVec 8)
  /-- CUT_TIMEOUT (R297): A frond that has not answered within 2 µs contributes its last E and the cut is PARTIAL. -/
  | cutTimeout
  /-- DOMAIN_ENABLE (R301): Setting EN of a retention domain starts it in Active and takes its request line as a level. -/
  | domainEnable (n : BitVec 11) (cls : BitVec 4)
  /-- RETENTION_REQUEST (R302): A domain's request line rises and the domain enters the admission queue. -/
  | retentionRequest (n : BitVec 11) (prio : BitVec 2)
  /-- RETENTION_WITHDRAW (R302): A domain's request line falls and the domain enters Retention or its queued request leaves. -/
  | retentionWithdraw (n : BitVec 11)
  /-- DOMAIN_ACTIVE (R302): Two µs after the grant the domain becomes Active and its ready line rises. -/
  | domainActive (n : BitVec 11)
  /-- TOPK_SCAN (R129): An RZ_TOPK_CTRL GO starts a scan of one metric over all positions. -/
  | topkScan (metric : BitVec 4) (dir : Bool) (excl : Bool)
  /-- TOPK_SCAN_DONE (R130): A scan completes and the eight result registers change together. -/
  | topkScanDone
  /-- CODEWORD_RECEIVED (R306): A lane decodes a codeword and parses its frames, gaining or losing lock. -/
  | codewordReceived (l : BitVec 2) (cnt : BitVec 10) (lane : BitVec 2) (ffo : BitVec 8) (data : List (BitVec 10)) (parity : List (BitVec 10))
  /-- LANE_REACQUIRE (R306): A lane's Off wait ends and it acquires again. -/
  | laneReacquire (l : BitVec 2)
  /-- BEACON_SEND (R306): Each Linked or Up lane sends a BEACON every 1 ms. -/
  | beaconSend
  /-- BEACON (R306): A BEACON arrives and may bring the lane Up. -/
  | beacon (lane : BitVec 2) (b : List Byte)
  /-- BEACON_TIMEOUT (R306): 4 ms pass without a beacon and the lane returns to Linked. -/
  | beaconTimeout (l : BitVec 2)
  /-- OE_FAULT (R307): OE_FAULT_N goes low and every lane goes Off. -/
  | oeFault
  /-- OE_FAULT_CLEAR (R307): OE_FAULT_N returns high and lanes acquire 10 ms later. -/
  | oeFaultClear
  /-- OE_PRESENT_CHANGE (R307): OE_PRESENT_N changes and lanes are held Off or allowed to acquire. -/
  | oePresentChange (present : Bool)
  /-- JOIN_SEND (R311): An Unnumbered device with a numbered partner sends a JOIN and enters Joining. -/
  | joinSend
  /-- JOIN (R311): A JOIN arrives at a proxy or the registrar and is relayed or answered. -/
  | join (lane : BitVec 2) (b : List Byte)
  /-- ASSIGN (R312): An ASSIGN arrives and is relayed by the proxy or acted on by the joiner. -/
  | assign (lane : BitVec 2) (b : List Byte)
  /-- JOIN_TIMEOUT (R311): A Joining device without an ASSIGN for 1 s returns to Unnumbered. -/
  | joinTimeout
  /-- FULL_RETRY_EXPIRY (R311): JOIN_RETRY seconds in Full pass and the device returns to Unnumbered. -/
  | fullRetryExpiry
  /-- RENEW_SEND (R312): A Numbered device sends RENEW every ID_LEASE/4. -/
  | renewSend
  /-- RENEW (R312): A RENEW arrives at the registrar and renews or conflicts an ID. -/
  | renew (lane : BitVec 2) (b : List Byte)
  /-- ID_LEASE_EXPIRY (R312): An ID not renewed for ID_LEASE is freed by the registrar. -/
  | idLeaseExpiry (id : BitVec 16)
  /-- ROUTE_ADVERTISE (R315): Every 100 ms a Numbered device sends ROUTE frames on each Up lane. -/
  | routeAdvertise
  /-- ROUTE (R315): A ROUTE frame arrives and its entries install, replace or withdraw routes. -/
  | route (lane : BitVec 2) (b : List Byte)
  /-- ROUTE_EXPIRY (R315): A route not refreshed for 350 ms is withdrawn. -/
  | routeExpiry (block : Bool) (id : BitVec 16)
  /-- LEASE_PERIOD (R321): Each lease period members send CANDIDATEs, managers are chosen and ceilings are sent. -/
  | leasePeriod (n : BitVec 8)
  /-- CANDIDATE (R321): A CANDIDATE arrives and updates the manager and registrar elections. -/
  | candidate (lane : BitVec 2) (b : List Byte)
  /-- REPORT (R322): A member's REPORT arrives at the manager. -/
  | report (lane : BitVec 2) (b : List Byte)
  /-- GRANT (R324): A GRANT arrives and the member takes a lease with a clamped grant and answers with a REPORT. -/
  | grant (lane : BitVec 2) (b : List Byte) (edge : Bool)
  /-- CEILING (R326): A CEILING frame arrives at the manager with a site ceiling. -/
  | ceiling (lane : BitVec 2) (b : List Byte)
  /-- LEASE_EXPIRY (R324): A lease expires, lease lapse is raised and the member value starts to fall. -/
  | leaseExpiry (n : BitVec 8)
  /-- LEASE_FALL_TICK (R324): Each ms after expiry the member value falls by FALL down to LFLOOR. -/
  | leaseFallTick (n : BitVec 8)
  /-- REG_RD (R327): A REG_RD frame is checked and served as a host read, or answered DENIED. -/
  | regRd (lane : BitVec 2) (b : List Byte)
  /-- REG_WR (R327): A REG_WR frame is checked and served as a host write, or answered DENIED. -/
  | regWr (lane : BitVec 2) (b : List Byte)
  /-- REG_RSP (R327): A REG_RSP arrives at the requester with the outcome of a remote access. -/
  | regRsp (lane : BitVec 2) (b : List Byte)
  /-- CAPTURE (R328): A CAPTURE frame carrying capture samples arrives at its destination. -/
  | capture (lane : BitVec 2) (b : List Byte)
  /-- KEY_LOAD (R319): An MT_KEY_CMD GO loads a key into the unused generation of a slot. -/
  | keyLoad (slot : BitVec 8) (gen : Bool)
  /-- FAULT_RAISE (R333): A raise arrives in the fault collector, sets status, unit and count and takes a level. -/
  | faultRaise (src : BitVec 8) (unit : Option (BitVec 6)) (detail : BitVec 32)
  /-- LEVEL3_CAP_SIGNAL (R339): A level-3 cap or its release arrives at a frond core and acts at its next boundary. -/
  | level3CapSignal (f : Nat)
  /-- CHIP_ACTION_SIGNAL (R340): The chip-action drain or DARK signal arrives at a frond core. -/
  | chipActionSignal (f : Nat)
  /-- CHIP_DRAIN_EXPIRY (R340): CHIP_DRAIN µs after the chip action, every frond is taken DARK. -/
  | chipDrainExpiry
  /-- FAULT_ACK (R335): A committed acknowledgement arrives and clears the source's status, level, units and window. -/
  | faultAck (edge : Bool)
  /-- FIRST_LATCH_CLEAR (R336): Writing 1 to RZ_FLT_FIRST.VALID clears the latch and opens it again. -/
  | firstLatchClear
  /-- LEVEL2_WINDOW_EXPIRY (R337): A level-2 window expires before acknowledgement and the source goes to level 3. -/
  | level2WindowExpiry (i : BitVec 8)
  /-- FAULT_FORCE (R347): A FORCE write raises a source with an optional unit. -/
  | faultForce (i : BitVec 8) (data : W64)
  /-- SELF_TEST_VERDICT (R343): A targeted self-test ends and writes its verdict as a kind-3 record. -/
  | selfTestVerdict (src : BitVec 8) (unit : BitVec 6) (verdict : BitVec 3) (detail : BitVec 16)
  /-- ALIVE_TOGGLE (R342): Every 10 µs ALIVE toggles unless stopped by a level at ALIVE_THR. -/
  | aliveToggle
  /-- ALIVE_RESTART (R342): A write of ALIVE_RESTART restarts ALIVE when no source is at ALIVE_THR. -/
  | aliveRestart (data : W64)
  /-- FAULT_RECORD_NVM_WRITE (R346): Within 1 ms the Rhizome writes a qualifying fault record to a fault slot. -/
  | faultRecordNvmWrite
  /-- FAULT_NVM_CLEAR (R346): RZ_FLT_NVM CLEAR erases every fault slot. -/
  | faultNvmClear
  /-- TAKEOVER_COMPLETE (R379): The takeover completes, source 0x14 is raised and held host accesses are served. -/
  | takeoverComplete
  /-- JOURNAL_ENTRY (R376): A journal entry arrives at the standby, which applies it and acknowledges. -/
  | journalEntry
  /-- JOURNAL_ACK (R376): The standby's acknowledgement arrives and the command commits. -/
  | journalAck (edge : Bool)
  /-- ACK_TIMEOUT (R377): No acknowledgement within ACK_TO; the entry commits and the standby goes out of sync. -/
  | ackTimeout
  /-- STATE_DIGEST (R378): Every 1 ms the active Rhizome sends a CRC of the committed state and the standby compares it. -/
  | stateDigest (corrupt : Bool)
  /-- RESYNC_COMPLETE (R378): An out-of-sync standby has replayed its snapshot and returns to sync at a matching comparison. -/
  | resyncComplete
  /-- MOSS_WRITE (R349): A master writes a Moss word, refused unless it owns the bank. -/
  | mossWrite (m : BitVec 3) (off : BitVec 24) (data : W64)
  /-- MOSS_BIT_SET (R352): A bit-set alias write ORs data into a word atomically. -/
  | mossBitSet (m : BitVec 3) (off : BitVec 24) (data : W64) (ecc : Ecc)
  /-- MOSS_BIT_CLEAR (R352): A bit-clear alias write clears bits of a word atomically. -/
  | mossBitClear (m : BitVec 3) (off : BitVec 24) (data : W64) (ecc : Ecc)
  /-- BANK_HANDOVER (R354): A write that changes MS_BANK_b OWNER hands the bank over from the next Moss cycle. -/
  | bankHandover (b : BitVec 5) (owner : BitVec 3)
  /-- BANK_RETENTION (R359): A write of RET = 1 puts a bank into retention once it is idle. -/
  | bankRetention (b : BitVec 5)
  /-- BANK_WAKE_COMPLETE (R359): 2 µs after an access to a retained bank, the bank is awake and serves it. -/
  | bankWakeComplete (b : BitVec 5) (cycles : List (BitVec 32))
  /-- SCRUB (R357): Every 2^SCRUB_DIV cycles the scrubber reads one word of each awake bank. -/
  | scrub (ecc : List Ecc) (waits : List (BitVec 7))
  /-- IMAGE_PROGRAM (R381): NV_UPD_CMD OP 1 programs bytes from Moss into an image slot. -/
  | imageProgram (slot : Bool) (len : BitVec 22)
  /-- IMAGE_VERIFY (R381): NV_UPD_CMD OP 2 verifies a slot and writes the code to VRES. -/
  | imageVerify (slot : Bool)
  /-- IMAGE_ACTIVATE (R381): NV_UPD_CMD OP 3 writes a trial boot record for a verified slot. -/
  | imageActivate (slot : Bool)
  /-- IMAGE_CONFIRM (R381): NV_UPD_CMD OP 4 confirms a trial boot. -/
  | imageConfirm (slot : Bool)
  /-- SVN_COMMIT (R381): NV_UPD_CMD OP 5 raises the rollback floor to the running SVN. -/
  | svnCommit (slot : Bool)
  /-- FLASH_OP_COMPLETE (R393): A queued flash operation completes and the port passes to the highest waiting class. -/
  | flashOpComplete (bad : Bool)
  /-- REPLAN (R385): A re-plan falls due by power-on time and the Fmax tables are re-planned from canary slack. -/
  | replan
  /-- REPLAN_CMD (R385): NV_AGE_CMD OP 1 starts a re-plan. -/
  | replanCmd
  /-- MEASURE_ONLY (R385): NV_AGE_CMD OP 2 measures canaries and writes FR_CANARY without changing tables. -/
  | measureOnly
  /-- REBUILD_BASELINE (R388): NV_AGE_CMD OP 3 rebuilds the table record from section 8. -/
  | rebuildBaseline
  /-- CANARY_MEASUREMENT (R383): A frond's canary measurement completes with slack and sensitivity per point. -/
  | canaryMeasurement (f : Nat) (vals : List (BitVec 16))
  /-- MEASURE_RETRY (R384): Every 1 s a deferred frond is retried, and skipped after 1 h. -/
  | measureRetry
  /-- LIFETIME_TICK (R389): Once per second the lifetime bins and counters are updated and a flush is due every 64 minutes. -/
  | lifetimeTick
  /-- LIFETIME_FLUSH (R391): A write of FLUSH writes the lifetime record to its next flash position. -/
  | lifetimeFlush
  /-- RECORD_READ (R394): An NV_READ_CMD GO copies a flash area to host-owned Moss. -/
  | recordRead (area : BitVec 2) (pos : BitVec 8) (moff : BitVec 24)
  /-- HOST_REQUEST (R396): A host request is accepted and carried out in order, answered by the first applicable case. -/
  | hostRequest (we : Bool) (addr : BitVec 26) (data : W64) (path : ReadPath)
  /-- REGISTER_WRITE (R396): A write to a register without a row of its own is checked, journalled if required, applied and answered. -/
  | registerWrite (addr : BitVec 26) (data : W64)
  /-- HOST_ACCESS_TIMEOUT (R396): The holding island does not answer within 1 µs and the access is answered ERR. -/
  | hostAccessTimeout
  /-- HOST_RESPONSE_TAKEN (R408): A response is taken at a HOST_CLK edge with VALID and READY both 1. -/
  | hostResponseTaken
  /-- ISLAND_RESTART (R404): An RZ_ISLAND_RST GO holds a stopped island in reset for 1 µs and releases it. -/
  | islandRestart (i : BitVec 8)
  /-- RESTART_HEARTBEAT (R405): The restarted island's heartbeat arrives and its committed state is restored. -/
  | restartHeartbeat
  /-- RESTART_TIMEOUT (R404): No heartbeat within 100 µs holds the island in reset and RESULT becomes 2. -/
  | restartTimeout
  /-- CLEAR_FAULTS (R416): PMBus CLEAR_FAULTS clears STATUS_CML and releases PM_ALERT_N. -/
  | clearFaults (pec : Option (BitVec 8))
  /-- CAPABILITY (R415): PMBus CAPABILITY returns 0xD0. -/
  | capability
  /-- STATUS_BYTE (R415): PMBus STATUS_BYTE returns STATUS_WORD[7:0]. -/
  | statusByte
  /-- STATUS_WORD (R415): PMBus STATUS_WORD returns the status bits of Table 20-4. -/
  | statusWord
  /-- STATUS_CML (R416): PMBus STATUS_CML returns the communication status bits. -/
  | statusCml
  /-- READ_VIN (R415): PMBus READ_VIN returns the input voltage in LINEAR11. -/
  | readVin
  /-- READ_IIN (R415): PMBus READ_IIN returns the derived input current. -/
  | readIin
  /-- READ_TEMPERATURE_1 (R415): PMBus READ_TEMPERATURE_1 returns the hottest reading. -/
  | readTemperature1
  /-- READ_POUT (R415): PMBus READ_POUT returns P_meas. -/
  | readPout
  /-- READ_PIN (R415): PMBus READ_PIN returns P_meas / 0.92. -/
  | readPin
  /-- PMBUS_REVISION (R415): PMBus PMBUS_REVISION returns 0x33. -/
  | pmbusRevision
  /-- MFR_ID (R415): PMBus MFR_ID returns COLSEL. -/
  | mfrId
  /-- MFR_MODEL (R415): PMBus MFR_MODEL returns FAZON NX64. -/
  | mfrModel
  /-- MFR_REVISION (R415): PMBus MFR_REVISION returns the stepping. -/
  | mfrRevision
  /-- MFR_SUPPLY_LIMIT (R415): PMBus MFR_SUPPLY_LIMIT reads or writes BG_CAP.SUPPLY. -/
  | mfrSupplyLimit (w : Option (BitVec 16)) (pec : Option (BitVec 8))
  /-- MFR_SITE_CEILING (R415): PMBus MFR_SITE_CEILING reads or writes MT_SITE.CEIL and VALID. -/
  | mfrSiteCeiling (w : Option (BitVec 16)) (pec : Option (BitVec 8))
  /-- MFR_READ_ENERGY (R415): PMBus MFR_READ_ENERGY returns BG_ENERGY. -/
  | mfrReadEnergy
  /-- MFR_FAULT_FIRST (R415): PMBus MFR_FAULT_FIRST returns RZ_FLT_FIRST[15:0]. -/
  | mfrFaultFirst
  /-- PMBUS_UNSUPPORTED (R416): An unsupported PMBus command sets STATUS_CML bit 7 and its data are discarded. -/
  | pmbusUnsupported (code : BitVec 8)
  /-- ALERT_RESPONSE (R416): An Alert Response read returns the target's address and releases PM_ALERT_N. -/
  | alertResponse
  /-- TAP_RESET (R417): Test-Logic-Reset by TRST_N or TMS selects IDCODE and resets only the TAP. -/
  | tapReset
  /-- IDCODE (R417): The IDCODE instruction selects the 32-bit identification register. -/
  | idcode (mfr : BitVec 11)
  /-- BYPASS (R417): BYPASS, or any unlisted opcode, selects the 1-bit bypass register. -/
  | bypass (op : BitVec 8)
  /-- EXTEST (R418): EXTEST drives the boundary pins while RST_N is low, else acts as SAMPLE/PRELOAD. -/
  | extest (sampled : List Bool) (shifted : Option (List Bool))
  /-- SAMPLE_PRELOAD (R418): SAMPLE/PRELOAD samples and preloads the boundary register. -/
  | samplePreload (sampled : List Bool) (shifted : Option (List Bool))
  /-- DBG_RD (R419): DBG_RD Update-DR starts a host read of ADDR, and Capture-DR loads its result. -/
  | dbgRd (addr : Option (BitVec 26))
  /-- LOSS_OF_SIGNAL (R306): OE_LOS_l goes high, and lane l loses lock and goes Off for its 10 ms wait. -/
  | lossOfSignal (l : BitVec 2) (high : Bool)
  /-- FLASH_ACCESS_TIMEOUT (R366): A flash read or program that has not completed within 10 ms raises source 0x25. -/
  | flashAccessTimeout
deriving DecidableEq, Repr

end Sys2Proof
end

