-- ==== Sys2Proof/Decode.lean ====
section
/-! DEFINITION. Decode.lean: the words of the opcode table. -/
namespace Sys2Proof

/-- The command that a word spells by the bits of spec/opcode_table.json. The table gives no row any bits, so no word spells a command. -/
def decodeTableWord (nbits w : Nat) : Option Instr :=
  match nbits, w with
  | _, _ => none

end Sys2Proof
end

