-- ==== Sys2Proof/Machine/Bits.lean ====
section
/-! DEFINITION. Machine/Bits.lean: bit fields, saturating counters, exact rounding and sparse tables, used by every later file. -/
namespace Sys2Proof.Machine

/-- The unsigned value of bits [hi:lo] of a natural number read as a word (R6). -/
def bitsOf (n hi lo : Nat) : Nat := n / 2 ^ lo % 2 ^ (hi + 1 - lo)

/-- Bit i of a natural number read as a word. -/
def bitOf (n i : Nat) : Bool := n / 2 ^ i % 2 == 1

/-- Bits [hi:lo] of n replaced by the low bits of v. -/
def putBits (n hi lo v : Nat) : Nat :=
  n - bitsOf n hi lo * 2 ^ lo + v % 2 ^ (hi + 1 - lo) * 2 ^ lo

/-- The two's-complement value of the low w bits of n. -/
def signedOf (w n : Nat) : Int :=
  let m := n % 2 ^ w
  if m < 2 ^ (w - 1) then (m : Int) else (m : Int) - (2 ^ w : Nat)

/-- The w-bit two's-complement pattern of an integer. -/
def patOf (w : Nat) (v : Int) : Nat := (v % ((2 ^ w : Nat) : Int)).toNat

/-- v clamped to lo..hi. -/
def clampInt (lo hi v : Int) : Int := if v < lo then lo else if hi < v then hi else v

/-- v clamped to lo..hi. -/
def clampNat (lo hi v : Nat) : Nat := if v < lo then lo else if hi < v then hi else v

/-- n / d rounded to the nearest integer, ties to even (d > 0). -/
def rne (n : Int) (d : Nat) : Int :=
  let q := n / (d : Int)
  let r := n % (d : Int)
  if 2 * r < d then q else if (d : Int) < 2 * r then q + 1 else if q % 2 = 0 then q else q + 1

/-- n / d rounded up. -/
def ceilDiv (n d : Nat) : Nat := (n + d - 1) / d

/-- The largest r below 2^k with r^p ≤ n, bit by bit. -/
def rootBits (p n : Nat) : Nat → Nat → Nat
  | 0, r => r
  | k + 1, r => if (r + 2 ^ k) ^ p ≤ n then rootBits p n k (r + 2 ^ k) else rootBits p n k r

/-- The number of set bits of the low w bits of n. -/
def popCount : Nat → Nat → Nat
  | 0, _ => 0
  | w + 1, n => n % 2 + popCount w (n / 2)

/-- The positions of the set bits of the low w bits of n, ascending. -/
def bitList (w n : Nat) : List Nat := (List.range w).filter fun i => bitOf n i

/-- The word whose set bits are the listed positions. -/
def ofBits (l : List Nat) : Nat := l.foldl (fun a i => a ||| 2 ^ i) 0

/-- Table read: the listed value of key k, or the default. -/
def tget {α : Type} (d : α) : Tbl α → Nat → α
  | [], _ => d
  | (k', v) :: t, k => if k = k' then v else tget d t k

/-- Table read without a default: none for a key that is not listed. -/
def tget? {α : Type} : Tbl α → Nat → Option α
  | [], _ => none
  | (k', v) :: t, k => if k = k' then some v else tget? t k

/-- Table write: keys stay strictly rising. -/
def tset {α : Type} : Tbl α → Nat → α → Tbl α
  | [], k, v => [(k, v)]
  | (k', v') :: t, k, v =>
    if k < k' then (k, v) :: (k', v') :: t
    else if k = k' then (k, v) :: t
    else (k', v') :: tset t k v

/-- Table removal: key k is no longer listed. -/
def tdel {α : Type} (t : Tbl α) (k : Nat) : Tbl α := t.filter fun p => p.1 != k

/-- The first element that satisfies p, and the list without it. -/
def takeFirst {α : Type} (p : α → Bool) : List α → Option (α × List α)
  | [] => none
  | x :: xs =>
    if p x then some (x, xs)
    else match takeFirst p xs with
      | none => none
      | some (y, ys) => some (y, x :: ys)

/-- The first element, if it satisfies p, and the rest: a stream delivers in order (R25). -/
def takeHead {α : Type} (p : α → Bool) : List α → Option (α × List α)
  | [] => none
  | x :: xs => if p x then some (x, xs) else none

/-- List element i replaced. -/
def lset {α : Type} (l : List α) (i : Nat) (v : α) : List α := l.set i v

/-- CRC of width w over a list of bytes, most significant bit first, no reflection (the CRC-16 of R168 and Table 17-4: polynomial 0x1021, initial 0xFFFF). -/
def crcStep (w poly crc byte : Nat) : Nat :=
  (List.range 8).foldl (fun c i =>
    let top := (bitOf c (w - 1)) != (bitOf byte (7 - i))
    let sh := (c * 2) % 2 ^ w
    if top then sh ^^^ poly else sh) crc

/-- CRC-16 with polynomial 0x1021 and initial value 0xFFFF over bytes in ascending order (R168). -/
def crc16 (bytes : List Nat) : Nat := bytes.foldl (crcStep 16 0x1021) 0xFFFF

/-- The little-endian value of a list of bytes (R6). -/
def leValue : List Nat → Nat
  | [] => 0
  | b :: bs => b % 256 + 256 * leValue bs

/-- The n little-endian bytes of a value (R6). -/
def leBytes : Nat → Nat → List Nat
  | 0, _ => []
  | n + 1, v => v % 256 :: leBytes n (v / 256)

/-- RFC 1982 comparison of 32-bit serial numbers: a is greater than b. -/
def serialGt (a b : Nat) : Bool :=
  let d := (a + 2 ^ 32 - b % 2 ^ 32) % 2 ^ 32
  decide (0 < d ∧ d < 2 ^ 31)

end Sys2Proof.Machine
end

