-- ==== Sys2Proof/Machine/Crypto.lean ====
section
/-! DEFINITION. Machine/Crypto.lean: the standards that the block supports by name (R12, Table 0-4): SHA-256 (FIPS 180-4), ECDSA P-256 verification (FIPS 186-5), AES-CMAC
with 128-bit keys (NIST SP 800-38B), CRC-32, and the CRC-8 of SMBus. The constants are those of the standards (PRESUMED, log entry 6). -/
namespace Sys2Proof.Machine

/-! ### SHA-256 -/

/-- No divisor of n from 2 on: n is a prime (n above 1). -/
def isPrime (n : Nat) : Bool := decide (2 ≤ n) && (List.range n).all fun d => d < 2 || n % d != 0

/-- FIPS 180-4 takes its words from the first primes: the 64 primes up to 311. -/
def firstPrimes : List Nat := (List.range 312).filter isPrime

/-- The first 32 bits of the fractional part of the k-th root of p. -/
def rootWord (k p : Nat) : Nat := rootBits k (p * 2 ^ (32 * k)) 37 0 % 2 ^ 32

/-- The round constants: from the cube roots of the first 64 primes. -/
def shaRoundWords : List Nat := firstPrimes.map (rootWord 3)

/-- The initial hash value: from the square roots of the first eight primes. -/
def shaStart : List Nat := (firstPrimes.take 8).map (rootWord 2)

def rotr32 (x n : Nat) : Nat := (x / 2 ^ n ||| x * 2 ^ (32 - n)) % 2 ^ 32
def not32 (x : Nat) : Nat := 2 ^ 32 - 1 - x % 2 ^ 32

/-- The big-endian value of a list of bytes. -/
def beValue (l : List Nat) : Nat := l.foldl (fun a b => a * 256 + b % 256) 0

/-- The n big-endian bytes of a value. -/
def beBytes (n v : Nat) : List Nat := (leBytes n v).reverse

/-- The message schedule: the last 16 words, newest last, extended n times. -/
def shaSched : Nat → List Nat → List Nat
  | 0, w => w
  | n + 1, w =>
    let k := w.length
    let g := fun i => w.getD (k - i) 0
    let s0 := rotr32 (g 15) 7 ^^^ rotr32 (g 15) 18 ^^^ (g 15 / 2 ^ 3)
    let s1 := rotr32 (g 2) 17 ^^^ rotr32 (g 2) 19 ^^^ (g 2 / 2 ^ 10)
    shaSched n (w ++ [(g 16 + s0 + g 7 + s1) % 2 ^ 32])

def shaRound (v : List Nat) (kw : Nat × Nat) : List Nat :=
  let x := fun i => v.getD i 0
  let s1 := rotr32 (x 4) 6 ^^^ rotr32 (x 4) 11 ^^^ rotr32 (x 4) 25
  let ch := (x 4 &&& x 5) ^^^ (not32 (x 4) &&& x 6)
  let t1 := x 7 + s1 + ch + kw.1 + kw.2
  let s0 := rotr32 (x 0) 2 ^^^ rotr32 (x 0) 13 ^^^ rotr32 (x 0) 22
  let maj := (x 0 &&& x 1) ^^^ (x 0 &&& x 2) ^^^ (x 1 &&& x 2)
  [(t1 + s0 + maj) % 2 ^ 32, x 0, x 1, x 2, (x 3 + t1) % 2 ^ 32, x 4, x 5, x 6]

/-- Groups of n elements; fuel bounds the number of groups. -/
def chunks (n : Nat) : Nat → List Nat → List (List Nat)
  | 0, _ => []
  | k + 1, l => if l.isEmpty then [] else l.take n :: chunks n k (l.drop n)

def shaBlock (h block : List Nat) : List Nat :=
  let w := shaSched 48 ((chunks 4 16 block).map beValue)
  let v := (shaRoundWords.zip w).foldl shaRound h
  (h.zip v).map fun p => (p.1 + p.2) % 2 ^ 32

def shaPad (n : Nat) : List Nat := 0x80 :: (List.replicate ((119 - n % 64) % 64) 0 ++ beBytes 8 (8 * n))

/-- SHA-256 of a list of bytes, as 32 bytes. -/
def sha256 (msg : List Nat) : List Nat :=
  let m := msg ++ shaPad msg.length
  ((chunks 64 (m.length / 64) m).foldl shaBlock shaStart).flatMap (beBytes 4)

/-! ### P-256 -/

def p256p : Nat := 0xffffffff00000001000000000000000000000000ffffffffffffffffffffffff
def p256b : Nat := 0x5ac635d8aa3a93e7b3ebbd55769886bc651d06b0cc53b0f63bce3c3e27d2604b
def p256n : Nat := 0xffffffff00000000ffffffffffffffffbce6faada7179e84f3b9cac2fc632551
def p256gx : Nat := 0x6b17d1f2e12c4247f8bce6e563a440f277037d812deb33a0f4a13945d898c296
def p256gy : Nat := 0x4fe342e2fe1a7f9b8ee7eb4a7c0f9e162bce33576b315ececbb6406837bf51f5

/-- b ^ e mod m over the low k bits of e. -/
def powMod (m : Nat) : Nat → Nat → Nat → Nat
  | 0, _, _ => 1 % m
  | k + 1, b, e =>
    let r := powMod m k (b * b % m) (e / 2)
    if e % 2 = 1 then r * b % m else r

/-- The inverse modulo a prime m below 2^256. -/
def invMod (m a : Nat) : Nat := powMod m 256 (a % m) (m - 2)

/-- Q is a point of P-256: y² = x³ − 3x + b. -/
def onCurve (x y : Nat) : Bool :=
  decide (x < p256p ∧ y < p256p) && (y * y % p256p == (x * x % p256p * x + 3 * (p256p - x) + p256b) % p256p)

/-- Point addition in affine coordinates; none is the point at infinity. -/
def ecAdd (a b : Option (Nat × Nat)) : Option (Nat × Nat) :=
  match a, b with
  | none, q => q
  | q, none => q
  | some (x1, y1), some (x2, y2) =>
    if x1 = x2 ∧ (y1 + y2) % p256p = 0 then none
    else
      let l := if x1 = x2 then (3 * (x1 * x1) + 3 * (p256p - 1)) % p256p * invMod p256p (2 * y1) % p256p
        else (y2 + p256p - y1) % p256p * invMod p256p ((x2 + p256p - x1) % p256p) % p256p
      let x3 := (l * l + 2 * p256p - x1 - x2) % p256p
      some (x3, (l * ((x1 + p256p - x3) % p256p) + p256p - y1) % p256p)

/-- k · P over the low n bits of k. -/
def ecMul : Nat → Nat → Option (Nat × Nat) → Option (Nat × Nat)
  | 0, _, _ => none
  | n + 1, k, q =>
    let r := ecMul n (k / 2) (ecAdd q q)
    if k % 2 = 1 then ecAdd r q else r

/-- ECDSA verification of (r, s) over a 256-bit digest with key (qx, qy) (FIPS 186-5). -/
def ecdsaVerify (qx qy e r s : Nat) : Bool :=
  if r = 0 ∨ p256n ≤ r ∨ s = 0 ∨ p256n ≤ s then false
  else
    let w := invMod p256n s
    match ecAdd (ecMul 256 (e * w % p256n) (some (p256gx, p256gy))) (ecMul 256 (r * w % p256n) (some (qx, qy))) with
    | none => false
    | some (x, _) => x % p256n == r

/-! ### AES-128 and CMAC -/

/-- Multiplication by x in GF(2^8) modulo x⁸ + x⁴ + x³ + x + 1. -/
def gfX (a : Nat) : Nat := if 128 ≤ a then (a * 2 ^^^ 0x11B) % 256 else a * 2

/-- The S-box of FIPS 197, entry a in bits 8a + 7 to 8a, in four parts of 64 entries. -/
def aesBox : Nat :=
  0x75b227ebe28012079a059618c323c7041531d871f1e5a534ccf73f362693fdb7c072a49cafa2d4adf04759fa7dc982ca76abd7fe2b670130c56f6bf27b777c63 +
  0xd2f3ff1021dab6bcf5389d928f40a351a89f3c507f02f94585334d43fbaaefd0cf584c4a39becb6a5bb1fc20ed00d153842fe329b3d63b52a05a6e1b1a2c8309 * 2 ^ 512 +
  0x8ae7a65eaf4566ca94ed58d6d37c8e779e4959162acd3c25c2406490a3a32e0db0b5ede14b8ee4688902a22dc4f816073195d643d7ea7c41744975fec130ccd * 2 ^ 1024 +
  0x16bb54b00f2d99416842e6bf0d89a18cdf2855cee9871e9b948ed9691198f8e19e1dc186b95735610ef6034866b53e708a8bbd4b1f74dde8c6b4a61c2e2578ba * 2 ^ 1536

def aesSub (a : Nat) : Nat := aesBox / 2 ^ (8 * (a % 256)) % 256

def xorL (a b : List Nat) : List Nat := (a.zip b).map fun p => p.1 ^^^ p.2

/-- One step of the key schedule: the next 16 bytes from the last 16 and the round constant. -/
def aesNextKey (k : List Nat) (rc : Nat) : List Nat :=
  let g := fun i => k.getD i 0
  let t := [aesSub (g 13) ^^^ rc, aesSub (g 14), aesSub (g 15), aesSub (g 12)]
  let w0 := xorL (k.take 4) t
  let w1 := xorL ((k.drop 4).take 4) w0
  let w2 := xorL ((k.drop 8).take 4) w1
  w0 ++ w1 ++ w2 ++ xorL ((k.drop 12).take 4) w2

def shiftRows (s : List Nat) : List Nat := (List.range 16).map fun i => s.getD ((i + 4 * (i % 4)) % 16) 0

def mixColumns (s : List Nat) : List Nat := (List.range 16).map fun i =>
  let c := i / 4 * 4
  let g := fun j => s.getD (c + (i + j) % 4) 0
  gfX (g 0) ^^^ (gfX (g 1) ^^^ g 1) ^^^ g 2 ^^^ g 3

/-- Rounds 1 to 10 of AES-128: the state and the key of the round before. -/
def aesRounds : Nat → Nat → List Nat → List Nat → List Nat
  | 0, _, _, s => s
  | n + 1, rc, k, s =>
    let k1 := aesNextKey k rc
    let t := shiftRows (s.map aesSub)
    aesRounds n (gfX rc) k1 (xorL (if n = 0 then t else mixColumns t) k1)

/-- AES-128 encryption of one block. -/
def aes128 (key block : List Nat) : List Nat := aesRounds 10 1 key (xorL block key)

/-- The CMAC subkey step: doubling in GF(2^128). -/
def cmacDbl (l : List Nat) : List Nat :=
  let v := beValue l
  beBytes 16 ((v * 2 % 2 ^ 128) ^^^ (if 2 ^ 127 ≤ v then 0x87 else 0))

/-- AES-CMAC (SP 800-38B), the tag truncated to its 64 most significant bits (Table 0-4), as 8 bytes. -/
def cmac64 (key msg : List Nat) : List Nat :=
  let k1 := cmacDbl (aes128 key (List.replicate 16 0))
  let k2 := cmacDbl k1
  let n := max 1 ((msg.length + 15) / 16)
  let body := msg.take (16 * (n - 1))
  let last := msg.drop (16 * (n - 1))
  let lastB := if last.length = 16 then xorL last k1 else xorL (last ++ 0x80 :: List.replicate (15 - last.length) 0) k2
  let x := (chunks 16 n body).foldl (fun c b => aes128 key (xorL c b)) (List.replicate 16 0)
  (aes128 key (xorL x lastB)).take 8

/-! ### CRC-32 -/

/-- One byte of the reflected CRC-32 with polynomial 0xEDB88320 (R273). -/
def crc32Step (crc byte : Nat) : Nat :=
  (List.range 8).foldl (fun c _ => if c % 2 = 1 then c / 2 ^^^ 0xEDB88320 else c / 2) (crc ^^^ byte)

/-- CRC-32 over bytes in ascending order: initial value and final XOR 0xFFFF_FFFF (R273). -/
def crc32 (bytes : List Nat) : Nat := bytes.foldl crc32Step 0xFFFFFFFF ^^^ 0xFFFFFFFF

/-- The packet error code of SMBus: CRC-8 with polynomial x⁸ + x² + x + 1, initial value 0 (R12, R416). -/
def pec8 (bytes : List Nat) : Nat := bytes.foldl (crcStep 8 7) 0

end Sys2Proof.Machine
end

