-- ==== Sys2Proof/Config.lean ====
section
/-! DEFINITION. Config.lean: what the spec leaves open, as constants without a body. -/
namespace Sys2Proof

/-- The source of free values: an unconstrained function of the number of values drawn before (DESIGN CHOICE, log entry 2). -/
opaque Config.freeValue : Nat → W64

/-- R159: the order of operations of the FP32 path is left to the implementation; the delivered code may lie 1 below, on or above the rounded value. The arguments are
P0, E, V, A, J and the tick number, on which alone the codes depend (log entry 5). -/
opaque Config.profileSkew : Nat → Nat → Nat → Nat → Nat → Nat → Nat

/-- The real that the budget controller's exact steps take for a FP32 value that is not finite: the spec states none (log entry 11). -/
opaque Config.nonFinite : BitVec 32 → Int

/-- R253: how far the vector post-processor's result of a function (2 sigmoid, 3 tanh) of a FP32 value lies from the exact value before its rounding to FP16, in units of 2^-64; the
model takes it within the bound of 2^-11 (log entry 12). -/
opaque Config.activationOffset : Nat → Nat → BitVec 64

/-- Whether the activations of a layer with INT4 weights enter the lanes as INT4, or as INT8: the spec does not say (log entry 13). -/
opaque Config.int4Activations : Bool

end Sys2Proof
end

