-- ==== Sys2Proof/Machine/Regs.lean ====
section
/-! DEFINITION. Machine/Regs.lean: the register map of the block (spec/19_register_map.md, Tables 19-1 and 19-6 to 19-11) and the field tables of every
chapter: one address per register, one name per field, and one row per register with its access masks (Table 0-3) and its reset value. -/
namespace Sys2Proof.Machine

/-- A field of a register: the register's 26-bit byte address and the bit range [hi:lo] (R6). -/
structure Fld where
  addr : Nat
  hi : Nat
  lo : Nat
deriving DecidableEq, Repr

/-- The registers of Tables 19-6 to 19-11 by name (R406). -/
inductive RName where
  | RZ_ID | RZ_ISLAND_PROBE | RZ_ISLAND_CYCLES | RZ_ISLAND_SEQ | RZ_ISLAND_RST | RZ_IBUS_OPT
  | RZ_IBUS_STAT | RZ_BRIDGE_CMD | RZ_TOPK_CTRL | RZ_TOPK_RES | RZ_PRIV_STAT | RZ_PERF_CTRL
  | RZ_PERF_STAT | RZ_DEGRADE | RZ_SAG_CFG | RZ_HARD_STAT | RZ_NEAR_MISS | RZ_PAIR_CFG
  | RZ_PAIR_STAT | RZ_FLT_STAT | RZ_FLT_FIRST | RZ_FLT_CTRL | RZ_FLT_LIVE | RZ_FLT_LAST
  | RZ_FLT_NVM | RZ_FLT_CFG | RZ_FLT_UNIT | FC_TARGET | FC_LOAD_SRC | FC_LOAD_CMD
  | FC_PUSH_DATA | FC_PUSH_CMD | AD_CFG | AD_NBR_CFG | AD_STAT | AD_CONV_CFG
  | AD_CONV_TRIG | AD_CONV_STAT | AD_WIN_CFG | AD_WIN_OUT | AD_WIN_EVT | AD_DMA_CFG
  | AD_DMA_WR | AD_DMA_RD | AD_DMA_STAT | AD_LCAL_CFG | AD_LCAL_CMD | AD_LCAL_STAT
  | AD_RET_CLASS | AD_RET_DOM | TH_CFG | TH_STAT | TH_BAND | TH_REM_CFG
  | TH_REM_STAT | TH_SENS | TH_SCAL | VP_STAGE | VP_STAGE_CMD | VP_GRP_PWM
  | VP_GRP_LOOP | VP_GRP_LIM | VP_GRP_LL | VP_VID | VP_GRP_STAT | VP_VIN_CFG
  | VP_VIN_STAT | VP_SYNC_STAT | VP_LASTF | VP_LASTF_STAT | BG_CTRL | BG_CAP
  | BG_EST_CFG | BG_STAT | BG_POWER | BG_RHO | BG_REP_CFG | BG_REP_STAT
  | BG_ENERGY | BG_JOB_STAT | FH_CTRL | FH_STAT | FH_CFG | FH_NLMS_CFG
  | FH_MODEL_CMD | FH_MODEL_STAT | FH_HINT_STAT | FH_ARITH_STAT | FH_FROND | MT_LANE_CFG
  | MT_LANE_STAT | MT_LANE_FEC | MT_UID | MT_ID_CFG | MT_ID_STAT | MT_MEM_CFG
  | MT_KEY_LO | MT_KEY_HI | MT_KEY_CMD | MT_SEC_STAT | MT_ROUTE_STAT | MT_RA_CFG
  | MT_CAP_DST | MT_SITE | MT_PMAT | MT_GRP_CFG | MT_GRP_MGR | MT_GRP_MEM
  | MT_GRP_STAT | MS_BANK | MS_CFG | MS_STAT | MS_Q_SEL | MS_Q_STAT
  | MS_CONFLICT | NV_BOOT_STAT | NV_IMAGE_ID | NV_UPD_ADDR | NV_UPD_CMD | NV_AGE_CFG
  | NV_AGE_CMD | NV_AGE_STAT | NV_LIFE_STAT | NV_READ_CMD | FR_CORE_CTRL | FR_CORE_STAT
  | FR_SAMPLE_CFG | FR_PHASE_MASK | FR_SCHED_STAT | FR_SLOT_COUNT | FR_PROG_STAT | FR_PROG_CTRL
  | FR_BRIDGE_STAT | FR_GUARD_CFG | FR_GUARD_STAT | FR_LAW_CFG | FR_LAW_STAT | FR_INJ_CFG
  | FR_INJ_STAT | FR_SAT_CFG | FR_RAIL_CMD | FR_SETPOINT | FR_PROF_CFG | FR_SS_CFG
  | FR_RAIL_STAT | FR_OPP_CFG | FR_FMAX | FR_GROUP | FR_SCALAR | FR_PHASE_HEALTH
  | FR_DEGRADE_CFG | FR_GOV_CFG | FR_GOV_STAT | FR_LEAF_CAL | FR_VSNS_CAL | FR_LEAF_STAT
  | FR_CANARY | FR_AGE_SHIFT | FR_AGE_STAT | FR_IMEM | FR_CAP
deriving DecidableEq, Repr

/-- One row of the register index: name, offset from the block base, stride and count of an indexed register, the masks of its RW, W1C, RC and WO bits, and the
reset value of its field table. A reset that the field table does not give as a number (an index-dependent one) is 0 here and is added by `rowReset`. -/
structure RegRow where
  name : RName
  off : Nat
  stride : Nat
  cnt : Nat
  rw : Nat
  w1c : Nat
  rc : Nat
  wo : Nat
  rst : Nat
deriving DecidableEq, Repr

/-- RZ_ID, spec/19_register_map.md. -/
abbrev RZ_ID : Nat := 0x0
abbrev RZ_ID_FAMILY : Fld := ⟨RZ_ID, 15, 0⟩
abbrev RZ_ID_F : Fld := ⟨RZ_ID, 22, 16⟩
abbrev RZ_ID_P : Fld := ⟨RZ_ID, 29, 24⟩
abbrev RZ_ID_W : Fld := ⟨RZ_ID, 35, 32⟩
abbrev RZ_ID_STEPPING : Fld := ⟨RZ_ID, 47, 40⟩
/-- RZ_ISLAND_PROBE, spec/01_architecture.md. -/
abbrev RZ_ISLAND_PROBE : Nat := 0x100
abbrev RZ_ISLAND_PROBE_ISLAND : Fld := ⟨RZ_ISLAND_PROBE, 7, 0⟩
abbrev RZ_ISLAND_PROBE_STREAM : Fld := ⟨RZ_ISLAND_PROBE, 12, 8⟩
abbrev RZ_ISLAND_PROBE_STALE : Fld := ⟨RZ_ISLAND_PROBE, 62, 62⟩
abbrev RZ_ISLAND_PROBE_BUSY : Fld := ⟨RZ_ISLAND_PROBE, 63, 63⟩
/-- RZ_ISLAND_CYCLES, spec/01_architecture.md. -/
abbrev RZ_ISLAND_CYCLES : Nat := 0x108
abbrev RZ_ISLAND_CYCLES_CYCLES : Fld := ⟨RZ_ISLAND_CYCLES, 63, 0⟩
/-- RZ_ISLAND_SEQ, spec/01_architecture.md. -/
abbrev RZ_ISLAND_SEQ : Nat := 0x110
abbrev RZ_ISLAND_SEQ_SEQ_OUT : Fld := ⟨RZ_ISLAND_SEQ, 31, 0⟩
abbrev RZ_ISLAND_SEQ_SEQ_GAPS : Fld := ⟨RZ_ISLAND_SEQ, 47, 32⟩
abbrev RZ_ISLAND_SEQ_SENT : Fld := ⟨RZ_ISLAND_SEQ, 48, 48⟩
/-- RZ_ISLAND_RST, spec/19_register_map.md. -/
abbrev RZ_ISLAND_RST : Nat := 0x118
abbrev RZ_ISLAND_RST_ISLAND : Fld := ⟨RZ_ISLAND_RST, 7, 0⟩
abbrev RZ_ISLAND_RST_GO : Fld := ⟨RZ_ISLAND_RST, 12, 12⟩
abbrev RZ_ISLAND_RST_RESULT : Fld := ⟨RZ_ISLAND_RST, 19, 16⟩
abbrev RZ_ISLAND_RST_BUSY : Fld := ⟨RZ_ISLAND_RST, 63, 63⟩
/-- RZ_IBUS_OPT, spec/02_power_path.md. -/
abbrev RZ_IBUS_OPT : Nat := 0x200
abbrev RZ_IBUS_OPT_EN : Fld := ⟨RZ_IBUS_OPT, 0, 0⟩
abbrev RZ_IBUS_OPT_HOLD_FCST : Fld := ⟨RZ_IBUS_OPT, 1, 1⟩
abbrev RZ_IBUS_OPT_D_HIGH : Fld := ⟨RZ_IBUS_OPT, 15, 8⟩
abbrev RZ_IBUS_OPT_D_LOW : Fld := ⟨RZ_IBUS_OPT, 23, 16⟩
abbrev RZ_IBUS_OPT_STEP_UP : Fld := ⟨RZ_IBUS_OPT, 27, 24⟩
abbrev RZ_IBUS_OPT_STEP_DN : Fld := ⟨RZ_IBUS_OPT, 31, 28⟩
abbrev RZ_IBUS_OPT_V_MIN : Fld := ⟨RZ_IBUS_OPT, 38, 32⟩
abbrev RZ_IBUS_OPT_V_MAX : Fld := ⟨RZ_IBUS_OPT, 46, 40⟩
abbrev RZ_IBUS_OPT_PERIOD : Fld := ⟨RZ_IBUS_OPT, 49, 48⟩
/-- RZ_IBUS_STAT, spec/02_power_path.md. -/
abbrev RZ_IBUS_STAT : Nat := 0x208
abbrev RZ_IBUS_STAT_TARGET : Fld := ⟨RZ_IBUS_STAT, 6, 0⟩
abbrev RZ_IBUS_STAT_DHI : Fld := ⟨RZ_IBUS_STAT, 15, 8⟩
abbrev RZ_IBUS_STAT_DHI_FROND : Fld := ⟨RZ_IBUS_STAT, 21, 16⟩
abbrev RZ_IBUS_STAT_HOLD : Fld := ⟨RZ_IBUS_STAT, 24, 24⟩
abbrev RZ_IBUS_STAT_RAISES : Fld := ⟨RZ_IBUS_STAT, 47, 32⟩
abbrev RZ_IBUS_STAT_LOWERS : Fld := ⟨RZ_IBUS_STAT, 63, 48⟩
/-- RZ_BRIDGE_CMD, spec/02_power_path.md. -/
abbrev RZ_BRIDGE_CMD : Nat := 0x300
abbrev RZ_BRIDGE_CMD_FROND : Fld := ⟨RZ_BRIDGE_CMD, 5, 0⟩
abbrev RZ_BRIDGE_CMD_DIR : Fld := ⟨RZ_BRIDGE_CMD, 8, 8⟩
abbrev RZ_BRIDGE_CMD_OP : Fld := ⟨RZ_BRIDGE_CMD, 13, 12⟩
abbrev RZ_BRIDGE_CMD_RESULT : Fld := ⟨RZ_BRIDGE_CMD, 19, 16⟩
abbrev RZ_BRIDGE_CMD_BUSY : Fld := ⟨RZ_BRIDGE_CMD, 63, 63⟩
/-- RZ_TOPK_CTRL, spec/05_arithmetic.md. -/
abbrev RZ_TOPK_CTRL : Nat := 0x400
abbrev RZ_TOPK_CTRL_METRIC : Fld := ⟨RZ_TOPK_CTRL, 3, 0⟩
abbrev RZ_TOPK_CTRL_DIR : Fld := ⟨RZ_TOPK_CTRL, 4, 4⟩
abbrev RZ_TOPK_CTRL_EXCL : Fld := ⟨RZ_TOPK_CTRL, 5, 5⟩
abbrev RZ_TOPK_CTRL_GO : Fld := ⟨RZ_TOPK_CTRL, 8, 8⟩
abbrev RZ_TOPK_CTRL_ABORTED : Fld := ⟨RZ_TOPK_CTRL, 62, 62⟩
abbrev RZ_TOPK_CTRL_BUSY : Fld := ⟨RZ_TOPK_CTRL, 63, 63⟩
/-- RZ_TOPK_RES_n, spec/05_arithmetic.md. -/
abbrev RZ_TOPK_RES (i : Nat) : Nat := 0x408 + 8 * i
abbrev RZ_TOPK_RES_VALUE (i : Nat) : Fld := ⟨RZ_TOPK_RES i, 31, 0⟩
abbrev RZ_TOPK_RES_POS (i : Nat) : Fld := ⟨RZ_TOPK_RES i, 42, 32⟩
abbrev RZ_TOPK_RES_VALID (i : Nat) : Fld := ⟨RZ_TOPK_RES i, 63, 63⟩
/-- RZ_PRIV_STAT, spec/07_setpoints_profiles.md. -/
abbrev RZ_PRIV_STAT : Nat := 0x500
abbrev RZ_PRIV_STAT_CRC_OK : Fld := ⟨RZ_PRIV_STAT, 0, 0⟩
abbrev RZ_PRIV_STAT_APPLIED : Fld := ⟨RZ_PRIV_STAT, 12, 8⟩
abbrev RZ_PRIV_STAT_BAD : Fld := ⟨RZ_PRIV_STAT, 20, 16⟩
abbrev RZ_PRIV_STAT_HOT : Fld := ⟨RZ_PRIV_STAT, 24, 24⟩
/-- RZ_PERF_CTRL, spec/07_setpoints_profiles.md. -/
abbrev RZ_PERF_CTRL : Nat := 0x520
abbrev RZ_PERF_CTRL_MODE : Fld := ⟨RZ_PERF_CTRL, 1, 0⟩
abbrev RZ_PERF_CTRL_FFIX : Fld := ⟨RZ_PERF_CTRL, 15, 8⟩
abbrev RZ_PERF_CTRL_RHO_SET : Fld := ⟨RZ_PERF_CTRL, 26, 16⟩
abbrev RZ_PERF_CTRL_FB_MS : Fld := ⟨RZ_PERF_CTRL, 39, 32⟩
abbrev RZ_PERF_CTRL_RET_10MS : Fld := ⟨RZ_PERF_CTRL, 47, 40⟩
/-- RZ_PERF_STAT, spec/07_setpoints_profiles.md. -/
abbrev RZ_PERF_STAT : Nat := 0x528
abbrev RZ_PERF_STAT_STATE : Fld := ⟨RZ_PERF_STAT, 1, 0⟩
abbrev RZ_PERF_STAT_CAUSE : Fld := ⟨RZ_PERF_STAT, 3, 2⟩
abbrev RZ_PERF_STAT_SHORT : Fld := ⟨RZ_PERF_STAT, 4, 4⟩
abbrev RZ_PERF_STAT_RHO : Fld := ⟨RZ_PERF_STAT, 26, 16⟩
abbrev RZ_PERF_STAT_FALLBACKS : Fld := ⟨RZ_PERF_STAT, 47, 32⟩
abbrev RZ_PERF_STAT_RETURNS : Fld := ⟨RZ_PERF_STAT, 63, 48⟩
/-- RZ_DEGRADE, spec/08_hard_cases.md. -/
abbrev RZ_DEGRADE : Nat := 0x600
abbrev RZ_DEGRADE_AUTO_BRIDGE : Fld := ⟨RZ_DEGRADE, 0, 0⟩
abbrev RZ_DEGRADE_DRAIN_TIMEOUT : Fld := ⟨RZ_DEGRADE, 15, 8⟩
abbrev RZ_DEGRADE_DRAIN_I : Fld := ⟨RZ_DEGRADE, 23, 16⟩
abbrev RZ_DEGRADE_HOLD_MAX : Fld := ⟨RZ_DEGRADE, 29, 24⟩
/-- RZ_SAG_CFG, spec/08_hard_cases.md. -/
abbrev RZ_SAG_CFG : Nat := 0x608
abbrev RZ_SAG_CFG_V_SAG : Fld := ⟨RZ_SAG_CFG, 7, 0⟩
abbrev RZ_SAG_CFG_V_DEEP : Fld := ⟨RZ_SAG_CFG, 15, 8⟩
abbrev RZ_SAG_CFG_HYST : Fld := ⟨RZ_SAG_CFG, 23, 16⟩
abbrev RZ_SAG_CFG_FILT : Fld := ⟨RZ_SAG_CFG, 31, 24⟩
abbrev RZ_SAG_CFG_SAG_ISSUE : Fld := ⟨RZ_SAG_CFG, 38, 32⟩
abbrev RZ_SAG_CFG_RELEASE : Fld := ⟨RZ_SAG_CFG, 47, 40⟩
/-- RZ_HARD_STAT, spec/08_hard_cases.md. -/
abbrev RZ_HARD_STAT : Nat := 0x610
abbrev RZ_HARD_STAT_SAG : Fld := ⟨RZ_HARD_STAT, 1, 0⟩
abbrev RZ_HARD_STAT_CAP_UNREACHABLE : Fld := ⟨RZ_HARD_STAT, 2, 2⟩
abbrev RZ_HARD_STAT_LADDER : Fld := ⟨RZ_HARD_STAT, 5, 3⟩
abbrev RZ_HARD_STAT_EST_CHIP : Fld := ⟨RZ_HARD_STAT, 7, 6⟩
abbrev RZ_HARD_STAT_EST_FRONDS : Fld := ⟨RZ_HARD_STAT, 14, 8⟩
abbrev RZ_HARD_STAT_SAGS : Fld := ⟨RZ_HARD_STAT, 47, 32⟩
abbrev RZ_HARD_STAT_DARKED : Fld := ⟨RZ_HARD_STAT, 63, 48⟩
/-- RZ_NEAR_MISS, spec/08_hard_cases.md. -/
abbrev RZ_NEAR_MISS : Nat := 0x618
abbrev RZ_NEAR_MISS_COUNT : Fld := ⟨RZ_NEAR_MISS, 31, 0⟩
abbrev RZ_NEAR_MISS_LAST_ISLAND : Fld := ⟨RZ_NEAR_MISS, 39, 32⟩
abbrev RZ_NEAR_MISS_LAST_KIND : Fld := ⟨RZ_NEAR_MISS, 43, 40⟩
/-- RZ_PAIR_CFG, spec/17_startup_image.md. -/
abbrev RZ_PAIR_CFG : Nat := 0x700
abbrev RZ_PAIR_CFG_ACK_TO : Fld := ⟨RZ_PAIR_CFG, 7, 0⟩
abbrev RZ_PAIR_CFG_RESYNC_EN : Fld := ⟨RZ_PAIR_CFG, 8, 8⟩
/-- RZ_PAIR_STAT, spec/17_startup_image.md. -/
abbrev RZ_PAIR_STAT : Nat := 0x708
abbrev RZ_PAIR_STAT_ACTIVE : Fld := ⟨RZ_PAIR_STAT, 0, 0⟩
abbrev RZ_PAIR_STAT_SYNC : Fld := ⟨RZ_PAIR_STAT, 1, 1⟩
abbrev RZ_PAIR_STAT_RESYNC : Fld := ⟨RZ_PAIR_STAT, 2, 2⟩
abbrev RZ_PAIR_STAT_TAKEOVER : Fld := ⟨RZ_PAIR_STAT, 3, 3⟩
abbrev RZ_PAIR_STAT_TAKEOVERS : Fld := ⟨RZ_PAIR_STAT, 31, 16⟩
abbrev RZ_PAIR_STAT_ACK_TIMEOUTS : Fld := ⟨RZ_PAIR_STAT, 47, 32⟩
abbrev RZ_PAIR_STAT_DIGEST_FAILS : Fld := ⟨RZ_PAIR_STAT, 63, 48⟩
/-- RZ_FLT_STAT_j, spec/15_faults.md. -/
abbrev RZ_FLT_STAT (i : Nat) : Nat := 0x1000 + 8 * i
abbrev RZ_FLT_STAT_STAT (i : Nat) : Fld := ⟨RZ_FLT_STAT i, 63, 0⟩
/-- RZ_FLT_FIRST, spec/15_faults.md. -/
abbrev RZ_FLT_FIRST : Nat := 0x1040
abbrev RZ_FLT_FIRST_SRC : Fld := ⟨RZ_FLT_FIRST, 7, 0⟩
abbrev RZ_FLT_FIRST_VALID : Fld := ⟨RZ_FLT_FIRST, 8, 8⟩
abbrev RZ_FLT_FIRST_OVF : Fld := ⟨RZ_FLT_FIRST, 9, 9⟩
abbrev RZ_FLT_FIRST_OVF_CNT : Fld := ⟨RZ_FLT_FIRST, 31, 16⟩
abbrev RZ_FLT_FIRST_SEQ : Fld := ⟨RZ_FLT_FIRST, 63, 32⟩
/-- RZ_FLT_CTRL, spec/15_faults.md. -/
abbrev RZ_FLT_CTRL : Nat := 0x1048
abbrev RZ_FLT_CTRL_ALIVE_THR : Fld := ⟨RZ_FLT_CTRL, 2, 0⟩
abbrev RZ_FLT_CTRL_F0_THR : Fld := ⟨RZ_FLT_CTRL, 6, 4⟩
abbrev RZ_FLT_CTRL_F1_THR : Fld := ⟨RZ_FLT_CTRL, 10, 8⟩
abbrev RZ_FLT_CTRL_NVM_THR : Fld := ⟨RZ_FLT_CTRL, 14, 12⟩
abbrev RZ_FLT_CTRL_ESC_EN : Fld := ⟨RZ_FLT_CTRL, 31, 16⟩
abbrev RZ_FLT_CTRL_CAP3_ISSUE : Fld := ⟨RZ_FLT_CTRL, 38, 32⟩
abbrev RZ_FLT_CTRL_CHIP_DRAIN : Fld := ⟨RZ_FLT_CTRL, 47, 40⟩
abbrev RZ_FLT_CTRL_ALIVE_RESTART : Fld := ⟨RZ_FLT_CTRL, 48, 48⟩
/-- RZ_FLT_LIVE, spec/15_faults.md. -/
abbrev RZ_FLT_LIVE : Nat := 0x1050
abbrev RZ_FLT_LIVE_ALIVE : Fld := ⟨RZ_FLT_LIVE, 0, 0⟩
abbrev RZ_FLT_LIVE_FAULT0 : Fld := ⟨RZ_FLT_LIVE, 1, 1⟩
abbrev RZ_FLT_LIVE_FAULT1 : Fld := ⟨RZ_FLT_LIVE, 2, 2⟩
abbrev RZ_FLT_LIVE_CHIP_DOWN : Fld := ⟨RZ_FLT_LIVE, 3, 3⟩
abbrev RZ_FLT_LIVE_MAX_LVL : Fld := ⟨RZ_FLT_LIVE, 6, 4⟩
abbrev RZ_FLT_LIVE_TESTS : Fld := ⟨RZ_FLT_LIVE, 15, 8⟩
abbrev RZ_FLT_LIVE_ESCALATIONS : Fld := ⟨RZ_FLT_LIVE, 31, 16⟩
abbrev RZ_FLT_LIVE_FAULTS : Fld := ⟨RZ_FLT_LIVE, 63, 32⟩
/-- RZ_FLT_LAST_n, spec/15_faults.md. -/
abbrev RZ_FLT_LAST (i : Nat) : Nat := 0x1080 + 8 * i
abbrev RZ_FLT_LAST_WORD (i : Nat) : Fld := ⟨RZ_FLT_LAST i, 63, 0⟩
/-- RZ_FLT_NVM, spec/15_faults.md. -/
abbrev RZ_FLT_NVM : Nat := 0x10c0
abbrev RZ_FLT_NVM_USED : Fld := ⟨RZ_FLT_NVM, 6, 0⟩
abbrev RZ_FLT_NVM_PINNED : Fld := ⟨RZ_FLT_NVM, 7, 7⟩
abbrev RZ_FLT_NVM_PENDING : Fld := ⟨RZ_FLT_NVM, 8, 8⟩
abbrev RZ_FLT_NVM_LOST : Fld := ⟨RZ_FLT_NVM, 23, 16⟩
abbrev RZ_FLT_NVM_CLEAR : Fld := ⟨RZ_FLT_NVM, 24, 24⟩
/-- RZ_FLT_CFG_i, spec/15_faults.md. -/
abbrev RZ_FLT_CFG (i : Nat) : Nat := 0x1800 + 8 * i
abbrev RZ_FLT_CFG_SEV (i : Nat) : Fld := ⟨RZ_FLT_CFG i, 2, 0⟩
abbrev RZ_FLT_CFG_CLASS (i : Nat) : Fld := ⟨RZ_FLT_CFG i, 7, 4⟩
abbrev RZ_FLT_CFG_ACT (i : Nat) : Fld := ⟨RZ_FLT_CFG i, 9, 8⟩
abbrev RZ_FLT_CFG_WIN (i : Nat) : Fld := ⟨RZ_FLT_CFG i, 31, 12⟩
abbrev RZ_FLT_CFG_FORCE (i : Nat) : Fld := ⟨RZ_FLT_CFG i, 32, 32⟩
abbrev RZ_FLT_CFG_UNIT (i : Nat) : Fld := ⟨RZ_FLT_CFG i, 38, 33⟩
abbrev RZ_FLT_CFG_UNIT_EN (i : Nat) : Fld := ⟨RZ_FLT_CFG i, 39, 39⟩
abbrev RZ_FLT_CFG_LVL (i : Nat) : Fld := ⟨RZ_FLT_CFG i, 42, 40⟩
abbrev RZ_FLT_CFG_COUNT (i : Nat) : Fld := ⟨RZ_FLT_CFG i, 63, 48⟩
/-- RZ_FLT_UNIT_i, spec/15_faults.md. -/
abbrev RZ_FLT_UNIT (i : Nat) : Nat := 0x2000 + 8 * i
abbrev RZ_FLT_UNIT_UNIT (i : Nat) : Fld := ⟨RZ_FLT_UNIT i, 63, 0⟩
/-- FC_TARGET, spec/03_frond_core.md. -/
abbrev FC_TARGET : Nat := 0x10000
abbrev FC_TARGET_FRONDS : Fld := ⟨FC_TARGET, 63, 0⟩
/-- FC_LOAD_SRC, spec/03_frond_core.md. -/
abbrev FC_LOAD_SRC : Nat := 0x10008
abbrev FC_LOAD_SRC_ADDR : Fld := ⟨FC_LOAD_SRC, 23, 0⟩
/-- FC_LOAD_CMD, spec/03_frond_core.md. -/
abbrev FC_LOAD_CMD : Nat := 0x10010
abbrev FC_LOAD_CMD_DST : Fld := ⟨FC_LOAD_CMD, 11, 0⟩
abbrev FC_LOAD_CMD_LEN : Fld := ⟨FC_LOAD_CMD, 24, 12⟩
abbrev FC_LOAD_CMD_GO : Fld := ⟨FC_LOAD_CMD, 32, 32⟩
abbrev FC_LOAD_CMD_RESULT : Fld := ⟨FC_LOAD_CMD, 39, 36⟩
abbrev FC_LOAD_CMD_BUSY : Fld := ⟨FC_LOAD_CMD, 63, 63⟩
/-- FC_PUSH_DATA, spec/03_frond_core.md. -/
abbrev FC_PUSH_DATA : Nat := 0x10018
abbrev FC_PUSH_DATA_VALUE : Fld := ⟨FC_PUSH_DATA, 63, 0⟩
/-- FC_PUSH_CMD, spec/03_frond_core.md. -/
abbrev FC_PUSH_CMD : Nat := 0x10020
abbrev FC_PUSH_CMD_INDEX : Fld := ⟨FC_PUSH_CMD, 5, 0⟩
abbrev FC_PUSH_CMD_GO : Fld := ⟨FC_PUSH_CMD, 8, 8⟩
abbrev FC_PUSH_CMD_BUSY : Fld := ⟨FC_PUSH_CMD, 63, 63⟩
/-- AD_CFG, spec/08_hard_cases.md. -/
abbrev AD_CFG : Nat := 0x20000
abbrev AD_CFG_SLOPE_MAX : Fld := ⟨AD_CFG, 7, 0⟩
abbrev AD_CFG_QMAX : Fld := ⟨AD_CFG, 19, 8⟩
abbrev AD_CFG_F_SLOPE : Fld := ⟨AD_CFG, 27, 20⟩
abbrev AD_CFG_F_CHARGE : Fld := ⟨AD_CFG, 35, 28⟩
abbrev AD_CFG_D_SLOPE : Fld := ⟨AD_CFG, 43, 36⟩
abbrev AD_CFG_D_CHARGE : Fld := ⟨AD_CFG, 51, 44⟩
abbrev AD_CFG_MAX_FRONDS : Fld := ⟨AD_CFG, 54, 52⟩
abbrev AD_CFG_HOLD : Fld := ⟨AD_CFG, 63, 55⟩
/-- AD_NBR_CFG, spec/08_hard_cases.md. -/
abbrev AD_NBR_CFG : Nat := 0x20008
abbrev AD_NBR_CFG_ILIM : Fld := ⟨AD_NBR_CFG, 7, 0⟩
abbrev AD_NBR_CFG_I_WAKE : Fld := ⟨AD_NBR_CFG, 15, 8⟩
abbrev AD_NBR_CFG_DEFER_MAX : Fld := ⟨AD_NBR_CFG, 23, 16⟩
abbrev AD_NBR_CFG_EN : Fld := ⟨AD_NBR_CFG, 24, 24⟩
/-- AD_STAT, spec/08_hard_cases.md. -/
abbrev AD_STAT : Nat := 0x20010
abbrev AD_STAT_FRONDS : Fld := ⟨AD_STAT, 2, 0⟩
abbrev AD_STAT_DEFERRING : Fld := ⟨AD_STAT, 3, 3⟩
abbrev AD_STAT_SLOPE : Fld := ⟨AD_STAT, 15, 8⟩
abbrev AD_STAT_CHARGE : Fld := ⟨AD_STAT, 27, 16⟩
abbrev AD_STAT_QUEUED : Fld := ⟨AD_STAT, 42, 32⟩
abbrev AD_STAT_DEFER_EXP : Fld := ⟨AD_STAT, 63, 48⟩
/-- AD_CONV_CFG_c, spec/10_sensing.md. -/
abbrev AD_CONV_CFG (i : Nat) : Nat := 0x20100 + 8 * i
abbrev AD_CONV_CFG_EN (i : Nat) : Fld := ⟨AD_CONV_CFG i, 0, 0⟩
abbrev AD_CONV_CFG_PAIR (i : Nat) : Fld := ⟨AD_CONV_CFG i, 1, 1⟩
abbrev AD_CONV_CFG_CH (i : Nat) : Fld := ⟨AD_CONV_CFG i, 10, 2⟩
abbrev AD_CONV_CFG_DIV (i : Nat) : Fld := ⟨AD_CONV_CFG i, 14, 11⟩
abbrev AD_CONV_CFG_CONT (i : Nat) : Fld := ⟨AD_CONV_CFG i, 15, 15⟩
abbrev AD_CONV_CFG_LEN (i : Nat) : Fld := ⟨AD_CONV_CFG i, 31, 16⟩
/-- AD_CONV_TRIG_c, spec/10_sensing.md. -/
abbrev AD_CONV_TRIG (i : Nat) : Nat := 0x20140 + 8 * i
abbrev AD_CONV_TRIG_SRC (i : Nat) : Fld := ⟨AD_CONV_TRIG i, 1, 0⟩
abbrev AD_CONV_TRIG_SEL (i : Nat) : Fld := ⟨AD_CONV_TRIG i, 7, 2⟩
abbrev AD_CONV_TRIG_EDGE (i : Nat) : Fld := ⟨AD_CONV_TRIG i, 9, 8⟩
abbrev AD_CONV_TRIG_DELAY (i : Nat) : Fld := ⟨AD_CONV_TRIG i, 28, 12⟩
abbrev AD_CONV_TRIG_TPER (i : Nat) : Fld := ⟨AD_CONV_TRIG i, 51, 32⟩
abbrev AD_CONV_TRIG_SOFT (i : Nat) : Fld := ⟨AD_CONV_TRIG i, 63, 63⟩
/-- AD_CONV_STAT_c, spec/10_sensing.md. -/
abbrev AD_CONV_STAT (i : Nat) : Nat := 0x20180 + 8 * i
abbrev AD_CONV_STAT_BUSY (i : Nat) : Fld := ⟨AD_CONV_STAT i, 0, 0⟩
abbrev AD_CONV_STAT_CONVERGED (i : Nat) : Fld := ⟨AD_CONV_STAT i, 1, 1⟩
abbrev AD_CONV_STAT_RESERVED_CAL (i : Nat) : Fld := ⟨AD_CONV_STAT i, 2, 2⟩
abbrev AD_CONV_STAT_BURSTS (i : Nat) : Fld := ⟨AD_CONV_STAT i, 31, 16⟩
abbrev AD_CONV_STAT_BUSY_DROPS (i : Nat) : Fld := ⟨AD_CONV_STAT i, 47, 32⟩
abbrev AD_CONV_STAT_SKIPPED (i : Nat) : Fld := ⟨AD_CONV_STAT i, 55, 48⟩
abbrev AD_CONV_STAT_CANCELLED (i : Nat) : Fld := ⟨AD_CONV_STAT i, 63, 56⟩
/-- AD_WIN_CFG_w, spec/10_sensing.md. -/
abbrev AD_WIN_CFG (i : Nat) : Nat := 0x20400 + 8 * i
abbrev AD_WIN_CFG_EN (i : Nat) : Fld := ⟨AD_WIN_CFG i, 0, 0⟩
abbrev AD_WIN_CFG_CONV (i : Nat) : Fld := ⟨AD_WIN_CFG i, 3, 1⟩
abbrev AD_WIN_CFG_ANYCH (i : Nat) : Fld := ⟨AD_WIN_CFG i, 4, 4⟩
abbrev AD_WIN_CFG_FAULT (i : Nat) : Fld := ⟨AD_WIN_CFG i, 5, 5⟩
abbrev AD_WIN_CFG_CH (i : Nat) : Fld := ⟨AD_WIN_CFG i, 14, 6⟩
abbrev AD_WIN_CFG_LO (i : Nat) : Fld := ⟨AD_WIN_CFG i, 27, 16⟩
abbrev AD_WIN_CFG_HI (i : Nat) : Fld := ⟨AD_WIN_CFG i, 39, 28⟩
abbrev AD_WIN_CFG_HYS (i : Nat) : Fld := ⟨AD_WIN_CFG i, 51, 40⟩
/-- AD_WIN_OUT, spec/10_sensing.md. -/
abbrev AD_WIN_OUT : Nat := 0x20600
abbrev AD_WIN_OUT_OUT : Fld := ⟨AD_WIN_OUT, 63, 0⟩
/-- AD_WIN_EVT, spec/10_sensing.md. -/
abbrev AD_WIN_EVT : Nat := 0x20608
abbrev AD_WIN_EVT_EVT : Fld := ⟨AD_WIN_EVT, 63, 0⟩
/-- AD_DMA_CFG_d, spec/10_sensing.md. -/
abbrev AD_DMA_CFG (i : Nat) : Nat := 0x20800 + 32 * i
abbrev AD_DMA_CFG_EN (i : Nat) : Fld := ⟨AD_DMA_CFG i, 0, 0⟩
abbrev AD_DMA_CFG_SRC (i : Nat) : Fld := ⟨AD_DMA_CFG i, 3, 1⟩
abbrev AD_DMA_CFG_DEST (i : Nat) : Fld := ⟨AD_DMA_CFG i, 4, 4⟩
abbrev AD_DMA_CFG_MODE (i : Nat) : Fld := ⟨AD_DMA_CFG i, 5, 5⟩
abbrev AD_DMA_CFG_SIZE_LOG (i : Nat) : Fld := ⟨AD_DMA_CFG i, 11, 8⟩
abbrev AD_DMA_CFG_BASE (i : Nat) : Fld := ⟨AD_DMA_CFG i, 39, 16⟩
abbrev AD_DMA_CFG_WM (i : Nat) : Fld := ⟨AD_DMA_CFG i, 63, 40⟩
/-- AD_DMA_WR_d, spec/10_sensing.md. -/
abbrev AD_DMA_WR (i : Nat) : Nat := 0x20808 + 32 * i
abbrev AD_DMA_WR_WR (i : Nat) : Fld := ⟨AD_DMA_WR i, 31, 0⟩
abbrev AD_DMA_WR_SEQ (i : Nat) : Fld := ⟨AD_DMA_WR i, 63, 32⟩
/-- AD_DMA_RD_d, spec/10_sensing.md. -/
abbrev AD_DMA_RD (i : Nat) : Nat := 0x20810 + 32 * i
abbrev AD_DMA_RD_RD (i : Nat) : Fld := ⟨AD_DMA_RD i, 31, 0⟩
/-- AD_DMA_STAT_d, spec/10_sensing.md. -/
abbrev AD_DMA_STAT (i : Nat) : Nat := 0x20818 + 32 * i
abbrev AD_DMA_STAT_OVF (i : Nat) : Fld := ⟨AD_DMA_STAT i, 0, 0⟩
abbrev AD_DMA_STAT_WM_HIT (i : Nat) : Fld := ⟨AD_DMA_STAT i, 1, 1⟩
abbrev AD_DMA_STAT_OWNERR (i : Nat) : Fld := ⟨AD_DMA_STAT i, 2, 2⟩
abbrev AD_DMA_STAT_TRUNC (i : Nat) : Fld := ⟨AD_DMA_STAT i, 3, 3⟩
abbrev AD_DMA_STAT_DROPS (i : Nat) : Fld := ⟨AD_DMA_STAT i, 31, 16⟩
abbrev AD_DMA_STAT_RECORDS (i : Nat) : Fld := ⟨AD_DMA_STAT i, 63, 32⟩
/-- AD_LCAL_CFG, spec/10_sensing.md. -/
abbrev AD_LCAL_CFG : Nat := 0x20c00
abbrev AD_LCAL_CFG_EN : Fld := ⟨AD_LCAL_CFG, 0, 0⟩
abbrev AD_LCAL_CFG_CONV : Fld := ⟨AD_LCAL_CFG, 3, 1⟩
abbrev AD_LCAL_CFG_W_LOG : Fld := ⟨AD_LCAL_CFG, 6, 4⟩
abbrev AD_LCAL_CFG_SPREAD : Fld := ⟨AD_LCAL_CFG, 15, 8⟩
abbrev AD_LCAL_CFG_RES_MAX : Fld := ⟨AD_LCAL_CFG, 23, 16⟩
abbrev AD_LCAL_CFG_VRES_MAX : Fld := ⟨AD_LCAL_CFG, 31, 24⟩
abbrev AD_LCAL_CFG_PERIOD : Fld := ⟨AD_LCAL_CFG, 47, 32⟩
/-- AD_LCAL_CMD, spec/10_sensing.md. -/
abbrev AD_LCAL_CMD : Nat := 0x20c08
abbrev AD_LCAL_CMD_FROND : Fld := ⟨AD_LCAL_CMD, 5, 0⟩
abbrev AD_LCAL_CMD_GO : Fld := ⟨AD_LCAL_CMD, 8, 8⟩
abbrev AD_LCAL_CMD_RESULT : Fld := ⟨AD_LCAL_CMD, 17, 16⟩
abbrev AD_LCAL_CMD_BUSY : Fld := ⟨AD_LCAL_CMD, 63, 63⟩
/-- AD_LCAL_STAT, spec/10_sensing.md. -/
abbrev AD_LCAL_STAT : Nat := 0x20c10
abbrev AD_LCAL_STAT_FROND : Fld := ⟨AD_LCAL_STAT, 5, 0⟩
abbrev AD_LCAL_STAT_ITEM : Fld := ⟨AD_LCAL_STAT, 13, 8⟩
abbrev AD_LCAL_STAT_SWEEPS : Fld := ⟨AD_LCAL_STAT, 47, 32⟩
abbrev AD_LCAL_STAT_REJECTS : Fld := ⟨AD_LCAL_STAT, 63, 48⟩
/-- AD_RET_CLASS_k, spec/13_budget_capping.md. -/
abbrev AD_RET_CLASS (i : Nat) : Nat := 0x21000 + 8 * i
abbrev AD_RET_CLASS_VRET (i : Nat) : Fld := ⟨AD_RET_CLASS i, 11, 0⟩
abbrev AD_RET_CLASS_HOT_ADJ (i : Nat) : Fld := ⟨AD_RET_CLASS i, 19, 12⟩
/-- AD_RET_DOM_n, spec/13_budget_capping.md. -/
abbrev AD_RET_DOM (i : Nat) : Nat := 0x22000 + 8 * i
abbrev AD_RET_DOM_EN (i : Nat) : Fld := ⟨AD_RET_DOM i, 0, 0⟩
abbrev AD_RET_DOM_CLASS (i : Nat) : Fld := ⟨AD_RET_DOM i, 4, 1⟩
abbrev AD_RET_DOM_STATE (i : Nat) : Fld := ⟨AD_RET_DOM i, 9, 8⟩
abbrev AD_RET_DOM_WAKES (i : Nat) : Fld := ⟨AD_RET_DOM i, 47, 16⟩
/-- TH_CFG, spec/11_thermal.md. -/
abbrev TH_CFG : Nat := 0x30000
abbrev TH_CFG_TRIP : Fld := ⟨TH_CFG, 15, 0⟩
abbrev TH_CFG_HYS : Fld := ⟨TH_CFG, 23, 16⟩
abbrev TH_CFG_UNCAL_GUARD : Fld := ⟨TH_CFG, 31, 24⟩
abbrev TH_CFG_REF_HOLD : Fld := ⟨TH_CFG, 39, 32⟩
abbrev TH_CFG_DEV : Fld := ⟨TH_CFG, 47, 40⟩
abbrev TH_CFG_DEV_RUN : Fld := ⟨TH_CFG, 55, 48⟩
/-- TH_STAT, spec/11_thermal.md. -/
abbrev TH_STAT : Nat := 0x30010
abbrev TH_STAT_HOT_BAND : Fld := ⟨TH_STAT, 2, 0⟩
abbrev TH_STAT_LIMIT : Fld := ⟨TH_STAT, 3, 3⟩
abbrev TH_STAT_TRIPPED : Fld := ⟨TH_STAT, 4, 4⟩
abbrev TH_STAT_HOT_POS : Fld := ⟨TH_STAT, 16, 8⟩
abbrev TH_STAT_HOT_READ : Fld := ⟨TH_STAT, 47, 32⟩
abbrev TH_STAT_TRIPS : Fld := ⟨TH_STAT, 63, 48⟩
/-- TH_BAND_b, spec/11_thermal.md. -/
abbrev TH_BAND (i : Nat) : Nat := 0x30100 + 8 * i
abbrev TH_BAND_T_LO (i : Nat) : Fld := ⟨TH_BAND i, 15, 0⟩
abbrev TH_BAND_REFRESH (i : Nat) : Fld := ⟨TH_BAND i, 17, 16⟩
abbrev TH_BAND_WSET (i : Nat) : Fld := ⟨TH_BAND i, 19, 18⟩
abbrev TH_BAND_GUARD (i : Nat) : Fld := ⟨TH_BAND i, 31, 20⟩
/-- TH_REM_CFG_m, spec/11_thermal.md. -/
abbrev TH_REM_CFG (i : Nat) : Nat := 0x30800 + 8 * i
abbrev TH_REM_CFG_EN (i : Nat) : Fld := ⟨TH_REM_CFG i, 0, 0⟩
abbrev TH_REM_CFG_TYPE (i : Nat) : Fld := ⟨TH_REM_CFG i, 1, 1⟩
abbrev TH_REM_CFG_ROLE (i : Nat) : Fld := ⟨TH_REM_CFG i, 3, 2⟩
abbrev TH_REM_CFG_STACK (i : Nat) : Fld := ⟨TH_REM_CFG i, 6, 4⟩
abbrev TH_REM_CFG_ETA_R0 (i : Nat) : Fld := ⟨TH_REM_CFG i, 31, 16⟩
abbrev TH_REM_CFG_RS_BETA (i : Nat) : Fld := ⟨TH_REM_CFG i, 47, 32⟩
abbrev TH_REM_CFG_RDIV (i : Nat) : Fld := ⟨TH_REM_CFG i, 63, 48⟩
/-- TH_REM_STAT_m, spec/11_thermal.md. -/
abbrev TH_REM_STAT (i : Nat) : Nat := 0x30900 + 8 * i
abbrev TH_REM_STAT_READ (i : Nat) : Fld := ⟨TH_REM_STAT i, 15, 0⟩
abbrev TH_REM_STAT_INVALID (i : Nat) : Fld := ⟨TH_REM_STAT i, 16, 16⟩
abbrev TH_REM_STAT_BAND (i : Nat) : Fld := ⟨TH_REM_STAT i, 19, 17⟩
abbrev TH_REM_STAT_RATE (i : Nat) : Fld := ⟨TH_REM_STAT i, 21, 20⟩
/-- TH_SENS_n, spec/11_thermal.md. -/
abbrev TH_SENS (i : Nat) : Nat := 0x31000 + 8 * i
abbrev TH_SENS_READ (i : Nat) : Fld := ⟨TH_SENS i, 15, 0⟩
abbrev TH_SENS_RAW (i : Nat) : Fld := ⟨TH_SENS i, 31, 16⟩
abbrev TH_SENS_BAND (i : Nat) : Fld := ⟨TH_SENS i, 34, 32⟩
abbrev TH_SENS_QUAR (i : Nat) : Fld := ⟨TH_SENS i, 35, 35⟩
abbrev TH_SENS_UNCAL (i : Nat) : Fld := ⟨TH_SENS i, 36, 36⟩
abbrev TH_SENS_RATE (i : Nat) : Fld := ⟨TH_SENS i, 38, 37⟩
abbrev TH_SENS_DEV_RUN (i : Nat) : Fld := ⟨TH_SENS i, 47, 40⟩
abbrev TH_SENS_QUARS (i : Nat) : Fld := ⟨TH_SENS i, 55, 48⟩
/-- TH_SCAL_n, spec/11_thermal.md. -/
abbrev TH_SCAL (i : Nat) : Nat := 0x32000 + 8 * i
abbrev TH_SCAL_GAIN (i : Nat) : Fld := ⟨TH_SCAL i, 15, 0⟩
abbrev TH_SCAL_OFFS (i : Nat) : Fld := ⟨TH_SCAL i, 31, 16⟩
/-- VP_STAGE_n, spec/09_vpm_stage.md. -/
abbrev VP_STAGE (i : Nat) : Nat := 0x40000 + 8 * i
abbrev VP_STAGE_GROUP (i : Nat) : Fld := ⟨VP_STAGE i, 2, 0⟩
abbrev VP_STAGE_IMG_EN (i : Nat) : Fld := ⟨VP_STAGE i, 3, 3⟩
abbrev VP_STAGE_STATE (i : Nat) : Fld := ⟨VP_STAGE i, 6, 4⟩
abbrev VP_STAGE_CAUSE (i : Nat) : Fld := ⟨VP_STAGE i, 11, 8⟩
abbrev VP_STAGE_I_AVG (i : Nat) : Fld := ⟨VP_STAGE i, 31, 16⟩
abbrev VP_STAGE_TRIM (i : Nat) : Fld := ⟨VP_STAGE i, 47, 32⟩
abbrev VP_STAGE_SC_TRIPS (i : Nat) : Fld := ⟨VP_STAGE i, 55, 48⟩
abbrev VP_STAGE_HICCUPS (i : Nat) : Fld := ⟨VP_STAGE i, 63, 56⟩
/-- VP_STAGE_CMD, spec/09_vpm_stage.md. -/
abbrev VP_STAGE_CMD : Nat := 0x40180
abbrev VP_STAGE_CMD_STAGE : Fld := ⟨VP_STAGE_CMD, 5, 0⟩
abbrev VP_STAGE_CMD_OP : Fld := ⟨VP_STAGE_CMD, 9, 8⟩
abbrev VP_STAGE_CMD_RESULT : Fld := ⟨VP_STAGE_CMD, 15, 12⟩
abbrev VP_STAGE_CMD_BUSY : Fld := ⟨VP_STAGE_CMD, 63, 63⟩
/-- VP_GRP_PWM_g, spec/09_vpm_stage.md. -/
abbrev VP_GRP_PWM (i : Nat) : Nat := 0x40400 + 8 * i
abbrev VP_GRP_PWM_PERIOD (i : Nat) : Fld := ⟨VP_GRP_PWM i, 15, 0⟩
abbrev VP_GRP_PWM_SYNC_EN (i : Nat) : Fld := ⟨VP_GRP_PWM i, 16, 16⟩
abbrev VP_GRP_PWM_SDIV (i : Nat) : Fld := ⟨VP_GRP_PWM i, 18, 17⟩
abbrev VP_GRP_PWM_PHASE (i : Nat) : Fld := ⟨VP_GRP_PWM i, 31, 24⟩
/-- VP_GRP_LOOP_g, spec/09_vpm_stage.md. -/
abbrev VP_GRP_LOOP (i : Nat) : Nat := 0x40440 + 8 * i
abbrev VP_GRP_LOOP_KP (i : Nat) : Fld := ⟨VP_GRP_LOOP i, 15, 0⟩
abbrev VP_GRP_LOOP_KI (i : Nat) : Fld := ⟨VP_GRP_LOOP i, 31, 16⟩
abbrev VP_GRP_LOOP_DMAX (i : Nat) : Fld := ⟨VP_GRP_LOOP i, 39, 32⟩
abbrev VP_GRP_LOOP_SLEW (i : Nat) : Fld := ⟨VP_GRP_LOOP i, 47, 40⟩
abbrev VP_GRP_LOOP_PG_WIN (i : Nat) : Fld := ⟨VP_GRP_LOOP i, 55, 48⟩
abbrev VP_GRP_LOOP_KB (i : Nat) : Fld := ⟨VP_GRP_LOOP i, 59, 56⟩
abbrev VP_GRP_LOOP_TRIM_MAX (i : Nat) : Fld := ⟨VP_GRP_LOOP i, 63, 60⟩
/-- VP_GRP_LIM_g, spec/09_vpm_stage.md. -/
abbrev VP_GRP_LIM (i : Nat) : Nat := 0x40480 + 8 * i
abbrev VP_GRP_LIM_ISC (i : Nat) : Fld := ⟨VP_GRP_LIM i, 7, 0⟩
abbrev VP_GRP_LIM_IOL (i : Nat) : Fld := ⟨VP_GRP_LIM i, 15, 8⟩
abbrev VP_GRP_LIM_TAU (i : Nat) : Fld := ⟨VP_GRP_LIM i, 25, 16⟩
abbrev VP_GRP_LIM_HIC_OFF (i : Nat) : Fld := ⟨VP_GRP_LIM i, 39, 32⟩
abbrev VP_GRP_LIM_HIC_MAX (i : Nat) : Fld := ⟨VP_GRP_LIM i, 43, 40⟩
abbrev VP_GRP_LIM_HSS_V (i : Nat) : Fld := ⟨VP_GRP_LIM i, 55, 48⟩
/-- VP_GRP_LL_g, spec/09_vpm_stage.md. -/
abbrev VP_GRP_LL (i : Nat) : Nat := 0x404c0 + 8 * i
abbrev VP_GRP_LL_SHED_EN (i : Nat) : Fld := ⟨VP_GRP_LL i, 0, 0⟩
abbrev VP_GRP_LL_DE_EN (i : Nat) : Fld := ⟨VP_GRP_LL i, 1, 1⟩
abbrev VP_GRP_LL_AF_EN (i : Nat) : Fld := ⟨VP_GRP_LL i, 2, 2⟩
abbrev VP_GRP_LL_MIN_ACT (i : Nat) : Fld := ⟨VP_GRP_LL i, 8, 3⟩
abbrev VP_GRP_LL_I_SHED (i : Nat) : Fld := ⟨VP_GRP_LL i, 16, 9⟩
abbrev VP_GRP_LL_SPARE (i : Nat) : Fld := ⟨VP_GRP_LL i, 19, 17⟩
abbrev VP_GRP_LL_DE_ON (i : Nat) : Fld := ⟨VP_GRP_LL i, 27, 20⟩
abbrev VP_GRP_LL_DE_OFF (i : Nat) : Fld := ⟨VP_GRP_LL i, 35, 28⟩
abbrev VP_GRP_LL_AF_DEPTH (i : Nat) : Fld := ⟨VP_GRP_LL i, 43, 36⟩
abbrev VP_GRP_LL_AF_TON (i : Nat) : Fld := ⟨VP_GRP_LL i, 48, 44⟩
abbrev VP_GRP_LL_AF_HOLD (i : Nat) : Fld := ⟨VP_GRP_LL i, 56, 49⟩
/-- VP_VID_g, spec/09_vpm_stage.md. -/
abbrev VP_VID (i : Nat) : Nat := 0x40500 + 8 * i
abbrev VP_VID_VID (i : Nat) : Fld := ⟨VP_VID i, 13, 0⟩
/-- VP_GRP_STAT_g, spec/09_vpm_stage.md. -/
abbrev VP_GRP_STAT (i : Nat) : Nat := 0x40540 + 8 * i
abbrev VP_GRP_STAT_VREF (i : Nat) : Fld := ⟨VP_GRP_STAT i, 13, 0⟩
abbrev VP_GRP_STAT_PG (i : Nat) : Fld := ⟨VP_GRP_STAT i, 14, 14⟩
abbrev VP_GRP_STAT_SLEWING (i : Nat) : Fld := ⟨VP_GRP_STAT i, 15, 15⟩
abbrev VP_GRP_STAT_V (i : Nat) : Fld := ⟨VP_GRP_STAT i, 29, 16⟩
abbrev VP_GRP_STAT_N_SERV (i : Nat) : Fld := ⟨VP_GRP_STAT i, 37, 32⟩
abbrev VP_GRP_STAT_N_ACT (i : Nat) : Fld := ⟨VP_GRP_STAT i, 43, 38⟩
abbrev VP_GRP_STAT_NMIN (i : Nat) : Fld := ⟨VP_GRP_STAT i, 49, 44⟩
abbrev VP_GRP_STAT_DE (i : Nat) : Fld := ⟨VP_GRP_STAT i, 50, 50⟩
abbrev VP_GRP_STAT_AF (i : Nat) : Fld := ⟨VP_GRP_STAT i, 51, 51⟩
abbrev VP_GRP_STAT_SYNC (i : Nat) : Fld := ⟨VP_GRP_STAT i, 52, 52⟩
abbrev VP_GRP_STAT_RANGE (i : Nat) : Fld := ⟨VP_GRP_STAT i, 53, 53⟩
abbrev VP_GRP_STAT_AF_COUNT (i : Nat) : Fld := ⟨VP_GRP_STAT i, 63, 56⟩
/-- VP_VIN_CFG, spec/09_vpm_stage.md. -/
abbrev VP_VIN_CFG : Nat := 0x40600
abbrev VP_VIN_CFG_UV : Fld := ⟨VP_VIN_CFG, 8, 0⟩
abbrev VP_VIN_CFG_OV : Fld := ⟨VP_VIN_CFG, 17, 9⟩
abbrev VP_VIN_CFG_START : Fld := ⟨VP_VIN_CFG, 26, 18⟩
abbrev VP_VIN_CFG_FILT : Fld := ⟨VP_VIN_CFG, 31, 27⟩
/-- VP_VIN_STAT, spec/09_vpm_stage.md. -/
abbrev VP_VIN_STAT : Nat := 0x40608
abbrev VP_VIN_STAT_VIN : Fld := ⟨VP_VIN_STAT, 15, 0⟩
abbrev VP_VIN_STAT_STATE : Fld := ⟨VP_VIN_STAT, 17, 16⟩
abbrev VP_VIN_STAT_VIN_MIN : Fld := ⟨VP_VIN_STAT, 47, 32⟩
abbrev VP_VIN_STAT_UV_EVENTS : Fld := ⟨VP_VIN_STAT, 55, 48⟩
abbrev VP_VIN_STAT_OV_EVENTS : Fld := ⟨VP_VIN_STAT, 63, 56⟩
/-- VP_SYNC_STAT, spec/09_vpm_stage.md. -/
abbrev VP_SYNC_STAT : Nat := 0x40610
abbrev VP_SYNC_STAT_LOCK : Fld := ⟨VP_SYNC_STAT, 0, 0⟩
abbrev VP_SYNC_STAT_PERIOD : Fld := ⟨VP_SYNC_STAT, 31, 16⟩
abbrev VP_SYNC_STAT_LOSSES : Fld := ⟨VP_SYNC_STAT, 47, 32⟩
/-- VP_LASTF_n, spec/09_vpm_stage.md. -/
abbrev VP_LASTF (i : Nat) : Nat := 0x40700 + 8 * i
abbrev VP_LASTF_WORD (i : Nat) : Fld := ⟨VP_LASTF i, 63, 0⟩
/-- VP_LASTF_STAT, spec/09_vpm_stage.md. -/
abbrev VP_LASTF_STAT : Nat := 0x40740
abbrev VP_LASTF_STAT_LOADED : Fld := ⟨VP_LASTF_STAT, 0, 0⟩
abbrev VP_LASTF_STAT_VALID : Fld := ⟨VP_LASTF_STAT, 1, 1⟩
abbrev VP_LASTF_STAT_PENDING : Fld := ⟨VP_LASTF_STAT, 2, 2⟩
abbrev VP_LASTF_STAT_LOST : Fld := ⟨VP_LASTF_STAT, 15, 8⟩
abbrev VP_LASTF_STAT_CLEAR : Fld := ⟨VP_LASTF_STAT, 16, 16⟩
/-- BG_CTRL, spec/13_budget_capping.md. -/
abbrev BG_CTRL : Nat := 0x50000
abbrev BG_CTRL_EN : Fld := ⟨BG_CTRL, 0, 0⟩
abbrev BG_CTRL_MAT : Fld := ⟨BG_CTRL, 1, 1⟩
abbrev BG_CTRL_BOOST : Fld := ⟨BG_CTRL, 2, 2⟩
abbrev BG_CTRL_FNOM : Fld := ⟨BG_CTRL, 15, 8⟩
abbrev BG_CTRL_THERM_STEP : Fld := ⟨BG_CTRL, 19, 16⟩
abbrev BG_CTRL_CAP_UP : Fld := ⟨BG_CTRL, 39, 24⟩
abbrev BG_CTRL_KC : Fld := ⟨BG_CTRL, 47, 40⟩
/-- BG_CAP, spec/13_budget_capping.md. -/
abbrev BG_CAP : Nat := 0x50008
abbrev BG_CAP_HOST_CAP : Fld := ⟨BG_CAP, 19, 0⟩
abbrev BG_CAP_SUPPLY : Fld := ⟨BG_CAP, 39, 20⟩
abbrev BG_CAP_V_FOLLOW : Fld := ⟨BG_CAP, 47, 40⟩
abbrev BG_CAP_FOLLOW_MIN : Fld := ⟨BG_CAP, 55, 48⟩
/-- BG_EST_CFG, spec/13_budget_capping.md. -/
abbrev BG_EST_CFG : Nat := 0x50010
abbrev BG_EST_CFG_MU_W : Fld := ⟨BG_EST_CFG, 15, 0⟩
abbrev BG_EST_CFG_MU_B : Fld := ⟨BG_EST_CFG, 31, 16⟩
abbrev BG_EST_CFG_REFIT_MS : Fld := ⟨BG_EST_CFG, 39, 32⟩
abbrev BG_EST_CFG_MIN_I : Fld := ⟨BG_EST_CFG, 47, 40⟩
abbrev BG_EST_CFG_ETA0 : Fld := ⟨BG_EST_CFG, 55, 48⟩
/-- BG_STAT, spec/13_budget_capping.md. -/
abbrev BG_STAT : Nat := 0x50018
abbrev BG_STAT_CAP : Fld := ⟨BG_STAT, 19, 0⟩
abbrev BG_STAT_SRC : Fld := ⟨BG_STAT, 22, 20⟩
abbrev BG_STAT_LAMBDA : Fld := ⟨BG_STAT, 35, 24⟩
abbrev BG_STAT_ETA : Fld := ⟨BG_STAT, 47, 40⟩
abbrev BG_STAT_OPEN_JOBS : Fld := ⟨BG_STAT, 54, 48⟩
/-- BG_POWER, spec/13_budget_capping.md. -/
abbrev BG_POWER : Nat := 0x50020
abbrev BG_POWER_P_MEAS : Fld := ⟨BG_POWER, 31, 0⟩
abbrev BG_POWER_P_CHIP : Fld := ⟨BG_POWER, 63, 32⟩
/-- BG_RHO_n, spec/13_budget_capping.md. -/
abbrev BG_RHO (i : Nat) : Nat := 0x50040 + 8 * i
abbrev BG_RHO_P (i : Nat) : Fld := ⟨BG_RHO i, 19, 0⟩
abbrev BG_RHO_RHO (i : Nat) : Fld := ⟨BG_RHO i, 30, 20⟩
/-- BG_REP_CFG, spec/13_budget_capping.md. -/
abbrev BG_REP_CFG : Nat := 0x50080
abbrev BG_REP_CFG_EN : Fld := ⟨BG_REP_CFG, 0, 0⟩
abbrev BG_REP_CFG_REP_BANK : Fld := ⟨BG_REP_CFG, 20, 16⟩
abbrev BG_REP_CFG_JOB_BANK : Fld := ⟨BG_REP_CFG, 28, 24⟩
/-- BG_REP_STAT, spec/13_budget_capping.md. -/
abbrev BG_REP_STAT : Nat := 0x50088
abbrev BG_REP_STAT_LAST_SEQ : Fld := ⟨BG_REP_STAT, 31, 0⟩
abbrev BG_REP_STAT_EPOCH : Fld := ⟨BG_REP_STAT, 63, 32⟩
/-- BG_ENERGY, spec/13_budget_capping.md. -/
abbrev BG_ENERGY : Nat := 0x50090
abbrev BG_ENERGY_E_CHIP : Fld := ⟨BG_ENERGY, 63, 0⟩
/-- BG_JOB_STAT, spec/13_budget_capping.md. -/
abbrev BG_JOB_STAT : Nat := 0x50098
abbrev BG_JOB_STAT_DONE : Fld := ⟨BG_JOB_STAT, 31, 0⟩
abbrev BG_JOB_STAT_ORPHANS : Fld := ⟨BG_JOB_STAT, 47, 32⟩
abbrev BG_JOB_STAT_FULL : Fld := ⟨BG_JOB_STAT, 63, 48⟩
/-- FH_CTRL, spec/12_fiddlehead.md. -/
abbrev FH_CTRL : Nat := 0x60000
abbrev FH_CTRL_EN : Fld := ⟨FH_CTRL, 0, 0⟩
/-- FH_STAT, spec/12_fiddlehead.md. -/
abbrev FH_STAT : Nat := 0x60008
abbrev FH_STAT_STATE : Fld := ⟨FH_STAT, 1, 0⟩
abbrev FH_STAT_WARM_LEFT : Fld := ⟨FH_STAT, 15, 8⟩
abbrev FH_STAT_SKIPS : Fld := ⟨FH_STAT, 31, 16⟩
abbrev FH_STAT_CYCLE : Fld := ⟨FH_STAT, 63, 32⟩
/-- FH_CFG, spec/12_fiddlehead.md. -/
abbrev FH_CFG : Nat := 0x60010
abbrev FH_CFG_FF_GAIN : Fld := ⟨FH_CFG, 7, 0⟩
abbrev FH_CFG_FF_PTS : Fld := ⟨FH_CFG, 11, 8⟩
abbrev FH_CFG_NID_PTS : Fld := ⟨FH_CFG, 15, 12⟩
abbrev FH_CFG_STEP_I : Fld := ⟨FH_CFG, 23, 16⟩
abbrev FH_CFG_I_PER : Fld := ⟨FH_CFG, 31, 24⟩
abbrev FH_CFG_SPARE : Fld := ⟨FH_CFG, 35, 32⟩
abbrev FH_CFG_CLASS_HOLD : Fld := ⟨FH_CFG, 43, 36⟩
abbrev FH_CFG_STALE : Fld := ⟨FH_CFG, 47, 44⟩
/-- FH_NLMS_CFG, spec/12_fiddlehead.md. -/
abbrev FH_NLMS_CFG : Nat := 0x60018
abbrev FH_NLMS_CFG_MU : Fld := ⟨FH_NLMS_CFG, 15, 0⟩
abbrev FH_NLMS_CFG_EPS : Fld := ⟨FH_NLMS_CFG, 31, 16⟩
abbrev FH_NLMS_CFG_EN : Fld := ⟨FH_NLMS_CFG, 32, 32⟩
abbrev FH_NLMS_CFG_EMAX : Fld := ⟨FH_NLMS_CFG, 47, 40⟩
/-- FH_MODEL_CMD, spec/12_fiddlehead.md. -/
abbrev FH_MODEL_CMD : Nat := 0x60040
abbrev FH_MODEL_CMD_OP : Fld := ⟨FH_MODEL_CMD, 1, 0⟩
abbrev FH_MODEL_CMD_SLOT : Fld := ⟨FH_MODEL_CMD, 2, 2⟩
abbrev FH_MODEL_CMD_WIDE : Fld := ⟨FH_MODEL_CMD, 3, 3⟩
abbrev FH_MODEL_CMD_RESULT : Fld := ⟨FH_MODEL_CMD, 11, 8⟩
abbrev FH_MODEL_CMD_BUSY : Fld := ⟨FH_MODEL_CMD, 63, 63⟩
/-- FH_MODEL_STAT, spec/12_fiddlehead.md. -/
abbrev FH_MODEL_STAT : Nat := 0x60048
abbrev FH_MODEL_STAT_LOADED : Fld := ⟨FH_MODEL_STAT, 0, 0⟩
abbrev FH_MODEL_STAT_SLOT : Fld := ⟨FH_MODEL_STAT, 1, 1⟩
abbrev FH_MODEL_STAT_WIDE : Fld := ⟨FH_MODEL_STAT, 2, 2⟩
abbrev FH_MODEL_STAT_H : Fld := ⟨FH_MODEL_STAT, 9, 4⟩
abbrev FH_MODEL_STAT_NCLASS : Fld := ⟨FH_MODEL_STAT, 16, 10⟩
abbrev FH_MODEL_STAT_CYCLES : Fld := ⟨FH_MODEL_STAT, 27, 17⟩
abbrev FH_MODEL_STAT_MODEL_ID : Fld := ⟨FH_MODEL_STAT, 63, 32⟩
/-- FH_HINT_STAT, spec/12_fiddlehead.md. -/
abbrev FH_HINT_STAT : Nat := 0x60080
abbrev FH_HINT_STAT_TOKENS : Fld := ⟨FH_HINT_STAT, 31, 0⟩
abbrev FH_HINT_STAT_BAD : Fld := ⟨FH_HINT_STAT, 47, 32⟩
abbrev FH_HINT_STAT_DROPS : Fld := ⟨FH_HINT_STAT, 63, 48⟩
/-- FH_ARITH_STAT, spec/05_arithmetic.md. -/
abbrev FH_ARITH_STAT : Nat := 0x60180
abbrev FH_ARITH_STAT_BOUND_VOID : Fld := ⟨FH_ARITH_STAT, 0, 0⟩
abbrev FH_ARITH_STAT_INT_SAT : Fld := ⟨FH_ARITH_STAT, 1, 1⟩
abbrev FH_ARITH_STAT_FP_OVF : Fld := ⟨FH_ARITH_STAT, 2, 2⟩
abbrev FH_ARITH_STAT_NAN : Fld := ⟨FH_ARITH_STAT, 3, 3⟩
abbrev FH_ARITH_STAT_VOID_CNT : Fld := ⟨FH_ARITH_STAT, 47, 32⟩
abbrev FH_ARITH_STAT_SAT_CNT : Fld := ⟨FH_ARITH_STAT, 63, 48⟩
/-- FH_FROND_n, spec/12_fiddlehead.md. -/
abbrev FH_FROND (i : Nat) : Nat := 0x60200 + 8 * i
abbrev FH_FROND_CLASS (i : Nat) : Fld := ⟨FH_FROND i, 5, 0⟩
abbrev FH_FROND_VALID (i : Nat) : Fld := ⟨FH_FROND i, 6, 6⟩
abbrev FH_FROND_FROZEN (i : Nat) : Fld := ⟨FH_FROND i, 7, 7⟩
abbrev FH_FROND_ERR (i : Nat) : Fld := ⟨FH_FROND i, 31, 8⟩
abbrev FH_FROND_UPDATES (i : Nat) : Fld := ⟨FH_FROND i, 63, 32⟩
/-- MT_LANE_CFG_l, spec/14_mat_fabric.md. -/
abbrev MT_LANE_CFG (i : Nat) : Nat := 0x70000 + 8 * i
abbrev MT_LANE_CFG_EN (i : Nat) : Fld := ⟨MT_LANE_CFG i, 0, 0⟩
abbrev MT_LANE_CFG_UNC_MAX (i : Nat) : Fld := ⟨MT_LANE_CFG i, 15, 8⟩
abbrev MT_LANE_CFG_FLOOD_RATE (i : Nat) : Fld := ⟨MT_LANE_CFG i, 31, 16⟩
/-- MT_LANE_STAT_l, spec/14_mat_fabric.md. -/
abbrev MT_LANE_STAT (i : Nat) : Nat := 0x70020 + 8 * i
abbrev MT_LANE_STAT_STATE (i : Nat) : Fld := ⟨MT_LANE_STAT i, 1, 0⟩
abbrev MT_LANE_STAT_LOS (i : Nat) : Fld := ⟨MT_LANE_STAT i, 2, 2⟩
abbrev MT_LANE_STAT_PARTNER (i : Nat) : Fld := ⟨MT_LANE_STAT i, 31, 16⟩
abbrev MT_LANE_STAT_DOWNS (i : Nat) : Fld := ⟨MT_LANE_STAT i, 47, 32⟩
/-- MT_LANE_FEC_l, spec/14_mat_fabric.md. -/
abbrev MT_LANE_FEC (i : Nat) : Nat := 0x70040 + 8 * i
abbrev MT_LANE_FEC_CORR (i : Nat) : Fld := ⟨MT_LANE_FEC i, 31, 0⟩
abbrev MT_LANE_FEC_UNC (i : Nat) : Fld := ⟨MT_LANE_FEC i, 63, 32⟩
/-- MT_UID, spec/14_mat_fabric.md. -/
abbrev MT_UID : Nat := 0x70060
abbrev MT_UID_UID : Fld := ⟨MT_UID, 63, 0⟩
/-- MT_ID_CFG, spec/14_mat_fabric.md. -/
abbrev MT_ID_CFG : Nat := 0x70100
abbrev MT_ID_CFG_STATIC : Fld := ⟨MT_ID_CFG, 15, 0⟩
abbrev MT_ID_CFG_STATIC_EN : Fld := ⟨MT_ID_CFG, 16, 16⟩
abbrev MT_ID_CFG_REG_CAP : Fld := ⟨MT_ID_CFG, 17, 17⟩
abbrev MT_ID_CFG_ID_LEASE : Fld := ⟨MT_ID_CFG, 31, 24⟩
abbrev MT_ID_CFG_JOIN_RETRY : Fld := ⟨MT_ID_CFG, 39, 32⟩
/-- MT_ID_STAT, spec/14_mat_fabric.md. -/
abbrev MT_ID_STAT : Nat := 0x70108
abbrev MT_ID_STAT_ID : Fld := ⟨MT_ID_STAT, 15, 0⟩
abbrev MT_ID_STAT_STATE : Fld := ⟨MT_ID_STAT, 17, 16⟩
abbrev MT_ID_STAT_REGISTRAR : Fld := ⟨MT_ID_STAT, 18, 18⟩
abbrev MT_ID_STAT_LAST : Fld := ⟨MT_ID_STAT, 21, 20⟩
abbrev MT_ID_STAT_JOINS : Fld := ⟨MT_ID_STAT, 47, 32⟩
abbrev MT_ID_STAT_CONFLICTS : Fld := ⟨MT_ID_STAT, 63, 48⟩
/-- MT_MEM_CFG, spec/14_mat_fabric.md. -/
abbrev MT_MEM_CFG : Nat := 0x70118
abbrev MT_MEM_CFG_RPL_BANK : Fld := ⟨MT_MEM_CFG, 4, 0⟩
abbrev MT_MEM_CFG_REG_BANK : Fld := ⟨MT_MEM_CFG, 12, 8⟩
/-- MT_KEY_LO, spec/14_mat_fabric.md. -/
abbrev MT_KEY_LO : Nat := 0x70200
abbrev MT_KEY_LO_KEY : Fld := ⟨MT_KEY_LO, 63, 0⟩
/-- MT_KEY_HI, spec/14_mat_fabric.md. -/
abbrev MT_KEY_HI : Nat := 0x70208
abbrev MT_KEY_HI_KEY : Fld := ⟨MT_KEY_HI, 63, 0⟩
/-- MT_KEY_CMD, spec/14_mat_fabric.md. -/
abbrev MT_KEY_CMD : Nat := 0x70210
abbrev MT_KEY_CMD_SLOT : Fld := ⟨MT_KEY_CMD, 7, 0⟩
abbrev MT_KEY_CMD_GEN : Fld := ⟨MT_KEY_CMD, 8, 8⟩
abbrev MT_KEY_CMD_GO : Fld := ⟨MT_KEY_CMD, 9, 9⟩
/-- MT_SEC_STAT, spec/14_mat_fabric.md. -/
abbrev MT_SEC_STAT : Nat := 0x70300
abbrev MT_SEC_STAT_AUTH_FAIL : Fld := ⟨MT_SEC_STAT, 11, 0⟩
abbrev MT_SEC_STAT_NO_KEY : Fld := ⟨MT_SEC_STAT, 23, 12⟩
abbrev MT_SEC_STAT_REPLAY : Fld := ⟨MT_SEC_STAT, 35, 24⟩
abbrev MT_SEC_STAT_RATE_DROPS : Fld := ⟨MT_SEC_STAT, 47, 36⟩
abbrev MT_SEC_STAT_MALFORMED : Fld := ⟨MT_SEC_STAT, 59, 48⟩
/-- MT_ROUTE_STAT, spec/14_mat_fabric.md. -/
abbrev MT_ROUTE_STAT : Nat := 0x70308
abbrev MT_ROUTE_STAT_DIRECT : Fld := ⟨MT_ROUTE_STAT, 10, 0⟩
abbrev MT_ROUTE_STAT_BLOCK : Fld := ⟨MT_ROUTE_STAT, 26, 16⟩
abbrev MT_ROUTE_STAT_FULL : Fld := ⟨MT_ROUTE_STAT, 41, 32⟩
abbrev MT_ROUTE_STAT_NOROUTE : Fld := ⟨MT_ROUTE_STAT, 51, 42⟩
abbrev MT_ROUTE_STAT_HOP_DROPS : Fld := ⟨MT_ROUTE_STAT, 61, 52⟩
/-- MT_RA_CFG, spec/14_mat_fabric.md. -/
abbrev MT_RA_CFG : Nat := 0x70400
abbrev MT_RA_CFG_RA_LO : Fld := ⟨MT_RA_CFG, 9, 0⟩
abbrev MT_RA_CFG_RA_HI : Fld := ⟨MT_RA_CFG, 25, 16⟩
abbrev MT_RA_CFG_RATE : Fld := ⟨MT_RA_CFG, 39, 32⟩
/-- MT_CAP_DST, spec/14_mat_fabric.md. -/
abbrev MT_CAP_DST : Nat := 0x70480
abbrev MT_CAP_DST_DST : Fld := ⟨MT_CAP_DST, 15, 0⟩
abbrev MT_CAP_DST_GSLOT : Fld := ⟨MT_CAP_DST, 23, 16⟩
/-- MT_SITE, spec/14_mat_fabric.md. -/
abbrev MT_SITE : Nat := 0x70500
abbrev MT_SITE_CEIL : Fld := ⟨MT_SITE, 31, 0⟩
abbrev MT_SITE_VALID : Fld := ⟨MT_SITE, 32, 32⟩
/-- MT_PMAT, spec/14_mat_fabric.md. -/
abbrev MT_PMAT : Nat := 0x70508
abbrev MT_PMAT_PMAT : Fld := ⟨MT_PMAT, 31, 0⟩
abbrev MT_PMAT_SLOT : Fld := ⟨MT_PMAT, 39, 32⟩
abbrev MT_PMAT_NONE : Fld := ⟨MT_PMAT, 40, 40⟩
/-- MT_GRP_CFG_n, spec/14_mat_fabric.md. -/
abbrev MT_GRP_CFG (i : Nat) : Nat := 0x71000 + 8 * i
abbrev MT_GRP_CFG_EN (i : Nat) : Fld := ⟨MT_GRP_CFG i, 0, 0⟩
abbrev MT_GRP_CFG_ELIG (i : Nat) : Fld := ⟨MT_GRP_CFG i, 1, 1⟩
abbrev MT_GRP_CFG_SITE (i : Nat) : Fld := ⟨MT_GRP_CFG i, 2, 2⟩
abbrev MT_GRP_CFG_RA_EN (i : Nat) : Fld := ⟨MT_GRP_CFG i, 3, 3⟩
abbrev MT_GRP_CFG_GEN (i : Nat) : Fld := ⟨MT_GRP_CFG i, 4, 4⟩
abbrev MT_GRP_CFG_LEASE (i : Nat) : Fld := ⟨MT_GRP_CFG i, 15, 8⟩
abbrev MT_GRP_CFG_GROUP (i : Nat) : Fld := ⟨MT_GRP_CFG i, 47, 32⟩
/-- MT_GRP_MGR_n, spec/14_mat_fabric.md. -/
abbrev MT_GRP_MGR (i : Nat) : Nat := 0x71800 + 8 * i
abbrev MT_GRP_MGR_CEIL (i : Nat) : Fld := ⟨MT_GRP_MGR i, 23, 0⟩
abbrev MT_GRP_MGR_FLOOR_MAX (i : Nat) : Fld := ⟨MT_GRP_MGR i, 35, 24⟩
abbrev MT_GRP_MGR_BIAS (i : Nat) : Fld := ⟨MT_GRP_MGR i, 39, 36⟩
abbrev MT_GRP_MGR_SLACK_MAX (i : Nat) : Fld := ⟨MT_GRP_MGR i, 51, 40⟩
/-- MT_GRP_MEM_n, spec/14_mat_fabric.md. -/
abbrev MT_GRP_MEM (i : Nat) : Nat := 0x72000 + 8 * i
abbrev MT_GRP_MEM_LFLOOR (i : Nat) : Fld := ⟨MT_GRP_MEM i, 11, 0⟩
abbrev MT_GRP_MEM_GCEIL (i : Nat) : Fld := ⟨MT_GRP_MEM i, 23, 12⟩
abbrev MT_GRP_MEM_FALL (i : Nat) : Fld := ⟨MT_GRP_MEM i, 31, 24⟩
abbrev MT_GRP_MEM_LEASE_MAX (i : Nat) : Fld := ⟨MT_GRP_MEM i, 39, 32⟩
/-- MT_GRP_STAT_n, spec/14_mat_fabric.md. -/
abbrev MT_GRP_STAT (i : Nat) : Nat := 0x72800 + 8 * i
abbrev MT_GRP_STAT_MGR (i : Nat) : Fld := ⟨MT_GRP_STAT i, 15, 0⟩
abbrev MT_GRP_STAT_ROLE (i : Nat) : Fld := ⟨MT_GRP_STAT i, 17, 16⟩
abbrev MT_GRP_STAT_LEASE (i : Nat) : Fld := ⟨MT_GRP_STAT i, 19, 18⟩
abbrev MT_GRP_STAT_GRANT (i : Nat) : Fld := ⟨MT_GRP_STAT i, 31, 20⟩
abbrev MT_GRP_STAT_EPOCH (i : Nat) : Fld := ⟨MT_GRP_STAT i, 63, 32⟩
/-- MS_BANK_b, spec/16_moss_and_queues.md. -/
abbrev MS_BANK (i : Nat) : Nat := 0x80000 + 8 * i
abbrev MS_BANK_OWNER (i : Nat) : Fld := ⟨MS_BANK i, 2, 0⟩
abbrev MS_BANK_RET (i : Nat) : Fld := ⟨MS_BANK i, 4, 4⟩
abbrev MS_BANK_RSTATE (i : Nat) : Fld := ⟨MS_BANK i, 6, 5⟩
abbrev MS_BANK_BUSY (i : Nat) : Fld := ⟨MS_BANK i, 7, 7⟩
abbrev MS_BANK_DUAL (i : Nat) : Fld := ⟨MS_BANK i, 8, 8⟩
abbrev MS_BANK_WAKES (i : Nat) : Fld := ⟨MS_BANK i, 31, 16⟩
abbrev MS_BANK_CE (i : Nat) : Fld := ⟨MS_BANK i, 47, 32⟩
abbrev MS_BANK_UE (i : Nat) : Fld := ⟨MS_BANK i, 55, 48⟩
/-- MS_CFG, spec/16_moss_and_queues.md. -/
abbrev MS_CFG : Nat := 0x80100
abbrev MS_CFG_SCRUB_DIV : Fld := ⟨MS_CFG, 3, 0⟩
abbrev MS_CFG_SCRUB_EN : Fld := ⟨MS_CFG, 4, 4⟩
abbrev MS_CFG_CE_THR : Fld := ⟨MS_CFG, 23, 8⟩
abbrev MS_CFG_Q_CE_THR : Fld := ⟨MS_CFG, 39, 24⟩
/-- MS_STAT, spec/16_moss_and_queues.md. -/
abbrev MS_STAT : Nat := 0x80108
abbrev MS_STAT_PASSES : Fld := ⟨MS_STAT, 31, 0⟩
abbrev MS_STAT_LAST_UE : Fld := ⟨MS_STAT, 55, 32⟩
/-- MS_Q_SEL, spec/16_moss_and_queues.md. -/
abbrev MS_Q_SEL : Nat := 0x80200
abbrev MS_Q_SEL_ISLAND : Fld := ⟨MS_Q_SEL, 7, 0⟩
abbrev MS_Q_SEL_STREAM : Fld := ⟨MS_Q_SEL, 12, 8⟩
abbrev MS_Q_SEL_STALE : Fld := ⟨MS_Q_SEL, 62, 62⟩
abbrev MS_Q_SEL_BUSY : Fld := ⟨MS_Q_SEL, 63, 63⟩
/-- MS_Q_STAT, spec/16_moss_and_queues.md. -/
abbrev MS_Q_STAT : Nat := 0x80208
abbrev MS_Q_STAT_FILL : Fld := ⟨MS_Q_STAT, 9, 0⟩
abbrev MS_Q_STAT_CE : Fld := ⟨MS_Q_STAT, 39, 16⟩
abbrev MS_Q_STAT_UE : Fld := ⟨MS_Q_STAT, 55, 40⟩
abbrev MS_Q_STAT_DISCARDS : Fld := ⟨MS_Q_STAT, 63, 56⟩
/-- MS_CONFLICT_b_m, spec/16_moss_and_queues.md. -/
abbrev MS_CONFLICT (i : Nat) : Nat := 0x81000 + 8 * i
abbrev MS_CONFLICT_WAIT (i : Nat) : Fld := ⟨MS_CONFLICT i, 31, 0⟩
/-- NV_BOOT_STAT, spec/17_startup_image.md. -/
abbrev NV_BOOT_STAT : Nat := 0x90000
abbrev NV_BOOT_STAT_STEP : Fld := ⟨NV_BOOT_STAT, 3, 0⟩
abbrev NV_BOOT_STAT_SPORE : Fld := ⟨NV_BOOT_STAT, 4, 4⟩
abbrev NV_BOOT_STAT_SLOT : Fld := ⟨NV_BOOT_STAT, 5, 5⟩
abbrev NV_BOOT_STAT_TRIAL : Fld := ⟨NV_BOOT_STAT, 6, 6⟩
abbrev NV_BOOT_STAT_FELLBACK : Fld := ⟨NV_BOOT_STAT, 7, 7⟩
abbrev NV_BOOT_STAT_RES0 : Fld := ⟨NV_BOOT_STAT, 11, 8⟩
abbrev NV_BOOT_STAT_RES1 : Fld := ⟨NV_BOOT_STAT, 15, 12⟩
abbrev NV_BOOT_STAT_SVN : Fld := ⟨NV_BOOT_STAT, 20, 16⟩
abbrev NV_BOOT_STAT_FLOOR : Fld := ⟨NV_BOOT_STAT, 25, 21⟩
abbrev NV_BOOT_STAT_OTP_MAJ : Fld := ⟨NV_BOOT_STAT, 26, 26⟩
abbrev NV_BOOT_STAT_OTP_PROG : Fld := ⟨NV_BOOT_STAT, 27, 27⟩
abbrev NV_BOOT_STAT_MAP_OK : Fld := ⟨NV_BOOT_STAT, 28, 28⟩
abbrev NV_BOOT_STAT_CAL_OK : Fld := ⟨NV_BOOT_STAT, 29, 29⟩
abbrev NV_BOOT_STAT_ENTRY : Fld := ⟨NV_BOOT_STAT, 47, 32⟩
/-- NV_IMAGE_ID, spec/17_startup_image.md. -/
abbrev NV_IMAGE_ID : Nat := 0x90008
abbrev NV_IMAGE_ID_IMAGE_ID : Fld := ⟨NV_IMAGE_ID, 31, 0⟩
/-- NV_UPD_ADDR, spec/17_startup_image.md. -/
abbrev NV_UPD_ADDR : Nat := 0x90010
abbrev NV_UPD_ADDR_FOFF : Fld := ⟨NV_UPD_ADDR, 22, 0⟩
abbrev NV_UPD_ADDR_MOFF : Fld := ⟨NV_UPD_ADDR, 47, 24⟩
/-- NV_UPD_CMD, spec/17_startup_image.md. -/
abbrev NV_UPD_CMD : Nat := 0x90018
abbrev NV_UPD_CMD_OP : Fld := ⟨NV_UPD_CMD, 2, 0⟩
abbrev NV_UPD_CMD_SLOT : Fld := ⟨NV_UPD_CMD, 3, 3⟩
abbrev NV_UPD_CMD_LEN : Fld := ⟨NV_UPD_CMD, 25, 4⟩
abbrev NV_UPD_CMD_RESULT : Fld := ⟨NV_UPD_CMD, 31, 28⟩
abbrev NV_UPD_CMD_VRES : Fld := ⟨NV_UPD_CMD, 35, 32⟩
abbrev NV_UPD_CMD_BUSY : Fld := ⟨NV_UPD_CMD, 63, 63⟩
/-- NV_AGE_CFG, spec/18_lifetime_ageing.md. -/
abbrev NV_AGE_CFG : Nat := 0x90100
abbrev NV_AGE_CFG_EN : Fld := ⟨NV_AGE_CFG, 0, 0⟩
abbrev NV_AGE_CFG_PERIOD : Fld := ⟨NV_AGE_CFG, 15, 8⟩
abbrev NV_AGE_CFG_S_T : Fld := ⟨NV_AGE_CFG, 23, 16⟩
abbrev NV_AGE_CFG_DB : Fld := ⟨NV_AGE_CFG, 27, 24⟩
abbrev NV_AGE_CFG_STEP : Fld := ⟨NV_AGE_CFG, 37, 32⟩
abbrev NV_AGE_CFG_AGE_MAX : Fld := ⟨NV_AGE_CFG, 47, 40⟩
abbrev NV_AGE_CFG_BAND_MAX : Fld := ⟨NV_AGE_CFG, 50, 48⟩
/-- NV_AGE_CMD, spec/18_lifetime_ageing.md. -/
abbrev NV_AGE_CMD : Nat := 0x90108
abbrev NV_AGE_CMD_OP : Fld := ⟨NV_AGE_CMD, 1, 0⟩
abbrev NV_AGE_CMD_RESULT : Fld := ⟨NV_AGE_CMD, 5, 4⟩
abbrev NV_AGE_CMD_BUSY : Fld := ⟨NV_AGE_CMD, 63, 63⟩
/-- NV_AGE_STAT, spec/18_lifetime_ageing.md. -/
abbrev NV_AGE_STAT : Nat := 0x90110
abbrev NV_AGE_STAT_REPLANS : Fld := ⟨NV_AGE_STAT, 15, 0⟩
abbrev NV_AGE_STAT_SKIPS : Fld := ⟨NV_AGE_STAT, 31, 16⟩
abbrev NV_AGE_STAT_DUE : Fld := ⟨NV_AGE_STAT, 63, 32⟩
/-- NV_LIFE_STAT, spec/18_lifetime_ageing.md. -/
abbrev NV_LIFE_STAT : Nat := 0x90208
abbrev NV_LIFE_STAT_SEQ : Fld := ⟨NV_LIFE_STAT, 31, 0⟩
abbrev NV_LIFE_STAT_FRESH : Fld := ⟨NV_LIFE_STAT, 32, 32⟩
abbrev NV_LIFE_STAT_SAT : Fld := ⟨NV_LIFE_STAT, 33, 33⟩
abbrev NV_LIFE_STAT_PENDING : Fld := ⟨NV_LIFE_STAT, 34, 34⟩
abbrev NV_LIFE_STAT_FLUSH : Fld := ⟨NV_LIFE_STAT, 35, 35⟩
/-- NV_READ_CMD, spec/18_lifetime_ageing.md. -/
abbrev NV_READ_CMD : Nat := 0x90210
abbrev NV_READ_CMD_AREA : Fld := ⟨NV_READ_CMD, 1, 0⟩
abbrev NV_READ_CMD_POS : Fld := ⟨NV_READ_CMD, 9, 2⟩
abbrev NV_READ_CMD_MOFF : Fld := ⟨NV_READ_CMD, 39, 16⟩
abbrev NV_READ_CMD_GO : Fld := ⟨NV_READ_CMD, 40, 40⟩
abbrev NV_READ_CMD_RESULT : Fld := ⟨NV_READ_CMD, 45, 44⟩
abbrev NV_READ_CMD_BUSY : Fld := ⟨NV_READ_CMD, 63, 63⟩
/-- FR_CORE_CTRL, spec/03_frond_core.md. -/
abbrev FR_CORE_CTRL (f : Nat) : Nat := 0x100000 + 0x10000 * f
abbrev FR_CORE_CTRL_RUN (f : Nat) : Fld := ⟨FR_CORE_CTRL f, 0, 0⟩
abbrev FR_CORE_CTRL_STEP (f : Nat) : Fld := ⟨FR_CORE_CTRL f, 1, 1⟩
abbrev FR_CORE_CTRL_OVR_LIMIT (f : Nat) : Fld := ⟨FR_CORE_CTRL f, 15, 8⟩
/-- FR_CORE_STAT, spec/03_frond_core.md. -/
abbrev FR_CORE_STAT (f : Nat) : Nat := 0x100008 + 0x10000 * f
abbrev FR_CORE_STAT_STATE (f : Nat) : Fld := ⟨FR_CORE_STAT f, 1, 0⟩
abbrev FR_CORE_STAT_OVR_CONSEC (f : Nat) : Fld := ⟨FR_CORE_STAT f, 15, 8⟩
abbrev FR_CORE_STAT_LAST_CUT (f : Nat) : Fld := ⟨FR_CORE_STAT f, 18, 16⟩
abbrev FR_CORE_STAT_ECC_CORR (f : Nat) : Fld := ⟨FR_CORE_STAT f, 47, 32⟩
abbrev FR_CORE_STAT_ECC_UNCORR (f : Nat) : Fld := ⟨FR_CORE_STAT f, 55, 48⟩
/-- FR_SAMPLE_CFG, spec/03_frond_core.md. -/
abbrev FR_SAMPLE_CFG (f : Nat) : Nat := 0x100010 + 0x10000 * f
abbrev FR_SAMPLE_CFG_NPER (f : Nat) : Fld := ⟨FR_SAMPLE_CFG f, 6, 0⟩
/-- FR_PHASE_MASK, spec/03_frond_core.md. -/
abbrev FR_PHASE_MASK (f : Nat) : Nat := 0x100018 + 0x10000 * f
abbrev FR_PHASE_MASK_MASK (f : Nat) : Fld := ⟨FR_PHASE_MASK f, 31, 0⟩
/-- FR_SCHED_STAT, spec/03_frond_core.md. -/
abbrev FR_SCHED_STAT (f : Nat) : Nat := 0x100020 + 0x10000 * f
abbrev FR_SCHED_STAT_PEAK (f : Nat) : Fld := ⟨FR_SCHED_STAT f, 11, 0⟩
abbrev FR_SCHED_STAT_OVERRUNS (f : Nat) : Fld := ⟨FR_SCHED_STAT f, 31, 16⟩
abbrev FR_SCHED_STAT_STALLS (f : Nat) : Fld := ⟨FR_SCHED_STAT f, 63, 32⟩
/-- FR_SLOT_COUNT, spec/03_frond_core.md. -/
abbrev FR_SLOT_COUNT (f : Nat) : Nat := 0x100028 + 0x10000 * f
abbrev FR_SLOT_COUNT_COUNT (f : Nat) : Fld := ⟨FR_SLOT_COUNT f, 63, 0⟩
/-- FR_PROG_STAT, spec/04_loop_programs.md. -/
abbrev FR_PROG_STAT (f : Nat) : Nat := 0x100030 + 0x10000 * f
abbrev FR_PROG_STAT_PROG (f : Nat) : Fld := ⟨FR_PROG_STAT f, 0, 0⟩
abbrev FR_PROG_STAT_ARITH (f : Nat) : Fld := ⟨FR_PROG_STAT f, 1, 1⟩
abbrev FR_PROG_STAT_RANGE (f : Nat) : Fld := ⟨FR_PROG_STAT f, 2, 2⟩
abbrev FR_PROG_STAT_FGROUP (f : Nat) : Fld := ⟨FR_PROG_STAT f, 6, 4⟩
abbrev FR_PROG_STAT_FCODE (f : Nat) : Fld := ⟨FR_PROG_STAT f, 11, 8⟩
abbrev FR_PROG_STAT_FADDR (f : Nat) : Fld := ⟨FR_PROG_STAT f, 23, 12⟩
abbrev FR_PROG_STAT_FLANE (f : Nat) : Fld := ⟨FR_PROG_STAT f, 28, 24⟩
abbrev FR_PROG_STAT_COUNT (f : Nat) : Fld := ⟨FR_PROG_STAT f, 47, 32⟩
/-- FR_PROG_CTRL, spec/04_loop_programs.md. -/
abbrev FR_PROG_CTRL (f : Nat) : Nat := 0x100038 + 0x10000 * f
abbrev FR_PROG_CTRL_ARITH_EN (f : Nat) : Fld := ⟨FR_PROG_CTRL f, 0, 0⟩
abbrev FR_PROG_CTRL_RANGE_EN (f : Nat) : Fld := ⟨FR_PROG_CTRL f, 1, 1⟩
/-- FR_BRIDGE_STAT, spec/02_power_path.md. -/
abbrev FR_BRIDGE_STAT (f : Nat) : Nat := 0x100040 + 0x10000 * f
abbrev FR_BRIDGE_STAT_STATE_E (f : Nat) : Fld := ⟨FR_BRIDGE_STAT f, 1, 0⟩
abbrev FR_BRIDGE_STAT_STATE_S (f : Nat) : Fld := ⟨FR_BRIDGE_STAT f, 3, 2⟩
abbrev FR_BRIDGE_STAT_ROLE (f : Nat) : Fld := ⟨FR_BRIDGE_STAT f, 5, 4⟩
abbrev FR_BRIDGE_STAT_IMG_EN_E (f : Nat) : Fld := ⟨FR_BRIDGE_STAT f, 6, 6⟩
abbrev FR_BRIDGE_STAT_IMG_EN_S (f : Nat) : Fld := ⟨FR_BRIDGE_STAT f, 7, 7⟩
abbrev FR_BRIDGE_STAT_PARTNER (f : Nat) : Fld := ⟨FR_BRIDGE_STAT f, 13, 8⟩
abbrev FR_BRIDGE_STAT_OPEN_CAUSE (f : Nat) : Fld := ⟨FR_BRIDGE_STAT f, 19, 16⟩
abbrev FR_BRIDGE_STAT_I_BR (f : Nat) : Fld := ⟨FR_BRIDGE_STAT f, 47, 32⟩
abbrev FR_BRIDGE_STAT_I_DIR (f : Nat) : Fld := ⟨FR_BRIDGE_STAT f, 48, 48⟩
abbrev FR_BRIDGE_STAT_CLOSES (f : Nat) : Fld := ⟨FR_BRIDGE_STAT f, 63, 56⟩
/-- FR_GUARD_CFG, spec/02_power_path.md. -/
abbrev FR_GUARD_CFG (f : Nat) : Nat := 0x100050 + 0x10000 * f
abbrev FR_GUARD_CFG_TRIP (f : Nat) : Fld := ⟨FR_GUARD_CFG f, 3, 0⟩
abbrev FR_GUARD_CFG_NEG (f : Nat) : Fld := ⟨FR_GUARD_CFG f, 7, 4⟩
abbrev FR_GUARD_CFG_RUN (f : Nat) : Fld := ⟨FR_GUARD_CFG f, 15, 8⟩
/-- FR_GUARD_STAT, spec/02_power_path.md. -/
abbrev FR_GUARD_STAT (f : Nat) : Nat := 0x100058 + 0x10000 * f
abbrev FR_GUARD_STAT_TRIPPED (f : Nat) : Fld := ⟨FR_GUARD_STAT f, 31, 0⟩
abbrev FR_GUARD_STAT_TOTAL (f : Nat) : Fld := ⟨FR_GUARD_STAT f, 63, 32⟩
/-- FR_LAW_CFG, spec/06_hysteretic_regulation.md. -/
abbrev FR_LAW_CFG (f : Nat) : Nat := 0x100060 + 0x10000 * f
abbrev FR_LAW_CFG_SHED_MODE (f : Nat) : Fld := ⟨FR_LAW_CFG f, 1, 0⟩
abbrev FR_LAW_CFG_MIN_ACTIVE (f : Nat) : Fld := ⟨FR_LAW_CFG f, 7, 2⟩
abbrev FR_LAW_CFG_I_PER (f : Nat) : Fld := ⟨FR_LAW_CFG f, 15, 8⟩
abbrev FR_LAW_CFG_SPARE (f : Nat) : Fld := ⟨FR_LAW_CFG f, 19, 16⟩
abbrev FR_LAW_CFG_DE_EN (f : Nat) : Fld := ⟨FR_LAW_CFG f, 20, 20⟩
abbrev FR_LAW_CFG_DE_ON (f : Nat) : Fld := ⟨FR_LAW_CFG f, 31, 24⟩
abbrev FR_LAW_CFG_DE_OFF (f : Nat) : Fld := ⟨FR_LAW_CFG f, 39, 32⟩
abbrev FR_LAW_CFG_FF_MAX (f : Nat) : Fld := ⟨FR_LAW_CFG f, 51, 40⟩
/-- FR_LAW_STAT, spec/06_hysteretic_regulation.md. -/
abbrev FR_LAW_STAT (f : Nat) : Nat := 0x100068 + 0x10000 * f
abbrev FR_LAW_STAT_NIDLE_EFF (f : Nat) : Fld := ⟨FR_LAW_STAT f, 5, 0⟩
abbrev FR_LAW_STAT_DE (f : Nat) : Fld := ⟨FR_LAW_STAT f, 8, 8⟩
abbrev FR_LAW_STAT_SAT_RUN (f : Nat) : Fld := ⟨FR_LAW_STAT f, 31, 16⟩
abbrev FR_LAW_STAT_SAT_TRIPS (f : Nat) : Fld := ⟨FR_LAW_STAT f, 47, 32⟩
abbrev FR_LAW_STAT_FFV_CLAMPS (f : Nat) : Fld := ⟨FR_LAW_STAT f, 63, 48⟩
/-- FR_INJ_CFG, spec/06_hysteretic_regulation.md. -/
abbrev FR_INJ_CFG (f : Nat) : Nat := 0x100070 + 0x10000 * f
abbrev FR_INJ_CFG_MODE (f : Nat) : Fld := ⟨FR_INJ_CFG f, 1, 0⟩
abbrev FR_INJ_CFG_GO (f : Nat) : Fld := ⟨FR_INJ_CFG f, 2, 2⟩
abbrev FR_INJ_CFG_STOP (f : Nat) : Fld := ⟨FR_INJ_CFG f, 3, 3⟩
abbrev FR_INJ_CFG_AMP (f : Nat) : Fld := ⟨FR_INJ_CFG f, 15, 4⟩
abbrev FR_INJ_CFG_HALF (f : Nat) : Fld := ⟨FR_INJ_CFG f, 27, 16⟩
abbrev FR_INJ_CFG_COUNT (f : Nat) : Fld := ⟨FR_INJ_CFG f, 39, 28⟩
abbrev FR_INJ_CFG_DEC (f : Nat) : Fld := ⟨FR_INJ_CFG f, 43, 40⟩
abbrev FR_INJ_CFG_CAP (f : Nat) : Fld := ⟨FR_INJ_CFG f, 44, 44⟩
/-- FR_INJ_STAT, spec/06_hysteretic_regulation.md. -/
abbrev FR_INJ_STAT (f : Nat) : Nat := 0x100078 + 0x10000 * f
abbrev FR_INJ_STAT_ACTIVE (f : Nat) : Fld := ⟨FR_INJ_STAT f, 0, 0⟩
abbrev FR_INJ_STAT_CAP_DONE (f : Nat) : Fld := ⟨FR_INJ_STAT f, 1, 1⟩
abbrev FR_INJ_STAT_END_CAUSE (f : Nat) : Fld := ⟨FR_INJ_STAT f, 7, 4⟩
abbrev FR_INJ_STAT_CAP_LEN (f : Nat) : Fld := ⟨FR_INJ_STAT f, 18, 8⟩
/-- FR_SAT_CFG, spec/06_hysteretic_regulation.md. -/
abbrev FR_SAT_CFG (f : Nat) : Nat := 0x100080 + 0x10000 * f
abbrev FR_SAT_CFG_WIN (f : Nat) : Fld := ⟨FR_SAT_CFG f, 7, 0⟩
abbrev FR_SAT_CFG_LIMIT (f : Nat) : Fld := ⟨FR_SAT_CFG f, 15, 8⟩
abbrev FR_SAT_CFG_REF (f : Nat) : Fld := ⟨FR_SAT_CFG f, 21, 16⟩
/-- FR_RAIL_CMD, spec/07_setpoints_profiles.md. -/
abbrev FR_RAIL_CMD (f : Nat) : Nat := 0x100088 + 0x10000 * f
abbrev FR_RAIL_CMD_OP (f : Nat) : Fld := ⟨FR_RAIL_CMD f, 1, 0⟩
/-- FR_SETPOINT, spec/07_setpoints_profiles.md. -/
abbrev FR_SETPOINT (f : Nat) : Nat := 0x100090 + 0x10000 * f
abbrev FR_SETPOINT_FORM (f : Nat) : Fld := ⟨FR_SETPOINT f, 0, 0⟩
abbrev FR_SETPOINT_VCODE (f : Nat) : Fld := ⟨FR_SETPOINT f, 15, 4⟩
abbrev FR_SETPOINT_FREQ (f : Nat) : Fld := ⟨FR_SETPOINT f, 23, 16⟩
/-- FR_PROF_CFG, spec/07_setpoints_profiles.md. -/
abbrev FR_PROF_CFG (f : Nat) : Nat := 0x100098 + 0x10000 * f
abbrev FR_PROF_CFG_VMAX (f : Nat) : Fld := ⟨FR_PROF_CFG f, 15, 0⟩
abbrev FR_PROF_CFG_AMAX (f : Nat) : Fld := ⟨FR_PROF_CFG f, 31, 16⟩
abbrev FR_PROF_CFG_JMAX (f : Nat) : Fld := ⟨FR_PROF_CFG f, 47, 32⟩
/-- FR_SS_CFG, spec/07_setpoints_profiles.md. -/
abbrev FR_SS_CFG (f : Nat) : Nat := 0x1000a0 + 0x10000 * f
abbrev FR_SS_CFG_VMAX (f : Nat) : Fld := ⟨FR_SS_CFG f, 15, 0⟩
abbrev FR_SS_CFG_AMAX (f : Nat) : Fld := ⟨FR_SS_CFG f, 31, 16⟩
abbrev FR_SS_CFG_JMAX (f : Nat) : Fld := ⟨FR_SS_CFG f, 47, 32⟩
abbrev FR_SS_CFG_RETRY_WAIT (f : Nat) : Fld := ⟨FR_SS_CFG f, 55, 48⟩
abbrev FR_SS_CFG_RETRIES (f : Nat) : Fld := ⟨FR_SS_CFG f, 57, 56⟩
/-- FR_RAIL_STAT, spec/07_setpoints_profiles.md. -/
abbrev FR_RAIL_STAT (f : Nat) : Nat := 0x1000a8 + 0x10000 * f
abbrev FR_RAIL_STAT_STATE (f : Nat) : Fld := ⟨FR_RAIL_STAT f, 2, 0⟩
abbrev FR_RAIL_STAT_TRIES (f : Nat) : Fld := ⟨FR_RAIL_STAT f, 5, 3⟩
abbrev FR_RAIL_STAT_DEFER (f : Nat) : Fld := ⟨FR_RAIL_STAT f, 6, 6⟩
abbrev FR_RAIL_STAT_MOVING (f : Nat) : Fld := ⟨FR_RAIL_STAT f, 7, 7⟩
abbrev FR_RAIL_STAT_POINT (f : Nat) : Fld := ⟨FR_RAIL_STAT f, 19, 8⟩
abbrev FR_RAIL_STAT_END (f : Nat) : Fld := ⟨FR_RAIL_STAT f, 31, 20⟩
abbrev FR_RAIL_STAT_FCODE (f : Nat) : Fld := ⟨FR_RAIL_STAT f, 39, 32⟩
abbrev FR_RAIL_STAT_HOLD (f : Nat) : Fld := ⟨FR_RAIL_STAT f, 40, 40⟩
abbrev FR_RAIL_STAT_PEND (f : Nat) : Fld := ⟨FR_RAIL_STAT f, 41, 41⟩
/-- FR_OPP_CFG, spec/07_setpoints_profiles.md. -/
abbrev FR_OPP_CFG (f : Nat) : Nat := 0x1000b0 + 0x10000 * f
abbrev FR_OPP_CFG_MARGIN (f : Nat) : Fld := ⟨FR_OPP_CFG f, 11, 0⟩
abbrev FR_OPP_CFG_FDROP_WAIT (f : Nat) : Fld := ⟨FR_OPP_CFG f, 23, 16⟩
abbrev FR_OPP_CFG_SPORE_F (f : Nat) : Fld := ⟨FR_OPP_CFG f, 31, 24⟩
/-- FR_FMAX_n, spec/07_setpoints_profiles.md. -/
abbrev FR_FMAX (f i : Nat) : Nat := 0x1000c0 + 0x10000 * f + 8 * i
abbrev FR_FMAX_VCODE (f i : Nat) : Fld := ⟨FR_FMAX f i, 11, 0⟩
abbrev FR_FMAX_FCODE (f i : Nat) : Fld := ⟨FR_FMAX f i, 23, 16⟩
/-- FR_GROUP_n, spec/03_frond_core.md. -/
abbrev FR_GROUP (f i : Nat) : Nat := 0x100100 + 0x10000 * f + 8 * i
abbrev FR_GROUP_EN (f i : Nat) : Fld := ⟨FR_GROUP f i, 0, 0⟩
abbrev FR_GROUP_KIND (f i : Nat) : Fld := ⟨FR_GROUP f i, 1, 1⟩
abbrev FR_GROUP_DIV (f i : Nat) : Fld := ⟨FR_GROUP f i, 4, 2⟩
abbrev FR_GROUP_OFFSET (f i : Nat) : Fld := ⟨FR_GROUP f i, 11, 5⟩
abbrev FR_GROUP_ENTRY (f i : Nat) : Fld := ⟨FR_GROUP f i, 23, 12⟩
abbrev FR_GROUP_WBASE (f i : Nat) : Fld := ⟨FR_GROUP f i, 26, 24⟩
abbrev FR_GROUP_WCNT (f i : Nat) : Fld := ⟨FR_GROUP f i, 29, 27⟩
abbrev FR_GROUP_LANES (f i : Nat) : Fld := ⟨FR_GROUP f i, 63, 32⟩
/-- FR_SCALAR_n, spec/03_frond_core.md. -/
abbrev FR_SCALAR (f i : Nat) : Nat := 0x100200 + 0x10000 * f + 8 * i
abbrev FR_SCALAR_VALUE (f i : Nat) : Fld := ⟨FR_SCALAR f i, 63, 0⟩
/-- FR_PHASE_HEALTH, spec/08_hard_cases.md. -/
abbrev FR_PHASE_HEALTH (f : Nat) : Nat := 0x100400 + 0x10000 * f
abbrev FR_PHASE_HEALTH_OPEN (f : Nat) : Fld := ⟨FR_PHASE_HEALTH f, 31, 0⟩
abbrev FR_PHASE_HEALTH_SENSE_FAIL (f : Nat) : Fld := ⟨FR_PHASE_HEALTH f, 63, 32⟩
/-- FR_DEGRADE_CFG, spec/08_hard_cases.md. -/
abbrev FR_DEGRADE_CFG (f : Nat) : Nat := 0x100408 + 0x10000 * f
abbrev FR_DEGRADE_CFG_OPEN_THR (f : Nat) : Fld := ⟨FR_DEGRADE_CFG f, 7, 0⟩
abbrev FR_DEGRADE_CFG_OPEN_RUN (f : Nat) : Fld := ⟨FR_DEGRADE_CFG f, 15, 8⟩
abbrev FR_DEGRADE_CFG_SENSE_RUN (f : Nat) : Fld := ⟨FR_DEGRADE_CFG f, 23, 16⟩
abbrev FR_DEGRADE_CFG_WPRIO (f : Nat) : Fld := ⟨FR_DEGRADE_CFG f, 25, 24⟩
/-- FR_GOV_CFG, spec/13_budget_capping.md. -/
abbrev FR_GOV_CFG (f : Nat) : Nat := 0x100480 + 0x10000 * f
abbrev FR_GOV_CFG_SLOPE (f : Nat) : Fld := ⟨FR_GOV_CFG f, 7, 0⟩
/-- FR_GOV_STAT, spec/13_budget_capping.md. -/
abbrev FR_GOV_STAT (f : Nat) : Nat := 0x100488 + 0x10000 * f
abbrev FR_GOV_STAT_ISSUE (f : Nat) : Fld := ⟨FR_GOV_STAT f, 6, 0⟩
abbrev FR_GOV_STAT_TARGET (f : Nat) : Fld := ⟨FR_GOV_STAT f, 14, 8⟩
abbrev FR_GOV_STAT_HOLD_DUTY (f : Nat) : Fld := ⟨FR_GOV_STAT f, 22, 16⟩
abbrev FR_GOV_STAT_OVR (f : Nat) : Fld := ⟨FR_GOV_STAT f, 28, 24⟩
abbrev FR_GOV_STAT_I_STEP (f : Nat) : Fld := ⟨FR_GOV_STAT f, 47, 32⟩
/-- FR_LEAF_CAL_n, spec/10_sensing.md. -/
abbrev FR_LEAF_CAL (f i : Nat) : Nat := 0x100600 + 0x10000 * f + 8 * i
abbrev FR_LEAF_CAL_GAIN (f i : Nat) : Fld := ⟨FR_LEAF_CAL f i, 15, 0⟩
abbrev FR_LEAF_CAL_OFFS (f i : Nat) : Fld := ⟨FR_LEAF_CAL f i, 31, 16⟩
abbrev FR_LEAF_CAL_RES (f i : Nat) : Fld := ⟨FR_LEAF_CAL f i, 47, 32⟩
abbrev FR_LEAF_CAL_FITS (f i : Nat) : Fld := ⟨FR_LEAF_CAL f i, 55, 48⟩
/-- FR_VSNS_CAL_k, spec/10_sensing.md. -/
abbrev FR_VSNS_CAL (f i : Nat) : Nat := 0x100700 + 0x10000 * f + 8 * i
abbrev FR_VSNS_CAL_GAIN (f i : Nat) : Fld := ⟨FR_VSNS_CAL f i, 15, 0⟩
abbrev FR_VSNS_CAL_OFFS (f i : Nat) : Fld := ⟨FR_VSNS_CAL f i, 31, 16⟩
abbrev FR_VSNS_CAL_RES (f i : Nat) : Fld := ⟨FR_VSNS_CAL f i, 47, 32⟩
abbrev FR_VSNS_CAL_FITS (f i : Nat) : Fld := ⟨FR_VSNS_CAL f i, 55, 48⟩
/-- FR_LEAF_STAT, spec/10_sensing.md. -/
abbrev FR_LEAF_STAT (f : Nat) : Nat := 0x100720 + 0x10000 * f
abbrev FR_LEAF_STAT_BASE (f : Nat) : Fld := ⟨FR_LEAF_STAT f, 11, 0⟩
abbrev FR_LEAF_STAT_VFAIL (f : Nat) : Fld := ⟨FR_LEAF_STAT f, 19, 16⟩
abbrev FR_LEAF_STAT_CALSEL (f : Nat) : Fld := ⟨FR_LEAF_STAT f, 28, 24⟩
abbrev FR_LEAF_STAT_VRANGE (f : Nat) : Fld := ⟨FR_LEAF_STAT f, 63, 32⟩
/-- FR_CANARY, spec/18_lifetime_ageing.md. -/
abbrev FR_CANARY (f : Nat) : Nat := 0x100800 + 0x10000 * f
abbrev FR_CANARY_SLACK (f : Nat) : Fld := ⟨FR_CANARY f, 63, 0⟩
/-- FR_AGE_SHIFT, spec/18_lifetime_ageing.md. -/
abbrev FR_AGE_SHIFT (f : Nat) : Nat := 0x100808 + 0x10000 * f
abbrev FR_AGE_SHIFT_SHIFT (f : Nat) : Fld := ⟨FR_AGE_SHIFT f, 63, 0⟩
/-- FR_AGE_STAT, spec/18_lifetime_ageing.md. -/
abbrev FR_AGE_STAT (f : Nat) : Nat := 0x100810 + 0x10000 * f
abbrev FR_AGE_STAT_BAD_LINES (f : Nat) : Fld := ⟨FR_AGE_STAT f, 3, 0⟩
abbrev FR_AGE_STAT_CAUSE (f : Nat) : Fld := ⟨FR_AGE_STAT f, 7, 4⟩
/-- FR_IMEM_m, spec/03_frond_core.md. -/
abbrev FR_IMEM (f i : Nat) : Nat := 0x104000 + 0x10000 * f + 8 * i
abbrev FR_IMEM_WORD_LO (f i : Nat) : Fld := ⟨FR_IMEM f i, 31, 0⟩
abbrev FR_IMEM_WORD_HI (f i : Nat) : Fld := ⟨FR_IMEM f i, 63, 32⟩
/-- FR_CAP_n, spec/06_hysteretic_regulation.md. -/
abbrev FR_CAP (f i : Nat) : Nat := 0x108000 + 0x10000 * f + 8 * i
abbrev FR_CAP_VM (f i : Nat) : Fld := ⟨FR_CAP f i, 15, 0⟩
abbrev FR_CAP_INJ (f i : Nat) : Fld := ⟨FR_CAP f i, 31, 16⟩
abbrev FR_CAP_ISUM (f i : Nat) : Fld := ⟨FR_CAP f i, 47, 32⟩
abbrev FR_CAP_NHIGH (f i : Nat) : Fld := ⟨FR_CAP f i, 53, 48⟩
abbrev FR_CAP_SAT (f i : Nat) : Fld := ⟨FR_CAP f i, 57, 56⟩

/-- Rows of the RZ_ block. -/
def rowsRZ0 : List RegRow := [
  ⟨.RZ_ID, 0x0, 8, 1, 0x0, 0x0, 0x0, 0x0, 0x1082040465a⟩,
  ⟨.RZ_ISLAND_PROBE, 0x100, 8, 1, 0x1fff, 0x0, 0x0, 0x0, 0x0⟩,
  ⟨.RZ_ISLAND_CYCLES, 0x108, 8, 1, 0x0, 0x0, 0x0, 0x0, 0x0⟩,
  ⟨.RZ_ISLAND_SEQ, 0x110, 8, 1, 0x0, 0x0, 0x0, 0x0, 0x0⟩,
  ⟨.RZ_ISLAND_RST, 0x118, 8, 1, 0xff, 0x0, 0x0, 0x1000, 0x0⟩,
  ⟨.RZ_IBUS_OPT, 0x200, 8, 1, 0x37f7fffffff03, 0x0, 0x0, 0x0, 0x500014859402⟩,
  ⟨.RZ_IBUS_STAT, 0x208, 8, 1, 0x0, 0x0, 0x0, 0x0, 0x28⟩,
  ⟨.RZ_BRIDGE_CMD, 0x300, 8, 1, 0x13f, 0x0, 0x0, 0x3000, 0x0⟩,
  ⟨.RZ_TOPK_CTRL, 0x400, 8, 1, 0x3f, 0x0, 0x0, 0x100, 0x20⟩,
  ⟨.RZ_TOPK_RES, 0x408, 8, 8, 0x0, 0x0, 0x0, 0x0, 0x0⟩,
  ⟨.RZ_PRIV_STAT, 0x500, 8, 1, 0x0, 0x0, 0x0, 0x0, 0x0⟩,
  ⟨.RZ_PERF_CTRL, 0x520, 8, 1, 0xffff07ffff03, 0x0, 0x0, 0x0, 0xa0a04000000⟩,
  ⟨.RZ_PERF_STAT, 0x528, 8, 1, 0x0, 0x0, 0x0, 0x0, 0x0⟩,
  ⟨.RZ_DEGRADE, 0x600, 8, 1, 0x3fffff01, 0x0, 0x0, 0x0, 0x30086401⟩,
  ⟨.RZ_SAG_CFG, 0x608, 8, 1, 0xff7fffffffff, 0x0, 0x0, 0x0, 0xa100a0a648c⟩,
  ⟨.RZ_HARD_STAT, 0x610, 8, 1, 0x0, 0x0, 0x0, 0x0, 0x0⟩,
  ⟨.RZ_NEAR_MISS, 0x618, 8, 1, 0x0, 0x0, 0x0, 0x0, 0x0⟩,
  ⟨.RZ_PAIR_CFG, 0x700, 8, 1, 0x1ff, 0x0, 0x0, 0x0, 0x114⟩,
  ⟨.RZ_PAIR_STAT, 0x708, 8, 1, 0x0, 0x0, 0x0, 0x0, 0x0⟩,
  ⟨.RZ_FLT_STAT, 0x1000, 8, 8, 0x0, 0xffffffffffffffff, 0x0, 0x0, 0x0⟩]

/-- Rows of the RZ_ block. -/
def rowsRZ1 : List RegRow := [
  ⟨.RZ_FLT_FIRST, 0x1040, 8, 1, 0x0, 0x100, 0x0, 0x0, 0x0⟩,
  ⟨.RZ_FLT_CTRL, 0x1048, 8, 1, 0xff7fffff7777, 0x0, 0x0, 0x1000000000000, 0x6410fe7f2314⟩,
  ⟨.RZ_FLT_LIVE, 0x1050, 8, 1, 0x0, 0x0, 0x0, 0x0, 0x0⟩,
  ⟨.RZ_FLT_LAST, 0x1080, 8, 8, 0x0, 0x0, 0x0, 0x0, 0x0⟩,
  ⟨.RZ_FLT_NVM, 0x10c0, 8, 1, 0x0, 0x0, 0x0, 0x1000000, 0x0⟩,
  ⟨.RZ_FLT_CFG, 0x1800, 8, 256, 0xfefffff307, 0x0, 0x0, 0x100000000, 0x64000⟩,
  ⟨.RZ_FLT_UNIT, 0x2000, 8, 256, 0x0, 0x0, 0x0, 0x0, 0x0⟩]

def rowsRZ : List RegRow := rowsRZ0 ++ rowsRZ1

/-- Rows of the FC_ block. -/
def rowsFC : List RegRow := [
  ⟨.FC_TARGET, 0x0, 8, 1, 0xffffffffffffffff, 0x0, 0x0, 0x0, 0x0⟩,
  ⟨.FC_LOAD_SRC, 0x8, 8, 1, 0xffffff, 0x0, 0x0, 0x0, 0x0⟩,
  ⟨.FC_LOAD_CMD, 0x10, 8, 1, 0x1ffffff, 0x0, 0x0, 0x100000000, 0x0⟩,
  ⟨.FC_PUSH_DATA, 0x18, 8, 1, 0xffffffffffffffff, 0x0, 0x0, 0x0, 0x0⟩,
  ⟨.FC_PUSH_CMD, 0x20, 8, 1, 0x3f, 0x0, 0x0, 0x100, 0x0⟩]

/-- Rows of the AD_ block. -/
def rowsAD : List RegRow := [
  ⟨.AD_CFG, 0x0, 8, 1, 0xffffffffffffffff, 0x0, 0x0, 0x0, 0xa41e04051019032⟩,
  ⟨.AD_NBR_CFG, 0x8, 8, 1, 0x1ffffff, 0x0, 0x0, 0x0, 0x1c80430⟩,
  ⟨.AD_STAT, 0x10, 8, 1, 0x0, 0x0, 0x0, 0x0, 0x0⟩,
  ⟨.AD_CONV_CFG, 0x100, 8, 8, 0xffffffff, 0x0, 0x0, 0x0, 0x0⟩,
  ⟨.AD_CONV_TRIG, 0x140, 8, 8, 0xfffff1ffff3ff, 0x0, 0x0, 0x8000000000000000, 0x0⟩,
  ⟨.AD_CONV_STAT, 0x180, 8, 8, 0x0, 0x0, 0x0, 0x0, 0x0⟩,
  ⟨.AD_WIN_CFG, 0x400, 8, 64, 0xfffffffff7fff, 0x0, 0x0, 0x0, 0xfff0000000⟩,
  ⟨.AD_WIN_OUT, 0x600, 8, 1, 0x0, 0x0, 0x0, 0x0, 0x0⟩,
  ⟨.AD_WIN_EVT, 0x608, 8, 1, 0x0, 0xffffffffffffffff, 0x0, 0x0, 0x0⟩,
  ⟨.AD_DMA_CFG, 0x800, 32, 16, 0xffffffffffff0f3f, 0x0, 0x0, 0x0, 0x0⟩,
  ⟨.AD_DMA_WR, 0x808, 32, 16, 0x0, 0x0, 0x0, 0x0, 0x0⟩,
  ⟨.AD_DMA_RD, 0x810, 32, 16, 0xffffffff, 0x0, 0x0, 0x0, 0x0⟩,
  ⟨.AD_DMA_STAT, 0x818, 32, 16, 0x0, 0xf, 0x0, 0x0, 0x0⟩,
  ⟨.AD_LCAL_CFG, 0xc00, 8, 1, 0xffffffffff7f, 0x0, 0x0, 0x0, 0x3e80419084e⟩,
  ⟨.AD_LCAL_CMD, 0xc08, 8, 1, 0x3f, 0x0, 0x0, 0x100, 0x0⟩,
  ⟨.AD_LCAL_STAT, 0xc10, 8, 1, 0x0, 0x0, 0x0, 0x0, 0x0⟩,
  ⟨.AD_RET_CLASS, 0x1000, 8, 16, 0xfffff, 0x0, 0x0, 0x0, 0x960⟩,
  ⟨.AD_RET_DOM, 0x2000, 8, 1536, 0x1f, 0x0, 0x0, 0x0, 0x100⟩]

/-- Rows of the TH_ block. -/
def rowsTH : List RegRow := [
  ⟨.TH_CFG, 0x0, 8, 1, 0xffffffffffffff, 0x0, 0x0, 0x0, 0x206040802006e0⟩,
  ⟨.TH_STAT, 0x10, 8, 1, 0x0, 0x0, 0x0, 0x0, 0x0⟩,
  ⟨.TH_BAND, 0x100, 8, 8, 0xffffffff, 0x0, 0x0, 0x0, 0x0⟩,
  ⟨.TH_REM_CFG, 0x800, 8, 16, 0xffffffffffff007f, 0x0, 0x0, 0x0, 0x20000000⟩,
  ⟨.TH_REM_STAT, 0x900, 8, 16, 0x0, 0x0, 0x0, 0x0, 0x0⟩,
  ⟨.TH_SENS, 0x1000, 8, 256, 0x0, 0x800000000, 0x0, 0x0, 0x1000000000⟩,
  ⟨.TH_SCAL, 0x2000, 8, 256, 0x0, 0x0, 0x0, 0x0, 0x1901000⟩]

/-- Rows of the VP_ block. -/
def rowsVP : List RegRow := [
  ⟨.VP_STAGE, 0x0, 8, 48, 0x0, 0x0, 0x0, 0x0, 0x0⟩,
  ⟨.VP_STAGE_CMD, 0x180, 8, 1, 0x3f, 0x0, 0x0, 0x300, 0x0⟩,
  ⟨.VP_GRP_PWM, 0x400, 8, 8, 0xff07ffff, 0x0, 0x0, 0x0, 0x2710⟩,
  ⟨.VP_GRP_LOOP, 0x440, 8, 8, 0xffffffffffffffff, 0x0, 0x0, 0x0, 0x8432145000080100⟩,
  ⟨.VP_GRP_LIM, 0x480, 8, 8, 0xff0fff03ffffff, 0x0, 0x0, 0x0, 0x32030a00646460⟩,
  ⟨.VP_GRP_LL, 0x4c0, 8, 8, 0x1ffffffffffffff, 0x0, 0x0, 0x0, 0x6542810082a027⟩,
  ⟨.VP_VID, 0x500, 8, 8, 0x3fff, 0x0, 0x0, 0x0, 0x0⟩,
  ⟨.VP_GRP_STAT, 0x540, 8, 8, 0x0, 0x0, 0x0, 0x0, 0x0⟩,
  ⟨.VP_VIN_CFG, 0x600, 8, 1, 0xffffffff, 0x0, 0x0, 0x0, 0x532230aa⟩,
  ⟨.VP_VIN_STAT, 0x608, 8, 1, 0x0, 0x0, 0xffff00000000, 0x0, 0xffff00030000⟩,
  ⟨.VP_SYNC_STAT, 0x610, 8, 1, 0x0, 0x0, 0x0, 0x0, 0x0⟩,
  ⟨.VP_LASTF, 0x700, 8, 8, 0x0, 0x0, 0x0, 0x0, 0x0⟩,
  ⟨.VP_LASTF_STAT, 0x740, 8, 1, 0x0, 0x0, 0x0, 0x10000, 0x0⟩]

/-- Rows of the BG_ block. -/
def rowsBG : List RegRow := [
  ⟨.BG_CTRL, 0x0, 8, 1, 0xffffff0fff07, 0x0, 0x0, 0x0, 0x8006401ff04⟩,
  ⟨.BG_CAP, 0x8, 8, 1, 0xffffffffffffff, 0x0, 0x0, 0x0, 0x80b4ffffffffff⟩,
  ⟨.BG_EST_CFG, 0x10, 8, 1, 0xffffffffffffff, 0x0, 0x0, 0x0, 0xe4080a0c001c00⟩,
  ⟨.BG_STAT, 0x18, 8, 1, 0x0, 0x0, 0x0, 0x0, 0xe400000fffff⟩,
  ⟨.BG_POWER, 0x20, 8, 1, 0x0, 0x0, 0x0, 0x0, 0x0⟩,
  ⟨.BG_RHO, 0x40, 8, 8, 0x7fffffff, 0x0, 0x0, 0x0, 0x0⟩,
  ⟨.BG_REP_CFG, 0x80, 8, 1, 0x1f1f0001, 0x0, 0x0, 0x0, 0x1c180000⟩,
  ⟨.BG_REP_STAT, 0x88, 8, 1, 0x0, 0x0, 0x0, 0x0, 0x0⟩,
  ⟨.BG_ENERGY, 0x90, 8, 1, 0x0, 0x0, 0x0, 0x0, 0x0⟩,
  ⟨.BG_JOB_STAT, 0x98, 8, 1, 0x0, 0x0, 0x0, 0x0, 0x0⟩]

/-- Rows of the FH_ block. -/
def rowsFH : List RegRow := [
  ⟨.FH_CTRL, 0x0, 8, 1, 0x1, 0x0, 0x0, 0x0, 0x0⟩,
  ⟨.FH_STAT, 0x8, 8, 1, 0x0, 0x0, 0x0, 0x0, 0x3⟩,
  ⟨.FH_CFG, 0x10, 8, 1, 0xffffffffffff, 0x0, 0x0, 0x0, 0x40817d104204⟩,
  ⟨.FH_NLMS_CFG, 0x18, 8, 1, 0xff01ffffffff, 0x0, 0x0, 0x0, 0x50013c002400⟩,
  ⟨.FH_MODEL_CMD, 0x40, 8, 1, 0xc, 0x0, 0x0, 0x3, 0x0⟩,
  ⟨.FH_MODEL_STAT, 0x48, 8, 1, 0x0, 0x0, 0x0, 0x0, 0x0⟩,
  ⟨.FH_HINT_STAT, 0x80, 8, 1, 0x0, 0x0, 0x0, 0x0, 0x0⟩,
  ⟨.FH_ARITH_STAT, 0x180, 8, 1, 0x0, 0xf, 0x0, 0x0, 0x0⟩,
  ⟨.FH_FROND, 0x200, 8, 64, 0x0, 0x0, 0x0, 0x0, 0x0⟩]

/-- Rows of the MT_ block. -/
def rowsMT : List RegRow := [
  ⟨.MT_LANE_CFG, 0x0, 8, 4, 0xffffff01, 0x0, 0x0, 0x0, 0x4001001⟩,
  ⟨.MT_LANE_STAT, 0x20, 8, 4, 0x0, 0x0, 0x0, 0x0, 0x0⟩,
  ⟨.MT_LANE_FEC, 0x40, 8, 4, 0x0, 0x0, 0x0, 0x0, 0x0⟩,
  ⟨.MT_UID, 0x60, 8, 1, 0x0, 0x0, 0x0, 0x0, 0x0⟩,
  ⟨.MT_ID_CFG, 0x100, 8, 1, 0xffff03ffff, 0x0, 0x0, 0x0, 0xa0a000000⟩,
  ⟨.MT_ID_STAT, 0x108, 8, 1, 0x0, 0x0, 0x0, 0x0, 0x0⟩,
  ⟨.MT_MEM_CFG, 0x118, 8, 1, 0x1f1f, 0x0, 0x0, 0x0, 0xa08⟩,
  ⟨.MT_KEY_LO, 0x200, 8, 1, 0x0, 0x0, 0x0, 0xffffffffffffffff, 0x0⟩,
  ⟨.MT_KEY_HI, 0x208, 8, 1, 0x0, 0x0, 0x0, 0xffffffffffffffff, 0x0⟩,
  ⟨.MT_KEY_CMD, 0x210, 8, 1, 0x1ff, 0x0, 0x0, 0x200, 0x0⟩,
  ⟨.MT_SEC_STAT, 0x300, 8, 1, 0x0, 0x0, 0x0, 0x0, 0x0⟩,
  ⟨.MT_ROUTE_STAT, 0x308, 8, 1, 0x0, 0x0, 0x0, 0x0, 0x0⟩,
  ⟨.MT_RA_CFG, 0x400, 8, 1, 0xff03ff03ff, 0x0, 0x0, 0x0, 0x1000000000⟩,
  ⟨.MT_CAP_DST, 0x480, 8, 1, 0xffffff, 0x0, 0x0, 0x0, 0x0⟩,
  ⟨.MT_SITE, 0x500, 8, 1, 0x1ffffffff, 0x0, 0x0, 0x0, 0x0⟩,
  ⟨.MT_PMAT, 0x508, 8, 1, 0x0, 0x0, 0x0, 0x0, 0x10000000000⟩,
  ⟨.MT_GRP_CFG, 0x1000, 8, 256, 0xffff0000ff1f, 0x0, 0x0, 0x0, 0x3200⟩,
  ⟨.MT_GRP_MGR, 0x1800, 8, 256, 0xfffffffffffff, 0x0, 0x0, 0x0, 0x1003190000000⟩,
  ⟨.MT_GRP_MEM, 0x2000, 8, 256, 0xffffffffff, 0x0, 0x0, 0x0, 0xc80afff12c⟩,
  ⟨.MT_GRP_STAT, 0x2800, 8, 256, 0x0, 0x0, 0x0, 0x0, 0x0⟩]

/-- Rows of the MS_ block. -/
def rowsMS : List RegRow := [
  ⟨.MS_BANK, 0x0, 8, 32, 0x17, 0x0, 0x0, 0x0, 0x0⟩,
  ⟨.MS_CFG, 0x100, 8, 1, 0xffffffff1f, 0x0, 0x0, 0x0, 0x1000101a⟩,
  ⟨.MS_STAT, 0x108, 8, 1, 0x0, 0x0, 0x0, 0x0, 0x0⟩,
  ⟨.MS_Q_SEL, 0x200, 8, 1, 0x1fff, 0x0, 0x0, 0x0, 0x0⟩,
  ⟨.MS_Q_STAT, 0x208, 8, 1, 0x0, 0x0, 0x0, 0x0, 0x0⟩,
  ⟨.MS_CONFLICT, 0x1000, 8, 256, 0x0, 0x0, 0xffffffff, 0x0, 0x0⟩]

/-- Rows of the NV_ block. -/
def rowsNV : List RegRow := [
  ⟨.NV_BOOT_STAT, 0x0, 8, 1, 0x0, 0x0, 0x0, 0x0, 0x10⟩,
  ⟨.NV_IMAGE_ID, 0x8, 8, 1, 0x0, 0x0, 0x0, 0x0, 0x0⟩,
  ⟨.NV_UPD_ADDR, 0x10, 8, 1, 0xffffff7fffff, 0x0, 0x0, 0x0, 0x0⟩,
  ⟨.NV_UPD_CMD, 0x18, 8, 1, 0x3fffff8, 0x0, 0x0, 0x7, 0x0⟩,
  ⟨.NV_AGE_CFG, 0x100, 8, 1, 0x7ff3f0fffff01, 0x0, 0x0, 0x0, 0x3c828041e1800⟩,
  ⟨.NV_AGE_CMD, 0x108, 8, 1, 0x0, 0x0, 0x0, 0x3, 0x0⟩,
  ⟨.NV_AGE_STAT, 0x110, 8, 1, 0x0, 0x0, 0x0, 0x0, 0x0⟩,
  ⟨.NV_LIFE_STAT, 0x208, 8, 1, 0x0, 0x0, 0x0, 0x800000000, 0x0⟩,
  ⟨.NV_READ_CMD, 0x210, 8, 1, 0xffffff03ff, 0x0, 0x0, 0x10000000000, 0x0⟩]

/-- Rows of the FR_ block. -/
def rowsFR0 : List RegRow := [
  ⟨.FR_CORE_CTRL, 0x0, 8, 1, 0xff01, 0x0, 0x0, 0x2, 0x401⟩,
  ⟨.FR_CORE_STAT, 0x8, 8, 1, 0x0, 0x0, 0x0, 0x0, 0x0⟩,
  ⟨.FR_SAMPLE_CFG, 0x10, 8, 1, 0x7f, 0x0, 0x0, 0x0, 0x9⟩,
  ⟨.FR_PHASE_MASK, 0x18, 8, 1, 0xffffffff, 0x0, 0x0, 0x0, 0x11111111⟩,
  ⟨.FR_SCHED_STAT, 0x20, 8, 1, 0x0, 0x0, 0xfff, 0x0, 0x0⟩,
  ⟨.FR_SLOT_COUNT, 0x28, 8, 1, 0x0, 0x0, 0x0, 0x0, 0x0⟩,
  ⟨.FR_PROG_STAT, 0x30, 8, 1, 0x0, 0x7, 0x0, 0x0, 0x0⟩,
  ⟨.FR_PROG_CTRL, 0x38, 8, 1, 0x3, 0x0, 0x0, 0x0, 0x3⟩,
  ⟨.FR_BRIDGE_STAT, 0x40, 8, 1, 0x0, 0x0, 0x0, 0x0, 0x0⟩,
  ⟨.FR_GUARD_CFG, 0x50, 8, 1, 0xffff, 0x0, 0x0, 0x0, 0x4058⟩,
  ⟨.FR_GUARD_STAT, 0x58, 8, 1, 0x0, 0xffffffff, 0x0, 0x0, 0x0⟩,
  ⟨.FR_LAW_CFG, 0x60, 8, 1, 0xfffffff1fffff, 0x0, 0x0, 0x0, 0xc83219117d12⟩,
  ⟨.FR_LAW_STAT, 0x68, 8, 1, 0x0, 0x0, 0x0, 0x0, 0x0⟩,
  ⟨.FR_INJ_CFG, 0x70, 8, 1, 0x1ffffffffff3, 0x0, 0x0, 0xc, 0x0⟩,
  ⟨.FR_INJ_STAT, 0x78, 8, 1, 0x0, 0x0, 0x0, 0x0, 0x0⟩,
  ⟨.FR_SAT_CFG, 0x80, 8, 1, 0x3fffff, 0x0, 0x0, 0x0, 0x321e⟩,
  ⟨.FR_RAIL_CMD, 0x88, 8, 1, 0x0, 0x0, 0x0, 0x3, 0x0⟩,
  ⟨.FR_SETPOINT, 0x90, 8, 1, 0xfffff1, 0x0, 0x0, 0x0, 0xaf00⟩,
  ⟨.FR_PROF_CFG, 0x98, 8, 1, 0xffffffffffff, 0x0, 0x0, 0x0, 0x14001400280⟩,
  ⟨.FR_SS_CFG, 0xa0, 8, 1, 0x3ffffffffffffff, 0x0, 0x0, 0x0, 0x364004000400040⟩]

/-- Rows of the FR_ block. -/
def rowsFR1 : List RegRow := [
  ⟨.FR_RAIL_STAT, 0xa8, 8, 1, 0x0, 0x0, 0x0, 0x0, 0x10000000000⟩,
  ⟨.FR_OPP_CFG, 0xb0, 8, 1, 0xffff0fff, 0x0, 0x0, 0x0, 0x28080028⟩,
  ⟨.FR_FMAX, 0xc0, 8, 8, 0x0, 0x0, 0x0, 0x0, 0x0⟩,
  ⟨.FR_GROUP, 0x100, 8, 8, 0xffffffff3fffffff, 0x0, 0x0, 0x0, 0x0⟩,
  ⟨.FR_SCALAR, 0x200, 8, 64, 0x0, 0x0, 0x0, 0x0, 0x0⟩,
  ⟨.FR_PHASE_HEALTH, 0x400, 8, 1, 0x0, 0xffffffffffffffff, 0x0, 0x0, 0x0⟩,
  ⟨.FR_DEGRADE_CFG, 0x408, 8, 1, 0x3ffffff, 0x0, 0x0, 0x0, 0x140400c⟩,
  ⟨.FR_GOV_CFG, 0x480, 8, 1, 0xff, 0x0, 0x0, 0x0, 0x28⟩,
  ⟨.FR_GOV_STAT, 0x488, 8, 1, 0x0, 0x0, 0x0, 0x0, 0x1f408001001⟩,
  ⟨.FR_LEAF_CAL, 0x600, 8, 32, 0xffffffff, 0x0, 0x0, 0x0, 0x4006400⟩,
  ⟨.FR_VSNS_CAL, 0x700, 8, 4, 0xffffffff, 0x0, 0x0, 0x0, 0x4000⟩,
  ⟨.FR_LEAF_STAT, 0x720, 8, 1, 0x0, 0xf0000, 0x0, 0x0, 0x0⟩,
  ⟨.FR_CANARY, 0x800, 8, 1, 0x0, 0x0, 0x0, 0x0, 0x8080808080808080⟩,
  ⟨.FR_AGE_SHIFT, 0x808, 8, 1, 0x0, 0x0, 0x0, 0x0, 0x0⟩,
  ⟨.FR_AGE_STAT, 0x810, 8, 1, 0x0, 0x0, 0x0, 0x0, 0x0⟩,
  ⟨.FR_IMEM, 0x4000, 8, 2048, 0xffffffffffffffff, 0x0, 0x0, 0x0, 0x0⟩,
  ⟨.FR_CAP, 0x8000, 8, 1024, 0x0, 0x0, 0x0, 0x0, 0x0⟩]

def rowsFR : List RegRow := rowsFR0 ++ rowsFR1

/-- Instruction ROM, R110 and Tables 4-11, 4-13, 4-14 and 4-15: (word address, word); every other ROM word reads 0. -/
def romWords : List (Nat × Nat) := [
  (0xE00, 0xA0007008), (0xE01, 0x48033200), (0xE02, 0x08190920), (0xE03, 0x44080000), (0xE04, 0x401B3062),
  (0xE05, 0x24101240), (0xE06, 0x6C103001), (0xE07, 0xF2002960), (0xE10, 0xA100A00B), (0xE11, 0x64900FFF),
  (0xE12, 0x64980004), (0xE13, 0x04BC0720), (0xE14, 0xACA30011), (0xE15, 0x08B17660), (0xE16, 0x18A96260),
  (0xE17, 0x0CB30286), (0xE18, 0x08B152C0), (0xE19, 0x64A00028), (0xE1A, 0x4E816280), (0xE20, 0xA0007008),
  (0xE21, 0x48033200), (0xE22, 0x08190920), (0xE23, 0x44080000), (0xE24, 0x401B3062), (0xE25, 0x24101240),
  (0xE26, 0x6C103001), (0xE27, 0xF2002960), (0xE30, 0xA100D008), (0xE31, 0xE0DC1C07), (0xE32, 0xACA30011),
  (0xE33, 0x08B17660), (0xE34, 0x18A96980), (0xE35, 0x0CB30286), (0xE36, 0x08B152C0), (0xE37, 0x4E816900),
  (0xE38, 0x70B415E0), (0xE39, 0x04B16800), (0xE3A, 0x10A962E0), (0xE3B, 0x04B96720), (0xE3C, 0x70B410B0),
  (0xE3D, 0x429362C5)]

/-- Word w of the instruction memory after reset: RAM reads 0 (Program memory and loading), ROM reads Table 4-11. -/
def imemReset (w : Nat) : Nat := tget 0 romWords w

/-- Table 15-1: class, reset SEV and reset ACT of source i; none for a reserved index (R332). -/
def fltRow (i : Nat) : Option (Nat × Nat × Nat) :=
  if i = 0x00 then some (0, 2, 0)
  else if i = 0x01 then some (0, 3, 2)
  else if i ≤ 0x0D then some (0, [4, 4, 2, 4, 2, 4, 2, 4, 1, 1, 2, 1].getD (i - 2) 0, 0)
  else if i = 0x0E then some (0, 0, 0)
  else if i = 0x10 ∨ i = 0x11 then some (1, 2, 0)
  else if i = 0x12 ∨ i = 0x13 then some (1, 4, 0)
  else if i = 0x14 then some (1, 1, 0)
  else if i = 0x18 ∨ i = 0x1B then some (2, 2, 0)
  else if i = 0x19 then some (2, 1, 0)
  else if i = 0x1A ∨ i = 0x1C then some (2, 0, 0)
  else if 0x20 ≤ i ∧ i ≤ 0x25 then some (3, [1, 2, 2, 1, 1, 1].getD (i - 0x20) 0, 0)
  else if 0x28 ≤ i ∧ i ≤ 0x2A then some (4, 2, 0)
  else if 0x2B ≤ i ∧ i ≤ 0x2D then some (4, 1, 0)
  else if 0x30 ≤ i ∧ i ≤ 0x32 then some (5, 2, 0)
  else if i = 0x33 then some (5, 1, 0)
  else if i = 0x38 ∨ i = 0x3B then some (6, 1, 0)
  else if i = 0x39 ∨ i = 0x3A then some (6, 2, 0)
  else if 0x40 ≤ i ∧ i ≤ 0x7F then some (7, 0, 0)
  else if 0x80 ≤ i ∧ i ≤ 0x8F then some (8, 1, 0)
  else if 0x90 ≤ i ∧ i ≤ 0x94 then some (9, [2, 1, 2, 1, 2].getD (i - 0x90) 0, 0)
  else if i = 0x95 then some (9, 1, 0)
  else if 0x98 ≤ i ∧ i ≤ 0xA7 then some (10, 2, 0)
  else if i = 0xA8 ∨ i = 0xA9 then some (10, 2, 0)
  else if i = 0xAA then some (10, 1, 0)
  else if 0xB0 ≤ i ∧ i ≤ 0xB2 then some (11, 1, 0)
  else if i = 0xB3 then some (11, 2, 0)
  else if i = 0xB8 ∨ i = 0xBA then some (12, 1, 0)
  else if i = 0xB9 then some (12, 0, 0)
  else if i = 0xC0 ∨ i = 0xC1 then some (13, 1, 0)
  else if i = 0xC8 ∨ i = 0xCC then some (14, 0, 0)
  else if 0xC9 ≤ i ∧ i ≤ 0xCD then some (14, 1, 0)
  else if 0xD0 ≤ i ∧ i ≤ 0xDF then some (15, 1, 0)
  else none

/-- The self-test of source i in Table 15-1; 0 for none. -/
def fltTest (i : Nat) : Nat :=
  if i = 0x00 then 6 else if 1 ≤ i ∧ i ≤ 0x0D then 7 else if i = 0x13 ∨ i = 0x18 ∨ i = 0x1B ∨ i = 0x31 ∨ i = 0xC1 then 4
  else if i = 0x28 ∨ i = 0x2C then 1 else if i = 0x38 ∨ i = 0x39 then 2 else if i = 0x3A then 3
  else if 0x90 ≤ i ∧ i ≤ 0x94 then 8 else if i = 0xB1 then 9 else if i = 0xC8 ∨ i = 0xC9 then 5 else 0

/-- Table 16-3: the owner code of bank b after reset; Rhizome A is the active Rhizome after reset (R370). -/
def bankOwnerReset (b : Nat) : Nat :=
  if b ≤ 7 then 1 else if b ≤ 11 then 6 else if b ≤ 15 then 3 else if b ≤ 19 then 5 else if b ≤ 23 then 3
  else if b ≤ 28 then 1 else if b = 29 then 7 else 4

/-- Table 11-2: (T_LO in degrees Celsius, REFRESH, WSET, GUARD) of band b at reset. -/
def bandReset (b : Nat) : Nat × Nat × Nat × Nat :=
  [(0, 0, 0, 0), (40, 0, 0, 4), (55, 0, 1, 8), (70, 0, 1, 12), (80, 1, 2, 20), (88, 1, 2, 40), (95, 2, 3, 60), (100, 2, 3, 80)].getD b (0, 0, 0, 0)

/-- The reset word of index i of a row: the field table's value, with the fields whose reset the table gives by index. A source that Table 15-1 does not list has no stated SEV, CLASS and
ACT: they are 0 (log entry 16). -/
def rowReset (r : RegRow) (i : Nat) : Nat :=
  match r.name with
  | .RZ_FLT_CFG =>
    match fltRow i with
    | none => r.rst
    | some (c, sev, act) => r.rst + sev + c * 2 ^ 4 + act * 2 ^ 8
  | .MS_BANK => r.rst + bankOwnerReset i + (if i = 30 ∨ i = 31 then 2 ^ 8 else 0)
  | .TH_BAND =>
    let b := bandReset i
    putBits (putBits (putBits (putBits 0 (TH_BAND_T_LO i).hi (TH_BAND_T_LO i).lo (b.1 * 16)) (TH_BAND_REFRESH i).hi (TH_BAND_REFRESH i).lo b.2.1)
      (TH_BAND_WSET i).hi (TH_BAND_WSET i).lo b.2.2.1) (TH_BAND_GUARD i).hi (TH_BAND_GUARD i).lo b.2.2.2
  | .VP_GRP_PWM => r.rst + i * 0x20 * 2 ^ 24
  | .FR_IMEM => imemReset (2 * i) + imemReset (2 * i + 1) * 2 ^ 32
  | _ => r.rst

/-- The rows of the block that holds a global (non-frond) address, Table 19-1. -/
def rowsOfBlock (k : Nat) : List RegRow :=
  match k with
  | 0 => rowsRZ | 1 => rowsFC | 2 => rowsAD | 3 => rowsTH | 4 => rowsVP
  | 5 => rowsBG | 6 => rowsFH | 7 => rowsMT | 8 => rowsMS | 9 => rowsNV
  | _ => []

/-- The row that assigns offset o, and the index within it; none for an unassigned offset (R395). -/
def findRow : List RegRow → Nat → Option (RegRow × Nat)
  | [], _ => none
  | r :: rs, o =>
    if r.off ≤ o ∧ (o - r.off) % r.stride = 0 ∧ (o - r.off) / r.stride < r.cnt
        ∧ ¬ (r.name = .MS_CONFLICT ∧ (o - r.off) / r.stride % 8 = 7) then
      some (r, (o - r.off) / r.stride)
    else findRow rs o

/-- A register found by its address: its row, the frond of an FR_ block (0 otherwise), and its index. -/
structure RegAt where
  row : RegRow
  f : Nat
  i : Nat
deriving DecidableEq, Repr

/-- Table 19-1 decoding of a register address (Moss addresses are decoded apart). -/
def regAt (a : Nat) : Option RegAt :=
  if a < 0xA0000 then
    match findRow (rowsOfBlock (a / 0x10000)) (a % 0x10000) with
    | none => none
    | some (r, i) => some ⟨r, 0, i⟩
  else if 0x100000 ≤ a ∧ a < 0x500000 then
    match findRow rowsFR ((a - 0x100000) % 0x10000) with
    | none => none
    | some (r, i) => some ⟨r, (a - 0x100000) / 0x10000, i⟩
  else none

/-- The word that an address holds at reset (R398). -/
def regReset (a : Nat) : Nat :=
  match regAt a with
  | none => 0
  | some r => rowReset r.row r.i

end Sys2Proof.Machine
end

