-- ==== Sys2Proof/Machine/State.lean ====
section
/-! DEFINITION. Machine/State.lean: everything the spec gives the block, as plain data, and the state after reset.
The registers of the register map live in one file `regs`, keyed by address (Machine/Regs.lean); a register that is not listed holds its reset value.
The other fields hold what the registers do not show. -/
namespace Sys2Proof.Machine

/-- Why a command could fault. No meaning of this model faults: the spec gives every command an effect or a stated refusal. The type has no value that a meaning uses. -/
inductive Fault where
  /-- Raised by nobody (safe). -/
  | none
deriving DecidableEq, Repr

/-- Why a command could be refused by the model. -/
inductive Refusal where
  /-- Raised by an arm of `exec` that has no meaning yet (safe): the named row is not modelled. -/
  | notModelled (mnemonic : String)
deriving DecidableEq, Repr

/-- The member of the family: fronds F and phases per frond P (R1). -/
structure Member where
  fronds : Nat := 64
  phases : Nat := 32
deriving DecidableEq, Repr

/-! ### Frond core -/

/-- A remote update for a frond core: applied at a slot boundary under R23. -/
inductive FMsg where
  /-- A committed register write: offset in the FR_ block and value (R88). -/
  | write (off : Nat) (v : Nat)
  /-- A set-point command with the endpoint derived at its commit (R153, R155). -/
  | setpoint (v : Nat) (e : Nat)
  /-- A scalar push (R77). -/
  | scalar (k : Nat) (v : Nat)
  /-- A forecast record: its provenance word (R26) and W1 to W3 (R76, R263). -/
  | forecast (prov w1 w2 w3 : Nat)
  /-- The cap and governor word S4 (R76). -/
  | capWord (w : Nat)
  /-- The band word S6 (R76). -/
  | bandWord (w : Nat)
  /-- BX of the leader for S5 with its provenance word (R26, R78). -/
  | bx (prov w : Nat)
  /-- Entry to or exit from the leader (1) or follower (2) role; 0 standalone (R67). -/
  | role (r : Nat)
  /-- A wake grant with its deferred mark (R163). -/
  | grant (deferred : Bool)
  /-- A thermal trip or its end (R251). -/
  | trip (on : Bool)
  /-- The sag level with its issue limit: 1 sag, 2 deep sag (R186), 0 when the sag ends (R187). -/
  | sag (level limit : Nat)
  /-- A level-3 cap or its release (R339). -/
  | cap3 (limit : Option Nat)
  /-- The chip action: drain (R340 step 2). -/
  | chipDrain
  /-- The chip action: DARK (R340 step 3). -/
  | chipDark
  /-- A drain request of R184, or its release. -/
  | drain (on : Bool)
  /-- New Fmax points (R167): eight words as FR_FMAX_n. -/
  | fmax (pts : List Nat)
  /-- A close command for this frond's east (0) or south (1) bridge (R54). -/
  | bridgeClose (dir : Nat)
  /-- A bridge opening or abort with its cause (R56). -/
  | bridgeOpen (dir : Nat) (cause : Nat)
  /-- The Spore exit with the held entries of the image: (offset, value) and scalar pushes (R375). -/
  | sporeExit (held : List (Nat × Nat))
  /-- The partner's side of a bridge opening or abort with its cause (R56). -/
  | bridgeLeft (cause : Nat)
  /-- A canary measurement request (R383). -/
  | canary
  /-- The NIDLE_eff that the core has formed at a telemetry instant, for S1 of the next boundary (R138). -/
  | nidle (n : Nat)
deriving DecidableEq, Repr

/-- A command on a frond core's command stream: its number, and whether an access waits for its acknowledgement. Numbers are counted without end; the stream carries their low
32 bits (R25). -/
structure FCmd where
  seq : Nat
  msg : FMsg
  wait : Bool
deriving DecidableEq, Repr

/-- The execution state of a run (R94): group, program counter, lane mask M, enable E, stage exponent SX, stage format SF and the cycle at which the SX mark clears (R95). -/
structure Run where
  grp : Nat
  pc : Nat
  m : Nat
  e : Nat
  sx : Int
  sf : Nat
  sxAt : Nat
  /-- What the check bits of the run's instruction words show, by word, where it is not clean (R82). -/
  fetch : List (Nat × Ecc) := []
deriving DecidableEq, Repr

/-- The target of a pending write. -/
inductive Dest where
  | reg (code lane : Nat)
  | drv (lane : Nat)
  | tm (k : Nat)
  | bx
deriving DecidableEq, Repr

/-- A pending write (R70, R95): the first cycle in which it has landed, the group that issued it, target and value. -/
structure Wr where
  ev : Nat
  grp : Nat
  dest : Dest
  val : Nat
deriving DecidableEq, Repr

/-- The slot in progress: cycle number, groups still due in dispatch order, the running group, pending writes and the groups cut in it (R67 to R72). -/
structure Slot where
  cyc : Nat := 0
  due : List Nat := []
  run : Option Run := none
  infl : List Wr := []
  cut : List Nat := []
  /-- The most cycles this slot has used. -/
  used : Nat := 0
deriving DecidableEq, Repr

/-- A phase cell (R19, R42 to R44, R75, R137, R179). -/
structure Phase where
  /-- Latched drive element, 8 bits (Table 3-5). -/
  latched : Nat := 0
  /-- State in force: 0 both off, 1 high side on, 2 low side on. -/
  st : Nat := 0
  /-- The positive guard has tripped and the high side is held off until the release (R42). -/
  posHold : Bool := false
  /-- The negative guard has tripped: both switches off until the current returns to zero, then until the next strobe (R43). -/
  negHold : Bool := false
  /-- Trip flag of the current leaf-sample interval (R44). -/
  trip : Bool := false
  /-- Consecutive trip samples (R44). -/
  tripRun : Nat := 0
  /-- The run has reached RUN and the overcurrent source is due. -/
  ocDue : Bool := false
  /-- Zero crossing seen since the last boundary (Table 3-4 FLG[1]). -/
  zc : Bool := false
  /-- High impedance after four sample periods without a strobe (R19). -/
  hiz : Bool := false
  /-- NPER and the waveform set that the latest strobe has latched (R19, R248). -/
  nper : Nat := 9
  wave : Nat := 0
  /-- Run of low-current STATE 1 samples (R179). -/
  openRun : Nat := 0
  /-- The current estimate of a failed sense in mA as an exact fraction (R181). -/
  estNum : Int := 0
  estDen : Nat := 1
  /-- The sum of the estimates of the slot's samples, as an exact fraction (R73, R181). -/
  sumNum : Int := 0
  sumDen : Nat := 1
  /-- Last raw code and its run of equal codes (R181). -/
  lastRaw : Nat := 0
  stuck : Nat := 0
deriving DecidableEq, Repr

/-- The sensor intake of the slot in progress (R73): per-phase sums of calibrated current, last raw codes, sample count, and the last code of the four sense points. -/
structure Intake where
  isum : Tbl Int := []
  raw : Tbl Nat := []
  n : Nat := 0
  vs : List Nat := [0, 0, 0, 0]
  trips : Nat := 0
  /-- Window base B of the slot in progress (R217). -/
  base : Nat := 0
deriving DecidableEq, Repr

/-- The move plan of the profile generator (R158): P0, E and the limits in 1/128 of the field units (so that a halved V stays exact, R160), ticks since the start, and ticks to wait first (R166). -/
structure Plan where
  p0 : Nat
  e : Nat
  v : Nat
  a : Nat
  j : Nat
  tick : Nat
  wait : Nat
  /-- The code formed at the latest tick. -/
  last : Nat
deriving DecidableEq, Repr

/-- Set-point, profile and rail state (R153 to R167). The rail state itself is FR_RAIL_STAT. -/
structure Rail where
  plan : Option Plan := none
  /-- The code of the latest tick, waiting for the boundary (R159). -/
  code : Option Nat := none
  /-- The last tick has delivered E: the move ends at the boundary. -/
  ending : Bool := false
  /-- Pending set-point command: (endpoint, SEQ) (R156). -/
  pend : Option (Nat × Nat) := none
  /-- Frequency limit F_lim (R153). -/
  fLim : Nat := 255
  /-- The last applied command is in frequency form. -/
  freqForm : Bool := false
  /-- The endpoint E in force. -/
  e : Nat := 2800
  /-- A DARK is waiting for its FDROP_WAIT ticks (R162). -/
  darkWait : Bool := false
  /-- Settled slots counted for R163. -/
  settle : Nat := 0
  /-- A wake request of this frond stands at the admission controller. -/
  wakeReq : Bool := false
  /-- A soft-start abort is due at the next boundary (R164). -/
  abortDue : Bool := false
  /-- The completion of R163 is due to be taken. -/
  doneDue : Bool := false
  /-- The retry wait runs (R164). -/
  retry : Bool := false
deriving DecidableEq, Repr

/-- Regulation state outside the registers (R138 to R142). -/
structure Law where
  /-- SAT of R92 at the last boundary. -/
  sat : Int := 0
  nidleMeas : Nat := 0
  /-- Sum over the telemetry interval of the in-service current sums, and their number. -/
  iSum : Int := 0
  iN : Nat := 0
  /-- Sums of the calibrated current of each phase over the telemetry interval (Table 5-7). -/
  phSum : Tbl Int := []
  /-- The exact share of the failed senses in these sums, which their estimates form (R181, R280). -/
  iEst : Rat := 0
  phEst : Tbl Rat := []
  /-- I_f of the last telemetry interval as an exact fraction of mA (R138). -/
  iFnum : Nat := 0
  iFden : Nat := 1
  /-- Sum of the VM codes over the telemetry interval. -/
  vSum : Nat := 0
  /-- Forecast idle count, validity and FFV of the last forecast record. -/
  fcNidle : Nat := 0
  fcValid : Bool := false
  fcW1 : Nat := 0
  /-- DE and S1 values waiting for the next boundary. -/
  deNext : Bool := false
  /-- SAT_RUN exact, in units of 10 ns (the register saturates at 0xFFFF). -/
  satRun : Nat := 0
  /-- A trip has occurred in the current run (R140). -/
  satTripped : Bool := false
  satDue : Bool := false
deriving DecidableEq, Repr

/-- An injection (R147 to R150). -/
structure Inj where
  /-- GO applied: the injection starts at the next boundary. -/
  start : Bool := false
  mode : Nat := 0
  amp : Nat := 0
  half : Nat := 0
  count : Nat := 0
  dec : Nat := 0
  cap : Bool := false
  /-- Slots since the start. -/
  slot : Nat := 0
  lfsr : Nat := 127
  /-- Injection value d of the slot in progress. -/
  d : Int := 0
  /-- End causes that have occurred since the last boundary. -/
  causes : List Nat := []
  capOpen : Bool := false
  /-- The slot in progress has a capture entry, with this d (R150). -/
  capRec : Option Int := none
deriving DecidableEq, Repr

/-- Governor outputs and activity counters of a frond core (R279 to R293, R412, R413). -/
structure Gov where
  /-- Overrides in force. -/
  sagLvl : Nat := 0
  sagLim : Nat := 64
  tripOn : Bool := false
  cap3 : Option Nat := none
  chip : Bool := false
  draining : Bool := false
  /-- Slope-limited target in force and the published limit in 1/64 (GOV_ISSUE_f). -/
  issue : Nat := 1
  hold : Bool := true
  /-- Credits of R292 in mA. -/
  cr : Nat := 0
  cf : Nat := 0
  /-- Sum and number of the A0 counts of the slot (R279). -/
  a0Sum : Nat := 0
  a0N : Nat := 0
  /-- An override of R291 has held during the telemetry interval. -/
  ovrSeen : Bool := false
  /-- Activity sums of the current telemetry interval, A0 to A7. -/
  act : List Nat := [0, 0, 0, 0, 0, 0, 0, 0]
  actN : Nat := 0
  /-- GOV_STB_f toggles. -/
  stb : Nat := 0
deriving DecidableEq, Repr

/-- The close of a bridge at its leader (R54, Table 2-11): the sums of the four codes of the leader's and the partner's rail in the last eight samples, newest first, the consecutive
samples at which the means of eight differ by more than 10 mV, and the segments that have closed; at the fourth the loop is handed over. -/
structure Closing where
  sums : List (Nat × Nat) := []
  far : Nat := 0
  seg : Nat := 0
deriving DecidableEq, Repr

/-- A frond core and its phase cells: what its registers do not show. -/
structure Frond where
  slot : Slot := {}
  /-- Lane registers L, A and the inputs: key = operand code × 32 + lane (Table 4-2). -/
  lanes : Tbl W32 := []
  /-- DRV elements written by the programs, by lane. -/
  drv : Tbl W32 := []
  phases : Tbl Phase := []
  /-- TM0 to TM7 and BX. -/
  tm : Tbl W64 := []
  bx : W64 := 0
  /-- Scalar pushes held in Spore mode (R134). -/
  held : Tbl W64 := []
  intake : Intake := {}
  law : Law := {}
  inj : Inj := {}
  rail : Rail := {}
  gov : Gov := {}
  /-- Energy total T in quanta of 2.5 fJ (R127). -/
  tot : Int := 0
  /-- Core cycles since the last telemetry instant (R81). -/
  telCyc : Nat := 0
  /-- Command stream: commands in flight, expected SEQ, refusing state, commands the sender keeps (R27). -/
  air : List FCmd := []
  exp : Nat := 0
  sent : Nat := 0
  unacked : List FCmd := []
  /-- Remote updates in flight on data streams and handshakes. -/
  upd : List FMsg := []
  /-- Arrived updates waiting for the boundary, with the SEQ of the command they came from. -/
  inbox : List (Nat × FMsg) := []
  /-- The slot-overrun source is due (R72). -/
  ovrDue : Bool := false
  /-- STEP has been accepted: the next slot is stepped (R87). -/
  stepNext : Bool := false
  /-- The frond's own rail-overvoltage comparator has crossed and not released; its source is due at the boundary (R45). -/
  ovOwn : Bool := false
  ovDue : Bool := false
  /-- E has reached 2^64 − 1 since the core's reset (R127). -/
  satE : Bool := false
  closing : Closing := {}
  /-- The latest BX that has arrived while the frond is not a follower: S5 takes it with the role (R145). -/
  bxIn : Nat := 0
  /-- Phases whose leaf sense is declared failed at the next boundary (R181). -/
  senseDue : Nat := 0
deriving DecidableEq, Repr

/-! ### Host accesses, the Lichen pair and islands -/

/-- Who sends an access (R409, R415, R419, R327). -/
inductive Src where
  /-- The host register port. -/
  | host
  /-- A remote access carried by a Mat frame: requester ID and tag (R327). -/
  | mat (dev tag : Nat)
  /-- The PMBus target, with the command code (R415). -/
  | pmbus (code : Nat)
  /-- DBG_RD of the TAP (R419). -/
  | tap
  /-- The active Rhizome itself: firmware, image table, restart or a rule of the block. -/
  | own
deriving DecidableEq, Repr

/-- Status of a response (Table 20-1). -/
inductive Status where
  | ok
  | err
  | own
deriving DecidableEq, Repr

/-- A register or Moss access: sender, write or read, address and write data. -/
structure Access where
  src : Src
  we : Bool
  addr : Nat
  data : Nat
  /-- What the check bits of the Moss word that a read names show (R356). -/
  ecc : Ecc := .clean
  /-- Arrived during a takeover and answered ERR at its turn (R380). -/
  deny : Bool := false
  /-- The holding island's answer arrives in the expiry cycle of its 1 µs (R185, R396). -/
  edge : Bool := false
deriving DecidableEq, Repr

/-- A response: who receives it, status and read data. -/
structure Resp where
  src : Src
  status : Status
  data : Nat
deriving DecidableEq, Repr

/-- The learned state of the budget's estimator (R283): w[c][k] at key 8c + k, b[f] and D[c], FP32 patterns. -/
structure EstCopy where
  w : Tbl W32 := []
  b : Tbl W32 := []
  d : Tbl W32 := []
deriving DecidableEq, Repr

/-- What a journal entry commits (R376). -/
inductive JOp where
  /-- A register write. -/
  | write (addr data : Nat)
  /-- A frequency- or voltage-form set-point of frond f with its derived endpoint. -/
  | setpoint (f v e : Nat)
  /-- The withdrawal of a write that its island never acknowledged (R396). -/
  | withdraw (addr : Nat)
  /-- A bridge command: owning frond, direction, 1 close or 2 open, opening cause (R53). -/
  | bridge (f dir op cause : Nat)
  /-- A new VID of a group by its writer (R36, R198). -/
  | vid (g v : Nat)
  /-- A new NMIN of G0 (R201). -/
  | nmin (n : Nat)
  /-- The re-planned tables of all fronds, 8 × frond + point (R387). -/
  | tables (pts : List (Nat × Nat))
  /-- Taken DARK by a rule of the block (R184, R340). -/
  | darkFrond (f : Nat)
  /-- A job opened (1) or closed (0) with its JOB_ID and epoch (R299). -/
  | budget (k v e : Nat)
  /-- The weights, b and D of the estimator at the end of a budget period (R283). -/
  | estimator (c : EstCopy)
deriving DecidableEq, Repr

/-- A journal entry: number on the journal stream, of which the stream carries the low 32 bits (R25), operation, whether an access waits for it, and its provenance word (R26). -/
structure JEntry where
  seq : Nat
  op : JOp
  wait : Bool
  prov : Nat
deriving DecidableEq, Repr

/-- The access being carried out (R409): waiting for its commit, or for the acknowledgement of its island. -/
inductive Phase3 where
  | commit (seq : Nat)
  | island (isl : Nat)
  /-- Waits for the bank to wake (R359). -/
  | moss (bank : Nat)
deriving DecidableEq, Repr

/-- An acknowledgement on its way to the active Rhizome: island, outcome, whether an access waits for it; for a frond core the command that it answers, with its number (Table 3-7),
and whether that command's stream has been reset since. -/
structure Ack where
  isl : Nat
  ok : Bool
  wait : Bool
  cmd : Option FCmd := none
  old : Bool := false
deriving DecidableEq, Repr

/-- The path of accesses and the journal. -/
structure Bus where
  /-- Accepted and not yet carried out, oldest first. -/
  queue : List Access := []
  cur : Option (Access × Phase3) := none
  /-- Responses waiting at the host port (R408). -/
  resp : List Resp := []
  /-- Journal: next SEQ, entries in flight to the standby, entries waiting for their commit, acknowledgements in flight. -/
  jSeq : Nat := 0
  jAir : List JEntry := []
  jWait : List JEntry := []
  jAck : List Nat := []
  /-- Entries that have committed and wait to be acted on, in order. -/
  ready : List JEntry := []
  /-- Committed values in the order of their last commits (R405), and the standby's copy. -/
  commits : List (Nat × W64) := []
  standby : List (Nat × W64) := []
  /-- SEQ of the next entry that the standby expects. -/
  sbSeq : Nat := 0
  acks : List Ack := []
  /-- Accesses that a takeover has cut off; they are answered ERR when it completes (R379). -/
  lost : List Access := []
  /-- Committed acknowledgements of fault sources in flight to the collector (R335): register index and bits. -/
  fltAcks : List (Nat × Nat) := []
deriving DecidableEq, Repr

/-- An island as the rules see it (R16, R18). -/
structure Isl where
  cycles : W64 := 0
  /-- Declared stopped by the fault collector. -/
  stopped : Bool := false
  /-- The island does not run (it sends no heartbeat and answers no access). -/
  halted : Bool := false
  /-- Held in reset (R379, R404). -/
  inReset : Bool := false
  /-- Level of the heartbeat line (R18). -/
  beat : Bool := false
  gaps : Nat := 0
deriving DecidableEq, Repr

/-- A stream and its queue (R25 to R27, R360 to R363). Key: island × 32 + stream. -/
structure Strm where
  sent : Bool := false
  seqOut : W32 := 0
  expect : W32 := 0
  refusing : Bool := false
  /-- The number that the receiver of whole records expects; none where it takes the first as it comes (R27). -/
  next : Option W32 := some 0
  fill : Nat := 0
  ce : Nat := 0
  ue : Nat := 0
  discards : Nat := 0
  /-- R362: 1: dropping up to the next word tagged 3; 2: dropping up to the next word tagged 0 or 1. -/
  dropping : Nat := 0
deriving DecidableEq, Repr

/-- A probe in progress (R29, R363): island, stream. -/
structure Probe where
  isl : Nat
  str : Nat
deriving DecidableEq, Repr

/-! ### Fault collector -/

/-- A raise on its way to the collector (R333). -/
structure Raise where
  src : Nat
  unit : Option Nat
  detail : Nat
  isl : Nat
  forced : Bool
deriving DecidableEq, Repr

/-- A fault record, the content of Table 15-5. -/
structure FRec where
  seq : Nat
  src : Nat
  cls : Nat
  lvl : Nat
  kind : Nat
  sev : Nat
  forced : Bool
  pinned : Bool
  ovf : Bool
  rseq : Nat
  units : Nat
  test : Nat
  verdict : Nat
  tdetail : Nat
  detail : Nat
  active : Nat
deriving DecidableEq, Repr

/-- A targeted self-test that is running (R343). -/
structure TestRun where
  test : Nat
  src : Nat
  unit : Nat
  detail : Nat
  seq : Nat
  /-- The level that the raise took. -/
  lvl : Nat
deriving DecidableEq, Repr

/-- The fault collector beside its registers. -/
structure Flt where
  raises : List Raise := []
  /-- Next SEQ of stream 0 of island 0x47 (R345). -/
  seq : Nat := 0
  /-- Sources with an open window, and the SEQ of the raise that opened it (R337). -/
  windows : Tbl Nat := []
  /-- Units on which the level-3 action of a source has acted, and the caps in force as (frond, source) (R339). -/
  acted : Tbl Nat := []
  caps : List (Nat × Nat) := []
  /-- Sources whose level-3 action caps every frond in service (R339, group units). -/
  grpCap : List Nat := []
  /-- How many records the collector holds for their NVM write (R346; the spec gives no number, log entry 7). -/
  depth : Nat := 64
  tests : List TestRun := []
  /-- Set sources that reached level 4 or took the chip action (R340). -/
  chipSrcs : List Nat := []
  /-- The drain of R340 step 2 runs. -/
  chipDrain : Bool := false
  /-- ALIVE: stopped by the threshold, and the level of the pin. -/
  aliveStop : Bool := false
  alive : Bool := false
  /-- Records that wait for NVM (R346), oldest first. -/
  nvmQ : List FRec := []
  /-- A takeover has been triggered and runs (R341). -/
  takeTrig : Bool := false
  /-- RZ_FLT_LAST: the latest record. -/
  last : Option FRec := none
deriving DecidableEq, Repr

/-! ### Supervisors -/

/-- A load in progress (R83): destination word, words, Moss offset, target fronds. -/
structure Load where
  dst : Nat
  len : Nat
  src : Nat
  targets : Nat
deriving DecidableEq, Repr

/-- A telemetry record (R81, Table 13-1) with its provenance word (R26). -/
structure TelRec where
  f : Nat
  prov : Nat
  iMean : Int
  vMean : Nat
  h : Nat
  rail : Nat
  bridged : Bool
  ovr : Bool
  act : List Nat
  issue : Nat
  tgt : Nat
  hold : Nat
  fcode : Nat
  samples : Nat
  tm : List W64
  /-- Mean calibrated current of each phase over the interval, mA (Table 5-7). -/
  phase : List Int
deriving DecidableEq, Repr

/-! ### Admission (spec/08_hard_cases.md) -/

/-- A message to island 0x4B. -/
inductive AMsg where
  /-- A wake request of frond or domain n with its priority (R172). -/
  | wake (dom : Bool) (n prio : Nat)
  /-- A DARK withdraws the frond's request (R162). -/
  | withdraw (f : Nat)
  /-- A release after a DARK or a soft-start abort (R162, Table 8-1). -/
  | release (f : Nat)
  /-- A completion (R163). -/
  | complete (f : Nat)
  /-- The measured current of a frond, forwarded (R177). -/
  | current (f mA : Nat)
deriving DecidableEq, Repr

/-- A queued request: domain or frond, number, priority, whether it is deferred, whether it has ever been, and the deferred mark (R172, R178). -/
structure AReq where
  dom : Bool
  n : Nat
  prio : Nat
  deferring : Bool
  ever : Bool
  marked : Bool
deriving DecidableEq, Repr

/-- The admission controller. -/
structure Adm where
  air : List AMsg := []
  /-- The queue in queue order (R172). -/
  queue : List AReq := []
  /-- Slope reservations of fronds, 0.5 A/µs (R173). -/
  slopeF : Tbl Nat := []
  /-- Fronds between grant and completion. -/
  busyF : List Nat := []
  /-- Slope reservations of domains. -/
  slopeD : Tbl Nat := []
  /-- Retention domains whose request line RET_REQ_n is high (R302). -/
  lines : List Nat := []
  /-- Charges of the grants of the last 10 µs, oldest first, 0.1 µC. -/
  charges : List Nat := []
  /-- Measured currents forwarded to 0x4B, mA, by frond (R177). -/
  cur : Tbl Nat := []
  /-- Latest forecast record of each frond at 0x4B: largest current over its horizon in mA, if valid (R177). -/
  fc : Tbl (Option Nat) := []
deriving DecidableEq, Repr

/-! ### VPM controller (spec/09_vpm_stage.md) -/

/-- A stage channel beside VP_STAGE_n. -/
structure Stage where
  /-- The check of R200 has passed: state 2 follows at the next period start. -/
  ready : Bool := false
  /-- VP_FLT_N_n is low. -/
  flt : Bool := false
  /-- I_f of R206 in mA as an exact fraction. -/
  ifNum : Int := 0
  ifDen : Nat := 1
  /-- The latest mean current of the stage, mA. -/
  cur : Int := 0
  /-- d_k (R196). -/
  duty : Nat := 0
  /-- The rising edges that the stage has made before the group period in progress: its own periods are numbered by them (R204). -/
  idx : Nat := 0
  /-- The rising edge of the stage in the group period, the width of its high level, and how long the high level of the period before reaches into this one, 100 ps (R195). -/
  rise : Nat := 0
  width : Nat := 0
  tail : Nat := 0
  /-- The stage period of the last trip that no hiccup has used, and those for whose rest a trip holds the line low and an ended all-stage firing drives it low (R203 to R205). -/
  tripIn : Option Nat := none
  held : Option Nat := none
  low : Option Nat := none
  /-- Hiccups since the last trip-free millisecond, and microseconds since the last trip (R205). -/
  hic : Nat := 0
  quiet : Nat := 0
  /-- I_f exceeds IOL, and for how many microseconds (R206). -/
  ovl : Bool := false
  overTicks : Nat := 0
  /-- The stage period for whose rest diode emulation has cut the stage off (R202). -/
  deCut : Option Nat := none
  /-- Active in the whole of the last period (R197). -/
  full : Bool := false
  /-- A restart command waits for the check of this stage (R212). -/
  restart : Bool := false
deriving DecidableEq, Repr

/-- A supply group beside its registers. -/
structure Grp where
  /-- The PWM, LOOP, LIM and LL words in force (R211): a write takes effect at the next period start. -/
  inForce : Tbl Nat := []
  /-- VREF in 1/256 of a code (R198). -/
  vref : Nat := 0
  acc : Int := 0
  dPrev : Int := 0
  started : Bool := false
  /-- V measured at the start (R199). -/
  startV : Nat := 0
  /-- The target active count of R201. -/
  tgt : Nat := 0
  /-- Group current of the last evaluation, mA. -/
  cur : Int := 0
  firing : Bool := false
  /-- AF_HOLD runs; a period start has passed and the rail has risen since the last firing (R203). -/
  afHold : Bool := false
  armed : Bool := true
  rose : Bool := true
  /-- The period in force, 100 ps (R194). -/
  period : Nat := 10000
  /-- No period has started since the group's enable (R195). -/
  first : Bool := true
  /-- The group has run synchronised since SYNC_EN was set; an edge that starts a period has come; what its start still lacks of the synchronised position, 100 ps (R194). -/
  synced : Bool := false
  due : Bool := false
  off : Int := 0
  /-- The group's mean currents of the last 10 µs, newest first, mA (R201). -/
  hist : List Int := []
deriving DecidableEq, Repr

/-- SYNC_IN: consecutive consistent edges, their least and greatest period, the last period, and the edge count since lock (R194). -/
structure SyncIn where
  run : Nat := 0
  minP : Nat := 0
  maxP : Nat := 0
  last : Nat := 0
  count : Nat := 0
  offs : List Int := []
deriving DecidableEq, Repr

/-- The last-fault record of Table 9-12. -/
structure VRec where
  seq : Nat
  cause : Nat
  stage : Nat
  grp : Nat
  state : Nat
  hiccups : Nat
  lost : Nat
  vin : Nat
  v : Nat
  vref : Nat
  duty : Nat
  cur : Nat
  iF : Nat
  gcur : Nat
  temp : Nat
  trim : Nat
  serv : Nat
  shed : Nat
deriving DecidableEq, Repr

/-- The VPM controller. -/
structure Vpm where
  stages : Tbl Stage := []
  grps : Tbl Grp := []
  sync : SyncIn := {}
  rec_ : Option VRec := none
  /-- Committed VIDs in flight to the controller (R36, R198). -/
  vidAir : List (Nat × Nat) := []
deriving DecidableEq, Repr

/-! ### Flash and OTP (spec/17_startup_image.md, spec/18_lifetime_ageing.md) -/

/-- A boot record (Table 17-4): SEQ, SLOT, STATE, PREV, and bytes 11 to 23 as one little-endian value. -/
structure BootRec where
  seq : Nat
  slot : Nat
  state : Nat
  prev : Nat
  cfg : Nat
deriving DecidableEq, Repr

/-- A table record (Table 18-1): the points (VCODE, FCODE) and baseline VCODEs by 8 × frond + point. -/
structure TabRec where
  seq : Nat
  uid : Nat
  imageId : Nat
  replans : Nat
  secs : Nat
  cur : List (Nat × Nat)
  base : List Nat
deriving DecidableEq, Repr

/-- The flash (Table 17-3): the record areas by record (an absent record is an erased or invalid one), the image slots by byte (0xFF where not listed), and the lifetime
positions by byte (0 where not listed). -/
structure Flash where
  boot0 : Option BootRec := none
  boot1 : Option BootRec := none
  /-- The calibration area: the UID it names and the words of TH_SCAL. -/
  cal : Option (Nat × List Nat) := none
  tabs : Tbl TabRec := []
  vpm0 : Option VRec := none
  vpm1 : Option VRec := none
  /-- The fault slots, and the pinned one (R346). -/
  fslots : Tbl FRec := []
  pinned : Option Nat := none
  img0 : List Host.Cell := []
  img1 : List Host.Cell := []
  life : Tbl (List Host.Cell) := []
  /-- The lifetime positions (key POS) and table sectors (key 768 + POS) whose last program did not read back or complete: the draw from which their free bytes are taken (R366, R394). -/
  spoiled : Tbl Nat := []
deriving DecidableEq, Repr

/-- A flash operation that waits for the port (R393). -/
inductive FlashOp where
  /-- A table record (class 2). -/
  | table (r : TabRec)
  /-- A lifetime flush (class 3). -/
  | life
  /-- An operation of NV_UPD_CMD: OP, SLOT, LEN, FOFF, MOFF (class 4). -/
  | upd (op slot len foff moff : Nat)
  /-- A copy of NV_READ_CMD: AREA, POS, MOFF (class 4). -/
  | read (area pos moff : Nat)
deriving DecidableEq, Repr

/-- The flash island beside its registers. -/
structure Nv where
  ops : List FlashOp := []
  /-- The slots that have passed a verify since their last program (Table 17-13). -/
  verOk0 : Bool := false
  verOk1 : Bool := false
  /-- Register-table entries that are held until the Spore exit (R374 step 7): (address, value). -/
  held : List (Nat × Nat) := []
  /-- The applied image's default Fmax points (section 8), 8 × frond + point. -/
  sec8 : List (Nat × Nat) := []
  /-- The supervisor firmware in the program memory of both Rhizomes (Table 17-9 type 1). -/
  fw : List Nat := []
deriving DecidableEq, Repr

/-- A write of an internal master that waits for a bank to wake (R359): bank, master, kind (0 direct, 1 set, 2 clear), offset, data. -/
structure MossAcc where
  bank : Nat
  master : Nat
  kind : Nat
  off : Nat
  data : Nat
deriving DecidableEq, Repr

/-- Moss beside its registers: the array (R348; 0 where not listed, R401), waiting writes, scrub positions, and the error counts of the millisecond in progress (R357, R358, R362). -/
structure Moss where
  mem : List Host.Cell := []
  waits : List MossAcc := []
  /-- Next word of the scrubber by bank, and cycles of the millisecond in progress. -/
  scrub : Tbl Nat := []
  cyc : Nat := 0
  ceMs : Tbl Nat := []
  /-- Banks that have completed the scrub pass in progress. -/
  passed : List Nat := []
  /-- Banks that have been above the threshold since their last quiet millisecond. -/
  ceOver : List Nat := []
  qCeMs : Nat := 0
  qOver : Bool := false
deriving DecidableEq, Repr

/-! ### Thermal unit (spec/11_thermal.md) -/

/-- A band on its way to the active Rhizome (R248, R249): frond, band, guard code, and the chip's hottest band. -/
structure BandMsg where
  f : Nat
  band : Nat
  guard : Nat
  hot : Nat
deriving DecidableEq, Repr

/-- The thermal unit beside its registers. -/
structure Th where
  /-- Samples at which a lower rate would apply, by frond and by remote channel (R244). -/
  fall : Tbl (Nat × Nat) := []
  remFall : Tbl (Nat × Nat) := []
  /-- The S6 word last sent to each frond (R248). -/
  sent : Tbl Nat := []
  /-- On-die sensors, and chip-role channels, that hold a trip (R251). -/
  trips : List Nat := []
  remTrips : List Nat := []
  air : List BandMsg := []
  /-- The refresh band of each stack's lines, and whether a lower indication is waiting (R250). -/
  ref : Tbl Nat := []
deriving DecidableEq, Repr

/-! ### Active Rhizome: firmware state (spec/02, 07, 08, 13) -/

/-- A forecast record at a receiver: its provenance word and words W1 to W4 (Table 12-4). -/
structure FcRec where
  prov : Nat
  w1 : Nat
  w2 : Nat
  w3 : Nat
  w4 : Nat
deriving DecidableEq, Repr

/-- The active Rhizome beside its registers. -/
structure Rz where
  /-- Latest telemetry and forecast record of each frond (R280, R263). -/
  tel : Tbl TelRec := []
  fc : Tbl FcRec := []
  /-- Forecast records in flight on stream 2. -/
  fcAir : List (Nat × FcRec) := []
  /-- G_T and Fmax points that the Rhizome holds for each frond (R155). -/
  gt : Tbl Nat := []
  tab : Tbl (List (Nat × Nat)) := []
  /-- Latest committed set-point command of each frond, and the one before it, to which a withdrawal returns (R189, R396): the written word and its endpoint. -/
  cmd : Tbl (Nat × Nat) := []
  cmdPrev : Tbl (Nat × Nat) := []
  /-- Clock-hold duties of each frond's records of the last millisecond, newest first (R171). -/
  holds : Tbl (List Nat) := []
  /-- The new supervisor of a takeover has not yet opened its stream to Fiddlehead (R257). -/
  fhShut : Bool := false
  /-- Band of each frond and the chip's hottest band as reported (R248, R249). -/
  band : Tbl Nat := []
  hot : Nat := 0
  /-- Runs of the policy of R183 that a level-3 action has asked for: (frond, source). -/
  policyReq : List (Nat × Nat) := []
  /-- Fronds that a level-3 action asks to drain, and fronds that are draining (R184, R339). -/
  drainReq : List Nat := []
  drains : List Nat := []
  /-- Budget periods over the cap and under it by 5 %, and the ladder's clock-hold duty (R188, R189). -/
  overN : Nat := 0
  underN : Nat := 0
  hold : Nat := 0
  /-- The RZ_IBUS_OPT word in force, when it is not the register's (R38). -/
  opt : Option Nat := none
deriving DecidableEq, Repr

/-- The estimate and measurement of a domain (R190): 0 blended, 1 measured, 2 estimate plus 20 %; consecutive records that disagree or agree; a test has passed. -/
structure Dom where
  mode : Nat := 0
  bad : Nat := 0
  good : Nat := 0
  passed : Bool := false
deriving DecidableEq, Repr

/-- An energy answer (R297): its provenance word, the cut, the island, the saturation flag of R127 and the figures. -/
structure EnRec where
  prov : Nat
  cut : Nat
  isl : Nat
  sat : Bool
  e : List Nat
deriving DecidableEq, Repr

/-- An open job (R299). -/
structure Job where
  id : Nat
  epoch : Nat
  src : Nat
  cut : Nat
  late : Bool
deriving DecidableEq, Repr

/-- A cut in progress (R297): number, fronds that have not answered, whether the VPM has answered, PARTIAL and saturation. -/
structure Cut where
  num : Nat
  wait : List Nat
  vpm : Bool
  part : Bool
  sat : Bool
  /-- The figures that have answered it, with what is kept across restarts (R402): of fronds, and of the groups. -/
  fronds : Tbl Nat := []
  groups : Option (List Nat) := none
  /-- A report that waits for it: the bytes of its record (Table 13-3). -/
  body : Option (List Nat)
  /-- A job that it closes, the SRC of its JOB_END and LATE. -/
  job : Option (Job × Nat × Bool)
deriving DecidableEq, Repr

/-- A completed cut that a job needs: number, E_chip, PARTIAL or saturated. -/
structure CutDone where
  num : Nat
  e : Nat
  part : Bool
  sat : Bool
deriving DecidableEq, Repr

/-- The budget controller (spec/13_budget_capping.md). FP32 values are bit patterns. -/
structure Bud where
  /-- The standby's copy of w, b and D (R283). -/
  copy : EstCopy := {}
  /-- w[c][k] at key 8c + k, b[f], D[c], and η (R282, R283). -/
  w : Tbl W32 := []
  b : Tbl W32 := []
  d : Tbl W32 := []
  eta : Option W32 := none
  /-- Latest I_est of each frond, FP32 (R282). -/
  est : Tbl W32 := []
  /-- Milliseconds left of a refit by frond, and the domains of R190 (64: the chip). -/
  refit : Tbl Nat := []
  doms : Tbl Dom := []
  /-- A_trim and P_cap in W, τ_f in 1/16 (R285 to R287). -/
  trim : Rat := 0
  tau : Tbl Nat := []
  cap : Rat := 1048575
  /-- B_f in W of each frond (R288), and the number of the state of the estimator last sent to the standby. -/
  share : Tbl Rat := []
  unreach : Bool := false
  /-- Writes that wait for the next budget period (R304): address and value. -/
  pend : List (Nat × Nat) := []
  /-- Group currents for reports, sums and numbers of frond figures of the millisecond (R294). -/
  repSum : Tbl Int := []
  repN : Tbl Nat := []
  repSeq : Nat := 0
  /-- Cuts (R297): next number, those in progress, and E of every frond and group as last answered, with the figures kept across restarts (R402). -/
  cutNo : Nat := 0
  cuts : List Cut := []
  eF : Tbl Nat := []
  eG : Tbl Nat := []
  satF : List Nat := []
  keepF : Tbl Nat := []
  keepG : Tbl Nat := []
  /-- Cut requests and energy answers in flight: (cut, island), and records. -/
  reqAir : List (Nat × Nat) := []
  ansAir : List EnRec := []
  /-- Jobs (R299). -/
  jobs : List Job := []
  done : Tbl CutDone := []
  epoch : Nat := 0
  lastJob : Option Nat := none
  jobSeq : Nat := 0
  /-- Energy of each group in quanta of 0.25 mV × 1 mA × 1 µs (R296). -/
  gTot : Tbl Int := []
  /-- Tokens for jobs in flight from the hint intake, with their provenance words, and those held during a takeover. -/
  tokAir : List (Nat × Nat) := []
  lateTok : List Nat := []
  /-- PERF_STAT.SHORT held at the last period. -/
  short : Bool := false
deriving DecidableEq, Repr

/-! ### Converter cluster (spec/10_sensing.md) -/

/-- A running burst (R222 to R227): the configuration it started with, samples taken, and whether the rest is lost (R226). -/
structure Burst where
  ch : Nat
  div : Nat
  len : Nat
  cont : Bool
  pair : Bool
  src : Nat
  sel : Nat
  edge : Nat
  /-- An event of the same edge has been dropped since: a cancel is that event's (R223). -/
  stale : Bool
  taken : Nat
  lost : Bool
deriving DecidableEq, Repr

/-- A converter beside its registers: the burst, and whether its timer runs (R222). -/
structure Cv where
  run : Option Burst := none
  timer : Bool := false
deriving DecidableEq, Repr

/-- A DMA channel beside its registers (R228 to R233): words that wait for Moss with the samples each frees and whether it ends its record; samples of an unfinished word;
samples in the buffer; samples the record still lacks; the record in progress is discarded; next SEQ; and for DEST = 1 the record's bytes 0 to 15, its samples that wait for a
frame, the index of the first of them, and the frames that wait for the Mat engine: payload, the samples each frees and whether it ends its record. -/
structure Dma where
  words : List (Nat × Nat × Bool) := []
  part : List Nat := []
  /-- Samples of the unfinished word or frame that the buffer holds. -/
  held : Nat := 0
  buf : Nat := 0
  left : Nat := 0
  skip : Bool := false
  seq : Nat := 0
  hdr : List Nat := []
  frame : List Nat := []
  idx : Nat := 0
  outq : List (List Nat × Nat × Bool) := []
deriving DecidableEq, Repr

/-- The calibration sequencer (R236, R237): the sweep's next position 36 × frond + item, and its wait; the item in progress, its pairs as exact fractions (x, y), and S0 as its window
opened; the requested frond with its next item, whether the item in progress belongs to it, and whether an item of it was rejected; the frond that a self-test visits, with its next
item. -/
structure Lcal where
  pos : Nat := 0
  wait : Bool := false
  item : Option (Nat × Nat) := none
  pairs : List (Int × Nat × Int × Nat) := []
  s0 : Nat := 0
  cmd : Option (Nat × Nat) := none
  byCmd : Bool := false
  rej : Bool := false
  test : Option (Nat × Nat) := none
  /-- Fronds that self-test 2 has queued (R343). -/
  tests : List Nat := []
deriving DecidableEq, Repr

/-- The converter cluster. The comparator states: 0 Inside, 1 Above, 2 Below (R234). -/
structure Conv where
  cvs : Tbl Cv := []
  dmas : Tbl Dma := []
  wins : Tbl Nat := []
  lcal : Lcal := {}
  /-- Comparators whose event has not yet triggered the converters (R235). -/
  trigs : List Nat := []
deriving DecidableEq, Repr

/-! ### Fiddlehead (spec/12_fiddlehead.md) -/

/-- A heavy or light state (R261). -/
structure Hint where
  lead : Nat := 0
  level : Nat := 0
  dur : Nat := 0
deriving DecidableEq, Repr

/-- A forwarded frond input record (R257). -/
structure FIn where
  prov : Nat
  cur : Int
  act : List Nat
  h : Nat
  rail : Nat
  s0 : Nat
  bridge : Bool
  ovr : Bool
  trust : Bool
deriving DecidableEq, Repr

/-- A frond at Fiddlehead: the input records that have arrived, the latest latched one, the currents of the latest 8, cycles without renewal, point 0 of the last two cycles, the
candidate class and its run, and the skip flags of the last 32 cycles (R257 to R271). -/
structure FhF where
  got : Option FIn := none
  latch : Option FIn := none
  curs : List Int := []
  hist : List Int := []
  age : Nat := 0
  p0 : List (Option Nat) := []
  cand : Nat := 0
  candN : Nat := 0
  heavy : Hint := {}
  light : Hint := {}
  user : Int := 0
deriving DecidableEq, Repr

/-- What a cycle leaves for later updates of the head (R270, R271): by frond, the points as FP32 values; the fronds that were frozen; and by frond the points whose error or head
input was not finite. The head inputs stand in the update area (R273). -/
structure FhPast where
  p : Tbl (List Nat)
  froz : List Nat
  bad : Tbl (List Nat) := []
deriving DecidableEq, Repr

/-- The running cycle: SEQ, the records to send, and what the update needs. -/
structure FhRun where
  seq : Nat
  recs : List (Nat × FcRec)
  past : FhPast
  /-- The head inputs by frond, FP16. -/
  head : List (List Nat)
  /-- Writes of the state tensors: (Moss offset, FP16). -/
  st : List (Nat × Nat)
  warm : Bool
deriving DecidableEq, Repr

/-- Fiddlehead beside its registers. -/
structure Fh where
  inAir : List (Nat × FIn) := []
  fronds : Tbl FhF := []
  /-- The hint queue, each token with its provenance word (R26). -/
  queue : List (Nat × Nat) := []
  prog : Nat := 0
  jobs : Nat := 0
  /-- SEQ of the next cycle; the running cycle; FH_NLMS_CFG in force. -/
  seq : Nat := 0
  run : Option FhRun := none
  nlms : Option Nat := none
  /-- Cycles run since the start or the last switch, to 255 (R277). -/
  ran : Nat := 0
  /-- A check in progress (OP, slot, wide) and a switch that waits (slot, wide). -/
  check : Option (Nat × Nat × Bool) := none
  switch : Option (Nat × Bool) := none
  /-- Past cycles, newest first (R270). -/
  past : List FhPast := []
  /-- Records for the admission controller in flight (R263). -/
  adAir : List (Nat × FcRec) := []
deriving DecidableEq, Repr

/-! ### Mat engine (spec/14_mat_fabric.md) -/

/-- A lane (R306): run of good codewords with the last CWCNT and LANE; consecutive uncorrectable codewords and those of this millisecond;
the UID of the latest beacon that still counts; flooded frames of this millisecond; a JOIN relayed in these 100 ms; the partner beacons as numbered; the bytes of an unfinished
frame, and whether the parser knows where frames start (R309); the frames that wait to be sent, the rest of the frame in transmission, the next CWCNT and the symbols of the codeword
last sent (R305, R317); the milliseconds left of its wait in Off, and the milliseconds since each loss of lock within 1 s (R306). -/
structure MLane where
  good : Nat := 0
  cnt : Nat := 0
  lane : Nat := 0
  unc : Nat := 0
  uncMs : Nat := 0
  uid : Option Nat := none
  flood : Nat := 0
  joins : Nat := 0
  pnum : Bool := false
  part : List Nat := []
  sync : Bool := false
  out : List (List Nat) := []
  mid : List Nat := []
  next : Nat := 0
  line : List Nat := []
  wait : Nat := 0
  losses : List Nat := []
deriving DecidableEq, Repr

/-- A candidate heard (R321): ID, flags of byte 36, greatest epoch, periods since. -/
structure Cand where
  id : Nat
  flags : Nat
  epoch : Nat
  age : Nat
deriving DecidableEq, Repr

/-- A member as its manager knows it (R322, R323): the latest REPORT, periods since it, the last grant, and milliseconds left of its lease. -/
structure Memb where
  id : Nat
  demand : Nat
  floor : Nat
  deficit : Bool
  step : Nat
  prog : Nat
  valid : Bool
  age : Nat
  grant : Nat
  left : Nat
deriving DecidableEq, Repr

/-- A group slot beside its registers. -/
structure MGrp where
  key0 : Option Nat := none
  key1 : Option Nat := none
  epoch : Option Nat := none
  /-- Frame number last sent, and the epoch it counts in. -/
  sq : Nat := 0
  sqEp : Option Nat := none
  /-- Periods since the slot was enabled. -/
  age : Nat := 0
  cands : List Cand := []
  membs : List Memb := []
  /-- Site ceilings heard: (source, W, periods since). -/
  sites : List (Nat × Nat × Nat) := []
  /-- C of the last round. -/
  c : Option Nat := none
  /-- LEASE_m of the lease last taken, in milliseconds (R324). -/
  lease : Nat := 0
deriving DecidableEq, Repr

/-- A route: lane and metric (R315). -/
structure Route where
  lane : Nat
  metric : Nat
deriving DecidableEq, Repr

/-- A replay entry (R320). -/
structure REnt where
  grp : Nat
  ep : Nat
  sq : Nat
deriving DecidableEq, Repr

/-- A frame that waits for the next epoch of its group (R320): slot, type, destination, lane, and bytes from 24 on. -/
structure MHeld where
  slot : Nat
  type : Nat
  dst : Nat
  lane : Option Nat
  body : List Nat
deriving DecidableEq, Repr

/-- The Mat engine beside its registers. Frames are lists of bytes. -/
structure Mat where
  lanes : Tbl MLane := []
  oeAbsent : Bool := false
  oeFault : Bool := false
  /-- Device routes by ID, block routes by block base, and routes withdrawn in the last 300 ms as (key, kind, lane learned on, periods of 100 ms). -/
  dev : Tbl Route := []
  blk : Tbl Route := []
  gone : List (Nat × Nat × Nat × Nat) := []
  /-- OE_RESET_N is low (Table 14-3). -/
  oeReset : Bool := true
  /-- The flood cache: (SRC, GROUP, EPOCH, SQ, milliseconds left), newest first, at most 4,096 (R318). -/
  seen : List (Nat × Nat × Nat × Nat × Nat) := []
  grps : Tbl MGrp := []
  replay : Tbl (List REnt) := []
  /-- The nonce and lane of the JOIN in progress, and the JOINs relayed as (UID, NONCE, lane) (R311). -/
  join : Option (Nat × Nat) := none
  relays : List (Nat × Nat × Nat) := []
  /-- The registrar's table: UID by ID, and the milliseconds left of its first ID_LEASE (R312). -/
  ids : Tbl Nat := []
  regLeft : Nat := 0
  /-- Refused frames of this millisecond (R319), and requests by source (R327). -/
  bad : Nat := 0
  reqs : Tbl Nat := []
  /-- Frames that have left, by lane, oldest first. -/
  tx : List (Nat × List Nat) := []
  /-- Frames of the supervisors that wait for an epoch (R320). -/
  heldTx : List MHeld := []
  /-- The latest STEP_PROGRESS token: STEP and PROGRESS. -/
  prog : Option (Nat × Nat) := none
  /-- Answers that have arrived for remote accesses of this device: (SQ, STATUS, ADDR, DATA) (R327). -/
  answers : List (Nat × Nat × Nat × Nat) := []
deriving DecidableEq, Repr

/-! ### Ageing (spec/18_lifetime_ageing.md) -/

/-- A re-plan or measurement in progress (R384 to R388): 0 periodic, 1 commanded, 2 measure only, 3 rebuild of the baseline; fronds still to measure; fronds deferred with the
seconds of their deferral; slack (ps) and sensitivity (1/16 ps per code) of every point of the measured fronds; whether a frond was skipped or abandoned. -/
structure Replan where
  kind : Nat
  todo : List Nat
  defer : Tbl Nat
  res : Tbl (List (Option (Int × Nat)))
  bad : Bool
deriving DecidableEq, Repr

/-- The ageing state: the re-plan in progress, a periodic one that waits for its turn or for the Spore exit, a commanded one that waits, whether the tables have been journalled, and
whether they have committed. -/
structure Age where
  run : Option Replan := none
  due : Bool := false
  cmd : Option Nat := none
  sent : Bool := false
  commit : Bool := false
deriving DecidableEq, Repr

/-! ### Ports (spec/20_ports_electrical.md) -/

/-- The PMBus target: STATUS_CML, PM_ALERT_N low, the last STATUS_WORD (at reset G0 has no power good and VIN reads 0), PM_ADDR, and the answers given (bytes, oldest first). -/
structure Pm where
  cml : Nat := 0
  alert : Bool := false
  word : Nat := 0x808
  addr : Nat := 0
  ans : List (List Nat) := []
deriving DecidableEq, Repr

/-- The TAP: selected instruction, the loaded data register, the outcome of the last DBG_RD (STATUS and DATA once it has arrived), the preloaded boundary and whether it drives the pins. -/
structure Tap where
  ir : Nat := 1
  dr : Nat := 0
  dbgAddr : Nat := 0
  dbg : Option (Nat × Nat) := none
  cells : List Bool := []
  drives : Bool := false
deriving DecidableEq, Repr

/-- A restart under R404: the island, and whether it has been released and waits for its heartbeat. -/
structure Restart where
  isl : Nat
  released : Bool
deriving DecidableEq, Repr

/-- Pins, clock and chip-wide operations. -/
structure Chip where
  /-- REF_CLK is absent (R17); RST_N is low (R420). -/
  refAbsent : Bool := false
  rst : Bool := false
  restart : Option Restart := none
  /-- The results of a top-k scan in progress (R129): (position, value). -/
  topk : Option (List (Nat × Nat)) := none
  /-- The fronds that have not acknowledged the Spore exit (R375). -/
  exitWait : List Nat := []
deriving DecidableEq, Repr

/-- The state of the block. -/
structure State where
  member : Member := {}
  /-- The register file: every register of Tables 19-6 to 19-11, by address. -/
  regs : Tbl W64 := []
  fronds : Tbl Frond := []
  bus : Bus := {}
  isls : Tbl Isl := []
  strms : Tbl Strm := []
  /-- Probes in progress: of RZ_ISLAND_PROBE and of MS_Q_SEL. -/
  probe : Option Probe := none
  qProbe : Option Probe := none
  flt : Flt := {}
  /-- Targets of the scalar push in progress that have not acknowledged it (Table 3-23). -/
  pushWait : List Nat := []
  /-- The program load in progress (R83). -/
  load : Option Load := none
  adm : Adm := {}
  /-- Telemetry records in flight to the active Rhizome. -/
  telAir : List TelRec := []
  vpm : Vpm := {}
  flash : Flash := {}
  /-- The OTP (R364): byte b is bits [8b+7:8b]. -/
  otp : BitVec 512 := 0
  nv : Nv := {}
  moss : Moss := {}
  th : Th := {}
  rz : Rz := {}
  bud : Bud := {}
  conv : Conv := {}
  fh : Fh := {}
  mat : Mat := {}
  age : Age := {}
  pm : Pm := {}
  tap : Tap := {}
  chip : Chip := {}
  /-- The number of free values that have been drawn (the model's own field; DESIGN CHOICE, log entry 2). -/
  draws : Nat := 0
  /-- The commands that wait, first in, first out. -/
  pending : List Instr := []
deriving DecidableEq, Repr

/-- The block right after reset. -/
def State.reset : State := {}

end Sys2Proof.Machine
end

