-- ==== Sys2Proof/Machine/Ops.lean ====
section
/-! DEFINITION. Machine/Ops.lean: the named operations over the state: registers, fronds, free values and fault raises. -/
namespace Sys2Proof.Machine

/-- The number of fronds F of the member. -/
def nF (s : State) : Nat := s.member.fronds
/-- The number of phases P per frond of the member. -/
def nP (s : State) : Nat := s.member.phases

/-- R2: W is the least divisor d of F with d ≥ F/d. -/
def gridW (f : Nat) : Nat :=
  ((List.range (f + 1)).find? fun d => decide (0 < d ∧ f % d = 0 ∧ f / d ≤ d)).getD 1

/-- RZ_ID of a member (R403, Table 19-3). -/
def idWord (m : Member) : Nat :=
  putBits (putBits (putBits 0x1082040465A 22 16 m.fronds) 29 24 m.phases) 35 32 (gridW m.fronds)

/-- The reset value of a register in a member (R4): MAX_FRONDS of AD_CFG is min(4, F), and the sensors from 4F on read 0. -/
def memberReset (m : Member) (a : Nat) : Nat :=
  if a = AD_CFG then putBits (regReset a) AD_CFG_MAX_FRONDS.hi AD_CFG_MAX_FRONDS.lo (min 4 m.fronds)
  else if m.fronds < 64 ∧ ((TH_SENS (4 * m.fronds) ≤ a ∧ a ≤ TH_SENS 255) ∨ (TH_SCAL (4 * m.fronds) ≤ a ∧ a ≤ TH_SCAL 255)) then 0
  else regReset a

/-- The word of a register. RZ_ID follows from the member (R403). -/
def reg (s : State) (a : Nat) : W64 :=
  if a = RZ_ID then BitVec.ofNat 64 (idWord s.member)
  else tget (BitVec.ofNat 64 (memberReset s.member a)) s.regs a

/-- A register takes a new word. -/
def setReg (s : State) (a : Nat) (v : W64) : State := { s with regs := tset s.regs a v }

/-- The value of a field. -/
def fget (s : State) (x : Fld) : Nat := bitsOf (reg s x.addr).toNat x.hi x.lo

/-- A one-bit field read as a flag. -/
def flag (s : State) (x : Fld) : Bool := fget s x == 1

/-- A field takes a value; the other bits of its register stay. -/
def fset (s : State) (x : Fld) (v : Nat) : State :=
  setReg s x.addr (BitVec.ofNat 64 (putBits (reg s x.addr).toNat x.hi x.lo v))

/-- A one-bit field takes a flag. -/
def fsetB (s : State) (x : Fld) (b : Bool) : State := fset s x (if b then 1 else 0)

/-- The largest value of a field. -/
def fmax (x : Fld) : Nat := 2 ^ (x.hi + 1 - x.lo) - 1

/-- A saturating counter field rises by n. -/
def bumpBy (s : State) (x : Fld) (n : Nat) : State := fset s x (min (fget s x + n) (fmax x))

/-- A saturating counter field rises by 1. -/
def bump (s : State) (x : Fld) : State := bumpBy s x 1

/-- A frond core. -/
def fr (s : State) (f : Nat) : Frond := tget {} s.fronds f

/-- A frond core takes a new state. -/
def setFr (s : State) (f : Nat) (x : Frond) : State := { s with fronds := tset s.fronds f x }

/-- A frond core is changed by g. -/
def updFr (s : State) (f : Nat) (g : Frond → Frond) : State := setFr s f (g (fr s f))

/-- A frond number of the member. -/
def hasF (s : State) (f : Nat) : Bool := decide (f < nF s)

/-- An island as the rules see it. -/
def isl (s : State) (i : Nat) : Isl := tget {} s.isls i

def setIsl (s : State) (i : Nat) (x : Isl) : State := { s with isls := tset s.isls i x }

/-- An island of the member (Table 1-1): the frond cores below F and 0x40 to 0x4C. -/
def hasIsl (s : State) (i : Nat) : Bool := decide (i < nF s ∨ (0x40 ≤ i ∧ i ≤ 0x4C))

/-- An island that answers: it runs and is not held in reset. -/
def answers (s : State) (i : Nat) : Bool := !(isl s i).halted && !(isl s i).inReset && !(isl s i).stopped

/-- A raise leaves its island toward the fault collector (R333). A reserved source never raises (R332). -/
def raiseD (s : State) (src : Nat) (unit : Option Nat) (detail i : Nat) : State :=
  match fltRow src with
  | none => s
  | some _ => { s with flt := { s.flt with raises := s.flt.raises ++ [⟨src, unit, detail, i, false⟩] } }

/-- A raise of a frond's source: the unit bit is the frond. -/
def raiseF (s : State) (src f detail : Nat) : State := raiseD s src (some f) detail f

/-- The island of the active Rhizome (Table 17-19). -/
def activeIsl (s : State) : Nat := 0x40 + fget s RZ_PAIR_STAT_ACTIVE

/-- A takeover is in progress (R379). -/
def inTakeover (s : State) : Bool := flag s RZ_PAIR_STAT_TAKEOVER

/-- The block is in Spore mode (Table 17-14). -/
def inSpore (s : State) : Bool := flag s NV_BOOT_STAT_SPORE

/-- Scalar-shadow entry k of frond f (R76). -/
def scal (s : State) (f k : Nat) : Nat := (reg s (FR_SCALAR f k)).toNat

def setScal (s : State) (f k v : Nat) : State := setReg s (FR_SCALAR f k) (BitVec.ofNat 64 v)

/-- The effective phase mask of frond f: S7[31:0] (Table 3-6). -/
def effMask (s : State) (f : Nat) : Nat := bitsOf (scal s f 7) 31 0

/-- The rail state of frond f (Table 7-2). -/
def railSt (s : State) (f : Nat) : Nat := fget s (FR_RAIL_STAT_STATE f)

/-- A frond is in service when its rail state is In service (R36). -/
def inService (s : State) (f : Nat) : Bool := hasF s f && railSt s f == 3

/-- The fronds that are in service. -/
def serviceFronds (s : State) : List Nat := (List.range (nF s)).filter fun f => inService s f

/-- Instruction word w of frond f. -/
def imem (s : State) (f w : Nat) : Nat :=
  let x := (reg s (FR_IMEM f (w / 2))).toNat
  if w % 2 = 0 then bitsOf x 31 0 else bitsOf x 63 32

/-- Instruction word w of frond f is written. -/
def setImem (s : State) (f w v : Nat) : State :=
  let x := (reg s (FR_IMEM f (w / 2))).toNat
  setReg s (FR_IMEM f (w / 2)) (BitVec.ofNat 64 (if w % 2 = 0 then putBits x 31 0 v else putBits x 63 32 v))

/-! ### The frond grid and its bridges (R49, R51) -/

def eastOf (s : State) (f : Nat) : Option Nat := if f % gridW (nF s) + 1 < gridW (nF s) ∧ f < nF s then some (f + 1) else none
def southOf (s : State) (f : Nat) : Option Nat := if f + gridW (nF s) < nF s then some (f + gridW (nF s)) else none
def westOf (s : State) (f : Nat) : Option Nat := if f % gridW (nF s) ≠ 0 ∧ f < nF s then some (f - 1) else none
def northOf (s : State) (f : Nat) : Option Nat := if gridW (nF s) ≤ f ∧ f < nF s then some (f - gridW (nF s)) else none

/-- The edge neighbours of a frond. -/
def nbrsOf (s : State) (f : Nat) : List Nat := [northOf s f, eastOf s f, southOf s f, westOf s f].filterMap id

/-- The frond on the other side of the bridge that f owns in a direction (0 east, 1 south). -/
def acrossOf (s : State) (f dir : Nat) : Option Nat := if dir = 0 then eastOf s f else southOf s f

/-- State of the bridge that f owns in a direction: 0 open, 1 closing, 2 closed. -/
def brState (s : State) (f dir : Nat) : Nat := if dir = 0 then fget s (FR_BRIDGE_STAT_STATE_E f) else fget s (FR_BRIDGE_STAT_STATE_S f)

def setBrState (s : State) (f dir v : Nat) : State :=
  if dir = 0 then fset s (FR_BRIDGE_STAT_STATE_E f) v else fset s (FR_BRIDGE_STAT_STATE_S f) v

/-- The bridge that f owns in a direction is enabled in the image. -/
def brEnabled (s : State) (f dir : Nat) : Bool := if dir = 0 then flag s (FR_BRIDGE_STAT_IMG_EN_E f) else flag s (FR_BRIDGE_STAT_IMG_EN_S f)

/-- The bridge, as (owner, direction), that is closing or closed at frond f. -/
def bridgeAt (s : State) (f : Nat) : Option (Nat × Nat) :=
  if brState s f 0 ≠ 0 then some (f, 0) else if brState s f 1 ≠ 0 then some (f, 1)
  else match westOf s f, northOf s f with
    | some w, some n => if brState s w 0 ≠ 0 then some (w, 0) else if brState s n 1 ≠ 0 then some (n, 1) else none
    | some w, none => if brState s w 0 ≠ 0 then some (w, 0) else none
    | none, some n => if brState s n 1 ≠ 0 then some (n, 1) else none
    | none, none => none

/-- A fresh free value: the next value of the opaque source, and the counter rises (log entry 2). -/
def draw (s : State) : W64 × State := (Config.freeValue s.draws, { s with draws := s.draws + 1 })

/-- Table 1-2: the provenance word of a record numbered `seq` on a stream of an island. -/
def provWord (seq isl str : Nat) : Nat := seq % 2 ^ 32 + isl % 256 * 2 ^ 32 + str % 32 * 2 ^ 40

/-- The number that a provenance word carries. -/
def provSeq (p : Nat) : Nat := p % 2 ^ 32

/-- The provenance word of the next record on stream str of island i (R25, R26). -/
def nextProv (s : State) (i str : Nat) : Nat := provWord (tget {} s.strms (32 * i + str)).seqOut.toNat i str

/-- R27: a whole record numbered `seq` arrives on data stream k of `src` in island rx: out of sequence it is accepted, a gap is counted and source 0x0E raised. -/
def recvSeq (s : State) (k src rx seq : Nat) : State :=
  let st := tget {} s.strms k
  let s1 := { s with strms := tset s.strms k { st with next := some (BitVec.ofNat 32 (seq + 1)) } }
  if st.next = none ∨ st.next = some (BitVec.ofNat 32 seq) then s1
  else raiseD (setIsl s1 rx { isl s rx with gaps := min 0xFFFF ((isl s rx).gaps + 1) }) 0x0E none src rx

/-- A whole record with provenance word p arrives in island rx on the stream that the word names (R27). -/
def recvRec (s : State) (rx p : Nat) : State :=
  let k := 32 * bitsOf p 39 32 + bitsOf p 44 40
  recvSeq s k k rx (provSeq p)

/-- The key of Fiddlehead's stream k for the records of frond f: a record's number is its cycle's, so the records of one frond form the sequence (R263, log entry 114). -/
def fcKey (k f : Nat) : Nat := 0x1000 + 64 * k + f

/-- A record leaves on stream str of island i: the next number is used (R25). -/
def sendOn (s : State) (i str : Nat) : State :=
  let k := 32 * i + str
  { s with strms := tset s.strms k { tget {} s.strms k with sent := true, seqOut := (tget {} s.strms k).seqOut + 1 } }

/-- A record numbered n has left on stream str of island i (R25, R26). -/
def sentAs (s : State) (i str n : Nat) : State :=
  let k := 32 * i + str
  { s with strms := tset s.strms k { tget {} s.strms k with sent := true, seqOut := BitVec.ofNat 32 (n + 1) } }

/-- The receiver of a stream expects number 0. -/
def resetNext (s : State) (k : Nat) : State := { s with strms := tset s.strms k { tget {} s.strms k with next := some 0 } }

/-- The sender of a remote update (R22): Fiddlehead, the VPM controller, the thermal unit, the fault collector, the admission controller, another frond core (0), the core itself (0xFF),
or the active Rhizome. -/
def senderOf (m : FMsg) : Nat :=
  match m with
  | .forecast _ _ _ _ => 0x42
  | .sag _ _ => 0x43
  | .bandWord _ | .trip _ => 0x45
  | .cap3 _ | .chipDrain | .chipDark => 0x47
  | .grant _ => 0x4B
  | .bx _ _ | .role _ | .bridgeLeft _ => 0
  | .nidle _ => 0xFF
  | .write _ _ | .setpoint _ _ | .scalar _ _ | .capWord _ | .drain _ | .fmax _ | .bridgeClose _ | .bridgeOpen _ _ | .sporeExit _ | .canary => 0x40

/-- The first update that satisfies p and that no earlier one of the same sender precedes (R22). -/
def takeUpd (p : FMsg → Bool) (before : List Nat) : List FMsg → Option (FMsg × List FMsg)
  | [] => none
  | m :: ms =>
    if p m && !(before.contains (senderOf m)) then some (m, ms)
    else match takeUpd p (senderOf m :: before) ms with
      | none => none
      | some (y, ys) => some (y, m :: ys)

/-- Stream str of island i is reset: no record has left since (R25). -/
def resetOut (s : State) (i str : Nat) : State :=
  let k := 32 * i + str
  { s with strms := tset s.strms k { tget {} s.strms k with sent := false, seqOut := 0, next := some 0 } }

/-- STATUS_WORD of the PMBus target (Table 20-4). -/
def pmWord (s : State) : Nat :=
  let inLimit := fget s VP_VIN_STAT_STATE == 1 || fget s VP_VIN_STAT_STATE == 2
  ofBits ((if flag s RZ_FLT_LIVE_FAULT0 then [0] else []) ++ (if s.pm.cml != 0 then [1] else [])
    ++ (if fget s TH_STAT_HOT_BAND == 7 || flag s TH_STAT_TRIPPED then [2] else [])
    ++ (if decide (fget s VP_VIN_STAT_VIN < 50 * fget s VP_VIN_CFG_UV) then [3] else [])
    ++ (if flag s RZ_FLT_LIVE_CHIP_DOWN then [6] else []) ++ (if flag s (VP_GRP_STAT_PG 0) then [] else [11])
    ++ (if flag s RZ_FLT_LIVE_FAULT1 then [12] else []) ++ (if fget s RZ_HARD_STAT_SAG != 0 || inLimit then [13] else [])
    ++ (if flag s RZ_HARD_STAT_CAP_UNREACHABLE then [14] else []))

/-- R416: PM_ALERT_N goes low when a bit of STATUS_WORD changes from 0 to 1. -/
def pmStep (s : State) : State :=
  let w := pmWord s
  { s with pm := { s.pm with word := w, alert := s.pm.alert || w - (w &&& s.pm.word) != 0 } }

/-- What a command answers. -/
abbrev Out := Host.Outcome State Fault Refusal

/-- The command's next state. The member is read-only (R403), and the queue of waiting commands belongs to the step, not to a command. -/
def nextOf (s t : State) : Out := .next { t with member := s.member, pending := s.pending }

end Sys2Proof.Machine
end

