-- ==== Sys2Proof/Machine/Operands.lean ====
section
/-! DEFINITION. Machine/Operands.lean: the instruction words of a loop program (spec/04_loop_programs.md, Tables 4-1 and 4-2), group bindings, operand reads and
destinations, and the number formats of a lane element (spec/05_arithmetic.md). -/
namespace Sys2Proof.Machine

/-- A word of form R (Table 4-1). -/
def encR (opc : Nat) (w : RForm) : Nat :=
  opc * 2 ^ 26 + w.e.toNat * 2 ^ 25 + w.d.toNat * 2 ^ 19 + w.a.toNat * 2 ^ 12 + w.b.toNat * 2 ^ 5 + w.m.toNat

/-- A word of form I (Table 4-1). -/
def encI (opc : Nat) (w : IForm) : Nat :=
  opc * 2 ^ 26 + w.e.toNat * 2 ^ 25 + w.d.toNat * 2 ^ 19 + w.a.toNat * 2 ^ 12 + w.imm.toNat

/-- A word of form B (Table 4-1). -/
def encB (opc : Nat) (w : BForm) : Nat :=
  opc * 2 ^ 26 + w.e.toNat * 2 ^ 25 + w.a.toNat * 2 ^ 18 + w.mask.toNat * 2 ^ 10 + w.off.toNat

/-- A group binding (Table 3-16). -/
structure Binding where
  en : Bool
  aux : Bool
  div : Nat
  offset : Nat
  entry : Nat
  wbase : Nat
  wcnt : Nat
  lanes : Nat
deriving DecidableEq, Repr

/-- A binding read from the word of FR_GROUP_n. -/
def bindingOf (w : Nat) : Binding :=
  ⟨bitOf w 0, bitOf w 1, bitsOf w 4 2, bitsOf w 11 5, bitsOf w 23 12, bitsOf w 26 24, bitsOf w 29 27, bitsOf w 63 32⟩

/-- R86, R110: the fixed ROM bindings of the Spore state; group 0 the Spore phase program, group 4 the Spore auxiliary program with window A0 to A7. -/
def sporeBinding (g : Nat) : Binding :=
  if g = 0 then ⟨true, false, 0, 0, 0xE01, 0, 0, 2 ^ 32 - 1⟩
  else if g = 4 then ⟨true, true, 0, 0, 0xE11, 0, 1, 2 ^ 32 - 1⟩
  else ⟨false, false, 0, 0, 0, 0, 0, 0⟩

/-- The frond core's state (Table 3-9): 0 Spore, 1 Run, 2 Halted, 3 Stepping. -/
def coreSt (s : State) (f : Nat) : Nat := fget s (FR_CORE_STAT_STATE f)

/-- The binding of group g in force. -/
def binding (s : State) (f g : Nat) : Binding :=
  if coreSt s f = 0 then sporeBinding g else bindingOf (reg s (FR_GROUP f g)).toNat

/-- A program header (Table 3-2): WCET, LEN, KIND, MARK. -/
def hdrWcet (h : Nat) : Nat := bitsOf h 11 0
def hdrLen (h : Nat) : Nat := bitsOf h 23 12
def hdrKind (h : Nat) : Bool := bitOf h 24
def hdrMark (h : Nat) : Nat := bitsOf h 31 28

/-- The header of a binding: the word at ENTRY − 1 (R64). -/
def header (s : State) (f : Nat) (b : Binding) : Nat := imem s f (b.entry - 1)

/-- The cycles C of a slot (R67). -/
def slotC (s : State) (f : Nat) : Nat := 16 * (fget s (FR_SAMPLE_CFG_NPER f) + 1)

/-- The lanes that exist (R3). -/
def laneAll (s : State) : Nat := 2 ^ nP s - 1

/-- R91, Table 4-2: the value of operand code c in lane n; reserved codes read 0 (they are program faults). -/
def operand (s : State) (f c n : Nat) : Nat :=
  if c < 0x35 then (tget 0 (fr s f).lanes (c * 32 + n)).toNat
  else if c = 0x35 then n
  else if c = 0x36 then
    if bitOf (effMask s f) n then popCount 32 (effMask s f / 2 ^ (n + 1)) else 32
  else if c = 0x37 then bitsOf (reg s (FR_SLOT_COUNT f)).toNat 31 0
  else if c = 0x38 then patOf 32 (fr s f).law.sat
  else if c < 0x40 then 0
  else bitsOf (scal s f (c - 0x40)) 31 0

/-- The high word of a scalar entry (R91: only EXT and BND read it). -/
def operandHi (s : State) (f c : Nat) : Nat := if c < 0x40 then 0 else bitsOf (scal s f (c - 0x40)) 63 32

/-- A source code that Table 4-2 reserves. -/
def reservedCode (c : Nat) : Bool := decide (0x3A ≤ c ∧ c ≤ 0x3F)

/-- R93: a destination is an L register for a phase group, or an A register inside the window for an auxiliary group. -/
def writable (b : Binding) (d : Nat) : Bool :=
  if b.aux then decide (0x10 + 4 * b.wbase ≤ d ∧ d < 0x10 + 4 * b.wbase + 4 * (b.wcnt + 1) ∧ d ≤ 0x2F)
  else decide (d ≤ 0x0F)

/-- An operand of a BFP instruction other than BCVT may be an L or A register, a scalar or ZERO (R99, Table 4-8 code 3). -/
def bfpCode (c : Nat) : Bool := decide (c ≤ 0x2F ∨ c = 0x39 ∨ 0x40 ≤ c)

/-! ### Exact values -/

/-- An exact value num / den × 2^exp. -/
structure BVal where
  num : Int
  den : Nat
  exp : Int
deriving DecidableEq, Repr

/-- R113: the value of a BFP element. -/
def bfpVal (x : Nat) : BVal := ⟨signedOf 16 x, 1, signedOf 8 (x / 2 ^ 24)⟩

/-- R113, Table 5-2: the element of mantissa m, format sf and exponent x. -/
def bfpElem (m : Int) (sf : Nat) (x : Int) : Nat := patOf 16 m + sf * 2 ^ 16 + patOf 8 x * 2 ^ 24

/-- A value expressed in units of 2^x, rounded to nearest, ties to even (R97, R114). -/
def roundAt (v : BVal) (x : Int) : Int :=
  if x ≤ v.exp then rne (v.num * (2 ^ (v.exp - x).toNat : Nat)) v.den
  else rne v.num (v.den * 2 ^ (x - v.exp).toNat)

/-- The mantissa width of a stage format: BFP16, BFP12, BFP8 (R101, R111). -/
def sfWidth (sf : Nat) : Nat := if sf = 0 then 16 else if sf = 1 then 12 else 8

/-- R114: the value fits the format at exponent x. -/
def fitsAt (w : Nat) (v : BVal) (x : Int) : Bool :=
  let m := roundAt v x
  decide (-(2 ^ (w - 1) : Nat) ≤ m ∧ m ≤ (2 ^ (w - 1) : Nat) - 1)

/-- The least exponent from x upward (at most n steps) at which every value fits; 127 bounds it (R98). -/
def leastFit (w : Nat) (vs : List BVal) : Nat → Int → Int
  | 0, x => x
  | n + 1, x => if x ≥ 127 ∨ vs.all (fun v => fitsAt w v x) then x else leastFit w vs n (x + 1)

/-- R97, R98: a value expressed at exponent x in width w: the mantissa, and whether it saturated. -/
def expressAt (w : Nat) (v : BVal) (x : Int) : Int × Bool :=
  let m := roundAt v x
  let c := clampInt (-(2 ^ (w - 1) : Nat)) ((2 ^ (w - 1) : Nat) - 1) m
  (c, decide (c ≠ m))

/-- R115: an addend aligned to the stage exponent; true when the alignment saturated. -/
def alignTo (sx : Int) (v : BVal) : BVal × Bool :=
  if v.exp - sx > 24 ∧ v.num ≠ 0 then
    (⟨if v.num < 0 then -((2 ^ 39 : Nat) - 1) else (2 ^ 39 : Nat) - 1, 1, sx⟩, true)
  else (v, false)

def addV (a b : BVal) : BVal :=
  let x := min a.exp b.exp
  ⟨a.num * b.den * (2 ^ (a.exp - x).toNat : Nat) + b.num * a.den * (2 ^ (b.exp - x).toNat : Nat), a.den * b.den, x⟩

def negV (a : BVal) : BVal := { a with num := -a.num }

def mulV (a b : BVal) : BVal := ⟨a.num * b.num, a.den * b.den, a.exp + b.exp⟩

/-- a < b as exact values. -/
def ltV (a b : BVal) : Bool := decide ((addV b (negV a)).num > 0)

/-- R117, Table 5-3: the source value of BCVT. -/
def cvtSource (fmt x : Nat) : BVal :=
  match fmt with
  | 0 => ⟨signedOf 32 x, 1, 0⟩
  | 1 => ⟨signedOf 16 x, 1, 0⟩
  | 2 => ⟨(x % 2 ^ 16 : Nat), 1, 0⟩
  | 3 => ⟨signedOf 16 x, 1, -15⟩
  | 4 => ⟨signedOf 32 x, 1, -30⟩
  | _ => ⟨(x % 2 ^ 8 : Nat), 1, 0⟩

/-- R117, Table 5-3: BCVI of a value: the 32-bit element, and whether it saturated. -/
def cvtTarget (fmt : Nat) (v : BVal) : Nat × Bool :=
  let u : Int := if fmt = 3 then -15 else if fmt = 4 then -30 else 0
  let lo : Int := if fmt = 0 ∨ fmt = 4 then -(2 ^ 31 : Nat) else if fmt = 1 ∨ fmt = 3 then -(2 ^ 15 : Nat) else 0
  let hi : Int := if fmt = 0 ∨ fmt = 4 then (2 ^ 31 : Nat) - 1 else if fmt = 1 ∨ fmt = 3 then (2 ^ 15 : Nat) - 1
    else if fmt = 2 then (2 ^ 16 : Nat) - 1 else 255
  let m := roundAt v u
  let c := clampInt lo hi m
  (patOf 32 c, decide (c ≠ m))

/-! ### 32-bit arithmetic (R99, R116) -/

def wrap32 (v : Int) : Nat := patOf 32 v
def sat32 (v : Int) : Nat := patOf 32 (clampInt (-(2 ^ 31 : Nat)) ((2 ^ 31 : Nat) - 1) v)
def s32 (x : Nat) : Int := signedOf 32 x
/-- Arithmetic right shift, rounding toward minus infinity. -/
def sra (v : Int) (n : Nat) : Int := v / (2 ^ n : Nat)

end Sys2Proof.Machine
end

