-- ==== Sys2Proof/Machine/Flags.lean ====
section
/-! DEFINITION. Machine/Flags.lean: the faults of a loop program and how they are recorded (R106 to R108), and the conditions of CMP (Table 4-4). -/
namespace Sys2Proof.Machine

/-- Table 4-4: condition cc of CMP. -/
def cmpHolds (cc a b : Nat) : Bool :=
  match cc with
  | 0 => decide (a = b)
  | 1 => decide (a ≠ b)
  | 2 => decide (s32 a < s32 b)
  | 3 => decide (s32 a ≤ s32 b)
  | 4 => decide (s32 a > s32 b)
  | 5 => decide (s32 a ≥ s32 b)
  | 6 => decide (a < b)
  | _ => decide (a ≥ b)

/-- R100: the band state of a against the edges. -/
def bandState (a lo hi : Nat) : Nat := if s32 a > s32 hi then 2 else if s32 a < s32 lo then 1 else 0

/-- The kind of a recorded fault of a program. -/
inductive PFault where
  | prog (code : Nat)
  | arith (lane : Nat)
  | range (lane : Nat)
deriving DecidableEq, Repr

/-- R107: the first fault after PROG, ARITH and RANGE are all 0 records its group, code, address and lane; every fault sets its bit and COUNT. DESIGN CHOICE (log entry 108): COUNT
rises once for an instruction that faults, whatever the number of its lanes that do, and an arithmetic fault that a range fault of the same instruction supersedes is not counted. -/
def recordProg (s : State) (f grp pc : Nat) (x : PFault) : State :=
  let clear := fget s (FR_PROG_STAT_PROG f) = 0 ∧ fget s (FR_PROG_STAT_ARITH f) = 0 ∧ fget s (FR_PROG_STAT_RANGE f) = 0
  let code := match x with | .prog c => c | _ => 0
  let lane := match x with | .prog _ => 0 | .arith l => l | .range l => l
  let s1 := if clear then
      fset (fset (fset (fset s (FR_PROG_STAT_FGROUP f) grp) (FR_PROG_STAT_FCODE f) code) (FR_PROG_STAT_FADDR f) pc) (FR_PROG_STAT_FLANE f) lane
    else s
  let s2 := match x with
    | .prog _ => fset s1 (FR_PROG_STAT_PROG f) 1
    | .arith _ => fset s1 (FR_PROG_STAT_ARITH f) 1
    | .range _ => fset s1 (FR_PROG_STAT_RANGE f) 1
  bump s2 (FR_PROG_STAT_COUNT f)

/-- R106, R108: the source that a fault raises: 0x32 for a program fault, 0x33 for an enabled arithmetic or range fault. -/
def raiseProg (s : State) (f pc : Nat) (x : PFault) : State :=
  match x with
  | .prog _ => raiseF s 0x32 f pc
  | .arith _ => if flag s (FR_PROG_CTRL_ARITH_EN f) then raiseF s 0x33 f pc else s
  | .range _ => if flag s (FR_PROG_CTRL_RANGE_EN f) then raiseF s 0x33 f pc else s

/-- A fault of a program is recorded and raised. -/
def progFault (s : State) (f grp pc : Nat) (x : PFault) : State := raiseProg (recordProg s f grp pc x) f pc x

end Sys2Proof.Machine
end

