-- ==== Sys2Proof/Machine/Issue.lean ====
section
/-! DEFINITION. Machine/Issue.lean: issuing one instruction of a running group: program faults, scoreboard stalls, landing of results, END and the end of a program
(R69, R70, R72, R94 to R96, R104, R106). -/
namespace Sys2Proof.Machine

/-- What an instruction form uses (Tables 4-1, 4-3 and 4-8). -/
structure OpSpec where
  usesD : Bool := false
  usesA : Bool := false
  usesB : Bool := false
  /-- The bits of MOD or IMM that Table 4-3 names. -/
  named : Nat := 0
  lat : Nat := 1
  /-- The SX column of Table 4-3 is not "—". -/
  sx : Bool := false
  readD : Bool := false
  /-- Writes the register after D as well (BFY). -/
  second : Bool := false
  /-- Reads its band from a pair (BND). -/
  pair : Bool := false
  /-- A BFP instruction other than BCVT (Table 4-8 code 3). -/
  bfp : Bool := false
  /-- Further program-fault codes that hold. -/
  extra : List Nat := []
  /-- The lanes that D may be written in, where that is not all of M (RED with PH, R103). -/
  within : Option Nat := none
deriving DecidableEq, Repr

/-- What an instruction does when it issues. -/
structure LaneOut where
  writes : List (Dest × Nat) := []
  m : Option Nat := none
  sx : Option Int := none
  sf : Option Nat := none
  arith : List Nat := []
  range : List Nat := []
  jump : Option Nat := none
deriving DecidableEq, Repr

/-- R106, Table 4-8: the codes of the program faults that an instruction meets. A pair that starts at L15 or A31 has no second destination, so it meets code 3 and not code 2 for it
(DEDUCED, log entry 99). -/
def progCodes (bd : Binding) (sp : OpSpec) (d a b m : Nat) : List Nat :=
  (if (sp.usesD && !writable bd d) || (sp.second && d != 0x0F && d != 0x2F && !writable bd (d + 1)) then [2] else [])
  ++ (if (sp.usesA && reservedCode a) || (sp.usesB && reservedCode b)
        || (sp.pair && (b == 0x0F || b == 0x2F || decide (0x30 ≤ b ∧ b ≤ 0x39)))
        || (sp.second && (d == 0x0F || d == 0x2F))
        || (sp.bfp && ((sp.usesA && !bfpCode a) || (sp.usesB && !bfpCode b))) then [3] else [])
  ++ (if (!sp.usesD && d != 0) || (!sp.usesA && a != 0) || (!sp.usesB && b != 0) || (m &&& sp.named) != m then [5] else [])
  ++ sp.extra

/-- The lowest code of a list (R107). -/
def lowestCode : List Nat → Option Nat
  | [] => none
  | c :: cs => match lowestCode cs with
    | none => some c
    | some x => some (min c x)

/-- A pending write lands. -/
def landOne (x : Frond) (w : Wr) : Frond :=
  match w.dest with
  | .reg c n => { x with lanes := tset x.lanes (c * 32 + n) (BitVec.ofNat 32 w.val) }
  | .drv n => { x with drv := tset x.drv n (BitVec.ofNat 32 w.val) }
  | .tm k => { x with tm := tset x.tm k (BitVec.ofNat 64 w.val) }
  | .bx => { x with bx := BitVec.ofNat 64 w.val }

/-- Every write that has landed by cycle c leaves the scoreboard, in issue order. -/
def landBy (x : Frond) (c : Nat) : Frond :=
  let y := (x.slot.infl.filter fun w => w.ev ≤ c).foldl landOne x
  { y with slot := { y.slot with infl := x.slot.infl.filter fun w => ¬ w.ev ≤ c } }

/-- The first cycle, not before c, at which no pending write satisfies p. -/
def readyAt (infl : List Wr) (p : Dest → Bool) (c : Nat) : Nat :=
  infl.foldl (fun acc w => if p w.dest then max acc w.ev else acc) c

/-- R72: the running group is cut; it issues nothing more in this slot. -/
def cutRun (s : State) (f grp : Nat) : State :=
  updFr s f fun x => { x with slot := { x.slot with run := none, cut := x.slot.cut ++ [grp] } }

/-- The instruction has issued in cycle c: the next cycle begins; with E set the group has issued END (R90), otherwise it goes on at pc, and a program counter at or
beyond ENTRY + LEN ends the group with a program fault of code 7 (R106). -/
def finishIssue (s : State) (f : Nat) (r : Run) (c pc : Nat) (e : Bool) (bd : Binding) : State :=
  let s1 := updFr s f fun x => { x with slot := { x.slot with cyc := c + 1, used := max x.slot.used (c + 1), run := if e then none else some { r with pc := pc } } }
  if !e && decide (bd.entry + hdrLen (header s f bd) ≤ pc) then
    if c + 1 ≥ slotC s f then cutRun s1 f r.grp
    else
      progFault (updFr s1 f fun x => { x with slot := { x.slot with cyc := c + 2, used := max x.slot.used (c + 2), run := none } }) f r.grp pc (.prog 7)
  else s1

/-- The core runs groups in the Spore, Run and Stepping states (Table 3-9). -/
def runsGroups (s : State) (f : Nat) : Bool := coreSt s f != 2

/-- R82: the fetch of the word at pc: a single-bit error is corrected and counted, and the word rewritten; a double-bit error cuts the group, counts and raises source 0x31 with the
word, and there is nothing to issue. -/
def fetchWord (s : State) (f : Nat) (r : Run) : State × Option Run :=
  match tget Ecc.clean r.fetch r.pc with
  | .clean => (s, some r)
  | .single => (bump s (FR_CORE_STAT_ECC_CORR f), some { r with fetch := tdel r.fetch r.pc })
  | .double => (raiseF (bump (cutRun s f r.grp) (FR_CORE_STAT_ECC_UNCORR f)) 0x31 f r.pc, none)

/-- One instruction of frond f issues, if the running group's next word is `word`: a program fault drops it (R106), a pending mark of a register it reads or writes
stalls it (R70), a slot without a cycle left cuts the group (R69), and otherwise it acts with the latency of its row (R95). DESIGN CHOICE (log entry 108): an instruction
that meets both a range and an arithmetic fault takes the range fault alone, whatever RANGE_EN and ARITH_EN hold. -/
def issueOp (s0 : State) (f word : Nat) (e : Bool) (sp : OpSpec) (d a b m : Nat) (srcLanes : Run → Binding → List Nat)
    (outHit : Dest → Bool) (body : State → Run → Binding → LaneOut) : State :=
  match (fr s0 f).slot.run with
  | none => s0
  | some r0 =>
    if !(hasF s0 f) || !(runsGroups s0 f) || imem s0 f r0.pc != word then s0
    else if slotC s0 f ≤ (fr s0 f).slot.cyc then cutRun s0 f r0.grp
    else
      match fetchWord s0 f r0 with
      | (s, none) => s
      | (s, some r) =>
        let bd := binding s f r.grp
        let x := fr s f
        let c0 := x.slot.cyc
        match lowestCode (progCodes bd sp d a b m) with
        | some code => finishIssue (progFault s f r.grp r.pc (.prog code)) f r c0 (r.pc + 1) e bd
        | none =>
          let src := srcLanes r bd
          let dst := bitList 32 (match sp.within with | none => r.m | some k => r.m &&& k)
          let hit : Dest → Bool := fun t => match t with
            | .reg c n =>
              (src.contains n && ((sp.usesA && c == a) || (sp.usesB && c == b) || (sp.pair && c == b + 1)))
              || (dst.contains n && ((sp.usesD && c == d) || (sp.second && c == d + 1)))
            | t => outHit t
          let c1 := max (readyAt x.slot.infl hit c0) (if sp.sx then r.sxAt else 0)
          if slotC s f ≤ c1 then
            cutRun (bumpBy (updFr s f fun x => { x with slot := { x.slot with cyc := slotC s f, used := slotC s f } }) (FR_SCHED_STAT_STALLS f) (slotC s f - c0)) f r.grp
          else
            let s1 := bumpBy (updFr s f fun x => landBy x c1) (FR_SCHED_STAT_STALLS f) (c1 - c0)
            let o := body s1 r bd
            let s2 := updFr s1 f fun x => { x with slot := { x.slot with
              infl := x.slot.infl ++ o.writes.map fun w => ⟨c1 + sp.lat, r.grp, w.1, w.2⟩ } }
            let s3 := match o.range with
              | l :: _ => progFault s2 f r.grp r.pc (.range l)
              | [] => match o.arith with
                | l :: _ => progFault s2 f r.grp r.pc (.arith l)
                | [] => s2
            let r1 : Run := { r with
              m := o.m.getD r.m, sx := o.sx.getD r.sx, sf := o.sf.getD r.sf, sxAt := if sp.sx then c1 + sp.lat else r.sxAt }
            finishIssue s3 f r1 c1 (o.jump.getD (r.pc + 1)) e bd

/-- The lanes in M. -/
def lanesM (r : Run) : List Nat := bitList 32 r.m

/-- The lowest-numbered lane of the group's LANES; lane 0 for a group bound with LANES = 0, which has none (DESIGN CHOICE, log entry 109). -/
def lowLane (bd : Binding) : Nat := (bitList 32 bd.lanes).headD 0

/-- A form-R instruction. -/
def issueR (f opc : Nat) (w : RForm) (sp : OpSpec) (srcLanes : Run → Binding → List Nat) (body : State → Run → Binding → LaneOut) (s : State) : State :=
  issueOp s f (encR opc w) w.e sp w.d.toNat w.a.toNat w.b.toNat w.m.toNat srcLanes (fun _ => false) body

/-- A form-I instruction. -/
def issueI (f opc : Nat) (w : IForm) (sp : OpSpec) (body : State → Run → Binding → LaneOut) (s : State) : State :=
  issueOp s f (encI opc w) w.e sp w.d.toNat w.a.toNat 0 w.imm.toNat (fun r _ => lanesM r) (fun _ => false) body

/-- One value per lane in M goes to D. -/
def writeLanes (d : Nat) (l : List (Nat × Nat)) : List (Dest × Nat) := l.map fun p => (Dest.reg d p.1, p.2)

/-- A form-R instruction that computes its result lane by lane from A, B and D. -/
def issueAlu (f opc : Nat) (w : RForm) (sp : OpSpec) (fn : Nat → Nat → Nat → Nat → Nat) (s : State) : State :=
  issueR f opc w { sp with usesD := true, usesA := true, usesB := true } (fun r _ => lanesM r)
    (fun s1 r _ =>
      { writes := writeLanes w.d.toNat ((lanesM r).map fun n =>
          (n, fn n (operand s1 f w.a.toNat n) (operand s1 f w.b.toNat n) (operand s1 f w.d.toNat n))) }) s

/-- A form-R instruction of A alone that computes its result lane by lane. -/
def issueAlu1 (f opc : Nat) (w : RForm) (sp : OpSpec) (fn : Nat → Nat) (s : State) : State :=
  issueR f opc w { sp with usesD := true, usesA := true } (fun r _ => lanesM r)
    (fun s1 r _ => { writes := writeLanes w.d.toNat ((lanesM r).map fun n => (n, fn (operand s1 f w.a.toNat n))) }) s

/-- A form-R instruction whose lanes write only where the function answers a value; a flag marks an arithmetic fault. -/
def issueOpt (f opc : Nat) (w : RForm) (sp : OpSpec) (fn : State → Nat → Nat → Nat → Nat → Option Nat × Bool) (s : State) : State :=
  issueR f opc w { sp with usesD := true, usesA := true, usesB := true } (fun r _ => lanesM r)
    (fun s1 r _ =>
      let res := (lanesM r).map fun n =>
        (n, fn s1 n (operand s1 f w.a.toNat n) (operand s1 f w.b.toNat n) (operand s1 f w.d.toNat n))
      { writes := writeLanes w.d.toNat (res.filterMap fun p => p.2.1.map fun v => (p.1, v)), arith := (res.filter fun p => p.2.2).map fun p => p.1 }) s

/-- R97, R98: BFP results of the lanes: SX rises to the least exponent at which every value fits, every lane is expressed there; the lanes that saturate are listed. -/
def bfpResult (r : Run) (d : Nat) (vals : List (Nat × BVal)) (al : List Nat) (start : Int) : LaneOut :=
  let w := sfWidth r.sf
  let x := leastFit w (vals.map fun p => p.2) 256 start
  let res := vals.map fun p => (p.1, expressAt w p.2 x)
  { writes := writeLanes d (res.map fun p => (p.1, bfpElem p.2.1 r.sf x)), sx := some x, range := (res.filter fun p => p.2.2).map fun p => p.1, arith := al }

/-- A BFP instruction with two addends per lane, aligned under R115. -/
def issueBfp (f opc : Nat) (w : RForm) (sp : OpSpec) (fn : BVal → BVal → BVal → BVal × BVal) (s : State) : State :=
  issueR f opc w { sp with usesD := true, usesA := true, usesB := true, sx := true, bfp := true } (fun r _ => lanesM r)
    (fun s1 r _ =>
      let vals := (lanesM r).map fun n =>
        let p := fn (bfpVal (operand s1 f w.a.toNat n)) (bfpVal (operand s1 f w.b.toNat n)) (bfpVal (operand s1 f w.d.toNat n))
        let u := alignTo r.sx p.1
        let v := alignTo r.sx p.2
        (n, addV u.1 v.1, u.2 || v.2)
      bfpResult r w.d.toNat (vals.map fun p => (p.1, p.2.1)) ((vals.filter fun p => p.2.2).map fun p => p.1) r.sx) s

end Sys2Proof.Machine
end

