-- ==== Sys2Proof/Machine/Lanes.lean ====
section
/-! DEFINITION. Machine/Lanes.lean: the instructions of a loop program (spec/04_loop_programs.md, Table 4-3; spec/05_arithmetic.md). -/
namespace Sys2Proof.Machine


/-- The opcodes that Table 4-3 lists. -/
def legalOpc (o : Nat) : Bool :=
  decide (o ≤ 0x16) || decide (0x18 ≤ o ∧ o ≤ 0x1C) || decide (0x20 ≤ o ∧ o ≤ 0x2B) || decide (0x30 ≤ o ∧ o ≤ 0x33)
  || decide (0x38 ≤ o ∧ o ≤ 0x3A) || decide (0x3C ≤ o ∧ o ≤ 0x3E)

/-- NOP (OPC 0x00), and every word whose OPC Table 4-3 does not list: a program fault of code 1 that acts as a NOP (R99, R106). -/
def execNop (f : Nat) (word : W32) (s : State) : Out := nextOf s <|
  let w := word.toNat
  let opc := bitsOf w 31 26
  if opc = 0 ∨ ¬ legalOpc opc then
    (issueOp s f w (bitOf w 25) { extra := if opc = 0 then [] else [1] } (if opc = 0 then bitsOf w 24 19 else 0) (if opc = 0 then bitsOf w 18 12 else 0)
      (if opc = 0 then bitsOf w 11 5 else 0) (if opc = 0 then bitsOf w 4 0 else 0) (fun _ _ => []) (fun _ => false) (fun _ _ _ => {}))
  else s

/-- ADD: D = A + (B >>> MOD[3:0]), MOD[4] saturates (R99). -/
def execAdd (f : Nat) (w : RForm) (s : State) : Out := nextOf s <|
  let m := w.m.toNat
  (issueAlu f 0x01 w { named := 0x1F } (fun _ a b _ =>
    let v := s32 a + sra (s32 b) (m % 16)
    if bitOf m 4 then sat32 v else wrap32 v) s)

/-- SUB: D = A − (B >>> MOD[3:0]), MOD[4] saturates (R99). -/
def execSub (f : Nat) (w : RForm) (s : State) : Out := nextOf s <|
  let m := w.m.toNat
  (issueAlu f 0x02 w { named := 0x1F } (fun _ a b _ =>
    let v := s32 a - sra (s32 b) (m % 16)
    if bitOf m 4 then sat32 v else wrap32 v) s)

/-- SBS: D = (A − B) >>> MOD, the difference formed in 33 bits (R99). -/
def execSbs (f : Nat) (w : RForm) (s : State) : Out := nextOf s <|
  (issueAlu f 0x03 w { named := 0x1F } (fun _ a b _ => wrap32 (sra (s32 a - s32 b) w.m.toNat)) s)

/-- ADF: D = D + A − B, MOD[4] saturates (R99). -/
def execAdf (f : Nat) (w : RForm) (s : State) : Out := nextOf s <|
  (issueAlu f 0x04 w { named := 0x10, readD := true } (fun _ a b d =>
    let v := s32 d + s32 a - s32 b
    if bitOf w.m.toNat 4 then sat32 v else wrap32 v) s)

/-- INTG: D = sat32(D + (A >>> B[4:0])) (R99). -/
def execIntg (f : Nat) (w : RForm) (s : State) : Out := nextOf s <|
  (issueAlu f 0x05 w { readD := true } (fun _ a b d => sat32 (s32 d + sra (s32 a) (b % 32))) s)

/-- INTGF: INTG, but D is unchanged where SAT ≠ 0 and the increment is non-zero with the sign of SAT (R99, R133). -/
def execIntgf (f : Nat) (w : RForm) (s : State) : Out := nextOf s <|
  (issueOpt f 0x06 w { readD := true } (fun s1 _ a b d =>
    let inc := sra (s32 a) (b % 32)
    let sat := (fr s1 f).law.sat
    if (sat > 0 ∧ inc > 0) ∨ (sat < 0 ∧ inc < 0) then (none, false) else (some (sat32 (s32 d + inc)), false)) s)

/-- MIN: signed minimum (R99). -/
def execMin (f : Nat) (w : RForm) (s : State) : Out := nextOf s <|
  (issueAlu f 0x07 w {} (fun _ a b _ => if s32 a ≤ s32 b then a else b) s)

/-- MAX: signed maximum (R99). -/
def execMax (f : Nat) (w : RForm) (s : State) : Out := nextOf s <|
  (issueAlu f 0x08 w {} (fun _ a b _ => if s32 a ≥ s32 b then a else b) s)

/-- AND (R99). -/
def execAnd (f : Nat) (w : RForm) (s : State) : Out := nextOf s <| (issueAlu f 0x09 w {} (fun _ a b _ => a &&& b) s)

/-- OR (R99). -/
def execOr (f : Nat) (w : RForm) (s : State) : Out := nextOf s <| (issueAlu f 0x0A w {} (fun _ a b _ => a ||| b) s)

/-- XOR (R99). -/
def execXor (f : Nat) (w : RForm) (s : State) : Out := nextOf s <| (issueAlu f 0x0B w {} (fun _ a b _ => a ^^^ b) s)

/-- ANDN: A AND NOT B (R99). -/
def execAndn (f : Nat) (w : RForm) (s : State) : Out := nextOf s <| (issueAlu f 0x0C w {} (fun _ a b _ => a - (a &&& b)) s)

/-- SLL: A << MOD (R99). -/
def execSll (f : Nat) (w : RForm) (s : State) : Out := nextOf s <|
  (issueAlu1 f 0x0D w { named := 0x1F } (fun a => a * 2 ^ w.m.toNat % 2 ^ 32) s)

/-- SRL: A shifted right logically by MOD (R99). -/
def execSrl (f : Nat) (w : RForm) (s : State) : Out := nextOf s <|
  (issueAlu1 f 0x0E w { named := 0x1F } (fun a => a / 2 ^ w.m.toNat) s)

/-- SRA: A >>> MOD (R99). -/
def execSra (f : Nat) (w : RForm) (s : State) : Out := nextOf s <|
  (issueAlu1 f 0x0F w { named := 0x1F } (fun a => wrap32 (sra (s32 a) w.m.toNat)) s)

/-- CMP: all ones if A cc B holds, else 0 (R99, Table 4-4). -/
def execCmp (f : Nat) (w : RForm) (s : State) : Out := nextOf s <|
  (issueAlu f 0x10 w { named := 7 } (fun _ a b _ => if cmpHolds (w.m.toNat % 8) a b then 2 ^ 32 - 1 else 0) s)

/-- SEL: D = B where A ≠ 0 (R99). -/
def execSel (f : Nat) (w : RForm) (s : State) : Out := nextOf s <|
  (issueOpt f 0x11 w {} (fun _ _ a b _ => if a = 0 then (none, false) else (some b, false)) s)

/-- BND: the band state of A against the pair that B names (R100). -/
def execBnd (f : Nat) (w : RForm) (s : State) : Out := nextOf s <|
  let b := w.b.toNat
  (issueR f 0x12 w { usesD := true, usesA := true, usesB := true, pair := true } (fun r _ => lanesM r)
    (fun s1 r _ => { writes := writeLanes w.d.toNat ((lanesM r).map fun n =>
      (n, bandState (operand s1 f w.a.toNat n) (operand s1 f b n) (if b < 0x40 then operand s1 f (b + 1) n else operandHi s1 f b))) }) s)

/-- BFY: D = A − B and the register after D = A + B, wrapping (R99, R100). -/
def execBfy (f : Nat) (w : RForm) (s : State) : Out := nextOf s <|
  let d := w.d.toNat
  (issueR f 0x13 w { usesD := true, usesA := true, usesB := true, second := true } (fun r _ => lanesM r)
    (fun s1 r _ =>
      let ab := fun n => (s32 (operand s1 f w.a.toNat n), s32 (operand s1 f w.b.toNat n))
      { writes := writeLanes d ((lanesM r).map fun n => (n, wrap32 ((ab n).1 - (ab n).2)))
          ++ writeLanes (d + 1) ((lanesM r).map fun n => (n, wrap32 ((ab n).1 + (ab n).2))) }) s)

/-- IMUL: A[15:0] × B[15:0] as INT32, MOD[0] unsigned (R99). -/
def execImul (f : Nat) (w : RForm) (s : State) : Out := nextOf s <|
  (issueAlu f 0x14 w { named := 1, lat := 2 } (fun _ a b _ =>
    if bitOf w.m.toNat 0 then (a % 2 ^ 16) * (b % 2 ^ 16) else wrap32 (signedOf 16 a * signedOf 16 b)) s)

/-- QMUL: the product in Q1.15 or Q2.30, rounded to nearest even and saturated; a saturation is an arithmetic fault (R99, R116). -/
def execQmul (f : Nat) (w : RForm) (s : State) : Out := nextOf s <|
  (issueOpt f 0x15 w { named := 1, lat := 3 } (fun _ _ a b _ =>
    if bitOf w.m.toNat 0 then
      let p := rne (s32 a * s32 b) (2 ^ 30)
      (some (sat32 p), decide (s32 (sat32 p) ≠ p))
    else
      let p := rne (signedOf 16 a * signedOf 16 b) (2 ^ 15)
      let c := clampInt (-(2 ^ 15 : Nat)) ((2 ^ 15 : Nat) - 1) p
      (some (wrap32 c), decide (c ≠ p))) s)

/-- QMAC: D + A × B in Q2.30, saturated; a saturation is an arithmetic fault (R99, R116). -/
def execQmac (f : Nat) (w : RForm) (s : State) : Out := nextOf s <|
  (issueOpt f 0x16 w { named := 1, lat := 3, readD := true } (fun _ _ a b d =>
    let p := if bitOf w.m.toNat 0 then rne (s32 a * s32 b) (2 ^ 30) else signedOf 16 a * signedOf 16 b
    let v := s32 d + p
    (some (sat32 v), decide (s32 (sat32 v) ≠ v))) s)

/-- ADDI: A plus the sign-extended immediate, wrapping (R99). -/
def execAddi (f : Nat) (w : IForm) (s : State) : Out := nextOf s <|
  (issueI f 0x18 w { usesD := true, usesA := true, named := 0xFFF } (fun s1 r _ =>
    { writes := writeLanes w.d.toNat ((lanesM r).map fun n => (n, wrap32 (s32 (operand s1 f w.a.toNat n) + w.imm.toInt))) }) s)

/-- MOVI: the sign-extended immediate; A must be 0 (R99). -/
def execMovi (f : Nat) (w : IForm) (s : State) : Out := nextOf s <|
  (issueI f 0x19 w { usesD := true, named := 0xFFF } (fun _ r _ =>
    { writes := writeLanes w.d.toNat ((lanesM r).map fun n => (n, wrap32 w.imm.toInt)) }) s)

/-- TST: all ones if A AND the zero-extended immediate is not 0 (R99). -/
def execTst (f : Nat) (w : IForm) (s : State) : Out := nextOf s <|
  (issueI f 0x1A w { usesD := true, usesA := true, named := 0xFFF } (fun s1 r _ =>
    { writes := writeLanes w.d.toNat ((lanesM r).map fun n =>
        (n, if operand s1 f w.a.toNat n &&& w.imm.toNat = 0 then 0 else 2 ^ 32 - 1)) }) s)

/-- SELI: D takes the sign-extended immediate where A ≠ 0 (R99). -/
def execSeli (f : Nat) (w : IForm) (s : State) : Out := nextOf s <|
  (issueI f 0x1B w { usesD := true, usesA := true, named := 0xFFF } (fun s1 r _ =>
    { writes := writeLanes w.d.toNat (((lanesM r).filter fun n => operand s1 f w.a.toNat n != 0).map fun n => (n, wrap32 w.imm.toInt)) }) s)

/-- EXT: the field of Table 4-7 of A, or of the high word of a scalar (R109). -/
def execExt (f : Nat) (w : IForm) (s : State) : Out := nextOf s <|
  let i := w.imm.toNat
  let pos := bitsOf i 4 0
  let len := bitsOf i 9 5 + 1
  let hi := bitOf i 11
  (issueI f 0x1C w { usesD := true, usesA := true, named := 0xFFF, extra := if pos + len > 32 ∨ (hi = true ∧ w.a.toNat < 0x40) then [4] else [] } (fun s1 r _ =>
    { writes := writeLanes w.d.toNat ((lanesM r).map fun n =>
        let x := if hi then operandHi s1 f w.a.toNat else operand s1 f w.a.toNat n
        let v := bitsOf x (pos + len - 1) pos
        (n, if bitOf i 10 then wrap32 (signedOf len v) else v)) }) s)

/-- BADD: D = A + B in BFP (R97, R99). -/
def execBadd (f : Nat) (w : RForm) (s : State) : Out := nextOf s <| (issueBfp f 0x20 w { lat := 2 } (fun a b _ => (a, b)) s)

/-- BSUB: D = A − B in BFP (R97, R99). -/
def execBsub (f : Nat) (w : RForm) (s : State) : Out := nextOf s <| (issueBfp f 0x21 w { lat := 2 } (fun a b _ => (a, negV b)) s)

/-- BMUL: D = A × B in BFP, the product exact before it is expressed (R97, R115). -/
def execBmul (f : Nat) (w : RForm) (s : State) : Out := nextOf s <|
  (issueR f 0x22 w { usesD := true, usesA := true, usesB := true, sx := true, bfp := true, lat := 3 } (fun r _ => lanesM r)
    (fun s1 r _ => bfpResult r w.d.toNat ((lanesM r).map fun n =>
      (n, mulV (bfpVal (operand s1 f w.a.toNat n)) (bfpVal (operand s1 f w.b.toNat n)))) [] r.sx) s)

/-- BMAC: D = D + A × B in BFP; D and the product are the aligned addends (R97, R115). -/
def execBmac (f : Nat) (w : RForm) (s : State) : Out := nextOf s <|
  (issueBfp f 0x23 w { lat := 3, readD := true } (fun a b d => (d, mulV a b)) s)

/-- BCVT: A converted to BFP from a format of Table 4-6 (R117). -/
def execBcvt (f : Nat) (w : RForm) (s : State) : Out := nextOf s <|
  let k := w.m.toNat % 8
  (issueR f 0x24 w { usesD := true, usesA := true, sx := true, named := 7, lat := 2, extra := if 6 ≤ k then [4] else [] } (fun r _ => lanesM r)
    (fun s1 r _ => bfpResult r w.d.toNat ((lanesM r).map fun n => (n, cvtSource k (operand s1 f w.a.toNat n))) [] r.sx) s)

/-- BCVI: BFP A converted to a format of Table 4-6 with rounding and saturation; SX does not change (R99, R117). -/
def execBcvi (f : Nat) (w : RForm) (s : State) : Out := nextOf s <|
  let k := w.m.toNat % 8
  (issueR f 0x25 w { usesD := true, usesA := true, sx := true, named := 7, lat := 2, extra := if 6 ≤ k then [4] else [] } (fun r _ => lanesM r)
    (fun s1 r _ =>
      let res := (lanesM r).map fun n => (n, cvtTarget k (bfpVal (operand s1 f w.a.toNat n)))
      { writes := writeLanes w.d.toNat (res.map fun p => (p.1, p.2.1)), range := (res.filter fun p => p.2.2).map fun p => p.1 }) s)

/-- STG: starts a stage with the format MOD[1:0] and the exponent of A[7:0] in the lowest lane of LANES, or with AUTO the least exponent at which A fits in
every lane in M (R101). With M empty SX is unchanged. -/
def execStg (f : Nat) (w : RForm) (s : State) : Out := nextOf s <|
  let m := w.m.toNat
  (issueR f 0x26 w { usesA := true, sx := true, named := 7, extra := if m % 4 = 3 then [4] else [] }
    (fun r bd => if bitOf m 2 then lanesM r else [lowLane bd])
    (fun s1 r bd =>
      { sf := some (m % 4), sx := if r.m = 0 then none
          else if bitOf m 2 then some (leastFit (sfWidth (m % 4)) ((lanesM r).map fun n => bfpVal (operand s1 f w.a.toNat n)) 256 (-128))
          else some (signedOf 8 (operand s1 f w.a.toNat (lowLane bd))) }) s)

/-- NRM: A at the least exponent at which every lane in M fits; SX takes it (R99, R114). With M empty no exponent is the least one of R99, and SX is unchanged (DESIGN CHOICE, log
entry 109). -/
def execNrm (f : Nat) (w : RForm) (s : State) : Out := nextOf s <|
  (issueR f 0x27 w { usesD := true, usesA := true, sx := true, bfp := true, lat := 2 } (fun r _ => lanesM r)
    (fun s1 r _ =>
      if r.m = 0 then {}
      else bfpResult r w.d.toNat ((lanesM r).map fun n => (n, bfpVal (operand s1 f w.a.toNat n))) [] (-128)) s)

/-- XSH: A of lane n XOR 2^k; 0 from a lane that does not exist and, with FILL, from a lane not in M (R102). The pending mark of a source lane whose value FILL replaces by 0 still
stalls it (DESIGN CHOICE, log entry 109). -/
def execXsh (f : Nat) (w : RForm) (s : State) : Out := nextOf s <|
  let k := w.m.toNat % 8
  (issueR f 0x28 w { usesD := true, usesA := true, named := 0xF, lat := 2, extra := if 4 < k then [4] else [] }
    (fun r _ => (lanesM r).map fun n => n ^^^ 2 ^ k)
    (fun s1 r _ => { writes := writeLanes w.d.toNat ((lanesM r).map fun n =>
      let q := n ^^^ 2 ^ k
      (n, if nP s1 ≤ q ∨ (bitOf w.m.toNat 3 = true ∧ bitOf r.m q = false) then 0 else operand s1 f w.a.toNat q)) }) s)

/-- RSH: A of lane (n + MOD) mod P (R102). -/
def execRsh (f : Nat) (w : RForm) (s : State) : Out := nextOf s <|
  (issueR f 0x29 w { usesD := true, usesA := true, named := 0x1F, lat := 2 }
    (fun r _ => (lanesM r).map fun n => (n + w.m.toNat) % nP s)
    (fun s1 r _ => { writes := writeLanes w.d.toNat ((lanesM r).map fun n => (n, operand s1 f w.a.toNat ((n + w.m.toNat) % nP s1))) }) s)

/-- BCL: A of lane MOD; 0 if that lane does not exist (R102). -/
def execBcl (f : Nat) (w : RForm) (s : State) : Out := nextOf s <|
  let q := w.m.toNat
  (issueR f 0x2A w { usesD := true, usesA := true, named := 0x1F, lat := 2 } (fun r _ => if r.m = 0 then [] else [q])
    (fun s1 r _ => { writes := writeLanes w.d.toNat ((lanesM r).map fun n => (n, if nP s1 ≤ q then 0 else operand s1 f w.a.toNat q)) }) s)

/-- The integer result of a reduction (R103, Table 4-5): the element, and whether a SUM or MEAN saturated. -/
def redInt (op : Nat) (xs : List Nat) : Nat × Bool :=
  let sum := xs.foldl (fun acc x => acc + s32 x) (0 : Int)
  match op with
  | 0 => (sat32 sum, decide (s32 (sat32 sum) ≠ sum))
  | 1 =>
    let q := rne sum xs.length
    (sat32 q, decide (s32 (sat32 q) ≠ q))
  | 2 => (xs.foldl (fun acc x => if s32 x > s32 acc then x else acc) (xs.headD 0), false)
  | 3 => (xs.foldl (fun acc x => if s32 x < s32 acc then x else acc) (xs.headD 0), false)
  | 4 => ((xs.filter fun x => x != 0).length, false)
  | _ => (xs.foldl (fun acc x => acc ||| x) 0, false)

/-- The BFP value of a reduction over operands aligned to SX (R103, R115), and for each lane whether its alignment saturated. -/
def redBfp (op : Nat) (sx : Int) (xs : List Nat) : BVal × List Bool :=
  let al := xs.map fun x => alignTo sx (bfpVal x)
  let sum := al.foldl (fun acc p => addV acc p.1) ⟨0, 1, sx⟩
  let hd := (al.headD (⟨0, 1, sx⟩, false)).1
  let fl := al.map fun p => p.2
  match op with
  | 0 => (sum, fl)
  | 1 => ({ sum with den := sum.den * xs.length }, fl)
  | 2 => (al.foldl (fun acc p => if ltV acc p.1 then p.1 else acc) hd, fl)
  | _ => (al.foldl (fun acc p => if ltV p.1 acc then p.1 else acc) hd, fl)

/-- RED: reduces A over the lanes in M, with PH only those of the effective phase mask, and writes the result to each of them (R103). -/
def execRed (f : Nat) (w : RForm) (s : State) : Out := nextOf s <|
  let m := w.m.toNat
  let op := m % 8
  (issueR f 0x2B w
    { usesD := true, usesA := true, named := 0x1F, lat := 3, sx := bitOf m 3, extra := if 6 ≤ op ∨ (bitOf m 3 = true ∧ (op = 4 ∨ op = 5)) then [4] else [],
      within := if bitOf m 4 then some (effMask s f) else none }
    (fun r _ => (lanesM r).filter fun n => !(bitOf m 4) || bitOf (effMask s f) n)
    (fun s1 r _ =>
      let ls := (lanesM r).filter fun n => !(bitOf m 4) || bitOf (effMask s1 f) n
      let xs := ls.map fun n => operand s1 f w.a.toNat n
      if ls.isEmpty then {}
      else if bitOf m 3 then
        let v := redBfp op r.sx xs
        let al := (List.zip ls v.2).filterMap fun p => if p.2 then some p.1 else none
        bfpResult r w.d.toNat (ls.map fun n => (n, v.1)) al r.sx
      else
        let v := redInt op xs
        { writes := writeLanes w.d.toNat (ls.map fun n => (n, v.1)), arith := if v.2 then ls else [] }) s)

/-- The lanes of a mask in which A is not 0. -/
def nonZeroMask (s : State) (f a mask : Nat) : Nat := ofBits ((bitList 32 mask).filter fun n => operand s f a n != 0)

/-- MSK: M = E AND (A ≠ 0) (R99). -/
def execMsk (f : Nat) (w : RForm) (s : State) : Out := nextOf s <|
  (issueR f 0x30 w { usesA := true } (fun r _ => bitList 32 r.e) (fun s1 r _ => { m := some (nonZeroMask s1 f w.a.toNat r.e) }) s)

/-- MAND: M = M AND (A ≠ 0) (R99). -/
def execMand (f : Nat) (w : RForm) (s : State) : Out := nextOf s <|
  (issueR f 0x31 w { usesA := true } (fun r _ => lanesM r) (fun s1 r _ => { m := some (nonZeroMask s1 f w.a.toNat r.m) }) s)

/-- MNOT: M = E AND NOT M (R99). -/
def execMnot (f : Nat) (w : RForm) (s : State) : Out := nextOf s <|
  (issueR f 0x32 w {} (fun _ _ => []) (fun _ r _ => { m := some (r.e - (r.e &&& r.m)) }) s)

/-- MALL: M = E (R99). -/
def execMall (f : Nat) (w : RForm) (s : State) : Out := nextOf s <|
  (issueR f 0x33 w {} (fun _ _ => []) (fun _ r _ => { m := some r.e }) s)

/-- A forward branch (R104): OFF of 0, or a target at or beyond ENTRY + LEN, is a program fault of code 6, and the branch falls through. -/
def issueBranch (f opc : Nat) (w : BForm) (usesA usesMask : Bool) (taken : State → Run → Binding → Bool) (s : State) : State :=
  let off := w.off.toNat
  let bad : Bool := match (fr s f).slot.run with
    | none => false
    | some r =>
      let bd := binding s f r.grp
      decide (off = 0 ∨ bd.entry + hdrLen (header s f bd) ≤ r.pc + off)
  issueOp s f (encB opc w) w.e
    { usesA := usesA, extra := (if bad then [6] else []) ++ (if !usesMask && w.mask.toNat != 0 then [5] else []) } 0 w.a.toNat 0 0
    (fun _ bd => [lowLane bd]) (fun _ => false)
    (fun s1 r bd => { jump := if taken s1 r bd then some (r.pc + off) else none })

/-- BRS: taken if every bit set in MASK is 1 in A[7:0] of the lowest lane of LANES (R99, R104). -/
def execBrs (f : Nat) (w : BForm) (s : State) : Out := nextOf s <|
  (issueBranch f 0x38 w true true (fun s1 _ bd =>
    operand s1 f w.a.toNat (lowLane bd) % 256 &&& w.mask.toNat == w.mask.toNat) s)

/-- BRC: taken if every bit set in MASK is 0 in A[7:0] (R99, R104). -/
def execBrc (f : Nat) (w : BForm) (s : State) : Out := nextOf s <|
  (issueBranch f 0x39 w true true (fun s1 _ bd =>
    operand s1 f w.a.toNat (lowLane bd) % 256 &&& w.mask.toNat == 0) s)

/-- BRZ: taken if M is empty; A and MASK must be 0 (R99, R104). -/
def execBrz (f : Nat) (w : BForm) (s : State) : Out := nextOf s <|
  (issueBranch f 0x3A w false false (fun _ r _ => r.m == 0) s)

/-- DRV: DRV = (A OR B)[6:0] in each lane in M; only a phase group may use it (R105, Table 4-8 code 8). -/
def execDrv (f : Nat) (w : RForm) (s : State) : Out := nextOf s <|
  let aux := match (fr s f).slot.run with
    | none => false
    | some r => (binding s f r.grp).aux
  (issueOp s f (encR 0x3C w) w.e { usesA := true, usesB := true, extra := if aux then [8] else [] } w.d.toNat w.a.toNat w.b.toNat w.m.toNat
    (fun r _ => lanesM r) (fun t => match t with | .drv _ => true | _ => false)
    (fun s1 r _ => { writes := (lanesM r).map fun n =>
      (Dest.drv n, (operand s1 f w.a.toNat n ||| operand s1 f w.b.toNat n) % 128) }))

/-- The two halves that TEL and BXW write from lane 0: B in [63:32], A in [31:0]. -/
def pairWord (s : State) (f : Nat) (w : RForm) : Nat := operand s f w.b.toNat 0 * 2 ^ 32 + operand s f w.a.toNat 0

/-- A lane-0 output is a program fault of code 8 in a phase group (R105). -/
def inPhaseGroup (s : State) (f : Nat) : Bool :=
  match (fr s f).slot.run with
  | none => false
  | some r => !(binding s f r.grp).aux

/-- Lane 0 is in M of the running group. -/
def laneZero (s : State) (f : Nat) : Bool :=
  match (fr s f).slot.run with
  | none => false
  | some r => bitOf r.m 0

/-- TEL: TM(k) takes B and A of lane 0, if lane 0 is in M; only an auxiliary group may use it (R105). -/
def execTel (f : Nat) (w : RForm) (s : State) : Out := nextOf s <|
  (issueOp s f (encR 0x3D w) w.e { usesA := true, usesB := true, named := 7, extra := if inPhaseGroup s f then [8] else [] }
    w.d.toNat w.a.toNat w.b.toNat w.m.toNat (fun r _ => if bitOf r.m 0 then [0] else []) (fun t => match t with | .tm k => laneZero s f && k == w.m.toNat % 8 | _ => false)
    (fun s1 r _ => { writes := if bitOf r.m 0 then [(Dest.tm (w.m.toNat % 8), pairWord s1 f w)] else [] }))

/-- BXW: BX takes B and A of lane 0, if lane 0 is in M; only an auxiliary group may use it (R105). -/
def execBxw (f : Nat) (w : RForm) (s : State) : Out := nextOf s <|
  (issueOp s f (encR 0x3E w) w.e { usesA := true, usesB := true, extra := if inPhaseGroup s f then [8] else [] }
    w.d.toNat w.a.toNat w.b.toNat w.m.toNat (fun r _ => if bitOf r.m 0 then [0] else []) (fun t => match t with | .bx => laneZero s f | _ => false)
    (fun s1 r _ => { writes := if bitOf r.m 0 then [(Dest.bx, pairWord s1 f w)] else [] }))

/-- The cycle in which the next pending write lands. -/
def nextLanding : List Wr → Option Nat
  | [] => none
  | w :: t => match nextLanding t with
    | none => some w.ev
    | some c => some (min w.ev c)

/-- RESULT_WRITE_LANDS: the pending writes of frond f with the least landing cycle land and their marks clear (R70, R95). A cycle that the core has not reached yet comes without a
further row only while no group runs or is due; otherwise the rows of those groups move the cycle and count the stalls (R69, R70), and nothing lands yet. -/
def execResultWriteLands (f : Nat) (s : State) : Out := nextOf s <|
  let x := fr s f
  match nextLanding x.slot.infl with
  | none => s
  | some c =>
    if c ≤ x.slot.cyc then updFr s f fun x => landBy x c
    else if x.slot.run.isSome || !x.slot.due.isEmpty || decide (slotC s f < c) then s
    else updFr s f fun x => let y := landBy x c; { y with slot := { y.slot with cyc := c, used := max x.slot.used c } }

/-- R63: the lane enable at the start of a run. -/
def runEnable (s : State) (f : Nat) (bd : Binding) : Nat :=
  (if bd.aux then bd.lanes else bd.lanes &&& effMask s f) &&& laneAll s

/-- GROUP_DISPATCH: the next due group is dispatched; it takes one cycle (R69) and starts with the state of R94. `fetch`: what the check bits of its instruction words show, where it is
not clean; each acts when its word is fetched (R82). -/
def execGroupDispatch (f : Nat) (fetch : List (Nat × Ecc)) (s : State) : Out := nextOf s <|
  let x := fr s f
  match x.slot.run, x.slot.due with
  | none, g :: rest =>
    if slotC s f ≤ x.slot.cyc ∨ hasF s f = false then s
    else
      let bd := binding s f g
      let e := runEnable s f bd
      updFr s f fun x => { x with slot := { x.slot with cyc := x.slot.cyc + 1, used := max x.slot.used (x.slot.cyc + 1), due := rest, run := some ⟨g, bd.entry, e, e, 0, 0, 0, fetch⟩ } }
  | _, _ => s

end Sys2Proof.Machine
end

