-- ==== Sys2Proof/Machine/FrondCmd.lean ====
section
/-! DEFINITION. Machine/FrondCmd.lean: the checks of the commands of a frond core and their effect at a slot boundary (R46, R65, R66, R71, R87 to R89, R108, R149, R152 to
R164, R167). -/
namespace Sys2Proof.Machine

/-- The bindings of a frond, with group g replaced. -/
def bindingsWith (s : State) (f g : Nat) (b : Binding) : List Binding :=
  (List.range 8).map fun k => if k = g then b else bindingOf (reg s (FR_GROUP f k)).toNat

/-- R71: the sum of WCET over the enabled groups due in residue r. -/
def wcetSum (s : State) (f r : Nat) (bs : List Binding) : Nat :=
  bs.foldl (fun acc b => if b.en && r % 2 ^ b.div == b.offset then acc + hdrWcet (header s f b) else acc) 0

/-- R71: the cycle-budget check passes: no residue from 0 to 127 sums above C. -/
def budgetOk (s : State) (f c : Nat) (bs : List Binding) : Bool :=
  (List.range 128).all fun r => decide (wcetSum s f r bs ≤ c)

/-- The auxiliary window of a binding as a half-open range of A numbers (Table 3-16). -/
def window (b : Binding) : Nat × Nat := (4 * b.wbase, 4 * b.wbase + 4 * (b.wcnt + 1))

def rangesMeet (a b c d : Nat) : Bool := decide (a < d ∧ c < b)

/-- R65: a binding with EN = 1 of group g is refused. -/
def bindRefused (s : State) (f g v : Nat) : Bool :=
  let b := bindingOf v
  let h := header s f b
  let others := (List.range 8).filter fun k => k != g && (bindingOf (reg s (FR_GROUP f k)).toNat).en
  let ob := fun k => bindingOf (reg s (FR_GROUP f k)).toNat
  b.entry == 0 || hdrMark h != 0xA || hdrKind h != b.aux
    || decide (0x1000 < b.entry + hdrLen h)
    || decide (2 ^ b.div ≤ b.offset)
    || (!b.aux && others.any fun k => !(ob k).aux && ((ob k).lanes &&& b.lanes) != 0)
    || (b.aux && (decide (32 < (window b).2)
        || others.any fun k => (ob k).aux && rangesMeet (window b).1 (window b).2 (window (ob k)).1 (window (ob k)).2))
    || (match s.load with
        | none => false
        | some l => bitOf l.targets f && rangesMeet (b.entry - 1) (b.entry + hdrLen h) l.dst (l.dst + l.len))
    || !(budgetOk s f (slotC s f) (bindingsWith s f g b))
    || coreSt s f == 0

/-- R66: a write with EN = 0 is refused while the frond's phases run under the loop and a lane of the group is set in the phase mask. -/
def unbindRefused (s : State) (f g : Nat) : Bool :=
  let b := bindingOf (reg s (FR_GROUP f g)).toNat
  b.en && !b.aux && (railSt s f == 2 || railSt s f == 3) && (b.lanes &&& fget s (FR_PHASE_MASK_MASK f)) != 0

/-- The words that an enabled group holds: its header and program (R83, R89). -/
def groupHolds (s : State) (f lo hi : Nat) : Bool :=
  (List.range 8).any fun k =>
    let b := bindingOf (reg s (FR_GROUP f k)).toNat
    b.en && rangesMeet (b.entry - 1) (b.entry + hdrLen (header s f b)) lo hi

/-! ### Operating points (R155, R165 to R167) -/

/-- Point i of the Fmax table: (VCODE, FCODE). -/
def fpoint (s : State) (f i : Nat) : Nat × Nat := (fget s (FR_FMAX_VCODE f i), fget s (FR_FMAX_FCODE f i))

/-- R167: Fmax(v) of eight points; the argument may be negative. -/
def fmaxP (p : Nat → Nat × Nat) (v : Int) : Nat :=
  if (List.range 8).all (fun i => p i == (0, 0)) then 0
  else if v ≥ (p 7).1 then (p 7).2
  else if v < (p 0).1 then
    let num := ((p 1).2 - (p 0).2 : Int) * ((p 0).1 - v)
    let den := ((p 1).1 - (p 0).1 : Int)
    ((p 0).2 - (-((-num) / den)) : Int).toNat
  else
    match (List.range 7).find? (fun i => decide (((p i).1 : Int) ≤ v ∧ v < (p (i + 1)).1)) with
    | none => 0
    | some i => (((p i).2 : Int) + (((p (i + 1)).2 - (p i).2 : Int) * (v - (p i).1)) / ((p (i + 1)).1 - (p i).1 : Int)).toNat

/-- Fmax of the points in force in the frond. -/
def fmaxOf (s : State) (f : Nat) (v : Int) : Nat := fmaxP (fpoint s f) v

/-- Point i as the active Rhizome holds it: the committed table, or the frond's points where none has been committed since reset (R155, R387). -/
def rzPoint (s : State) (f i : Nat) : Nat × Nat :=
  match tget? s.rz.tab f with
  | some l => l.getD i (0, 0)
  | none => fpoint s f i

/-- G_T as the active Rhizome holds it (R155). -/
def rzGuard (s : State) (f : Nat) : Nat := tget 0 s.rz.gt f

/-- G_T of the frond: S6[27:16] (Table 3-6). -/
def guardCode (s : State) (f : Nat) : Nat := bitsOf (scal s f 6) 27 16

/-- R155: the least code v from lo upward (n steps) with Fmax(v − MARGIN − G_T) ≥ FREQ, with the table and G_T that the active Rhizome holds. -/
def leastCode (s : State) (f freq : Nat) : Nat → Nat → Option Nat
  | 0, _ => none
  | n + 1, v =>
    if freq ≤ fmaxP (rzPoint s f) ((v : Int) - fget s (FR_OPP_CFG_MARGIN f) - rzGuard s f) then some v
    else leastCode s f freq n (v + 1)

/-- R155: the endpoint of a frequency-form command. -/
def freqEndpoint (s : State) (f freq : Nat) : Option Nat :=
  let lo := max 1600 (rzPoint s f 0).1
  leastCode s f freq (3801 - lo) lo

/-- R154: a write to FR_SETPOINT is refused. -/
def setpointRefused (s : State) (f v : Nat) : Bool :=
  if bitOf v 0 then bitsOf v 23 16 == 0 || (freqEndpoint s f (bitsOf v 23 16)).isNone
  else
    let c := bitsOf v 15 4
    decide (c < 1600 ∨ 3800 < c ∨ c < fget s (FR_FMAX_VCODE f 0))

/-- The endpoint of a set-point write that is not refused (R153, R155). -/
def setpointE (s : State) (f v : Nat) : Nat :=
  if bitOf v 0 then (freqEndpoint s f (bitsOf v 23 16)).getD 0 else bitsOf v 15 4

/-- R149: a write to FR_INJ_CFG with GO = 1 is refused. -/
def injGoRefused (s : State) (f v : Nat) : Bool :=
  flag s (FR_INJ_STAT_ACTIVE f) || (fr s f).inj.start || fget s (FR_BRIDGE_STAT_ROLE f) == 2 || coreSt s f == 0
    || bitsOf v 1 0 == 0 || bitsOf v 1 0 == 3 || decide (200 < bitsOf v 15 4) || bitsOf v 27 16 == 0
    || (bitOf v 44 && decide (10 < bitsOf v 43 40))

/-- The refusal rules of the FR_ commands, against the state s: true when the write is refused with ERR. -/
def frCmdRefused (s : State) (f : Nat) (n : RName) (i v : Nat) : Bool :=
  match n with
  | .FR_GROUP =>
    if coreSt s f = 0 then true else if bitOf v 0 then bindRefused s f i v else unbindRefused s f i
  | .FR_SAMPLE_CFG =>
    coreSt s f == 0 || !(budgetOk s f (16 * (bitsOf v 6 0 + 1)) ((List.range 8).map fun k => bindingOf (reg s (FR_GROUP f k)).toNat))
  | .FR_PHASE_MASK => coreSt s f == 0
  | .FR_CORE_CTRL =>
    if coreSt s f = 0 then !(bitOf v 0)
    else if coreSt s f = 1 then !(bitOf v 0) && railSt s f != 0
    else false
  | .FR_LAW_CFG =>
    let ma := bitsOf v 7 2
    decide (ma = 0 ∨ 32 < ma ∨ bitsOf v 15 8 = 0 ∨ bitsOf v 39 32 ≤ bitsOf v 31 24)
  | .FR_INJ_CFG => (bitOf v 2 && bitOf v 3) || (bitOf v 2 && injGoRefused s f v)
  | .FR_SETPOINT => inSpore s || setpointRefused s f v
  | .FR_DEGRADE_CFG => bitsOf v 15 8 == 0 || bitsOf v 23 16 == 0
  | .FR_GOV_CFG => bitsOf v 7 0 == 0
  | .FR_LEAF_CAL => flag s AD_LCAL_CFG_EN
  | .FR_VSNS_CAL => flag s AD_LCAL_CFG_EN
  | .FR_PROF_CFG => bitsOf v 15 0 == 0 || bitsOf v 31 16 == 0 || bitsOf v 47 32 == 0
  | .FR_SS_CFG => bitsOf v 15 0 == 0 || bitsOf v 31 16 == 0 || bitsOf v 47 32 == 0
  | _ => false

/-! ### Effect at the boundary -/

/-- P of the profile: S0[11:0], published as POINT (R157, R165). -/
def setPoint (s : State) (f p : Nat) : State :=
  fset (setScal s f 0 (putBits (scal s f 0) 11 0 p)) (FR_RAIL_STAT_POINT f) p

def pointP (s : State) (f : Nat) : Nat := bitsOf (scal s f 0) 11 0

/-- MOVING: S7[48] and FR_RAIL_STAT.MOVING. -/
def setMoving (s : State) (f : Nat) (b : Bool) : State :=
  fsetB (setScal s f 7 (putBits (scal s f 7) 48 48 b.toNat)) (FR_RAIL_STAT_MOVING f) b

/-- E and its SEQ: S7[47:36], S0[63:32], FR_RAIL_STAT.END (Table 7-1). -/
def setEnd (s : State) (f e seq : Nat) : State :=
  let s1 := setScal s f 7 (putBits (scal s f 7) 47 36 e)
  let s2 := setScal s1 f 0 (putBits (scal s1 f 0) 63 32 seq)
  updFr (fset s2 (FR_RAIL_STAT_END f) e) f fun x => { x with rail := { x.rail with e := e } }

/-- The limits of a move in 1/128 units: those of FR_SS_CFG in Soft start, with V halved when the grant carried the deferred mark, and of FR_PROF_CFG otherwise (R160). -/
def moveLimits (s : State) (f : Nat) : Nat × Nat × Nat :=
  if railSt s f = 2 then
    (if flag s (FR_RAIL_STAT_DEFER f) then fget s (FR_SS_CFG_VMAX f) else 2 * fget s (FR_SS_CFG_VMAX f),
      2 * fget s (FR_SS_CFG_AMAX f), 2 * fget s (FR_SS_CFG_JMAX f))
  else (2 * fget s (FR_PROF_CFG_VMAX f), 2 * fget s (FR_PROF_CFG_AMAX f), 2 * fget s (FR_PROF_CFG_JMAX f))

/-- R156, R158, R166: a move from P to e starts at this boundary; with e = P it ends at once; a falling move starts its ticks FDROP_WAIT ticks later. -/
def startMove (s : State) (f e seq : Nat) : State :=
  let s1 := setEnd s f e seq
  let p := pointP s f
  if e = p then
    updFr (setMoving s1 f false) f fun x => { x with rail := { x.rail with plan := none, code := none, ending := false } }
  else
    let l := moveLimits s f
    updFr (setMoving s1 f true) f fun x => { x with rail := { x.rail with
      plan := some ⟨p, e, l.1, l.2.1, l.2.2, 0, if e < p then fget s (FR_OPP_CFG_FDROP_WAIT f) else 0, p⟩, code := none, ending := false } }

/-- The move and any pending command are cancelled (R156). -/
def cancelMove (s : State) (f : Nat) : State :=
  updFr (fsetB (setMoving s f false) (FR_RAIL_STAT_PEND f) false) f fun x =>
    { x with rail := { x.rail with plan := none, code := none, ending := false, pend := none } }

/-- R153, R156, R161: a set-point command is applied: it sets F_lim and the form; it starts a move in service, waits as pending while a move runs, and in a state whose P
is 0 it sets E alone. -/
def applySetpoint (s : State) (f seq v e : Nat) : State :=
  let freq := bitOf v 0
  let s1 := setReg s (FR_SETPOINT f) (BitVec.ofNat 64 (v &&& 0xFFFFF1))
  let s2 := updFr s1 f fun x => { x with rail := { x.rail with fLim := if freq then bitsOf v 23 16 else 255, freqForm := freq }, inj := { x.inj with causes := x.inj.causes ++ [5] } }
  if railSt s f = 2 ∨ railSt s f = 3 then
    if (fr s f).rail.plan.isSome then
      updFr (fsetB s2 (FR_RAIL_STAT_PEND f) true) f fun x => { x with rail := { x.rail with pend := some (e, seq) } }
    else startMove s2 f e seq
  else setEnd s2 f e seq

/-- R162: a DARK is applied: the wake request is withdrawn, FCODE 0 and HOLD 1 are published, and the wait of FDROP_WAIT ticks starts. The withdrawal of a queued request
and the release of a grant reach the admission controller as messages (Machine/Admission.lean). -/
def applyDark (s : State) (f : Nat) : State :=
  let s1 := fset (fsetB s (FR_RAIL_STAT_HOLD f) true) (FR_RAIL_STAT_FCODE f) 0
  updFr s1 f fun x => { x with rail := { x.rail with darkWait := true, retry := false } }

/-- The shift register, counters and capture of a new injection (R147, R149, R150). -/
def startInj (s : State) (f v : Nat) : State :=
  let cap := bitOf v 44
  let s1 := if cap then
      fset (fsetB { s with regs := s.regs.filter fun p => !(decide (FR_CAP f 0 ≤ p.1 ∧ p.1 ≤ FR_CAP f 1023)) } (FR_INJ_STAT_CAP_DONE f) false) (FR_INJ_STAT_CAP_LEN f) 0
    else s
  updFr s1 f fun x => { x with inj := { x.inj with start := true, mode := bitsOf v 1 0, amp := bitsOf v 15 4, half := bitsOf v 27 16, count := bitsOf v 39 28, dec := bitsOf v 43 40, cap := cap, slot := 0, lfsr := 127, causes := [] } }

/-- The RW bits of an FR_ register take the written value. -/
def storeRw (s : State) (a v : Nat) : State :=
  match regAt a with
  | none => s
  | some r =>
    let old := (reg s a).toNat
    setReg s a (BitVec.ofNat 64 (old - (old &&& r.row.rw) + (v &&& r.row.rw)))

/-- The phase mask in effect (S7[31:0]) follows FR_PHASE_MASK without the phases that FR_PHASE_HEALTH lists as open (R180) and
those that self-test 1 holds out of service (Table 15-4); the core's role and mode bits follow (Table 3-6). -/
def refreshS7 (s : State) (f : Nat) : State :=
  let open_ := bitsOf (reg s (FR_PHASE_HEALTH f)).toNat 31 0
  let mask := fget s (FR_PHASE_MASK_MASK f)
  let held := ofBits ((s.flt.tests.filter fun t => t.test == 1 && t.unit == f && railSt s f == 3).map fun t => t.detail % 32)
  let out := open_ ||| held
  let eff := (mask - (mask &&& out)) &&& laneAll s
  let role := fget s (FR_BRIDGE_STAT_ROLE f)
  let x := putBits (putBits (putBits (putBits (scal s f 7) 31 0 eff) 32 32 (decide (coreSt s f = 0)).toNat) 33 33 (decide (role = 1)).toNat) 34 34 (decide (role = 2)).toNat
  setScal s f 7 x

end Sys2Proof.Machine
end

