-- ==== Sys2Proof/Machine/Boundary.lean ====
section
/-! DEFINITION. Machine/Boundary.lean: the slot boundary of a frond core (R67 to R74, R81, R92, R136 to R142, R147 to R150, R161 to R166, R291 to R293). -/
namespace Sys2Proof.Machine

/-- A message leaves for the admission controller. -/
def toAdm (s : State) (m : AMsg) : State := { s with adm := { s.adm with air := s.adm.air ++ [m] } }

/-- P of a phase cell. -/
def phaseOf (x : Frond) (n : Nat) : Phase := tget {} x.phases n

def setPhase (x : Frond) (n : Nat) (p : Phase) : Frond := { x with phases := tset x.phases n p }

/-- The rail state and everything that a rail without a running loop shows: P is 0 (R161). -/
def setRail (s : State) (f st : Nat) : State :=
  let s1 := fset s (FR_RAIL_STAT_STATE f) st
  if st = 2 ∨ st = 3 then s1 else setPoint s1 f 0

/-! #### Step 1: the cut (R72) -/

/-- Groups in dispatch order: phase groups, then auxiliary groups, each ascending (R68). -/
def inOrder (s : State) (f : Nat) (p : Nat → Bool) : List Nat :=
  ((List.range 8).filter fun g => p g && !(binding s f g).aux) ++ ((List.range 8).filter fun g => p g && (binding s f g).aux)

/-- The groups that have not completed by the end of the slot, in dispatch order. -/
def cutSet (s : State) (f : Nat) : List Nat :=
  let x := (fr s f).slot
  inOrder s f fun g => x.cut.contains g || (match x.run with | none => false | some r => r.grp == g) || x.due.contains g
    || x.infl.any fun w => w.grp == g && decide (slotC s f < w.ev)

/-- R67 step 1, R72: groups that have not completed are cut, the counters of FR_SCHED_STAT and FR_CORE_STAT follow. A write in flight lands in its own cycle (R95): one beyond the slot
keeps its mark in the next (R70). -/
def bndCut (s : State) (f : Nat) : State :=
  let x := (fr s f).slot
  let c := slotC s f
  let cut := cutSet s f
  let used := if cut.isEmpty then x.used else slotC s f
  let left := (x.infl.filter fun w => decide (c < w.ev)).map fun w => { w with ev := w.ev - c }
  let s1 := updFr s f fun y => landBy y c
  let s2 := updFr s1 f fun y => { y with slot := { cyc := 0, due := [], run := none, infl := left, cut := cut, used := 0 } }
  let s3 := fset s2 (FR_SCHED_STAT_PEAK f) (max (fget s2 (FR_SCHED_STAT_PEAK f)) (min used 4095))
  if cut.isEmpty then fset s3 (FR_CORE_STAT_OVR_CONSEC f) 0
  else
    let s4 := fset (bump (bump s3 (FR_SCHED_STAT_OVERRUNS f)) (FR_CORE_STAT_OVR_CONSEC f)) (FR_CORE_STAT_LAST_CUT f) (cut.getLastD 0)
    let lim := fget s4 (FR_CORE_CTRL_OVR_LIMIT f)
    if lim ≠ 0 ∧ fget s (FR_CORE_STAT_OVR_CONSEC f) < lim ∧ fget s4 (FR_CORE_STAT_OVR_CONSEC f) = lim then
      updFr s4 f fun y => { y with ovrDue := true }
    else s4

/-! #### Step 2: the drive latch (R74, R75, R42, R43, R92) -/

/-- Lane n belongs to an enabled phase group. -/
def inPhaseGrp (s : State) (f n : Nat) : Bool :=
  (List.range 8).any fun g => let b := binding s f g; b.en && !b.aux && bitOf b.lanes n

/-- Lane n belongs to a phase group that was cut. -/
def laneCut (s : State) (f n : Nat) : Bool :=
  (fr s f).slot.cut.any fun g => let b := binding s f g; !b.aux && bitOf b.lanes n

/-- R74, R161, R85: the drive element that the driver of phase n latches. -/
def latchValue (s : State) (f n : Nat) : Nat :=
  if bitOf (effMask s f) n && inPhaseGrp s f n && !(laneCut s f n) && coreSt s f ≤ 1 && (railSt s f == 2 || railSt s f == 3) then
    let d := (tget 0 (fr s f).drv n).toNat % 128
    if d % 4 = 3 then d - 3 else d
  else 0

/-- R45: the high sides of frond f are held off: by its own comparator, or while it is bridged by its partner's. -/
def ovHeld (s : State) (f : Nat) : Bool :=
  (fr s f).ovOwn || (fget s (FR_BRIDGE_STAT_ROLE f) != 0 && (fr s (fget s (FR_BRIDGE_STAT_PARTNER f))).ovOwn)

/-- A strobe at a phase cell: the element, the sample period and the waveform set are latched (R19, R67, R248), and the element becomes the state in force, unless the guard comparators
(R42, R43) or the overvoltage comparator (R45) hold it. A cell in high impedance stays there: only a restart of the frond core ends that (R19). -/
def strobe (hold : Bool) (nper wave : Nat) (p : Phase) (d : Nat) : Phase :=
  let q := { p with latched := d, nper := nper, wave := wave }
  if p.hiz then { q with st := 0 }
  else if p.posHold then { q with st := if d % 4 = 0 then 0 else 2 }
  else if p.negHold then { q with st := 0 }
  else if hold && d % 4 == 1 then { q with st := 0 }
  else { q with st := d % 4 }

/-- R92: SAT from the latched states of the lanes of the effective mask. -/
def satOf (mask : Nat) (high : Nat → Bool) : Int :=
  let ls := bitList 32 mask
  if ls.isEmpty then 0 else if ls.all high then 1 else if ls.all (fun n => !(high n)) then -1 else 0

/-- R67 step 2: every driver latches, and SAT is formed. DESIGN CHOICE (log entry 110): SAT is formed here over the effective mask of the slot that ends, so a FR_PHASE_MASK that step 4
applies enters it one boundary later. -/
def bndLatch (s : State) (f : Nat) : State :=
  let s1 := updFr s f fun x =>
    (List.range (nP s)).foldl (fun y n => setPhase y n (strobe (ovHeld s f) (fget s (FR_SAMPLE_CFG_NPER f)) (bitsOf (scal s f 6) 5 4) (phaseOf y n) (latchValue s f n))) x
  updFr s1 f fun x => { x with law := { x.law with sat := satOf (effMask s f) (fun n => (phaseOf x n).latched % 4 == 1) } }

/-! #### Step 3: the inputs (R73, R147) -/

/-- VM: the mean of the sense codes whose bit in the fail mask is clear, rounded once; 0 if every point has failed (R73, R218). -/
def vmOf (fail : Nat) (vs : List Nat) : Nat :=
  let good := (List.range 4).filter fun k => !(bitOf fail k)
  if good.isEmpty then 0
  else (rne ((good.foldl (fun acc k => acc + vs.getD k 0) 0 : Nat) : Int) good.length).toNat

/-- VM of frond f without the injection value. -/
def vmNow (s : State) (f : Nat) : Nat := vmOf (fget s (FR_LEAF_STAT_VFAIL f)) (fr s f).intake.vs

/-- R147: a code with the injection value, saturated to UINT16. -/
def withInj (v : Nat) (d : Int) : Nat := (clampInt 0 65535 ((v : Int) + d)).toNat

/-- The FLG word of lane n (Table 3-4). -/
def flgWord (s : State) (f n : Nat) : Nat :=
  let x := fr s f
  let closed := fget s (FR_BRIDGE_STAT_STATE_E f) == 2 || fget s (FR_BRIDGE_STAT_STATE_S f) == 2 || fget s (FR_BRIDGE_STAT_ROLE f) == 2
  (bitOf x.intake.trips n).toNat + 2 * (phaseOf x n).zc.toNat + 4 * (!(bitOf (effMask s f) n)).toNat
    + 8 * (bitOf (fget s (FR_PHASE_HEALTH_SENSE_FAIL f)) n).toNat + 16 * closed.toNat + 32 * (fget s (FR_BRIDGE_STAT_ROLE f) == 2).toNat

/-- IC of phase n before it is put into its format: the mean of the slot's samples, rounded once; the samples of a failed sense are the estimates of R181 (R73). -/
def icOf (s : State) (f n : Nat) : Int :=
  let x := fr s f
  if bitOf (fget s (FR_PHASE_HEALTH_SENSE_FAIL f)) n then rne (phaseOf x n).sumNum (max 1 ((phaseOf x n).sumDen * x.intake.n))
  else rne (tget 0 x.intake.isum n) x.intake.n

/-- A value has an INT16. -/
def fits16 (v : Int) : Bool := decide (-32768 ≤ v ∧ v ≤ 32767)

/-- IC as the register holds it: INT16, sign-extended. Outside INT16 the spec states no value: 16 free bits (log entry 102); `k` counts the free values drawn so far. -/
def icWord (k n : Nat) (v : Int) : Nat :=
  if fits16 v then patOf 32 v else patOf 32 (signedOf 16 (bitsOf (Config.freeValue (k + n)).toNat 15 0))

/-- R181, once per slot: the mean IC of the in-service lanes whose sense is sound, as a sum and a number. -/
def nbrMean (s : State) (f : Nat) : Int × Nat :=
  let ls := (bitList 32 (effMask s f)).filter fun n => !(bitOf (fget s (FR_PHASE_HEALTH_SENSE_FAIL f)) n)
  (ls.foldl (fun acc n => acc + signedOf 32 (tget 0 (fr s f).lanes (0x30 * 32 + n)).toNat) 0, ls.length)

/-- R181, once per slot: i = i + (nbr − i) / 16 for every failed sense, if nbr exists. -/
def bndEst (s : State) (f : Nat) : State :=
  let m := nbrMean s f
  if m.2 = 0 then s
  else updFr s f fun x => (bitList 32 (fget s (FR_PHASE_HEALTH_SENSE_FAIL f))).foldl (fun y n =>
    let p := phaseOf y n
    setPhase y n { p with estNum := 15 * p.estNum * m.2 + m.1 * p.estDen, estDen := 16 * p.estDen * m.2 }) x

/-- R181: the senses that are due are declared failed: the source is raised, and the estimate starts from the mean of the sound in-service lanes, or from 0. -/
def bndSense (s : State) (f : Nat) : State :=
  let l := (bitList 32 (fr s f).senseDue).filter fun n => !(bitOf (fget s (FR_PHASE_HEALTH_SENSE_FAIL f)) n)
  let s1 := updFr (fset s (FR_PHASE_HEALTH_SENSE_FAIL f) (fget s (FR_PHASE_HEALTH_SENSE_FAIL f) ||| ofBits l)) f fun x => { x with senseDue := 0 }
  let m := nbrMean s1 f
  l.foldl (fun t n => raiseF (updFr t f fun x => setPhase x n { phaseOf x n with
    estNum := if m.2 = 0 then 0 else m.1, estDen := max 1 m.2, sumNum := 0, sumDen := 1, stuck := 0 }) 0x38 f n) s1

/-- R67 step 3: the input registers take the intake's values of the slot that has ended; without a sample they keep their values. -/
def bndInputs (s : State) (f : Nat) : State :=
  let x := fr s f
  let i := x.intake
  let d := x.inj.d
  let put := fun (t : Tbl W32) (c n v : Nat) => tset t (c * 32 + n) (BitVec.ofNat 32 v)
  let lanes := (List.range (nP s)).foldl (fun t n =>
    let t1 := if i.n = 0 then t else
      put (put t 0x30 n (icWord s.draws n (icOf s f n))) 0x31 n (tget 0 i.raw n)
    put (put (put t1 0x32 n (withInj (if bitOf (fget s (FR_LEAF_STAT_VFAIL f)) (n % 4) then vmNow s f else i.vs.getD (n % 4) 0) d)) 0x33 n (withInj (vmNow s f) d)) 0x34 n (flgWord s f n)) x.lanes
  let wide := i.n != 0 && (List.range (nP s)).any fun n => !(fits16 (icOf s f n))
  updFr { s with draws := s.draws + (if wide then 32 else 0) } f fun y => { (List.range (nP s)).foldl (fun z n => setPhase z n { phaseOf z n with zc := false, sumNum := 0, sumDen := 1 }) y with
    lanes := lanes, intake := { i with isum := [], n := 0, trips := 0 } }

/-! #### S1 and the idle count (R136, R138, R139) -/

/-- The in-service phases h: those set in the effective mask. -/
def hOf (s : State) (f : Nat) : Nat := popCount 32 (effMask s f)

/-- R138: NIDLE_eff. -/
def nidleEff (s : State) (f : Nat) : Nat :=
  let x := (fr s f).law
  let n := match fget s (FR_LAW_CFG_SHED_MODE f) with
    | 0 => 0
    | 1 => if x.fcValid then x.fcNidle else 0
    | 2 => if x.fcValid then min x.fcNidle x.nidleMeas else x.nidleMeas
    | _ => x.nidleMeas
  min n (hOf s f - fget s (FR_LAW_CFG_MIN_ACTIVE f))

/-- R136: the clamped FFV for the point p, and whether the clamp changed it. -/
def clampFfv (s : State) (f p : Nat) (ffv : Int) : Int × Bool :=
  let m : Int := fget s (FR_LAW_CFG_FF_MAX f)
  let a := clampInt (-m) m ffv
  let b := clampInt (1600 - p) (3800 - p) a
  (b, decide (b ≠ ffv))

/-- S1 is written (R136, R138, R163): in service the forecast word with the clamped FFV and the NIDLE in force; FFV 0 in any other rail state; all 0 in Soft start and in Spore mode. -/
def writeS1 (s : State) (f : Nat) : State :=
  if coreSt s f = 0 ∨ railSt s f = 2 then setScal s f 1 0
  else
    let n := fget s (FR_LAW_STAT_NIDLE_EFF f)
    let w := (fr s f).law.fcW1
    let c := clampFfv s f (pointP s f) (signedOf 16 w)
    let ffv := if railSt s f = 3 then patOf 16 c.1 else 0
    let s1 := setScal s f 1 (putBits (putBits w 15 0 ffv) 21 16 n)
    if railSt s f = 3 ∧ c.2 = true then bump s1 (FR_LAW_STAT_FFV_CLAMPS f) else s1

/-- The NIDLE field of S1 takes a newly formed NIDLE_eff (R138). -/
def writeNidle (s : State) (f n : Nat) : State := writeS1 (fset s (FR_LAW_STAT_NIDLE_EFF f) n) f

/-! #### Step 4: remote updates -/

/-- An ON is applied (R162): in Dark the frond enters Awaiting admission and requests a wake with its WPRIO; in any other state it has no effect. -/
def applyOn (s : State) (f : Nat) : State :=
  if railSt s f = 0 then
    updFr (toAdm (setRail s f 1) (.wake false f (fget s (FR_DEGRADE_CFG_WPRIO f)))) f fun x => { x with rail := { x.rail with wakeReq := true } }
  else s

/-- R162: a DARK that is applied withdraws any wake request. -/
def darkMsgs (s : State) (f : Nat) : State :=
  let s1 := if (fr s f).rail.wakeReq then toAdm s (.withdraw f) else s
  updFr s1 f fun x => { x with rail := { x.rail with wakeReq := false } }

/-- The write of an FR_ register at the boundary. -/
def applyFrWrite (s : State) (f off v : Nat) : State :=
  let a := 0x100000 + 0x10000 * f + off
  match regAt a with
  | none => s
  | some r =>
    match r.row.name with
    | .FR_CORE_CTRL =>
      let s1 := storeRw s a v
      let st := coreSt s f
      if st = 1 ∧ bitOf v 0 = false then fset s1 (FR_CORE_STAT_STATE f) 2
      else if st = 2 ∧ bitOf v 0 = true then fset s1 (FR_CORE_STAT_STATE f) 1
      else if st = 3 ∧ bitOf v 0 = true then fset s1 (FR_CORE_STAT_STATE f) 1
      else if st = 2 ∧ bitOf v 1 = true then fset s1 (FR_CORE_STAT_STATE f) 3
      else s1
    | .FR_RAIL_CMD =>
      if v % 4 = 1 then applyOn s f else if v % 4 = 2 then applyDark (darkMsgs s f) f else s
    | .FR_INJ_CFG =>
      let s1 := storeRw s a v
      if bitOf v 2 then startInj s1 f v
      else if bitOf v 3 then updFr s1 f fun x => { x with inj := { x.inj with causes := x.inj.causes ++ [2] } }
      else s1
    | .FR_PHASE_HEALTH => setReg s a (BitVec.ofNat 64 ((reg s a).toNat - ((reg s a).toNat &&& v)))
    | .FR_LEAF_STAT => fset s (FR_LEAF_STAT_VFAIL f) (fget s (FR_LEAF_STAT_VFAIL f) - (fget s (FR_LEAF_STAT_VFAIL f) &&& bitsOf v 19 16))
    | .FR_LAW_CFG =>
      let s1 := storeRw s a v
      if bitOf v 20 then s1 else updFr (fsetB s1 (FR_LAW_STAT_DE f) false) f fun x => { x with law := { x.law with deNext := false } }
    | _ => storeRw s a v

/-- R86, R134, R375: the Spore exit at one boundary: the ROM bindings end, sample period and phase mask take the image's values or their reset values, the held entries and
all held pushes take effect together, and the core enters Run. A held set-point shows in S0[63:32] the SEQ of the command that carries the Spore exit, as no command of its own has carried
it (DESIGN CHOICE, log entry 111). -/
def applySporeExit (s : State) (f seq : Nat) (heldW : List (Nat × Nat)) : State :=
  let s1 := fset s (FR_CORE_STAT_STATE f) 1
  let s2 := setReg (setReg s1 (FR_SAMPLE_CFG f) (BitVec.ofNat 64 (regReset (FR_SAMPLE_CFG f)))) (FR_PHASE_MASK f) (BitVec.ofNat 64 (regReset (FR_PHASE_MASK f)))
  let s3 := heldW.foldl (fun t w =>
    if w.1 = 0x90 then applySetpoint t f seq w.2 (setpointE t f w.2) else applyFrWrite t f w.1 w.2) s2
  let s4 := (fr s f).held.foldl (fun t p => setScal t f p.1 p.2.toNat) s3
  updFr s4 f fun x => { x with held := [] }

/-- R56: a frond leaves a bridge that has opened: its cause, its role and S5, and what an injection and a close lose by it (R148). -/
def leaveBridge (s : State) (f cause : Nat) : State :=
  let s1 := fset (fset (fset s (FR_BRIDGE_STAT_OPEN_CAUSE f) cause) (FR_BRIDGE_STAT_ROLE f) 0) (FR_BRIDGE_STAT_I_BR f) 0
  updFr (setScal s1 f 5 0) f fun x => { x with closing := {}, bxIn := 0, inj := { x.inj with causes := x.inj.causes ++ [4] } }

/-- One remote update takes effect at the boundary (R23). -/
def applyMsg (f : Nat) (s : State) (q : Nat × FMsg) : State :=
  match q.2 with
  | .write off v => applyFrWrite s f off v
  | .setpoint v e => applySetpoint s f q.1 v e
  | .scalar k v => if coreSt s f = 0 then updFr s f fun x => { x with held := tset x.held k (BitVec.ofNat 64 v) } else setScal s f k v
  | .forecast prov w1 w2 w3 =>
    let s1 := updFr s f fun x => { x with law := { x.law with fcW1 := putBits w1 63 32 (provSeq prov), fcNidle := bitsOf w1 21 16, fcValid := bitOf w1 22 } }
    let n := nidleEff s1 f
    if coreSt s f = 0 then writeNidle s1 f n else writeNidle (setScal (setScal s1 f 2 w2) f 3 w3) f n
  | .nidle n => writeNidle s f n
  | .capWord w => if coreSt s f = 0 then updFr s f fun x => { x with held := tset x.held 4 (BitVec.ofNat 64 w) } else setScal s f 4 w
  | .bandWord w => setScal s f 6 w
  | .bx _ w => if fget s (FR_BRIDGE_STAT_ROLE f) = 2 then setScal s f 5 w else updFr s f fun x => { x with bxIn := w }
  | .role r =>
    let s1 := fset s (FR_BRIDGE_STAT_ROLE f) r
    if r = 2 then
      let s2 := updFr s1 f fun x => { x with law := { x.law with satRun := 0, satTripped := false, satDue := false }, inj := { x.inj with causes := x.inj.causes ++ [4] } }
      setScal (fset s2 (FR_LAW_STAT_SAT_RUN f) 0) f 5 (fr s f).bxIn
    else setScal s1 f 5 0
  | .grant _ => s
  | .trip on => updFr s f fun x => { x with gov := { x.gov with tripOn := on } }
  | .sag l lim => updFr s f fun x => { x with gov := { x.gov with sagLvl := l, sagLim := lim } }
  | .cap3 lim => updFr s f fun x => { x with gov := { x.gov with cap3 := lim } }
  | .chipDrain => updFr s f fun x => { x with gov := { x.gov with chip := true } }
  | .chipDark => applyDark (darkMsgs s f) f
  | .drain on => updFr s f fun x => { x with gov := { x.gov with draining := on } }
  | .fmax pts => (List.range 8).foldl (fun t i => setReg t (FR_FMAX f i) (BitVec.ofNat 64 (pts.getD i 0))) s
  | .bridgeClose dir => updFr (setBrState s f dir 1) f fun x => { x with closing := {}, inj := { x.inj with causes := x.inj.causes ++ [4] } }
  | .bridgeOpen dir cause =>
    if brState s f dir = 0 then s
    else
      let s1 := leaveBridge (setBrState s f dir 0) f cause
      match acrossOf s f dir with
      | none => s1
      | some g => updFr s1 g fun x => { x with upd := x.upd ++ [.bridgeLeft cause] }
  | .bridgeLeft cause => leaveBridge s f cause
  | .sporeExit h => applySporeExit s f q.1 h
  | .canary => s

/-- R87: a finished step returns to Halted. -/
def stepEnds (s : State) (f : Nat) : State := if coreSt s f = 3 then fset s (FR_CORE_STAT_STATE f) 2 else s

/-- R88: the state that the updates before will leave at the next boundary. -/
def afterInbox (s : State) (f : Nat) : State := (fr s f).inbox.foldl (applyMsg f) (stepEnds s f)

/-- R67 step 4: every update that has arrived takes effect in order; a finished step returns to Halted first (R87). -/
def bndApply (s : State) (f : Nat) : State :=
  let q := (fr s f).inbox
  let s1 := q.foldl (applyMsg f) (updFr (stepEnds s f) f fun x => { x with inbox := [] })
  refreshS7 s1 f

/-- BX leaves for the partner on the bridge stream (R78). -/
def sendBx (s : State) (f g : Nat) : State :=
  sendOn (updFr s g fun x => { x with upd := x.upd ++ [.bx (nextProv s f 2) (fr s f).bx.toNat] }) f 2

/-- R54: the sums of the last eight samples are in, and their means differ by at most 10 mV: 1,280 in the sum of 32 codes. -/
def closeNear (c : Closing) : Bool :=
  c.sums.length == 8 && decide ((c.sums.foldl (fun acc p => acc + ((p.1 : Int) - p.2)) 0).natAbs ≤ 1280)

/-- R54, Table 2-11: a closing bridge at its leader's boundary: the first segment closes once the means are near, the others one per slot; with the fourth the leader takes its role, sends
its first BX and then hands the loop over (R145). -/
def bndBridge (s : State) (f : Nat) : State :=
  match bridgeAt s f with
  | none => s
  | some (o, dir) =>
    let c := (fr s f).closing
    if o ≠ f ∨ brState s f dir ≠ 1 ∨ 4 ≤ c.seg ∨ (c.seg = 0 ∧ closeNear c = false) then s
    else
      let s1 := updFr s f fun x => { x with closing := { x.closing with seg := c.seg + 1 } }
      match acrossOf s f dir with
      | none => s1
      | some g =>
        if c.seg < 3 then s1
        else
          let s2 := fset (fset (fset s1 (FR_BRIDGE_STAT_ROLE f) 1) (FR_BRIDGE_STAT_PARTNER f) g) (FR_BRIDGE_STAT_PARTNER g) f
          refreshS7 (updFr (sendBx s2 f g) g fun x => { x with upd := x.upd ++ [.role 2] }) f

/-- The code of the profile generator is delivered as S0[11:0]; a move that has ended clears MOVING and starts the pending command (R156, R159). -/
def bndProfile (s : State) (f : Nat) : State :=
  let r := (fr s f).rail
  match r.code with
  | none => s
  | some c =>
    let s1 := setPoint (updFr s f fun x => { x with rail := { x.rail with code := none } }) f c
    if r.ending then
      let s2 := setMoving (updFr s1 f fun x => { x with rail := { x.rail with plan := none, ending := false } }) f false
      match r.pend with
      | none => writeS1 s2 f
      | some (e, seq) => writeS1 (startMove (fsetB (updFr s2 f fun x => { x with rail := { x.rail with pend := none } }) (FR_RAIL_STAT_PEND f) false) f e seq) f
    else writeS1 s1 f

/-! #### Step 5: slot count and due groups (R67, R68) -/

/-- R68: group g is due in the slot with this count. -/
def isDue (s : State) (f count g : Nat) : Bool :=
  let b := binding s f g
  b.en && count % 2 ^ b.div == b.offset && runsGroups s f && !(b.aux && fget s (FR_BRIDGE_STAT_ROLE f) == 2)

/-- The due groups in dispatch order (R68). -/
def dueGroups (s : State) (f count : Nat) : List Nat := inOrder s f (isDue s f count)

def bndCount (s : State) (f : Nat) : State :=
  let n := (reg s (FR_SLOT_COUNT f)).toNat + 1
  let s1 := setReg s (FR_SLOT_COUNT f) (BitVec.ofNat 64 n)
  updFr s1 f fun x => { x with slot := { x.slot with due := dueGroups s1 f (n % 2 ^ 64), cut := [] } }

/-! #### Step 6: telemetry (R81, R138, R139, R280) -/

/-- The duty word HOLD_DUTY in force, the effective target and the overrides of R291. -/
def govTarget (s : State) (f : Nat) : Nat × Nat × Nat :=
  let g := (fr s f).gov
  let s4 := scal s f 4
  let spore := coreSt s f == 0
  let issueT := if spore then 16 else max 1 (bitsOf s4 6 0)
  let duty := if spore then 0 else bitsOf s4 22 16
  let istep := if spore then 500 else max 1 (bitsOf s4 39 24)
  let full := g.sagLvl == 2 || g.tripOn || g.draining || g.chip
  let t1 := if g.sagLvl = 1 then min issueT g.sagLim else issueT
  let t2 := match g.cap3 with | none => t1 | some l => min t1 l
  let tgt := if full then 1 else t2
  (tgt, if full then 64 else duty, istep)

/-- An override of R291 or R339 is in force. -/
def overridden (s : State) (f : Nat) : Bool :=
  let g := (fr s f).gov
  g.sagLvl != 0 || g.tripOn || g.draining || g.chip || g.cap3.isSome

/-- R138, R139: at a telemetry instant NIDLE_eff is formed, for S1 of the next boundary, and DE likewise. -/
def bndShed (s : State) (f : Nat) : State :=
  let x := (fr s f).law
  let q : Rat := max 0 ((x.iSum : Rat) + x.iEst)
  let num := q.num.toNat
  let den := q.den * max 1 x.iN
  let h := hOf s f
  let need := ceilDiv num (den * 8 * max 1 (fget s (FR_LAW_CFG_I_PER f))) + fget s (FR_LAW_CFG_SPARE f)
  let tgt := h - max need (fget s (FR_LAW_CFG_MIN_ACTIVE f))
  let s1 := updFr s f fun y => { y with law := { y.law with iFnum := num, iFden := den, nidleMeas := if y.law.nidleMeas < tgt then y.law.nidleMeas + 1 else tgt } }
  let n := nidleEff s1 f
  let s2 := updFr s1 f fun y => { y with inbox := y.inbox ++ [(0, .nidle n)] }
  let act := h - n
  let on := decide (num < 4 * fget s (FR_LAW_CFG_DE_ON f) * act * den)
  let off := decide (4 * fget s (FR_LAW_CFG_DE_OFF f) * act * den < num)
  let de := if !(flag s (FR_LAW_CFG_DE_EN f)) || act == 0 then false else if on then true else if off then false else (fr s2 f).law.deNext
  updFr s2 f fun y => { y with law := { y.law with deNext := de } }

/-- q / n rounded to the nearest integer, ties to even. -/
def rneRat (q : Rat) (n : Nat) : Int := rne q.num (q.den * n)

/-- R81, R280: one telemetry record is captured and sent on stream 0. -/
def bndTel (s : State) (f : Nat) : State :=
  if (fr s f).telCyc < 1600 then s
  else
    let x := fr s f
    let n := max 1 x.law.iN
    let t := govTarget s f
    let rec_ : TelRec := {
      f := f, prov := nextProv s f 0,
      iMean := rneRat ((x.law.iSum : Rat) + x.law.iEst) n, vMean := (rne (x.law.vSum : Int) n).toNat, h := hOf s f, rail := railSt s f,
      bridged := fget s (FR_BRIDGE_STAT_STATE_E f) == 2 || fget s (FR_BRIDGE_STAT_STATE_S f) == 2 || fget s (FR_BRIDGE_STAT_ROLE f) == 2,
      ovr := x.gov.ovrSeen, act := x.gov.act, issue := x.gov.issue, tgt := t.1, hold := t.2.1,
      fcode := fget s (FR_RAIL_STAT_FCODE f), samples := x.law.iN, tm := (List.range 8).map fun i => tget 0 x.tm i,
      phase := (List.range (nP s)).map fun i => rneRat (((tget 0 x.law.phSum i : Int) : Rat) + tget 0 x.law.phEst i) n }
    let s1 := bndShed s f
    let s2 := sendOn { s1 with telAir := s1.telAir ++ [rec_] } f 0
    updFr s2 f fun y => { y with telCyc := x.telCyc % 1600, law := { y.law with iSum := 0, iN := 0, phSum := [], vSum := 0, iEst := 0, phEst := [] }, gov := { y.gov with act := [0, 0, 0, 0, 0, 0, 0, 0], actN := 0, ovrSeen := overridden s f } }

/-! #### Saturation supervision (R140 to R142) -/

/-- The limit in force: LIMIT, and in Soft start 50 for 0 (R140, R164); none when the trip is disabled. -/
def satLimit (s : State) (f : Nat) : Option Nat :=
  let l := fget s (FR_SAT_CFG_LIMIT f)
  if l ≠ 0 then some l else if railSt s f = 2 then some 50 else none

/-- R140: SAT and the VM of the slot that has ended against the reference. -/
def bndSat (s : State) (f : Nat) : State :=
  let x := fr s f
  let vm : Int := vmNow s f
  let r : Int := bitsOf (scal s f (fget s (FR_SAT_CFG_REF f))) 11 0
  let w : Int := 4 * fget s (FR_SAT_CFG_WIN f)
  let grows := ((x.law.sat = 1 ∧ vm < r - w) ∨ (x.law.sat = -1 ∧ vm > r + w)) ∧ fget s (FR_BRIDGE_STAT_ROLE f) ≠ 2
  let run := if grows then x.law.satRun + fget s (FR_SAMPLE_CFG_NPER f) + 1 else 0
  let due := match satLimit s f with
    | none => false
    | some l => decide (10 * l < run) && !x.law.satTripped
  updFr (fset s (FR_LAW_STAT_SAT_RUN f) (min run 0xFFFF)) f fun y =>
    { y with law := { y.law with satRun := run, satTripped := decide (run ≠ 0) && (y.law.satTripped || due), satDue := y.law.satDue || due } }

/-! #### Injection (R147 to R150) -/

/-- The end of the active injection at this boundary with the lowest of the causes (R148). -/
def endInj (s : State) (f cause : Nat) : State :=
  let x := (fr s f).inj
  let s1 := fset (fsetB s (FR_INJ_STAT_ACTIVE f) false) (FR_INJ_STAT_END_CAUSE f) cause
  let s2 := if x.capOpen then fsetB s1 (FR_INJ_STAT_CAP_DONE f) true else s1
  updFr s2 f fun y => { y with inj := { y.inj with d := 0, causes := [], capOpen := false } }

/-- The slots of the whole injection; 0 for one that runs until it is stopped (R147). -/
def injSlots (x : Inj) : Nat := x.count * (if x.mode = 1 then 2 * x.half else 127 * x.half)

/-- The injection value of slot k (R147); for PRBS the chip is s[6] of the shift register. -/
def injValue (x : Inj) : Int :=
  let high := if x.mode = 1 then decide (x.slot / max 1 x.half % 2 = 0) else bitOf x.lfsr 6
  if high then x.amp else -(x.amp : Int)

/-- One step of the PRBS generator x⁷ + x⁶ + 1 (R147). -/
def lfsrStep (n : Nat) : Nat := n * 2 % 128 + (bitOf n 6 != bitOf n 5).toNat

/-- The injection at the boundary: a started one begins, one with a cause other than the row INJECTION_END would find stays for that row, and an active one advances. -/
def bndInj (s : State) (f : Nat) : State :=
  let x := (fr s f).inj
  if x.start then
    updFr (fsetB s (FR_INJ_STAT_ACTIVE f) true) f fun y => { y with inj := { y.inj with start := false, causes := [], slot := 0, lfsr := 127, d := injValue { x with slot := 0, lfsr := 127 }, capOpen := x.cap } }
  else if flag s (FR_INJ_STAT_ACTIVE f) then
    let k := x.slot + 1
    let causes := if injSlots x ≠ 0 ∧ injSlots x ≤ k then x.causes ++ [1] else x.causes
    match lowestCode causes with
    | some c => endInj s f c
    | none =>
      let l := if x.mode = 2 ∧ k % max 1 x.half = 0 then lfsrStep x.lfsr else x.lfsr
      updFr s f fun y => { y with inj := { y.inj with slot := k, lfsr := l, d := injValue { x with slot := k, lfsr := l } } }
  else updFr s f fun y => { y with inj := { y.inj with causes := [], d := 0 } }

/-- R150: the capture entry of the slot that has ended (log entry 100): d, the latched drives and SAT are those of its beginning, held in `pre`, the state before the latch of this
boundary; VM and IC are those that the slot has given. -/
def bndCap (pre s : State) (f : Nat) : State :=
  let x := fr s f
  let n := fget s (FR_INJ_STAT_CAP_LEN f)
  match x.inj.capRec with
  | none => s
  | some d =>
    let isum := (bitList 32 (effMask s f)).foldl (fun acc l => acc + signedOf 32 (tget 0 x.lanes (0x30 * 32 + l)).toNat) (0 : Int)
    let nhigh := ((List.range (nP s)).filter fun l => (phaseOf (fr pre f) l).latched % 4 == 1).length
    let satc := if (fr pre f).law.sat = 1 then 1 else if (fr pre f).law.sat = -1 then 3 else 0
    let w := vmNow s f + patOf 16 d * 2 ^ 16 + patOf 16 (clampInt (-32768) 32767 (rne isum 4)) * 2 ^ 32 + nhigh * 2 ^ 48 + satc * 2 ^ 56
    let s1 := fset (setReg s (FR_CAP f n) (BitVec.ofNat 64 w)) (FR_INJ_STAT_CAP_LEN f) (n + 1)
    let s2 := updFr s1 f fun y => { y with inj := { y.inj with capRec := none } }
    if n + 1 = 1024 then updFr (fsetB s2 (FR_INJ_STAT_CAP_DONE f) true) f fun y => { y with inj := { y.inj with capOpen := false } } else s2

/-- R150: the slot that begins will have a capture entry if the capture is open, not full, and its index is a multiple of 2^DEC. -/
def bndCapNext (s : State) (f : Nat) : State :=
  let x := (fr s f).inj
  if flag s (FR_INJ_STAT_ACTIVE f) && x.capOpen && x.slot % 2 ^ x.dec == 0 && decide (fget s (FR_INJ_STAT_CAP_LEN f) < 1024) then
    updFr s f fun y => { y with inj := { y.inj with capRec := some x.d } }
  else s

/-! #### Rail and governor -/

/-- R164, R162: what the rail state machine does at the boundary before the latch: a soft-start abort, and the end of the DARK wait. -/
def bndRailFirst (s : State) (f : Nat) : State :=
  if (fr s f).rail.abortDue then
    let t := fget s (FR_RAIL_STAT_TRIES f) + 1
    let s1 := toAdm (cancelMove (fset s (FR_RAIL_STAT_TRIES f) (min t 7)) f) (.release f)
    let s2 := updFr s1 f fun x => { x with rail := { x.rail with abortDue := false, settle := 0 } }
    if t ≤ fget s (FR_SS_CFG_RETRIES f) then updFr (setRail s2 f 4) f fun x => { x with rail := { x.rail with retry := true } }
    else raiseF (setRail s2 f 5) 0x2B f 0
  else s

/-- R163: the settling count of a soft start. -/
def bndSettle (s : State) (f : Nat) : State :=
  let x := fr s f
  let d := (vmNow s f : Int) - x.rail.e
  let near := decide (-(4 * fget s (FR_SAT_CFG_WIN f) : Int) ≤ d ∧ d ≤ 4 * fget s (FR_SAT_CFG_WIN f))
  let n := if railSt s f = 2 && near then x.rail.settle + 1 else 0
  updFr s f fun y => { y with rail := { y.rail with settle := n, doneDue := railSt s f == 2 && y.rail.plan.isNone && decide (64 ≤ n) } }

/-- The frond holds a slope reservation at the admission controller (R174). -/
def holdsSlope (s : State) (f : Nat) : Bool := (tget? s.adm.slopeF f).isSome

/-- SLOPE × T in mA: FR_GOV_CFG.SLOPE, or the lesser F_SLOPE under a reservation, in 0.5 mA/ns, over 10 ns × (NPER + 1) (R174, R291, R292). -/
def slopeT (s : State) (f : Nat) : Nat :=
  let own := fget s (FR_GOV_CFG_SLOPE f)
  let sl := if holdsSlope s f then min own (fget s AD_CFG_F_SLOPE) else own
  5 * sl * (fget s (FR_SAMPLE_CFG_NPER f) + 1)

/-- R292: the published limit L and the credits. -/
def govStep (l tgt u istep st cr cf : Nat) : Nat × Nat × Nat :=
  let bank := max istep st
  let cr1 := min (cr + st) bank
  let cf1 := min (cf + st) bank
  let base := min l (u + 1)
  if base ≤ tgt then
    let n := min (tgt - base) (cr1 / istep)
    (clampNat 1 64 (base + n), cr1 - n * istep, cf1)
  else
    let n := min (base - tgt) (cf1 / istep)
    (clampNat 1 64 (base - n), cr1, cf1 - n * istep)

/-- R293: the hold line in the slot with this count. -/
def holdLine (hold count : Nat) : Bool :=
  let j := count % 64
  decide (j * hold / 64 < (j + 1) * hold / 64)

/-- R291 to R293: the governor at the boundary. -/
def bndGov (s : State) (f : Nat) : State :=
  let x := (fr s f).gov
  let t := govTarget s f
  let u := if x.a0N = 0 then 0 else ceilDiv x.a0Sum x.a0N
  let r := if railSt s f = 3 then govStep x.issue t.1 u t.2.2 (slopeT s f) x.cr x.cf else (1, 0, 0)
  let ovr := (x.sagLvl == 1).toNat + 2 * (x.sagLvl == 2).toNat + 4 * x.tripOn.toNat + 8 * (coreSt s f == 0).toNat + 16 * (x.draining || x.chip).toNat
  let s1 := fset (fset (fset (fset (fset s (FR_GOV_STAT_ISSUE f) r.1) (FR_GOV_STAT_TARGET f) t.1) (FR_GOV_STAT_HOLD_DUTY f) t.2.1) (FR_GOV_STAT_OVR f) ovr) (FR_GOV_STAT_I_STEP f) t.2.2
  updFr s1 f fun y => { y with gov := { y.gov with issue := r.1, cr := r.2.1, cf := r.2.2, a0Sum := 0, a0N := 0, ovrSeen := y.gov.ovrSeen || overridden s f } }

/-- R165: VCODE, FCODE and HOLD are published, and GOV_STB toggles when an output has changed (R413). `before` is the state before the boundary. -/
def bndPublish (before s : State) (f : Nat) : State :=
  let r := (fr s f).rail
  let p := pointP s f
  let fgov := bitsOf (scal s f 4) 15 8
  let fcode :=
    if r.darkWait then 0
    else if coreSt s f = 0 then fget s (FR_OPP_CFG_SPORE_F f)
    else min (min r.fLim fgov) (fmaxOf s f ((min p r.e : Nat) - (fget s (FR_OPP_CFG_MARGIN f) : Int) - guardCode s f))
  let hold := railSt s f != 3 || r.darkWait || fcode == 0 || holdLine (govTarget s f).2.1 (reg s (FR_SLOT_COUNT f)).toNat
  let s1 := fsetB (fset (fset s (FR_RAIL_STAT_FCODE f) fcode) (FR_RAIL_STAT_POINT f) p) (FR_RAIL_STAT_HOLD f) hold
  let same := fget before (FR_RAIL_STAT_FCODE f) == fcode && fget before (FR_RAIL_STAT_POINT f) == p && flag before (FR_RAIL_STAT_HOLD f) == hold
    && (fr before f).gov.issue == (fr s f).gov.issue
  updFr s1 f fun x => { x with gov := { x.gov with hold := hold, stb := if same then x.gov.stb else x.gov.stb + 1 } }

/-- DE takes its new value; while no phase is left in use it is 0 (R139). -/
def bndDe (s : State) (f : Nat) : State :=
  let de := (fr s f).law.deNext && decide (fget s (FR_LAW_STAT_NIDLE_EFF f) < hOf s f)
  updFr (fsetB s (FR_LAW_STAT_DE f) de) f fun x => { x with law := { x.law with deNext := de } }

/-- R45: an overvoltage crossing is seen at the boundary, and its source is raised once for the episode. -/
def bndOv (s : State) (f : Nat) : State :=
  if (fr s f).ovDue then raiseF (updFr s f fun x => { x with ovDue := false }) 0x29 f 0 else s

/-- The leader's BX is sent once per slot while its bridge is closed, after its last due group (R78): at the boundary that ends the slot. -/
def bndBx (s : State) (f : Nat) : State :=
  if fget s (FR_BRIDGE_STAT_ROLE f) = 1 ∧ (fget s (FR_BRIDGE_STAT_STATE_E f) = 2 ∨ fget s (FR_BRIDGE_STAT_STATE_S f) = 2) then sendBx s f (fget s (FR_BRIDGE_STAT_PARTNER f))
  else s

/-- The cycles of the slot pass (R16, R81). -/
def bndTime (s : State) (f : Nat) : State :=
  let c := slotC s f
  let s1 := setIsl s f { isl s f with cycles := (isl s f).cycles + BitVec.ofNat 64 c }
  updFr s1 f fun x => { x with telCyc := x.telCyc + c }

/-- R217: the window base of the new slot, and the base of the slot that has ended. -/
def bndBase (s : State) (f : Nat) : State :=
  updFr (fset s (FR_LEAF_STAT_BASE f) (fr s f).intake.base) f fun x => { x with intake := { x.intake with base := pointP s f - 512 } }

/-- SLOT_BOUNDARY: the boundary logic of frond f (R67), in order. -/
def execSlotBoundary (f : Nat) (s : State) : Out := nextOf s <|
  if !(hasF s f) || !(answers s f) then s
  else
    let s1 := refreshS7 (bndBx (bndCut (bndTime s f) f) f) f
    let s2 := bndLatch (bndRailFirst s1 f) f
    let s3 := bndSat (bndSense (bndEst (bndCapNext (bndCap s1 (bndInputs (bndInj s2 f) f) f) f) f) f) f
    let s4 := bndDe (bndProfile (bndBridge (bndApply (bndOv s3 f) f) f) f) f
    let s5 := bndSettle (bndCount s4 f) f
    (bndTel (bndBase (bndPublish s (bndGov s5 f) f) f) f)

/-- SLOT_OVERRUN: OVR_CONSEC has reached OVR_LIMIT, and the slot-overrun source is raised (R72). -/
def execSlotOverrun (f : Nat) (s : State) : Out := nextOf s <|
  if hasF s f && (fr s f).ovrDue then
    (raiseF (updFr s f fun x => { x with ovrDue := false }) 0x30 f (fget s (FR_CORE_STAT_LAST_CUT f)))
  else s

end Sys2Proof.Machine
end

