-- ==== Sys2Proof/Machine/Journal.lean ====
section
/-! DEFINITION. Machine/Journal.lean: how commands leave the active Rhizome: journal entries (R376, R377), command streams to the frond cores (R27, R88), near misses (R185). -/
namespace Sys2Proof.Machine

/-- The standby is in sync (R378). -/
def inSync (s : State) : Bool := flag s RZ_PAIR_STAT_SYNC

/-- The next entry of the journal: its stream is stream 1 of the active Rhizome (R26, log entry 107). -/
def entryOf (s : State) (op : JOp) (wait : Bool) : JEntry := ⟨s.bus.jSeq, op, wait, provWord s.bus.jSeq (activeIsl s) 1⟩

/-- R376, R377: an operation is journalled: sent to the standby, or committed at once while the standby is out of sync. `wait` marks the entry that an access waits for. -/
def journal (s : State) (op : JOp) (wait : Bool) : State :=
  let b := s.bus
  let e := entryOf s op wait
  if inSync s then { s with bus := { b with jSeq := b.jSeq + 1, jAir := b.jAir ++ [e], jWait := b.jWait ++ [e] } }
  else { s with bus := { b with jSeq := b.jSeq + 1, ready := b.ready ++ [e] } }

/-- A command is sent to frond f on its command stream; the sender keeps it until it is acknowledged (R27). -/
def sendCmd (s : State) (f : Nat) (m : FMsg) (wait : Bool) : State :=
  updFr s f fun x =>
    let c : FCmd := ⟨x.sent, m, wait⟩
    { x with air := x.air ++ [c], unacked := x.unacked ++ [c], sent := x.sent + 1 }

/-- A remote update leaves for frond f (R23). -/
def sendUpd (s : State) (f : Nat) (m : FMsg) : State := updFr s f fun x => { x with upd := x.upd ++ [m] }

/-- An update leaves for every frond of the member (R24). -/
def broadcast (s : State) (m : FMsg) : State := (List.range (nF s)).foldl (fun t f => sendUpd t f m) s

/-- R185: a near miss of a kind of Table 8-4 in an island is counted. -/
def nearMiss (s : State) (i kind : Nat) : State :=
  fset (fset (bump s RZ_NEAR_MISS_COUNT) RZ_NEAR_MISS_LAST_ISLAND i) RZ_NEAR_MISS_LAST_KIND kind

/-- A near miss that a command reports with its event. -/
def nearMissIf (c : Bool) (s : State) (i kind : Nat) : State := if c then nearMiss s i kind else s

end Sys2Proof.Machine
end

