-- ==== Sys2Proof/Machine/Fp.lean ====
section
/-! DEFINITION. Machine/Fp.lean: binary floating-point formats with round to nearest, ties to even (R118, R119), and the logarithm of R241. A value is its bit pattern. -/
namespace Sys2Proof.Machine

/-- A binary format: exponent and fraction widths. -/
structure Fmt where
  ew : Nat
  fw : Nat
deriving DecidableEq, Repr

def f32 : Fmt := ⟨8, 23⟩
def f16 : Fmt := ⟨5, 10⟩
def bf16 : Fmt := ⟨8, 7⟩
/-- E4M3 has neither infinity nor the canonical NaN of the other formats (Table 5-1): `fpVal` reads its values, `toE4m3` forms them. -/
def e4m3 : Fmt := ⟨4, 3⟩
def e5m2 : Fmt := ⟨5, 2⟩

def Fmt.bias (k : Fmt) : Nat := 2 ^ (k.ew - 1) - 1
/-- The pattern of +infinity. -/
def Fmt.inf (k : Fmt) : Nat := (2 ^ k.ew - 1) * 2 ^ k.fw
/-- The canonical quiet NaN (R118). -/
def Fmt.nan (k : Fmt) : Nat := k.inf + 2 ^ (k.fw - 1)
def Fmt.sign (k : Fmt) : Nat := 2 ^ (k.ew + k.fw)

def fpMag (k : Fmt) (w : Nat) : Nat := w % k.sign
def fpNeg (k : Fmt) (w : Nat) : Bool := decide (w / k.sign % 2 = 1)
def fpNan (k : Fmt) (w : Nat) : Bool := decide (k.inf < fpMag k w)
def fpInf (k : Fmt) (w : Nat) : Bool := decide (fpMag k w = k.inf)
def fpFin (k : Fmt) (w : Nat) : Bool := decide (fpMag k w < k.inf)

/-- A finite value as num / den with den a power of two. -/
def fpVal (k : Fmt) (w : Nat) : Int × Nat :=
  let m := fpMag k w
  let e := m / 2 ^ k.fw
  let f := m % 2 ^ k.fw
  let sig := if e = 0 then f else f + 2 ^ k.fw
  let sh := max 1 e
  let off := k.bias + k.fw
  let a : Nat := if off ≤ sh then sig * 2 ^ (sh - off) else sig
  let d : Nat := if off ≤ sh then 1 else 2 ^ (off - sh)
  (if fpNeg k w then -(a : Int) else a, d)

/-- a / den rounded to nearest with the format's fraction and an exponent without bound above, as a pattern. -/
def fpBits (k : Fmt) (a den : Nat) : Nat :=
  if a = 0 then 0
  else
    let e0 : Int := (Nat.log2 a : Int) - Nat.log2 den
    let small : Bool := if 0 ≤ e0 then decide (a < den * 2 ^ e0.toNat) else decide (a * 2 ^ (-e0).toNat < den)
    let e1 : Int := if small then e0 - 1 else e0
    let emin : Int := 1 - k.bias
    let e := max e1 emin
    let s : Int := k.fw - e
    let q : Int := if 0 ≤ s then rne (a * 2 ^ s.toNat : Nat) den else rne (a : Nat) (den * 2 ^ (-s).toNat)
    ((e + k.bias - 1) * 2 ^ k.fw + q).toNat

/-- num / den rounded to the format (R119: a finite value that overflows becomes an infinity). -/
def fpOf (k : Fmt) (num : Int) (den : Nat) : Nat := (if num < 0 then k.sign else 0) + min (fpBits k num.natAbs den) k.inf

def fpAdd (k : Fmt) (a b : Nat) : Nat :=
  if fpNan k a || fpNan k b then k.nan
  else if fpInf k a then (if fpInf k b && fpNeg k a != fpNeg k b then k.nan else a)
  else if fpInf k b then b
  else
    let x := fpVal k a
    let y := fpVal k b
    if x.1 = 0 ∧ y.1 = 0 ∧ fpNeg k a = true ∧ fpNeg k b = true then k.sign
    else fpOf k (x.1 * y.2 + y.1 * x.2) (x.2 * y.2)

def fpFlip (k : Fmt) (a : Nat) : Nat := if fpNeg k a then a - k.sign else a + k.sign
def fpSub (k : Fmt) (a b : Nat) : Nat := fpAdd k a (fpFlip k b)

/-- The sign of a product or quotient put on a magnitude pattern. -/
def fpSigned (k : Fmt) (a b m : Nat) : Nat := (if fpNeg k a != fpNeg k b then k.sign else 0) + m

def fpMul (k : Fmt) (a b : Nat) : Nat :=
  if fpNan k a || fpNan k b then k.nan
  else
    let x := fpVal k a
    let y := fpVal k b
    if fpInf k a || fpInf k b then
      if (fpFin k a && x.1 == 0) || (fpFin k b && y.1 == 0) then k.nan else fpSigned k a b k.inf
    else fpSigned k a b (fpOf k (x.1.natAbs * y.1.natAbs : Nat) (x.2 * y.2))

def fpDiv (k : Fmt) (a b : Nat) : Nat :=
  if fpNan k a || fpNan k b then k.nan
  else
    let x := fpVal k a
    let y := fpVal k b
    if fpInf k a then (if fpInf k b then k.nan else fpSigned k a b k.inf)
    else if fpInf k b then fpSigned k a b 0
    else if y.1 = 0 then (if x.1 = 0 then k.nan else fpSigned k a b k.inf)
    else fpSigned k a b (fpOf k (x.1.natAbs * y.2 : Nat) (x.2 * y.1.natAbs))

/-- An integer as a value of the format. -/
def fpInt (k : Fmt) (v : Int) : Nat := fpOf k v 1

/-- A value of one format converted to another (R119). -/
def fpCvt (k l : Fmt) (a : Nat) : Nat :=
  if fpNan k a then l.nan
  else if fpInf k a then (if fpNeg k a then l.sign else 0) + l.inf
  else
    let x := fpVal k a
    if x.1 = 0 then (if fpNeg k a then l.sign else 0) else fpOf l x.1 x.2

/-- A FP32 value narrowed to an 8-bit format whose largest finite pattern is `top`; an infinity becomes `inf` (R119). The flag tells that a finite value overflowed and saturated. -/
def toFp8 (k : Fmt) (top inf nan a : Nat) : Nat × Bool :=
  let sg := if fpNeg f32 a then 128 else 0
  if fpNan f32 a then (nan, false)
  else if fpInf f32 a then (sg + inf, false)
  else
    let x := fpVal f32 a
    let w := fpBits k x.1.natAbs x.2
    (sg + min w top, decide (top < w))

/-- Into E4M3: ±448 is 0x7E, and infinities become it too. -/
def toE4m3 (a : Nat) : Nat × Bool := toFp8 e4m3 0x7E 0x7E 0x7F a
/-- Into E5M2: ±57,344 is 0x7B; infinities stay. -/
def toE5m2 (a : Nat) : Nat × Bool := toFp8 e5m2 0x7B e5m2.inf e5m2.nan a

/-- The floor of a finite value; 0 for NaN and the given bounds for infinities. -/
def fpFloor (k : Fmt) (lo hi : Int) (a : Nat) : Int :=
  if fpNan k a then 0 else if fpInf k a then (if fpNeg k a then lo else hi)
  else let x := fpVal k a; clampInt lo hi (x.1 / (x.2 : Int))

/-- A value rounded to an integer, ties to even; NaN is 0 and infinities are the bounds (R119). -/
def fpRound (k : Fmt) (lo hi : Int) (a : Nat) : Int :=
  if fpNan k a then 0 else if fpInf k a then (if fpNeg k a then lo else hi)
  else let x := fpVal k a; clampInt lo hi (rne x.1 x.2)

/-- a < b for values that are not NaN. -/
def fpLt (k : Fmt) (a b : Nat) : Bool :=
  if fpNan k a || fpNan k b then false
  else if fpInf k a then fpNeg k a && !(fpInf k b && fpNeg k b)
  else if fpInf k b then !(fpNeg k b)
  else let x := fpVal k a; let y := fpVal k b; decide (x.1 * y.2 < y.1 * x.2)

/-! ### Natural logarithm in fixed point (R241) -/

/-- The series 2·(t + t³/3 + t⁵/5 + …) with t and the result in 2⁻⁶⁴ units; n terms from odd index i on. -/
def lnSeries (t2 : Int) : Nat → Nat → Int → Int
  | 0, _, _ => 0
  | n + 1, i, p => 2 * p / (i : Int) + lnSeries t2 n (i + 2) (p * t2 / 2 ^ 64)

/-- ln 2 in 2⁻⁶⁴ units. -/
def ln2Fix : Int := 12786308645202655660

/-- ln(a/b) in 2⁻⁶⁴ units, for a, b > 0. -/
def lnFix (a b : Nat) : Int :=
  let k : Int := (Nat.log2 a : Int) - Nat.log2 b
  let x : Nat := if 0 ≤ k then a else a * 2 ^ (-k).toNat
  let y : Nat := if 0 ≤ k then b * 2 ^ k.toNat else b
  let t : Int := (((x : Int) - y) * 2 ^ 64) / ((x + y : Nat) : Int)
  k * ln2Fix + lnSeries (t * t / 2 ^ 64) 24 1 t

end Sys2Proof.Machine
end

