-- ==== Sys2Proof/Machine/Vpm.lean ====
section
/-! DEFINITION. Machine/Vpm.lean: the VPM controller, island 0x43 (spec/09_vpm_stage.md, R191 to R214). -/
namespace Sys2Proof.Machine

def stg (s : State) (n : Nat) : Stage := tget {} s.vpm.stages n
def setStg (s : State) (n : Nat) (x : Stage) : State := { s with vpm := { s.vpm with stages := tset s.vpm.stages n x } }
def updStg (s : State) (n : Nat) (g : Stage → Stage) : State := setStg s n (g (stg s n))
def grp (s : State) (g : Nat) : Grp := tget {} s.vpm.grps g
def setGrp (s : State) (g : Nat) (x : Grp) : State := { s with vpm := { s.vpm with grps := tset s.vpm.grps g x } }
def updGrp (s : State) (g : Nat) (h : Grp → Grp) : State := setGrp s g (h (grp s g))

/-- The state of a stage (Table 9-2); a number above 47 names none. -/
def stSt (s : State) (n : Nat) : Nat := if n < 48 then fget s (VP_STAGE_STATE n) else 0

def stageNums : List Nat := List.range 48

/-- The stages of group g in the stage map. -/
def stagesOf (s : State) (g : Nat) : List Nat :=
  stageNums.filter fun n => flag s (VP_STAGE_IMG_EN n) && fget s (VP_STAGE_GROUP n) == g

/-- In service: states 2 and 3 (R192). -/
def servOf (s : State) (g : Nat) : List Nat := (stagesOf s g).filter fun n => stSt s n == 2 || stSt s n == 3
def actOf (s : State) (g : Nat) : List Nat := (stagesOf s g).filter fun n => stSt s n == 2

/-- Table 2-2: the least and greatest stage count of a group. -/
def grpLeast (g : Nat) : Nat := [4, 1, 0, 0, 0, 0, 0, 0].getD g 0
def grpMost (g : Nat) : Nat := [40, 4, 4, 4, 4, 4, 2, 2].getD g 0

/-- A configuration field of a group in force: word k (0 PWM, 1 LOOP, 2 LIM, 3 LL). -/
def gcfg (s : State) (g k : Nat) (x : Fld) : Nat := bitsOf (tget (reg s x.addr).toNat (grp s g).inForce k) x.hi x.lo

def vinMv (s : State) : Nat := fget s VP_VIN_STAT_VIN

/-- The input is within R208. -/
def inputOk (s : State) : Bool := fget s VP_VIN_STAT_STATE == 0

/-! ### Records (R213, Table 9-12) -/

/-- A current in mA as an unsigned field that holds no negative value. -/
def mAu (w : Nat) (v : Int) : Nat := (clampInt 0 (2 ^ w - 1) v).toNat

/-- I_f in whole mA (rounded down). -/
def ifMa (x : Stage) : Int := x.ifNum / (max 1 x.ifDen : Nat)

/-- The bytes 0 to 61 of a record. -/
def vrecBody (r : VRec) : List Nat :=
  leBytes 8 (r.seq + 0x43 * 2 ^ 32) ++ [r.cause, r.stage, r.grp, r.state, r.hiccups, r.lost, 0, 0] ++ leBytes 2 r.vin ++ leBytes 2 r.v ++ leBytes 2 r.vref
    ++ leBytes 2 r.duty ++ leBytes 4 r.cur ++ leBytes 4 r.iF ++ leBytes 4 r.gcur ++ leBytes 2 r.temp ++ leBytes 2 r.trim ++ leBytes 8 r.serv ++ leBytes 8 r.shed
    ++ List.replicate 6 0

/-- The 64 bytes of a record, CRC last. -/
def vrecBytes (r : VRec) : List Nat := vrecBody r ++ leBytes 2 (crc16 (vrecBody r))

/-- VP_LASTF shows a record. -/
def showVrec (s : State) (r : VRec) : State :=
  let b := vrecBytes r
  (List.range 8).foldl (fun t i => setReg t (VP_LASTF i) (BitVec.ofNat 64 (leValue ((b.drop (8 * i)).take 8)))) s

/-- R213: a record is captured; stage 0xFF for a group or input cause, group 0xFF for an input cause. `st` is the state of the stage before the event. -/
def capture (s : State) (cause n g st : Nat) : State :=
  let k := 0x43 * 32
  let x := stg s n
  let isSt := decide (n < 48)
  let isG := decide (g < 8)
  let bitsWhere := fun (p : Nat → Bool) => ofBits (stageNums.filter p)
  let s1 := if flag s VP_LASTF_STAT_PENDING then bump s VP_LASTF_STAT_LOST else s
  let r : VRec := {
    seq := (tget {} s.strms k).seqOut.toNat, cause := cause, stage := if isSt then n else 0xFF, grp := if isG then g else 0xFF, state := st,
    hiccups := if isSt then fget s (VP_STAGE_HICCUPS n) else 0, lost := fget s1 VP_LASTF_STAT_LOST, vin := vinMv s,
    v := if isG then fget s (VP_GRP_STAT_V g) else 0, vref := if isG then (grp s g).vref / 256 else 0,
    duty := if isSt then x.duty else if isG then patOf 16 (grp s g).dPrev else 0, cur := if isSt then patOf 32 x.cur else 0, iF := if isSt then mAu 32 (ifMa x) else 0,
    gcur := if isG then mAu 32 (grp s g).cur else 0, temp := 0x8000, trim := if isSt then fget s (VP_STAGE_TRIM n) else 0,
    serv := bitsWhere (fun m => stSt s m == 2 || stSt s m == 3), shed := bitsWhere (fun m => stSt s m == 3) }
  let s2 := { s1 with vpm := { s1.vpm with rec_ := some r }, strms := tset s1.strms k { tget {} s1.strms k with sent := true, seqOut := (tget {} s1.strms k).seqOut + 1 } }
  showVrec (fsetB (fsetB s2 VP_LASTF_STAT_VALID true) VP_LASTF_STAT_PENDING true) r

/-! ### Counts and states -/

/-- N_SERV and N_ACT follow the stage states; a fall of N_SERV below the least count raises group capacity (R209). -/
def grpCount (s : State) (g : Nat) : State :=
  let ns := (servOf s g).length
  let old := fget s (VP_GRP_STAT_N_SERV g)
  let least := max 1 (grpLeast g)
  let s1 := fset (fset s (VP_GRP_STAT_N_SERV g) ns) (VP_GRP_STAT_N_ACT g) (actOf s g).length
  if fget s (VP_VID_VID g) ≠ 0 ∧ least ≤ old ∧ ns < least then capture (raiseD s1 (0xA0 + g) (some g) 0 0x43) 11 0xFF g 0 else s1

/-- A stage takes a state; entering state 2 sets its trim and I_f to 0 (R197, R206), and leaving service clears the marks of its period. -/
def setSt (s : State) (n st : Nat) : State :=
  let s1 := fset s (VP_STAGE_STATE n) st
  let s2 := if st = 2 then fset (fset s1 (VP_STAGE_TRIM n) 0) (VP_STAGE_I_AVG n) 0 else s1
  let s3 := updStg s2 n fun x =>
    let y := { x with ready := false, full := false, deCut := none, idx := if stSt s n = 2 then x.idx + 1 else x.idx }
    if st = 2 then { y with ifNum := 0, ifDen := 1, ovl := false, overTicks := 0 }
    else if st = 3 then y else { y with held := none, low := none }
  grpCount s3 (fget s (VP_STAGE_GROUP n))

/-- The outcome of a restart command that waits for the check of stage n. -/
def restartResult (s : State) (n code : Nat) : State :=
  if (stg s n).restart then
    updStg (fsetB (fset s VP_STAGE_CMD_RESULT code) VP_STAGE_CMD_BUSY false) n fun x => { x with restart := false }
  else s

/-- A stage is locked out with a cause, and a record is captured; a restart command that waited for its check has failed (R212, log entry 104). -/
def lockout (s : State) (n cause : Nat) : State :=
  let st := stSt s n
  let s1 := setSt (fset s (VP_STAGE_CAUSE n) cause) n 5
  restartResult (capture s1 cause n (fget s (VP_STAGE_GROUP n)) st) n 5

/-- The check of R200 begins for stage n, unless the input is outside R208 or the stage's fault line is low (Table 9-5, row 1). -/
def startCheck (s : State) (n : Nat) : State := if inputOk s && !(stg s n).flt then setSt s n 1 else setSt s n 6

/-- R199: a group starts: every stage that is not locked out is checked, VREF starts from the measured V, which VP_GRP_STAT shows of a group that is off as its latest reading. -/
def groupStart (s : State) (g : Nat) : State :=
  let v := fget s (VP_GRP_STAT_V g)
  let s1 := updGrp s g fun x => { x with vref := 256 * v, startV := v, acc := 0, dPrev := 0, started := true, inForce := [], first := true, synced := false, due := false, off := 0 }
  let s2 := fset s1 (VP_GRP_STAT_VREF g) v
  (stagesOf s2 g).foldl (fun t n => if stSt t n = 5 then t else startCheck t n) s2

/-- R199: a group with a VID starts when it has stages and the input is within R208. -/
def tryStart (s : State) (g : Nat) : State :=
  if fget s (VP_VID_VID g) ≠ 0 ∧ (grp s g).started = false ∧ (stagesOf s g).isEmpty = false ∧ inputOk s = true then groupStart s g else s

/-- Every stage of the group enters state 6 (R199, R208); a restart command that waited for a check ends with code 4 (Table 9-7). -/
def groupOff (s : State) (g : Nat) : State :=
  let s1 := (stagesOf s g).foldl (fun t n => if stSt t n = 5 then t else restartResult (setSt t n 6) n 4) s
  updGrp (fset s1 (VP_GRP_STAT_DE g) 0) g fun x => { x with started := false }

/-- SLEWING follows VREF and VID. -/
def showVref (s : State) (g : Nat) : State :=
  fsetB (fset s (VP_GRP_STAT_VREF g) ((grp s g).vref / 256)) (VP_GRP_STAT_SLEWING g) (decide ((grp s g).vref ≠ 256 * fget s (VP_VID_VID g)))

/-- R198: group g takes a new VID from its writer. -/
def takeVid (s : State) (g v : Nat) : State := showVref (tryStart (fset s (VP_VID_VID g) v) g) g

/-! ### Privileged rails (R168, R198) -/

/-- The 16-bit entry of group g (1 to 5) in the privileged record. -/
def privEntry (s : State) (g : Nat) : Nat := bitsOf s.otp.toNat (16 * g - 1) (16 * g - 16)

/-- The entry is valid and its VSET lies in Table 2-2. -/
def privOk (s : State) (g : Nat) : Bool :=
  let e := privEntry s g
  let v := bitsOf e 9 0
  bitOf e 14 && (if g = 1 then decide (100 ≤ v ∧ v ≤ 450) else decide (550 ≤ v ∧ v ≤ 750))

/-- The VID of a privileged group: 2,000 + 4 × VSET, and 10 × HOT_ADJ more while HOT is in force. -/
def privVid (s : State) (g : Nat) (hot : Bool) : Nat :=
  let e := privEntry s g
  ((2000 + 4 * bitsOf e 9 0 : Nat) + (if hot then 10 * signedOf 4 (bitsOf e 13 10) else 0) : Int).toNat

/-- While the chip's hottest band is 6 or 7 the privileged groups take HOT_ADJ (R168). -/
def hotVids (s : State) (h : Nat) : State :=
  let hot := decide (6 ≤ h)
  if flag s RZ_PRIV_STAT_HOT = hot then s
  else
    let s1 := fsetB s RZ_PRIV_STAT_HOT hot
    if flag s RZ_PRIV_STAT_CRC_OK then [1, 2, 3, 4, 5].foldl (fun t g => if privOk t g then takeVid t g (privVid t g hot) else t) s1 else s1

/-- The stage map is applied (R365, R374 step 1): a stage that keeps its group keeps running; any other leaves its group and enters the new one through R200. A group
left without stages is disabled (R33). -/
def applyStage (s : State) (n : Nat) (g : Option Nat) : State :=
  let was := flag s (VP_STAGE_IMG_EN n)
  match g with
  | none =>
    if was then restartResult (fsetB (setSt s n 0) (VP_STAGE_IMG_EN n) false) n 1 else s
  | some k =>
    if was && fget s (VP_STAGE_GROUP n) == k then s
    else
      let s1 := if was then fsetB (setSt s n 0) (VP_STAGE_IMG_EN n) false else s
      let s2 := fsetB (fset s1 (VP_STAGE_GROUP n) k) (VP_STAGE_IMG_EN n) true
      if (grp s2 k).started then startCheck s2 n else setSt s2 n 6

def applyStageMap (s : State) (map : List (Option Nat)) : State :=
  let s1 := stageNums.foldl (fun t n => applyStage t n (map.getD n none)) s
  (List.range 8).foldl (fun t g => if (grp t g).started then (if (stagesOf t g).isEmpty then groupOff t g else t) else tryStart t g) s1

/-! ### Period start (R194 to R197, R201 to R205) -/

/-- Mean current per active stage of the group as a sum and a number. -/
def actCur (s : State) (g : Nat) : Int × Nat :=
  let l := actOf s g
  (l.foldl (fun a n => a + (stg s n).cur) 0, l.length)

/-- R202: diode emulation, forced while VREF is below the V of the start, and off during AF_HOLD. -/
def deNow (s : State) (g : Nat) : Bool :=
  let x := grp s g
  let m := actCur s g
  if x.vref < 256 * x.startV then true
  else if x.afHold || gcfg s g 3 (VP_GRP_LL_DE_EN g) == 0 || m.2 == 0 then false
  else if m.1 < (250 * gcfg s g 3 (VP_GRP_LL_DE_ON g) * m.2 : Nat) then true
  else if ((250 * gcfg s g 3 (VP_GRP_LL_DE_OFF g) * m.2 : Nat) : Int) < m.1 then false
  else flag s (VP_GRP_STAT_DE g)

/-- R197: the trim update of the stages that were active in the whole of the last period. -/
def trimUpdate (s : State) (g : Nat) : State :=
  let l := (actOf s g).filter fun n => (stg s n).full
  let sum := l.foldl (fun a n => a + (stg s n).cur) (0 : Int)
  let k := l.length
  let kb : Int := gcfg s g 1 (VP_GRP_LOOP_KB g)
  let lim : Int := gcfg s g 1 (VP_GRP_LOOP_TRIM_MAX g) * 128
  l.foldl (fun t n =>
    if (stg s n).ovl then t
    else
      let step := (kb * ((stg s n).cur * k - sum)) / ((256 * k : Nat) : Int)
      fset t (VP_STAGE_TRIM n) (patOf 16 (clampInt (-lim) lim (signedOf 16 (fget s (VP_STAGE_TRIM n)) - step)))) s

/-- R206: the pinned trim of an overloaded stage. -/
def pinTrim (s : State) (g n : Nat) : State :=
  fset s (VP_STAGE_TRIM n) (patOf 16 (-(gcfg s g 1 (VP_GRP_LOOP_TRIM_MAX g) * 128 : Nat)))

/-- R196: the duty of the group and of its active stages. The feed-forward of a zero input reading is a free value. -/
def dutyUpdate (s : State) (g : Nat) : State :=
  let x := grp s g
  let dmax : Int := gcfg s g 1 (VP_GRP_LOOP_DMAX g) * 256
  let vref : Nat := x.vref / 256
  let e : Int := (vref : Int) - fget s (VP_GRP_STAT_V g)
  let d0 := draw s
  let ff : Int := if vinMv s = 0 then (bitsOf d0.1.toNat 15 0 : Nat) else (vref * 16384 / vinMv s : Nat)
  let s0 := if vinMv s = 0 then d0.2 else s
  let acc := if ¬ (x.dPrev ≥ dmax ∧ e > 0) ∧ ¬ (x.dPrev ≤ 0 ∧ e < 0) then x.acc + gcfg s g 1 (VP_GRP_LOOP_KI g) * e else x.acc
  let d := clampInt 0 dmax (ff + gcfg s g 1 (VP_GRP_LOOP_KP g) * e + acc)
  let s1 := updGrp s0 g fun y => { y with acc := acc, dPrev := d }
  (actOf s g).foldl (fun t n => updStg t n fun y => { y with duty := (clampInt 0 dmax (d + signedOf 16 (fget s (VP_STAGE_TRIM n)))).toNat }) s1

/-- R194: the group runs synchronised: SYNC_EN, the lock, and a period in range. -/
def syncOn (s : State) (g : Nat) : Bool :=
  let p := 2 ^ gcfg s g 0 (VP_GRP_PWM_SDIV g) * fget s VP_SYNC_STAT_PERIOD
  gcfg s g 0 (VP_GRP_PWM_SYNC_EN g) == 1 && flag s VP_SYNC_STAT_LOCK && decide (5000 ≤ p ∧ p ≤ 20000)

/-- PHASE/256 of the period, 100 ps (R194, R195). -/
def phaseDelay (s : State) (g : Nat) : Nat := gcfg s g 0 (VP_GRP_PWM_PHASE g) * (grp s g).period / 256

/-- R194: by how much the next start moves toward the synchronised position: at most 1/64 of a period. -/
def syncStep (s : State) (g : Nat) : Int := let m : Int := ((grp s g).period / 64 : Nat); clampInt (-m) m (grp s g).off

/-- R194, R195: a period of group g starts t × 100 ps after what it is counted from: the edge of SYNC_IN in a synchronised group, the enable before the first period of any other, and the
last start after that. -/
def startDue (s : State) (g t : Nat) : Bool :=
  let x := grp s g
  if syncOn s g && x.off == 0 && x.synced then x.due && decide (phaseDelay s g ≤ t)
  else if x.first then decide (phaseDelay s g ≤ t)
  else decide ((x.period : Int) + (if syncOn s g then syncStep s g else 0) ≤ t)

/-- R194: the period of the group, SYNC and RANGE. After a loss of the lock a group runs at its last synchronised period, and before any lock at PERIOD. -/
def periodUpdate (s : State) (g : Nat) : State :=
  let want := gcfg s g 0 (VP_GRP_PWM_SYNC_EN g) == 1
  let own := gcfg s g 0 (VP_GRP_PWM_PERIOD g)
  let p := 2 ^ gcfg s g 0 (VP_GRP_PWM_SDIV g) * fget s VP_SYNC_STAT_PERIOD
  let lock := flag s VP_SYNC_STAT_LOCK
  let ok := syncOn s g
  let s1 := fsetB (fsetB s (VP_GRP_STAT_SYNC g) ok) (VP_GRP_STAT_RANGE g) (want && lock && !ok)
  updGrp s1 g fun x => { x with
    period := if ok then p else if want && !lock && x.synced then x.period else own,
    synced := want && (ok || x.synced), first := false, due := false, off := if ok then x.off - syncStep s g else x.off }

/-- The stage period in progress t × 100 ps after the group's period start: a new one begins at the stage's own rising edge (R204). -/
def stagePeriod (s : State) (n t : Nat) : Nat := (stg s n).idx + (if stSt s n = 2 ∧ (stg s n).rise ≤ t then 1 else 0)

/-- The group period has ended: the active stages have made their rising edges, and a high level may reach into the next. -/
def endPeriod (s : State) (g : Nat) : State :=
  (actOf s g).foldl (fun t n => updStg t n fun x => { x with idx := x.idx + 1, tail := x.rise + x.width - (grp s g).period }) s

/-- R195: the active stages rise one after the other, and each falls d_k of the period later, on the 100 ps grid. -/
def placeEdges (s : State) (g : Nat) : State :=
  let l := actOf s g
  let p := (grp s g).period
  (List.range l.length).foldl (fun t j => updStg t (l.getD j 0) fun x =>
    { x with rise := j * p / l.length, width := (rne (x.duty * p : Nat) 65536).toNat }) s

/-- Stages that have passed their check, and un-shed stages, become active (R200, R201). -/
def activate (s : State) (g : Nat) : State :=
  let s1 := (stagesOf s g).foldl (fun t n => if stSt t n = 1 ∧ (stg t n).ready = true ∧ (stg t n).flt = false then setSt t n 2 else t) s
  let ns := (servOf s1 g).length
  let tgt := if gcfg s1 g 3 (VP_GRP_LL_SHED_EN g) = 0 ∨ (grp s1 g).afHold = true then ns else min ns (grp s1 g).tgt
  let need := tgt - (actOf s1 g).length
  (((stagesOf s1 g).filter fun n => stSt s1 n == 3).take need).foldl (fun t n => setSt t n 2) s1

/-- GROUP_PERIOD_START: a period of a group starts (R194 to R197), t × 100 ps after what its start is counted from: writes take effect (R211), the measured means are taken, the counts,
duty, trims, diode emulation and edges are formed. v is the mean of the rail samples and cur the mean stage currents of the last period. -/
def execGroupPeriodStart (ev : GroupAt) (v : BitVec 14) (cur : List (BitVec 32)) (s : State) : Out := nextOf s <|
  let k := ev.g.toNat
  if (grp s k).started = false ∨ startDue s k ev.t.toNat = false then s
  else
    let s1 := fset (endPeriod s k) (VP_GRP_STAT_V k) v.toNat
    let s2 := (stagesOf s1 k).foldl (fun t n => updStg t n fun x => { x with cur := (cur.getD n 0).toInt }) s1
    let s3 := updGrp s2 k fun x => { x with inForce := [], armed := x.armed || !x.firing }
    let s4 := periodUpdate s3 k
    let de := deNow s4 k
    let s5 := fsetB s4 (VP_GRP_STAT_DE k) de
    let s6 := if de then s5 else trimUpdate s5 k
    let s7 := activate s6 k
    let s8 := (actOf s7 k).foldl (fun t n => updStg t n fun x => { x with full := true }) s7
    placeEdges (dutyUpdate s8 k) k

/-! ### SYNC_IN (R194) -/

/-- R194: the lock is lost: groups with SYNC_EN run free at their last synchronised period, and SYNC loss is raised (cause 9). -/
def syncLost (s : State) : State :=
  let s1 := bump (fsetB { s with vpm := { s.vpm with sync := {} } } VP_SYNC_STAT_LOCK false) VP_SYNC_STAT_LOSSES
  let s2 := (List.range 8).foldl (fun t g => fsetB t (VP_GRP_STAT_SYNC g) false) s1
  capture (raiseD s2 0x95 none 0 0x43) 9 0xFF 0xFF 0

/-- R194: an edge in lock: a group for which its count is a multiple of SDIV is due to start a period. -/
def syncCount (s : State) (c : Nat) : State :=
  (List.range 8).foldl (fun t g => if c % 2 ^ gcfg t g 0 (VP_GRP_PWM_SDIV g) = 0 then updGrp t g fun x => { x with due := true } else t) s

/-- SYNC_IN_EDGE: a rising edge with the period since the last one, in 100 ps; one that differs by more than 5 % from the last ends a lock. -/
def execSyncInEdge (edge : SyncEdge) (s : State) : Out := nextOf s <|
  let p := edge.period.toNat
  let y := s.vpm.sync
  let s1 := fset s VP_SYNC_STAT_PERIOD p
  if flag s VP_SYNC_STAT_LOCK && decide (100 * ((p : Int) - y.last).natAbs ≤ 5 * y.last) then
    syncCount { s1 with vpm := { s1.vpm with sync := { y with last := p, count := y.count + 1 } } } (y.count + 1)
  else if flag s VP_SYNC_STAT_LOCK then
    let s2 := syncLost s1
    { s2 with vpm := { s2.vpm with sync := { last := p } } }
  else
    let ok := decide (2500 ≤ p ∧ p ≤ 20000)
    let lo := if y.run = 0 then p else min y.minP p
    let hi := if y.run = 0 then p else max y.maxP p
    let fits := ok && decide (100 * (hi - lo) < lo)
    let z : SyncIn := if fits then { y with run := y.run + 1, minP := lo, maxP := hi, last := p } else if ok then { y with run := 1, minP := p, maxP := p, last := p } else { y with run := 0, last := p }
    { s1 with vpm := { s1.vpm with sync := { z with offs := edge.offs.map (·.toInt) } } }

/-- SYNC_LOCK: 16 consistent edges give lock; edges are counted from it, and each group moves from where its next start lay at the last of them to its synchronised position (R194). -/
def execSyncLock (s : State) : Out := nextOf s <|
  if flag s VP_SYNC_STAT_LOCK = false ∧ 16 ≤ s.vpm.sync.run then
    let s1 := fsetB { s with vpm := { s.vpm with sync := { s.vpm.sync with count := 0 } } } VP_SYNC_STAT_LOCK true
    (List.range 8).foldl (fun t g => updGrp t g fun x => { x with off := s.vpm.sync.offs.getD g 0, due := false }) s1
  else s

/-- SYNC_LOSS: no rising edge has arrived for 4 µs: the lock is lost (R194). -/
def execSyncLoss (s : State) : Out := nextOf s <| if flag s VP_SYNC_STAT_LOCK then syncLost s else s

/-! ### VID, slew and power-good (R198, R199) -/

/-- R198: one microsecond of slew of group g, whether it runs or not; at 0 with a VID of 0 a group that runs goes off (R199). -/
def slewOne (s : State) (g : Nat) : State :=
  let tgt := 256 * fget s (VP_VID_VID g)
  let step := (rne (256 * gcfg s g 1 (VP_GRP_LOOP_SLEW g) : Nat) 5).toNat
  let v := (grp s g).vref
  let v1 := if v < tgt then min tgt (v + step) else max tgt (v - step)
  let s1 := showVref (updGrp s g fun x => { x with vref := v1 }) g
  if v1 = 0 ∧ tgt = 0 ∧ (grp s g).started = true then groupOff s1 g else s1

/-- VREF_SLEW_TICK: one microsecond in the controller: VREF of every group moves toward its VID, and the input mean of that microsecond is taken; an input that is back from UV to OV
awaits START (R198, Table 9-20, log entry 104). `rails`: the measured rail of each group, which a group that is off shows as its V (R199). -/
def execVrefSlewTick (means : RailMeans) (s : State) : Out := nextOf s <|
  let vin := means.vin.toNat
  let st := fget s VP_VIN_STAT_STATE
  let back := (st == 1 || st == 2) && decide (50 * fget s VP_VIN_CFG_UV ≤ vin ∧ vin ≤ 50 * fget s VP_VIN_CFG_OV)
  let s0 := if back then fset s VP_VIN_STAT_STATE 3 else s
  let s1 := fset s0 VP_VIN_STAT_VIN vin
  let s2 := fset s1 VP_VIN_STAT_VIN_MIN (min (fget s VP_VIN_STAT_VIN_MIN) vin)
  let s3 := (List.range 8).foldl (fun t g => if (grp t g).started then t else fset t (VP_GRP_STAT_V g) (means.rails.getD g 0).toNat) s2
  pmStep ((List.range 8).foldl slewOne s3)

/-- POWER_GOOD_RISE: VREF has reached VID, and V has stayed within PG_WIN for 10 µs (R199). -/
def execPowerGoodRise (g : BitVec 3) (s : State) : Out := nextOf s <|
  let k := g.toNat
  if (grp s k).started && fget s (VP_VID_VID k) != 0 && (grp s k).vref == 256 * fget s (VP_VID_VID k) then pmStep (fsetB s (VP_GRP_STAT_PG k) true) else s

/-- POWER_GOOD_LOSS: V has left PG_WIN for 1 µs: PG returns to 0 and power-good loss is raised (R199, cause 10). -/
def execPowerGoodLoss (g : BitVec 3) (s : State) : Out := nextOf s <|
  let k := g.toNat
  if flag s (VP_GRP_STAT_PG k) then
    pmStep (capture (raiseD (fsetB s (VP_GRP_STAT_PG k) false) (0x98 + k) (some k) 0 0x43) 10 0xFF k 0)
  else s

/-! ### Start of a stage (R200, R212) -/

/-- STAGE_CHECK: after 2 µs at mid, VP_SW_n is read, in mV, beside the group's rail in 0.25 mV codes (R200). -/
def execStageCheck (n : BitVec 6) (sw : BitVec 16) (rail : BitVec 14) (s : State) : Out := nextOf s <|
  let k := n.toNat
  if stSt s k = 1 ∧ (stg s k).ready = false ∧ inputOk s = true then
    let g := fget s (VP_STAGE_GROUP k)
    if rail.toNat + 4 * 20 * gcfg s g 2 (VP_GRP_LIM_HSS_V g) < 4 * sw.toNat then
      (raiseD (lockout s k 5) 0x90 (some k) 0 0x43)
    else (restartResult (updStg s k fun x => { x with ready := true }) k 0)
  else s

/-! ### Light load (R201, R202) -/

/-- R201: the target active count at the group current ig / n mA. -/
def shedTarget (s : State) (g : Nat) (ig : Int) (n : Nat) : Nat :=
  let ig := max 0 ig
  let ns := (servOf s g).length
  let per := 250 * max 1 (gcfg s g 3 (VP_GRP_LL_I_SHED g))
  let need := ceilDiv ig.toNat (per * n) + gcfg s g 3 (VP_GRP_LL_SPARE g)
  if (grp s g).afHold then ns else min ns (max need (max (gcfg s g 3 (VP_GRP_LL_MIN_ACT g)) (fget s (VP_GRP_STAT_NMIN g))))

/-- One evaluation: the target is kept for the next period start, and one highest-numbered active stage is shed when the target is below N_act. -/
def shedEval (s : State) (g : Nat) (ig : Int) (n : Nat) : State :=
  if gcfg s g 3 (VP_GRP_LL_SHED_EN g) = 0 ∨ (grp s g).started = false then updGrp s g fun x => { x with cur := rne ig n }
  else
    let t := shedTarget s g ig n
    let s1 := updGrp s g fun x => { x with tgt := t, cur := rne ig n }
    let act := actOf s1 g
    if t < act.length then setSt s1 (act.getLastD 0) 3 else s1

/-- SHED_EVALUATION: every 10 µs, with the mean group current of the last 10 µs in mA (R201). -/
def execShedEvaluation (g : BitVec 3) (ig : BitVec 32) (s : State) : Out := nextOf s <| (shedEval s g.toNat ig.toInt 1)

/-- R201: a committed NMIN arrives for G0, and at a change the target is formed again from the group's mean current of the last 10 µs. -/
def takeNmin (s : State) (n : Nat) : State :=
  let s1 := fset s (VP_GRP_STAT_NMIN 0) n
  let h := (grp s 0).hist
  if n = fget s (VP_GRP_STAT_NMIN 0) then s1 else shedEval s1 0 h.sum (max 1 h.length)

/-- R195: the scheduled level of a stage t × 100 ps after the group's period start is high. -/
def schedHigh (s : State) (n t : Nat) : Bool :=
  let x := stg s n
  if t < x.rise then decide (t < x.tail) else decide (t < x.rise + x.width)

/-- ZERO_CURRENT_TRIP: t × 100 ps after the group's period start, in the low-side interval of a stage in diode emulation: it goes to mid until its next rising edge (R202). -/
def execZeroCurrentTrip (ev : StageAt) (s : State) : Out := nextOf s <|
  let k := ev.n.toNat
  if stSt s k = 2 ∧ flag s (VP_GRP_STAT_DE (fget s (VP_STAGE_GROUP k))) = true ∧ schedHigh s k ev.t.toNat = false then
    updStg s k fun x => { x with deCut := some (stagePeriod s k ev.t.toNat) }
  else s

/-! ### All-stage firing (R203) -/

/-- ALL_STAGE_FIRING: the rail crosses VREF − AF_DEPTH: every stage in state 2 or 3 drives high. `rose`: the comparator has seen the rail above VREF − AF_DEPTH/2 since the last firing
ended. -/
def execAllStageFiring (cross : RailCross) (s : State) : Out := nextOf s <|
  let k := cross.g.toNat
  let x := grp s k
  if x.started && gcfg s k 3 (VP_GRP_LL_AF_EN k) == 1 && !x.firing && x.armed && (x.rose || cross.rose) then
    (updGrp (bump (fsetB s (VP_GRP_STAT_AF k) true) (VP_GRP_STAT_AF_COUNT k)) k fun y => { y with firing := true, armed := false, rose := false })
  else s

/-- FIRING_END: t × 100 ps after the group's period start the rail has recovered, or AF_TON has elapsed: each stage drives low until its next rising edge, and AF_HOLD starts. -/
def execFiringEnd (ev : GroupAt) (recovered : Bool) (s : State) : Out := nextOf s <|
  let k := ev.g.toNat
  if (grp s k).firing then
    let s1 := updGrp s k fun y => { y with firing := false, afHold := true, rose := recovered }
    ((servOf s1 k).foldl (fun u n => updStg u n fun x => { x with low := some (stagePeriod s n ev.t.toNat) }) s1)
  else s

/-- AF_HOLD_EXPIRY: AF_HOLD ends; shedding and diode emulation resume. -/
def execAfHoldExpiry (g : BitVec 3) (s : State) : Out := nextOf s <|
  let k := g.toNat
  if (grp s k).afHold then (fsetB (updGrp s k fun y => { y with afHold := false }) (VP_GRP_STAT_AF k) (grp s k).firing) else s

/-! ### Limits (R204 to R209) -/

/-- R205: a hiccup is latched: state 4 and the stage-short source, or a lockout with the stage-lockout source. -/
def hiccup (s : State) (n : Nat) : State :=
  let g := fget s (VP_STAGE_GROUP n)
  let h := (stg s n).hic + 1
  let s1 := updStg s n fun x => { x with tripIn := none }
  if gcfg s g 2 (VP_GRP_LIM_HIC_MAX g) < h then raiseD (lockout s1 n 2) 0x92 (some n) 0 0x43
  else
    let s2 := bump (updStg s1 n fun x => { x with hic := h }) (VP_STAGE_HICCUPS n)
    capture (raiseD (setSt s2 n 4) 0x91 (some n) 0 0x43) 1 n g (stSt s n)

/-- SHORT_CIRCUIT_TRIP: VP_IMON_n crosses ISC at i mA, t × 100 ps after the group's period start: the line is low until the stage's next rising edge; a trip in two consecutive stage
periods latches a hiccup (R204, R205). -/
def execShortCircuitTrip (trip : StageTrip) (s : State) : Out := nextOf s <|
  let k := trip.n.toNat
  let x := stg s k
  let p := stagePeriod s k trip.t.toNat
  if stSt s k = 2 then
    let s1 := updStg (bump s (VP_STAGE_SC_TRIPS k)) k fun y => { y with held := some p, tripIn := some p, quiet := 0, cur := trip.i.toInt }
    if x.tripIn.any fun j => j + 1 == p then hiccup s1 k else s1
  else if stSt s k = 3 then updStg (bump s (VP_STAGE_SC_TRIPS k)) k fun y => { y with held := some p, quiet := 0, cur := trip.i.toInt }
  else s

/-- HICCUP_OFF_EXPIRY: HIC_OFF ends, and the check of R200 begins (R205). -/
def execHiccupOffExpiry (n : BitVec 6) (s : State) : Out := nextOf s <|
  if stSt s n.toNat = 4 then (startCheck s n.toNat) else s

/-- R206: I_f and the trip-free time of stage n after one microsecond at mean current i. -/
def filterOne (s : State) (n : Nat) (i : Int) : Stage :=
  let g := fget s (VP_STAGE_GROUP n)
  let tau := max 1 (gcfg s g 2 (VP_GRP_LIM_TAU g))
  let x := stg s n
  let num := (10 * tau - 1 : Nat) * x.ifNum + i * x.ifDen
  let den := 10 * tau * x.ifDen
  let c := max 1 (Nat.gcd num.natAbs den)
  let q := x.quiet + 1
  { x with ifNum := num / (c : Int), ifDen := den / c, cur := i, quiet := q, hic := if 1000 ≤ q then 0 else x.hic }

/-- R206: one microsecond of the overload filter of stage n in service at mean current i. -/
def overloadOne (s : State) (n : Nat) (i : Int) : State :=
  let g := fget s (VP_STAGE_GROUP n)
  let tau := max 1 (gcfg s g 2 (VP_GRP_LIM_TAU g))
  let x := stg s n
  let y := filterOne s n i
  let iol : Int := 250 * gcfg s g 2 (VP_GRP_LIM_IOL g)
  let ov := decide (iol * y.ifDen < y.ifNum)
  let s1 := fset (setStg s n { y with ovl := ov, overTicks := if ov then x.overTicks + 1 else 0 }) (VP_STAGE_I_AVG n) (mAu 16 (ifMa y))
  let s2 := if ov then pinTrim s1 g n else s1
  let s3 := if ov && !x.ovl then capture (raiseD s2 0x93 (some n) 0 0x43) 3 n g (stSt s n) else s2
  if ov ∧ 2 * tau * 10 ≤ x.overTicks then lockout s3 n 4 else s3

/-- R296: the energy of a microsecond is added to the total of every group, in quanta of 0.25 mV × 1 mA × 1 µs. -/
def energyTick (s : State) (cur : Nat → Int) : State :=
  { s with bud := { s.bud with gTot := (List.range 8).foldl (fun t g =>
      tset t g (tget 0 t g + fget s (VP_GRP_STAT_V g) * (stagesOf s g).foldl (fun a n => a + cur n) 0)) s.bud.gTot } }

/-- OVERLOAD_FILTER_TICK: one microsecond in the controller, with the mean current of every stage over it in mA: every I_f follows, and a stage in service can be
overloaded (R206, R296). -/
def execOverloadFilterTick (cur : List (BitVec 32)) (s0 : State) : Out := nextOf s0 <|
  let i := fun n => (cur.getD n 0).toInt
  let s := (List.range 8).foldl (fun t g => updGrp t g fun x => { x with hist := (stagesOf t g).foldl (fun a n => a + i n) 0 :: x.hist.take 9 }) (energyTick s0 i)
  (stageNums.foldl (fun t n => if stSt t n = 2 ∨ stSt t n = 3 then overloadOne t n (cur.getD n 0).toInt
    else let y := filterOne t n (cur.getD n 0).toInt
      fset (setStg t n y) (VP_STAGE_I_AVG n) (mAu 16 (ifMa y))) s)

/-- STAGE_FAULT_LINE: VP_FLT_N_n changes, at the stage current i mA; at low the stage is disabled and locked out with cause 6, and the stage-fault source is raised (R207). At high a
stage whose check the low line has kept back at a group start is checked (R199, R210). -/
def execStageFaultLine (now : StageNow) (low : Bool) (s : State) : Out := nextOf s <|
  let k := now.n.toNat
  let s1 := updStg s k fun x => { x with flt := low, cur := now.i.toInt }
  if !low && (stg s k).flt && stSt s k == 6 && (grp s (fget s (VP_STAGE_GROUP k))).started then startCheck s1 k
  else if low && decide (k < 48) && !(stg s k).flt && stSt s k != 0 then (raiseD (lockout s1 k 6) 0x94 (some k) 0 0x43)
  else (if k < 48 then s1 else s)

/-- R208: every group enters state 6. -/
def inputOff (s : State) (st : Nat) : State :=
  (List.range 8).foldl groupOff (fset s VP_VIN_STAT_STATE st)

/-- INPUT_UNDERVOLTAGE: the input has stayed below UV for the filter time (R208, cause 7). -/
def execInputUndervoltage (s : State) : Out := nextOf s <|
  if fget s VP_VIN_STAT_STATE = 1 then s
  else pmStep (capture (raiseD (bump (inputOff s 1) VP_VIN_STAT_UV_EVENTS) 0xA8 none 0 0x43) 7 0xFF 0xFF 0)

/-- INPUT_OVERVOLTAGE: the input has stayed above OV for the filter time (R208, cause 8). -/
def execInputOvervoltage (s : State) : Out := nextOf s <|
  if fget s VP_VIN_STAT_STATE = 2 then s
  else pmStep (capture (raiseD (bump (inputOff s 2) VP_VIN_STAT_OV_EVENTS) 0xA9 none 0 0x43) 8 0xFF 0xFF 0)

/-- INPUT_RESTART: the input has stayed from START up to OV − 0.5 V for 100 µs: groups with a non-zero VID start (R208). -/
def execInputRestart (s : State) : Out := nextOf s <|
  if fget s VP_VIN_STAT_STATE = 0 then s
  else pmStep ((List.range 8).foldl tryStart (fset s VP_VIN_STAT_STATE 0))

/-! ### Commands (R211, R212, R214) -/

/-- The refusal rules of the VP_ registers (R198, R211, R212): true when the write is refused with ERR. -/
def vpRefused (s : State) (n : RName) (i v : Nat) : Bool :=
  match n with
  | .VP_GRP_PWM => decide (bitsOf v 15 0 < 5000 ∨ 20000 < bitsOf v 15 0)
  | .VP_GRP_LOOP => decide (0xC0 < bitsOf v 39 32 ∨ bitsOf v 47 40 = 0 ∨ 200 < bitsOf v 47 40)
  | .VP_GRP_LIM => decide (bitsOf v 25 16 = 0 ∨ 1000 < bitsOf v 25 16 ∨ bitsOf v 39 32 = 0)
  | .VP_GRP_LL => decide (bitsOf v 8 3 = 0 ∨ 40 < bitsOf v 8 3 ∨ bitsOf v 16 9 = 0 ∨ bitsOf v 35 28 ≤ bitsOf v 27 20 ∨ bitsOf v 48 44 = 0)
  | .VP_VID => decide (6 ≤ i ∧ bitsOf v 13 0 ≠ 0 ∧ (bitsOf v 13 0 < 2800 ∨ 5200 < bitsOf v 13 0))
  | .VP_VIN_CFG => decide (bitsOf v 31 27 = 0 ∨ bitsOf v 17 9 ≤ bitsOf v 8 0 ∨ bitsOf v 26 18 < bitsOf v 8 0 ∨ bitsOf v 17 9 < bitsOf v 26 18)
  | .VP_STAGE_CMD => flag s VP_STAGE_CMD_BUSY
  | _ => false

/-- R212: the restart of stage n: RESULT, or the check with BUSY. -/
def stageRestart (s : State) (n : Nat) : State :=
  let g := fget s (VP_STAGE_GROUP n)
  let code := if 48 ≤ n ∨ stSt s n = 0 then 1 else if stSt s n ≠ 5 then 2 else if (stg s n).flt then 3
    else if inputOk s = false ∨ (grp s g).started = false then 4 else 0
  if code = 0 then updStg (fsetB (startCheck s n) VP_STAGE_CMD_BUSY true) n fun x => { x with restart := true }
  else fset s VP_STAGE_CMD_RESULT code

/-- R212: the stop of stage n. -/
def stageStop (s : State) (n : Nat) : State :=
  if 48 ≤ n ∨ stSt s n = 0 then fset s VP_STAGE_CMD_RESULT 1
  else if 1 ≤ stSt s n ∧ stSt s n ≤ 3 then fset (lockout s n 12) VP_STAGE_CMD_RESULT 0
  else fset s VP_STAGE_CMD_RESULT 2

/-- The word of a group register that a write leaves in force until the next period start (R211). -/
def keepInForce (s : State) (g k a : Nat) : State :=
  if (grp s g).started ∧ tget? (grp s g).inForce k = none then updGrp s g fun x => { x with inForce := tset x.inForce k (reg s a).toNat } else s

/-- The effect of a write to a VP_ register that is not refused. -/
def vpWrite (s : State) (n : RName) (i v : Nat) (store : State → State) : State :=
  match n with
  | .VP_GRP_PWM => store (keepInForce s i 0 (VP_GRP_PWM i))
  | .VP_GRP_LOOP => store (keepInForce s i 1 (VP_GRP_LOOP i))
  | .VP_GRP_LIM => store (keepInForce s i 2 (VP_GRP_LIM i))
  | .VP_GRP_LL => store (keepInForce s i 3 (VP_GRP_LL i))
  | .VP_VID => takeVid s i (bitsOf v 13 0)
  | .VP_STAGE_CMD =>
    let s1 := store s
    let st := bitsOf v 5 0
    if bitsOf v 9 8 = 1 then stageRestart s1 st else if bitsOf v 9 8 = 2 then stageStop s1 st else s1
  | .VP_LASTF_STAT =>
    if bitOf v 16 then { fsetB s VP_LASTF_STAT_VALID false with flash := { s.flash with vpm0 := none, vpm1 := none } } else s
  | _ => store s

/-- VPM_RECORD_WRITE: within 1 ms of a capture, the active Rhizome writes the record to the older of the two flash slots, with the stage temperature that it holds (R214). -/
def execVpmRecordWrite (temp : BitVec 16) (s : State) : Out := nextOf s <|
  match s.vpm.rec_ with
  | none => s
  | some r =>
    if flag s VP_LASTF_STAT_PENDING && answers s (activeIsl s) && answers s 0x4A && !(inTakeover s) then
      let w := { r with temp := if r.stage = 0xFF then 0x8000 else temp.toNat }
      let into0 := match s.flash.vpm0, s.flash.vpm1 with
        | none, _ => true
        | some _, none => false
        | some a, some b => serialGt b.seq a.seq
      let s1 := fsetB s VP_LASTF_STAT_PENDING false
      { s1 with flash := if into0 then { s.flash with vpm0 := some w } else { s.flash with vpm1 := some w } }
    else s

/-! ### Lines (R210, Table 9-5) -/

/-- The level of VP_PWM_n. -/
inductive Pwm where
  | low
  | mid
  | high
deriving DecidableEq, Repr

/-- VP_EN_n and VP_PWM_n of stage n, t × 100 ps after its group's period start (Table 9-5). -/
def stageLines (s : State) (n t : Nat) : Bool × Pwm :=
  let x := stg s n
  let g := fget s (VP_STAGE_GROUP n)
  let st := stSt s n
  if st = 6 ∨ st = 5 ∨ st = 0 ∨ x.flt = true then (false, .mid)
  else if st = 4 then (false, .mid)
  else if st = 1 then (true, .mid)
  else if x.held == some (stagePeriod s n t) then (true, .low)
  else if (grp s g).firing then (true, .high)
  else if x.low == some (stagePeriod s n t) then (true, .low)
  else if st = 3 then (true, .mid)
  else if x.deCut == some (stagePeriod s n t) then (true, .mid)
  else (true, if schedHigh s n t then .high else .low)

end Sys2Proof.Machine
end

