-- ==== Sys2Proof/Machine/Thermal.lean ====
section
/-! DEFINITION. Machine/Thermal.lean: the thermal unit, island 0x45 (spec/11_thermal.md, R239 to R252). -/
namespace Sys2Proof.Machine

def s16 (n : Nat) : Int := signedOf 16 n

/-- T_b in 1/16 °C (Table 11-6). -/
def edgeOf (s : State) (b : Nat) : Int := s16 (fget s (TH_BAND_T_LO b))
def hysT (s : State) : Int := fget s TH_CFG_HYS
def tripT (s : State) : Int := s16 (fget s TH_CFG_TRIP)

/-- The highest band of 1 to 7 whose edge, less h, the reading holds; 0 if none. -/
def bandAt (s : State) (h r : Int) : Nat := ((List.range 8).filter fun b => b != 0 && decide (edgeOf s b - h ≤ r)).getLastD 0

/-- R247: the band that follows band b at reading r. -/
def bandNext (s : State) (b : Nat) (r : Int) : Nat :=
  let up := bandAt s 0 r
  if b < up then up
  else if r < edgeOf s b - hysT s ∧ b ≠ 0 then min b (bandAt s (hysT s) r)
  else b

/-- R244: the rate that a reading calls for (0: 1 kS/s; 1: 10 kS/s; 2: 100 kS/s). -/
def rateOf (s : State) (r : Int) : Nat :=
  if edgeOf s 7 - 48 ≤ r then 2 else if edgeOf s 7 - 160 ≤ r then 1 else 0

/-- R244: the next rate, from the rate in force, and by lower rate (0: 1 kS/s, 1: 10 kS/s) the run of consecutive samples at which that rate would apply with 1 °C to spare. -/
def rateNext (s : State) (cur : Nat) (run : Nat × Nat) (r : Int) : Nat × Nat × Nat :=
  let next := fun (k n : Nat) => if rateOf s (r + 16) ≤ k then min 16 (n + 1) else 0
  let n0 := next 0 run.1
  let n1 := next 1 run.2
  (if cur < rateOf s r then rateOf s r else if 0 < cur ∧ n0 = 16 then 0 else if 1 < cur ∧ n1 = 16 then 1 else cur, n0, n1)

/-- R239: the calibrated reading. -/
def thermalRaw (s : State) (n code : Nat) : Int :=
  s16 (fget s (TH_SCAL_OFFS n)) + rne ((fget s (TH_SCAL_GAIN n) : Int) * ((code : Int) - 32768)) 4096

/-- Row and column of sensor n on the sensor grid. -/
def sensRow (w n : Nat) : Nat := 2 * (n / 4 / w) + n % 4 / 2
def sensCol (w n : Nat) : Nat := 2 * (n / 4 % w) + n % 4 % 2

/-- The neighbours of sensor n: its eight grid neighbours that are present and not quarantined (R245). -/
def sensNbrs (s : State) (n : Nat) : List Nat :=
  let w := gridW (nF s)
  (List.range (4 * nF s)).filter fun m =>
    m != n && !(flag s (TH_SENS_QUAR m)) && decide (sensRow w m ≤ sensRow w n + 1 ∧ sensRow w n ≤ sensRow w m + 1 ∧ sensCol w m ≤ sensCol w n + 1 ∧ sensCol w n ≤ sensCol w m + 1)

/-- Insertion into an ascending list. -/
def insertAsc (x : Int) : List Int → List Int
  | [] => [x]
  | y :: ys => if x ≤ y then x :: y :: ys else y :: insertAsc x ys

/-- R245: the median; for an even count the mean of the middle two, rounded toward minus infinity. -/
def median (l : List Int) : Int :=
  let a := l.foldl (fun t x => insertAsc x t) []
  let n := a.length
  if n % 2 = 1 then a.getD (n / 2) 0 else (a.getD (n / 2 - 1) 0 + a.getD (n / 2) 0) / 2

def nbrMedian (s : State) (n : Nat) : Int := median ((sensNbrs s n).map fun m => s16 (fget s (TH_SENS_RAW m)))

/-- R245: the cross-check of sensor n, quarantined or not, and its READ. -/
def crossCheck (s : State) (n : Nat) : State :=
  let raw := s16 (fget s (TH_SENS_RAW n))
  let nb := sensNbrs s n
  let med := nbrMedian s n
  let s1 :=
    if 3 ≤ nb.length ∧ (fget s TH_CFG_DEV : Int) < (raw - med).natAbs then
      let s2 := bump s (TH_SENS_DEV_RUN n)
      if fget s TH_CFG_DEV_RUN ≤ fget s2 (TH_SENS_DEV_RUN n) ∧ flag s (TH_SENS_QUAR n) = false then
        raiseD (bump (fsetB s2 (TH_SENS_QUAR n) true) (TH_SENS_QUARS n)) 0xB1 none n 0x45
      else s2
    else fset s (TH_SENS_DEV_RUN n) 0
  let read := if flag s1 (TH_SENS_QUAR n) then (if nb.isEmpty then edgeOf s 7 else med) else raw
  fset s1 (TH_SENS_READ n) (patOf 16 read)

/-- READ as every band and trip comparison of the sensor takes it: with UNCAL_GUARD while uncalibrated (R239). -/
def cmpRead (s : State) (n : Nat) : Int :=
  s16 (fget s (TH_SENS_READ n)) + (if flag s (TH_SENS_UNCAL n) then (fget s TH_CFG_UNCAL_GUARD : Int) else 0)

/-- The highest of a list of band numbers. -/
def maxOf (l : List Nat) : Nat := l.foldl max 0

/-- The band of frond f (R248). -/
def bandOf (s : State) (f : Nat) : Nat := maxOf ((List.range 4).map fun q => fget s (TH_SENS_BAND (4 * f + q)))

/-- A remote channel that counts with a role (R243). -/
def remActive (s : State) (role m : Nat) : Bool :=
  flag s (TH_REM_CFG_EN m) && fget s (TH_REM_CFG_ROLE m) == role && !(flag s (TH_REM_STAT_INVALID m))

/-- R249: the chip's hottest band. -/
def hottest (s : State) : Nat :=
  maxOf ((List.range (nF s)).map (bandOf s) ++ ((List.range 16).filter (remActive s 1)).map fun m => fget s (TH_REM_STAT_BAND m))

/-- R250: the refresh indication of stack k. -/
def refreshOf (s : State) (k : Nat) : Nat :=
  let ch := (List.range 16).filter fun m => remActive s 2 m && fget s (TH_REM_CFG_STACK m) == k
  fget s (TH_BAND_REFRESH (if ch.isEmpty then hottest s else maxOf (ch.map fun m => fget s (TH_REM_STAT_BAND m))))

/-- R250: a rise reaches the lines at once; a fall waits for REFRESH_FALL_HOLD. -/
def refreshRise (s : State) : State :=
  (List.range 8).foldl (fun t k => if tget 0 t.th.ref k < refreshOf t k then { t with th := { t.th with ref := tset t.th.ref k (refreshOf t k) } } else t) s

/-- S6 of a band (R248). -/
def s6Word (s : State) (b : Nat) : Nat := b + fget s (TH_BAND_WSET b) * 2 ^ 4 + fget s (TH_BAND_GUARD b) * 2 ^ 16

/-- R248: S6 goes to the frond, and the band to the active Rhizome, when they differ from what was sent last. -/
def sendBand (s : State) (f : Nat) : State :=
  let w := s6Word s (bandOf s f)
  if tget? s.th.sent f = some w then s
  else
    let s1 := { s with th := { s.th with sent := tset s.th.sent f w, air := s.th.air ++ [⟨f, bandOf s f, fget s (TH_BAND_GUARD (bandOf s f)), hottest s⟩] } }
    updFr s1 f fun x => { x with upd := x.upd ++ [.bandWord w] }

/-- R249: HOT_BAND, LIMIT, HOT_READ and HOT_POS, the thermal-limit source, and the report of a changed hottest band. -/
def refreshHot (s : State) : State :=
  let h := hottest s
  let best := (List.range (4 * nF s)).foldl (fun (b : Nat × Int) n =>
    let r := s16 (fget s (TH_SENS_READ n))
    if n = 0 ∨ b.2 < r then (n, r) else b) (0, 0)
  let best2 := ((List.range 16).filter (remActive s 1)).foldl (fun (b : Nat × Int) m =>
    let r := s16 (fget s (TH_REM_STAT_READ m))
    if b.2 < r then (256 + m, r) else b) best
  let s1 := fset (fset (fset s TH_STAT_HOT_BAND h) TH_STAT_HOT_POS best2.1) TH_STAT_HOT_READ (patOf 16 best2.2)
  let s2 := if h = 7 ∧ flag s TH_STAT_LIMIT = false then raiseD s1 0xB2 none 0 0x45 else s1
  let s3 := fsetB s2 TH_STAT_LIMIT (decide (h = 7))
  let s4 := if h = fget s TH_STAT_HOT_BAND then s3 else { s3 with th := { s3.th with air := s3.th.air ++ [⟨0, bandOf s3 0, fget s3 (TH_BAND_GUARD (bandOf s3 0)), h⟩] } }
  hotVids (refreshRise s4) h

/-- A frond is held by a trip (R251). -/
def tripHeld (s : State) (f : Nat) : Bool := !(s.th.remTrips.isEmpty) || s.th.trips.any fun n => n / 4 == f

/-- R251: the trip lists change; the fronds whose hold changes are signalled, TRIPPED follows, and a new trip raises its source and counts. -/
def setTrips (s : State) (trips rem : List Nat) (fresh : Bool) (detail : Nat) : State :=
  let s1 := { s with th := { s.th with trips := trips, remTrips := rem } }
  let s2 := (List.range (nF s)).foldl (fun t f =>
    if tripHeld s f == tripHeld s1 f then t else updFr t f fun x => { x with upd := x.upd ++ [.trip (tripHeld s1 f)] }) s1
  let s3 := fsetB s2 TH_STAT_TRIPPED (!(trips.isEmpty && rem.isEmpty))
  if fresh then raiseD (bump s3 TH_STAT_TRIPS) 0xB3 none detail 0x45 else s3

/-- The trip of on-die sensor n. -/
def sensTrip (s : State) (n : Nat) : State :=
  let r := cmpRead s n
  if s.th.trips.contains n then
    if r < tripT s - hysT s then setTrips s (s.th.trips.filter (· != n)) s.th.remTrips false n else s
  else if tripT s ≤ r then setTrips s (s.th.trips ++ [n]) s.th.remTrips true n else s

/-- THERMAL_SAMPLE: the four sensors of frond f sample their codes (R239, R244 to R251). -/
def execThermalSample (f : Nat) (codes : List (BitVec 16)) (s : State) : Out := nextOf s <|
  if !(hasF s f) || !(answers s 0x45) then s
  else
    let ns := (List.range 4).map fun q => 4 * f + q
    let s1 := ns.foldl (fun t n => fset t (TH_SENS_RAW n) (patOf 16 (thermalRaw t n (codes.getD (n % 4) 0).toNat))) s
    let s2 := ns.foldl crossCheck s1
    let s3 := ns.foldl (fun t n => fset t (TH_SENS_BAND n) (bandNext t (fget t (TH_SENS_BAND n)) (cmpRead t n))) s2
    let top := ns.foldl (fun (m : Int) n => max m (s16 (fget s3 (TH_SENS_READ n)))) (-32768)
    let r := rateNext s3 (fget s3 (TH_SENS_RATE (4 * f))) (tget (0, 0) s3.th.fall f) top
    let s4 := ns.foldl (fun t n => fset t (TH_SENS_RATE n) r.1) { s3 with th := { s3.th with fall := tset s3.th.fall f r.2 } }
    let s5 := ns.foldl sensTrip s4
    pmStep (refreshHot (sendBand s5 f))

/-! ### Remote channels (R240 to R243) -/

/-- R240: a diode reading in 1/16 °C from ΔV in nV: T = (ΔV − RS × 90 µA) × q_e / (η × k × ln 16), with the exact SI values of q_e and k (PRESUMED). -/
def diodeTemp (dv eta rs : Nat) : Int :=
  let net : Int := (dv : Int) - rs * 9000
  let qk : Int := 1602176634
  let kk : Int := 138064900
  let ln16 := 4 * ln2Fix
  let num := 16 * net * qk * 8192 * 2 ^ 64
  let den := (eta : Int) * kk * ln16 * 1000000
  rne (10 * num - 43704 * den) (10 * den).toNat

/-- R241: a thermistor reading in 1/16 °C from the pin voltage in µV (R_t in units of 10 Ω as an exact fraction). -/
def thermistorTemp (v r0 beta rdiv : Nat) : Int :=
  let l := lnFix (max 1 (rdiv * v)) (max 1 (r0 * (1200000 - v)))
  let b : Int := max 1 beta
  let num : Int := 16 * 29815 * b * 2 ^ 64
  let den : Int := 100 * b * 2 ^ 64 + 29815 * l
  if den ≤ 0 then 32767 else rne (10 * num - 43704 * den) (10 * den).toNat

/-- R242: the pin voltage, in µV, shows an open or shorted channel. -/
def remInvalid (diode : Bool) (v : Nat) : Bool :=
  if diode then decide (1000000 < v ∨ v < 200000) else decide (v < 24000 ∨ 1176000 < v)

/-- REMOTE_SAMPLE: channel m reads its pin voltage v in µV (the diode's at 96 µA) and, for a diode, ΔV in nV (R240 to R244, R247, R251). -/
def execRemoteSample (m : BitVec 4) (v : BitVec 21) (dv : BitVec 28) (s : State) : Out := nextOf s <|
  let k := m.toNat
  if !(flag s (TH_REM_CFG_EN k)) || !(answers s 0x45) then s
  else
    let diode := fget s (TH_REM_CFG_TYPE k) == 0
    if remInvalid diode v.toNat then
      let s1 := fsetB s (TH_REM_STAT_INVALID k) true
      let s2 := if flag s (TH_REM_STAT_INVALID k) then s1 else raiseD s1 0xB0 none k 0x45
      pmStep (refreshHot s2)
    else
      let t := if diode then diodeTemp dv.toNat (bitsOf (fget s (TH_REM_CFG_ETA_R0 k)) 13 0) (bitsOf (fget s (TH_REM_CFG_RS_BETA k)) 7 0)
        else thermistorTemp v.toNat (fget s (TH_REM_CFG_ETA_R0 k)) (fget s (TH_REM_CFG_RS_BETA k)) (fget s (TH_REM_CFG_RDIV k))
      let r := clampInt (-32768) 32767 t
      let s1 := fset (fsetB s (TH_REM_STAT_INVALID k) false) (TH_REM_STAT_READ k) (patOf 16 r)
      let s2 := fset s1 (TH_REM_STAT_BAND k) (bandNext s1 (fget s1 (TH_REM_STAT_BAND k)) r)
      let rt := rateNext s2 (fget s2 (TH_REM_STAT_RATE k)) (tget (0, 0) s2.th.remFall k) r
      let s3 := { fset s2 (TH_REM_STAT_RATE k) rt.1 with th := { s2.th with remFall := tset s2.th.remFall k rt.2 } }
      let chip := fget s (TH_REM_CFG_ROLE k) == 1
      let s4 := if s3.th.remTrips.contains k then
          (if !chip || decide (r < tripT s - hysT s) then setTrips s3 s3.th.trips (s3.th.remTrips.filter (· != k)) false k else s3)
        else if chip && decide (tripT s ≤ r) then setTrips s3 s3.th.trips (s3.th.remTrips ++ [k]) true (256 + k) else s3
      pmStep (refreshHot s4)

/-- REFRESH_FALL_HOLD: the lower indication of stack k has held for REF_HOLD ms and reaches its lines (R250). -/
def execRefreshFallHold (k : BitVec 3) (s : State) : Out := nextOf s <|
  if refreshOf s k.toNat < tget 0 s.th.ref k.toNat then { s with th := { s.th with ref := tset s.th.ref k.toNat (refreshOf s k.toNat) } } else s

/-- R252: the refusal rules of the TH_ registers, against the values that would then hold. -/
def thRefused (s : State) (n : RName) (i v : Nat) : Bool :=
  match n with
  | .TH_CFG => decide (s16 (bitsOf v 15 0) ≤ edgeOf s 7) || bitsOf v 55 48 == 0
  | .TH_BAND =>
    let t := fun b => if b = i then s16 (bitsOf v 15 0) else edgeOf s b
    let g := fun b => if b = i then bitsOf v 31 20 else fget s (TH_BAND_GUARD b)
    !((List.range 6).all fun k => decide (t (k + 1) < t (k + 2))) || !((List.range 7).all fun k => decide (g k ≤ g (k + 1)))
      || bitsOf v 17 16 == 3 || decide (tripT s ≤ t 7)
  | .TH_REM_CFG =>
    let eta := bitsOf v 29 16
    bitsOf v 3 2 == 3 || (!(bitOf v 1) && decide (eta < 7782 ∨ 9011 < eta))
      || (bitOf v 1 && (bitsOf v 31 16 == 0 || bitsOf v 47 32 == 0 || bitsOf v 63 48 == 0))
  | _ => false

/-- R246: QUAR of sensor n is cleared: from the next sample it uses its own RAW, and DEV_RUN starts from 0. -/
def clearQuar (s : State) (n v : Nat) : State :=
  if bitOf v 35 then fset (fsetB s (TH_SENS_QUAR n) false) (TH_SENS_DEV_RUN n) 0 else s

/-- The effect of a write to a TH_ register that is not refused. -/
def thWrite (s : State) (n : RName) (i v : Nat) (store : State → State) : State :=
  match n with
  | .TH_SENS => clearQuar s i v
  | .TH_REM_CFG =>
    let s1 := store s
    if bitOf v 0 && bitsOf v 3 2 == 1 then s1
    else if s1.th.remTrips.contains i then setTrips s1 s1.th.trips (s1.th.remTrips.filter (· != i)) false i else s1
  | _ => store s

end Sys2Proof.Machine
end

