-- ==== Sys2Proof/Machine/Rhizome.lean ====
section
/-! DEFINITION. Machine/Rhizome.lean: rules that the active Rhizome carries out: set-point commits (R153 to R156, R189), bridges (R51 to R58), the bus optimiser (R35 to R38),
lost phases and draining (R183, R184), sags (R186, R187), level-3 caps (R339). -/
namespace Sys2Proof.Machine

/-! ### Neighbours and health (R49, R52) -/

/-- An accepted close command for bridge dir of frond o is on its way (R54). -/
def closeSent (s : State) (o dir : Nat) : Bool := ((fr s o).upd ++ (fr s o).inbox.map (fun q => q.2)).any fun m => m == .bridgeClose dir

/-- The bridge of frond f, as (owner, direction), whose close command is on its way. -/
def closeInFlight (s : State) (f : Nat) : Option (Nat × Nat) :=
  ([(some f, 0), (some f, 1), (westOf s f, 0), (northOf s f, 1)].filterMap fun p => p.1.map fun o => (o, p.2)).find? fun b => closeSent s b.1 b.2

/-- The bridge that frond f is a member of: closed, closing, or accepted for a close (R51, R52). -/
def bridgeOf (s : State) (f : Nat) : Option (Nat × Nat) := match bridgeAt s f with | some b => some b | none => closeInFlight s f

/-- A member of a bridge that is closing or closed (R51, R52). -/
def inBridge (s : State) (f : Nat) : Bool := (bridgeOf s f).isSome

/-- The lost phases of a frond, and the healthy ones of the member's P (R4, R180). -/
def lostOf (s : State) (f : Nat) : Nat := popCount 32 (fget s (FR_PHASE_HEALTH_OPEN f))
def healthyPh (s : State) (f : Nat) : Nat := nP s - lostOf s f

/-- Sources of Table 15-1 whose unit is a frond. -/
def frondSources : List Nat := [0x01, 0x28, 0x29, 0x2A, 0x2B, 0x2C, 0x2D, 0x30, 0x31, 0x32, 0x33, 0x38, 0x39, 0xBA]

/-- A source's status bit. -/
def isSet (s : State) (i : Nat) : Bool := bitOf (reg s (RZ_FLT_STAT (i / 64))).toNat (i % 64)
def lvlOf (s : State) (i : Nat) : Nat := fget s (RZ_FLT_CFG_LVL i)
def unitsOf (s : State) (i : Nat) : Nat := (reg s (RZ_FLT_UNIT i)).toNat

/-- R52: the frond is healthy: its core runs, its rail is neither Dark, in Soft start nor Locked out (log entry 9), it has lost at most 8 phases, and no fault of level 3 or 4 sourced in it is unacknowledged. -/
def healthy (s : State) (f : Nat) : Bool :=
  hasF s f && answers s f && decide (coreSt s f ≤ 1) && !([0, 2, 5].contains (railSt s f)) && decide (lostOf s f ≤ 8)
    && !(frondSources.any fun i => isSet s i && decide (3 ≤ lvlOf s i) && bitOf (unitsOf s i) f)

/-- The committed set-point of a frond (R52): the endpoint of the latest set-point command that was sent to it, on its way or waiting for its boundary, else of the pending one, else of
the command last applied. A command that the ladder has only recorded (R189), and one that was withdrawn (R396), is none of these. -/
def committedE (s : State) (f : Nat) : Nat :=
  let x := fr s f
  let ofMsg := fun (m : FMsg) => match m with | .setpoint _ e => some e | _ => none
  match ((x.inbox.map fun q => q.2) ++ x.air.map fun c => c.msg).filterMap ofMsg |>.getLast? with
  | some e => e
  | none => match x.rail.pend with | some p => p.1 | none => x.rail.e

/-! ### Opening a bridge (R56) -/

/-- A firmware cause of the active Rhizome opens the bridge at the leader's next boundary, where the leader tells the other frond. -/
def openFw (s : State) (f dir cause : Nat) : State := sendUpd s f (.bridgeOpen dir cause)

/-- A firmware cause that the leader itself finds waits for its next boundary. -/
def openOwn (s : State) (f dir cause : Nat) : State := updFr s f fun x => { x with inbox := x.inbox ++ [(0, .bridgeOpen dir cause)] }

/-- R52, R53, R58: the outcome of a bridge command; 0 when it is accepted. Where several codes hold for a close, the order is the model's (log entry 103). -/
def bridgeResult (s : State) (f dir op : Nat) : Nat :=
  if op = 1 ∧ inSpore s = true then 7
  else if op = 1 ∧ inBridge s f = true then 5
  else match acrossOf s f dir with
    | none => 1
    | some g =>
      if op = 1 then
        if inBridge s g then 5
        else if !(brEnabled s f dir) then 2
        else if 20 < ((committedE s f : Int) - committedE s g).natAbs then 3
        else if !(healthy s f && healthy s g) then 4
        else 0
      else if brState s f dir = 0 ∧ closeSent s f dir = false then 6 else 0

/-- A committed bridge command acts: the close or open starts (R53, R54). -/
def bridgeAct (s : State) (f dir op cause : Nat) : State :=
  if op = 1 then sendUpd s f (.bridgeClose dir) else openFw s f dir cause

/-- The effect of a write to RZ_BRIDGE_CMD that is not refused, at its commit (R57). -/
def bridgeWrite (s : State) (v : Nat) : State :=
  let f := bitsOf v 5 0
  let dir := bitsOf v 8 8
  let op := bitsOf v 13 12
  let s1 := fset (fset s RZ_BRIDGE_CMD_FROND f) RZ_BRIDGE_CMD_DIR dir
  if op = 0 then s1
  else
    let r := bridgeResult s f dir op
    let s2 := fsetB (fset s1 RZ_BRIDGE_CMD_RESULT r) RZ_BRIDGE_CMD_BUSY false
    if r = 0 then bridgeAct s2 f dir op 1 else s2

/-- An injection in progress in frond f loses its bridge state (R148). -/
def injCause4 (s : State) (f : Nat) : State := updFr s f fun x => { x with inj := { x.inj with causes := x.inj.causes ++ [4] } }

/-- A hardware cause (3, 4 or 5 of Table 2-12) opens the switch of a closing or closed bridge within 10 ns; the follower leaves its role at its next boundary, and no open command that waits
can then overwrite the cause (R56). -/
def hwOpen (f d c : Nat) (s : State) : State :=
  match acrossOf s f d with
  | none => s
  | some g =>
    if brState s f d ≠ 0 ∧ 3 ≤ c then
      let keep := fun (m : FMsg) => match m with | .bridgeOpen k _ => k != d | _ => true
      let s1 := fset (leaveBridge (setBrState s f d 0) f c) (FR_BRIDGE_STAT_OPEN_CAUSE g) c
      (sendUpd (updFr s1 f fun x => { x with upd := x.upd.filter keep, inbox := x.inbox.filter fun q => keep q.2 }) g (.bridgeLeft c))
    else s

/-- BRIDGE_CLOSED: all four segments are closed and the follower has taken its role: the leader's STATE becomes closed (R54, Table 2-11). An open cause in the same slot comes first: a command
that waits for the boundary, or, with `hw`, the hardware cause `cause` + 2 (R56). -/
def execBridgeClosed (f : Nat) (dir hw : Bool) (cause : BitVec 2) (s : State) : Out := nextOf s <|
  let d := dir.toNat
  match acrossOf s f d with
  | none => s
  | some g =>
    let opens := (fr s f).inbox.any fun q => match q.2 with | .bridgeOpen k _ => k == d | _ => false
    if hw && cause != 0 then hwOpen f d (cause.toNat + 2) s
    else if brState s f d = 1 ∧ answers s f = true ∧ (fr s f).closing.seg = 4 ∧ fget s (FR_BRIDGE_STAT_ROLE g) = 2 ∧ opens = false then
      injCause4 (bump (bump (setBrState s f d 2) (FR_BRIDGE_STAT_CLOSES f)) (FR_BRIDGE_STAT_CLOSES g)) f
    else s

/-- BRIDGE_CLOSE_ABORT: the means have differed by more than 10 mV for 64 consecutive samples and no segment is closed: the close is aborted with cause 7 (R54). -/
def execBridgeCloseAbort (f : Nat) (dir : Bool) (s : State) : Out := nextOf s <|
  if brState s f dir.toNat = 1 ∧ 64 ≤ (fr s f).closing.far ∧ (fr s f).closing.seg = 0 then (openOwn s f dir.toNat 7) else s

/-- BRIDGE_HW_OPEN: the hardware opens a bridge (R56). -/
def execBridgeHwOpen (f : Nat) (dir : Bool) (cause : BitVec 2) (s : State) : Out := nextOf s <|
  hwOpen f dir.toNat (cause.toNat + 2) s

/-- The firmware cause holds for the bridge between f and g (Table 2-12); a set-point during a close (8) opens the bridge at its commit (R55). -/
def fwCause (s : State) (f g dir c : Nat) : Bool :=
  let st := brState s f dir
  if c = 2 then st != 0 && !(healthy s f && healthy s g)
  else if c = 6 then st == 2
  else c == 9 && st != 0 && !(brEnabled s f dir)

/-- BRIDGE_FW_OPEN: a firmware cause: health lost (2), switch voltage above 30 mV for eight samples (6), or an enable cleared by a newly applied image (9): the bridge opens at the
leader's next boundary (R56). During a takeover bridges keep their state (R53). -/
def execBridgeFwOpen (f : Nat) (dir : Bool) (cause : BitVec 4) (s : State) : Out := nextOf s <|
  let c := cause.toNat
  match acrossOf s f dir.toNat with
  | none => s
  | some g => if fwCause s f g dir.toNat c && !(inTakeover s) then (if c = 6 then openOwn s f dir.toNat c else openFw s f dir.toNat c) else s

/-! ### Set-point commits (R55, R153, R189) -/

/-- The set-point command of one frond leaves, unless the ladder records it (R189). -/
def sendSetpoint (s : State) (f v e : Nat) (wait : Bool) : State :=
  let prev := match tget? s.rz.cmd f with | some c => tset s.rz.cmdPrev f c | none => tdel s.rz.cmdPrev f
  let s1 := { s with rz := { s.rz with cmd := tset s.rz.cmd f (v, e), cmdPrev := prev } }
  if 1 ≤ fget s RZ_HARD_STAT_LADDER then s1 else sendCmd s1 f (.setpoint v e) wait

/-- The other frond of the closed bridge that frond f is a member of. -/
def partnerOf (s : State) (f : Nat) : Option Nat :=
  match bridgeAt s f with
  | none => none
  | some (o, dir) => if brState s o dir = 2 then (if o = f then acrossOf s o dir else some o) else none

/-- R55: a committed set-point command applies to both fronds of a closed bridge, and aborts a close in progress with cause 8. -/
def commitSetpoint (s : State) (f v e : Nat) (wait : Bool) : State :=
  match partnerOf s f with
  | some g => sendSetpoint (sendSetpoint s f v e wait) g v e false
  | none => match bridgeOf s f with
    | none => sendSetpoint s f v e wait
    | some b => sendSetpoint (openFw s b.1 b.2 8) f v e wait

/-- A set-point command that its frond has refused is none that is committed: the latest recorded one is the one before it (R396). -/
def unsetCmd (s : State) (f v e : Nat) : State :=
  if tget? s.rz.cmd f = some (v, e) then
    { s with rz := { s.rz with cmd := (match tget? s.rz.cmdPrev f with | some c => tset s.rz.cmd f c | none => tdel s.rz.cmd f), cmdPrev := tdel s.rz.cmdPrev f } }
  else s

/-- R155: the active Rhizome issues a frequency-form command of its own with the same FREQ for a frond whose last command is in frequency form; its endpoint is derived at its commit. -/
def reissueFreq (s : State) (f : Nat) : State :=
  match tget? s.rz.cmd f with
  | none => s
  | some (v, _) =>
    if bitOf v 0 then
      match freqEndpoint s f (bitsOf v 23 16) with
      | none => s
      | some e => journal s (.setpoint f v e) false
    else s

/-- R155: at the end of a takeover the command is issued only where the committed endpoint and the present one differ. -/
def reissueIfMoved (s : State) (f : Nat) : State :=
  match tget? s.rz.cmd f with
  | none => s
  | some (v, e) => if bitOf v 0 ∧ freqEndpoint s f (bitsOf v 23 16) ≠ some e then reissueFreq s f else s

/-- The word of a frequency-form and of a voltage-form command (Table 7-7). -/
def freqWord (freq : Nat) : Nat := 1 + freq * 2 ^ 16
def voltWord (code : Nat) : Nat := code * 2 ^ 4

/-! ### The bus optimiser (R35 to R38) -/

/-- The measured current of frond f in mA (R281). -/
def measured (s : State) (f : Nat) : Nat := match tget? s.rz.tel f with | some t => t.iMean.toNat | none => 0

/-- Point k of the latest forecast of frond f in mA, if the record is valid (Table 12-4). -/
def fcPoint (s : State) (f k : Nat) : Option Nat :=
  match tget? s.rz.fc f with
  | none => none
  | some r => if bitOf r.w1 22 then some (2 * bitsOf (if k < 4 then r.w2 else r.w3) (16 * (k % 4) + 15) (16 * (k % 4))) else none

/-- The largest forecast current of frond f over its horizon, if valid. -/
def fcMax (s : State) (f : Nat) : Option Nat :=
  match fcPoint s f 0 with
  | none => none
  | some _ => some ((List.range 8).foldl (fun m k => max m ((fcPoint s f k).getD 0)) 0)

/-- R36: the forecast at the 8 µs horizon exceeds the measured current by more than 25 % and by more than 2 A, for some in-service frond. -/
def forecastRise (s : State) : Bool :=
  (serviceFronds s).any fun f =>
    match fcPoint s f 3 with
    | none => false
    | some p => decide (5 * measured s f < 4 * p ∧ measured s f + 2000 < p)

/-- The frond with the greatest duty, the lowest number on a tie. -/
def bestDuty (s : State) (duty : Nat → Nat) : Option (Nat × Nat) :=
  (serviceFronds s).foldl (fun b f => match b with
    | none => some (f, duty f)
    | some (g, d) => if d < duty f then some (f, duty f) else some (g, d)) none

/-- NMIN_UPDATE: the least number of G0's stages goes through the journal to the VPM controller (R201). -/
def nminUpdate (n : BitVec 6) (s : State) : State := journal s (.nmin n.toNat) false

/-- IBUS_OPT_PERIOD: one step of the optimiser with the mean high-side duty of each frond over the period, in 1/256 (R35 to R37). Without an in-service frond no step is
taken (log entry 10). -/
def ibusOptPeriod (duty : List (BitVec 8)) (s : State) : State :=
  let cfg := match s.rz.opt with | some w => w | none => (reg s RZ_IBUS_OPT).toNat
  let s0 := { s with rz := { s.rz with opt := some (reg s RZ_IBUS_OPT).toNat } }
  if !(bitOf cfg 0) || inSpore s then s0
  else match bestDuty s (fun f => (duty.getD f 0).toNat) with
    | none => s0
    | some (f, d) =>
      let rise := bitOf cfg 1 && forecastRise s
      let t := fget s RZ_IBUS_STAT_TARGET
      let up := decide (bitsOf cfg 15 8 < d)
      let low := decide (d < bitsOf cfg 23 16)
      let t1 := if up then t + bitsOf cfg 27 24 else if low && !rise then t - bitsOf cfg 31 28 else t
      let t2 := clampNat (bitsOf cfg 38 32) (bitsOf cfg 46 40) t1
      let s1 := fsetB (fset (fset s0 RZ_IBUS_STAT_DHI d) RZ_IBUS_STAT_DHI_FROND f) RZ_IBUS_STAT_HOLD (low && rise)
      let s2 := if t < t2 then bump s1 RZ_IBUS_STAT_RAISES else if t2 < t then bump s1 RZ_IBUS_STAT_LOWERS else s1
      if t2 = t then s2 else journal s2 (.vid 0 (6400 + 20 * t2)) false

/-- R38: a write to RZ_IBUS_OPT is refused. -/
def ibusRefused (v : Nat) : Bool :=
  decide (80 < bitsOf v 38 32 ∨ 80 < bitsOf v 46 40 ∨ bitsOf v 46 40 < bitsOf v 38 32 ∨ bitsOf v 15 8 ≤ bitsOf v 23 16 ∨ bitsOf v 27 24 = 0 ∨ bitsOf v 31 28 = 0)

/-- A write to RZ_IBUS_OPT acts from the start of the next period; in Spore mode EN stays 0 (R37, R38). -/
def ibusWrite (s : State) (store : State → State) : State :=
  let old := match s.rz.opt with | some w => w | none => (reg s RZ_IBUS_OPT).toNat
  let s1 := store { s with rz := { s.rz with opt := some old } }
  if inSpore s then fsetB s1 RZ_IBUS_OPT_EN (flag s RZ_IBUS_OPT_EN) else s1

/-! ### Level-3 caps (R339) -/

/-- The level-3 cap of source i acts on frond f. -/
def capFrond (s : State) (i f : Nat) : State :=
  if s.flt.caps.contains (f, i) then s
  else sendUpd { s with flt := { s.flt with caps := s.flt.caps ++ [(f, i)] } } f (.cap3 (some (fget s RZ_FLT_CTRL_CAP3_ISSUE)))

/-- The level-3 caps of source i end; a frond that no other source caps is released (R335). -/
def releaseCaps (s : State) (i : Nat) : State :=
  let mine := (s.flt.caps.filter fun p => p.2 == i).map fun p => p.1
  let rest := s.flt.caps.filter fun p => p.2 != i
  let s1 := { s with flt := { s.flt with caps := rest, grpCap := s.flt.grpCap.filter (· != i) } }
  mine.foldl (fun t f => if rest.any (fun p => p.1 == f) then t else sendUpd t f (.cap3 none)) s1

/-- A frond that enters service while a group-unit cap holds is capped too (R339). -/
def capEntering (s : State) (f : Nat) : State := s.flt.grpCap.foldl (fun t i => capFrond t i f) s

/-- SOFT_START_COMPLETE: the move has ended and VM has settled for 64 slots: the frond enters In service and reports the completion (R163). -/
def execSoftStartComplete (f : Nat) (s : State) : Out := nextOf s <|
  if hasF s f && (fr s f).rail.doneDue && railSt s f == 2 then
    let s1 := updFr (fset s (FR_RAIL_STAT_STATE f) 3) f fun x => { x with rail := { x.rail with doneDue := false, settle := 0 } }
    (capEntering (toAdm (writeS1 s1 f) (.complete f)) f)
  else s

/-! ### Lost phases (R183, R184) -/

/-- What frond f needs: its largest forecast current over its horizon, or its measured current (R183). -/
def needOf (s : State) (f : Nat) : Nat := (fcMax s f).getD (measured s f)

/-- The shared bridge of two neighbours, as (owner, direction). -/
def sharedBridge (s : State) (f n : Nat) : Nat × Nat :=
  let o := min f n
  (o, if eastOf s o = some (max f n) then 0 else 1)

/-- R183: the neighbour that the policy chooses. -/
def policyPick (s : State) (f : Nat) : Option Nat :=
  let own : Int := healthyPh s f * 1000
  let gap : Int := (needOf s f : Int) - own
  let cand := (nbrsOf s f).filter fun n =>
    let br := sharedBridge s f n
    let spare : Int := (healthyPh s n * 1000 : Nat) - (needOf s n : Int)
    flag s RZ_DEGRADE_AUTO_BRIDGE && brEnabled s br.1 br.2 && healthy s n && !(inBridge s n)
      && decide (((pointP s n : Int) - pointP s f).natAbs ≤ 20) && decide (gap ≤ 24000) && decide (gap ≤ spare)
  let spareOf := fun n : Nat => ((healthyPh s n * 1000 : Nat) : Int) - needOf s n
  cand.foldl (fun b n => match b with
    | none => some n
    | some m => if spareOf m < spareOf n ∨ (spareOf m = spareOf n ∧ n < m) then some n else some m) none

/-- AUTO_BRIDGE_POLICY: the policy for a frond with 5 to 8 lost phases and no bridge, or at once for a level-3 bridge action of a source (R183, R339). A level-3 action whose
close is not accepted caps the frond instead. -/
def autoBridgePolicy (f : Nat) (s : State) : State :=
  match takeFirst (fun p : Nat × Nat => p.1 == f) s.rz.policyReq with
  | some (p, rest) =>
    let s1 := { s with rz := { s.rz with policyReq := rest } }
    match if lostOf s f ≤ 8 ∧ inBridge s f = false then policyPick s1 f else none with
    | none => (capFrond s1 p.2 f)
    | some n =>
      let b := sharedBridge s1 f n
      if bridgeResult s1 b.1 b.2 1 = 0 then (journal s1 (.bridge b.1 b.2 1 1) false) else (capFrond s1 p.2 f)
  | none =>
    if hasF s f && decide (4 < lostOf s f ∧ lostOf s f ≤ 8) && !(inBridge s f) && !(inTakeover s) then
      match policyPick s f with
      | none => s
      | some n => let b := sharedBridge s f n; (journal s (.bridge b.1 b.2 1 1) false)
    else s

/-- DRAIN_START: a frond with more than 8 lost phases, one whose sense points have all failed (R218), or one that a level-3 action darks, is drained: its bridge opens with cause 2, and its target issue limit becomes 1 with full
clock hold (R184, R339). -/
def execDrainStart (f : Nat) (s : State) : Out := nextOf s <|
  if hasF s f && !(s.rz.drains.contains f) && railSt s f != 0 && (decide (8 < lostOf s f) || fget s (FR_LEAF_STAT_VFAIL f) == 15 || s.rz.drainReq.contains f) then
    let s1 := { s with rz := { s.rz with drains := s.rz.drains ++ [f], drainReq := s.rz.drainReq.filter (· != f) } }
    let s2 := match bridgeOf s1 f with | none => s1 | some b => openFw s1 b.1 b.2 2
    (sendUpd s2 f (.drain true))
  else s

/-- DRAIN_COMPLETE: the measured current is at most 0.25 A × DRAIN_I, or DRAIN_TIMEOUT has expired: DARK is issued and frond-dark is raised (R184). `edge`: the current arrived in
the expiry cycle (R185, kind 7). -/
def drainComplete (f : Nat) (edge : Bool) (s : State) : State :=
  if s.rz.drains.contains f then
    let s1 := { s with rz := { s.rz with drains := s.rz.drains.filter (· != f) } }
    let s2 := journal (bump s1 RZ_HARD_STAT_DARKED) (.darkFrond f) false
    raiseD (nearMissIf (edge && decide (measured s f ≤ 250 * fget s RZ_DEGRADE_DRAIN_I)) s2 (activeIsl s) 7) 0x2D (some f) 0 (activeIsl s)
  else s

/-! ### Sag (R186, R187) -/

/-- SAG_DETECT: the input has stayed below V_SAG, or below V_DEEP, for the filter time: every frond, the admission controller and the active Rhizome are signalled, and the
input-sag source is raised (R186). -/
def execSagDetect (deep : Bool) (s : State) : Out := nextOf s <|
  let l := if deep then 2 else 1
  if l ≤ fget s RZ_HARD_STAT_SAG then s
  else
    let s1 := if fget s RZ_HARD_STAT_SAG = 0 then bump s RZ_HARD_STAT_SAGS else s
    pmStep (raiseD (broadcast (fset s1 RZ_HARD_STAT_SAG l) (.sag l (fget s RZ_SAG_CFG_SAG_ISSUE))) 0xAA none 0 0x43)

/-- SAG_END: the input has stayed above V_SAG + HYST for RELEASE × 10 µs, and every frond restores its committed limit; or a deep sag has recovered only past V_DEEP + HYST and
returns to the ordinary level (R187). -/
def execSagEnd (toSag : Bool) (s : State) : Out := nextOf s <|
  if fget s RZ_HARD_STAT_SAG = 0 ∨ (toSag = true ∧ fget s RZ_HARD_STAT_SAG ≠ 2) then s
  else if toSag then pmStep (broadcast (fset s RZ_HARD_STAT_SAG 1) (.sag 1 (fget s RZ_SAG_CFG_SAG_ISSUE)))
  else pmStep (broadcast (fset s RZ_HARD_STAT_SAG 0) (.sag 0 64))

/-! ### Refusals of RZ_ registers (R57, R187) -/

def rzRefused (s : State) (n : RName) (v : Nat) : Bool :=
  match n with
  | .RZ_IBUS_OPT => ibusRefused v
  | .RZ_BRIDGE_CMD => flag s RZ_BRIDGE_CMD_BUSY || bitsOf v 13 12 == 3 || decide (nF s ≤ bitsOf v 5 0)
  | .RZ_SAG_CFG => decide (bitsOf v 7 0 ≤ bitsOf v 15 8 ∨ 30 < bitsOf v 31 24)
  | .RZ_PAIR_CFG => bitsOf v 7 0 == 0
  | .RZ_PERF_CTRL =>
    inSpore s || bitsOf v 1 0 == 3 || decide (1024 < bitsOf v 26 16)
      || (bitsOf v 1 0 == 1 && (serviceFronds s).any fun f =>
            decide ((rzPoint s f 7).2 < bitsOf v 15 8 ∨ fmaxP (rzPoint s f) (3800 - (fget s (FR_OPP_CFG_MARGIN f) : Int) - rzGuard s f) < bitsOf v 15 8))
  | _ => false

/-! ### Performance modes (R169 to R171) -/

/-- Entry to fixed frequency: FREQ = FFIX for every in-service frond (R169). -/
def enterFixed (s : State) : State :=
  let w := freqWord (fget s RZ_PERF_CTRL_FFIX)
  (serviceFronds s).foldl (fun t f => match freqEndpoint t f (fget s RZ_PERF_CTRL_FFIX) with
    | none => t
    | some e => journal t (.setpoint f w e) false) s

/-- The effect of a write to RZ_PERF_CTRL at its commit. -/
def perfWrite (s : State) (v : Nat) (store : State → State) : State :=
  let s1 := store s
  match bitsOf v 1 0 with
  | 0 => fsetB (fset s1 RZ_PERF_STAT_STATE 0) RZ_PERF_STAT_SHORT false
  | 1 => enterFixed (fsetB (fset s1 RZ_PERF_STAT_STATE 1) RZ_PERF_STAT_SHORT false)
  | _ => fset s1 RZ_PERF_STAT_STATE 3

/-- A frond is capped (R170): its FCODE is below FFIX, its issue limit is below 64, or its clock hold is requested, by its latest record. -/
def capped (s : State) (f : Nat) : Bool :=
  match tget? s.rz.tel f with
  | none => false
  | some t => decide (t.fcode < fget s RZ_PERF_CTRL_FFIX ∨ t.issue < 64 ∨ 0 < t.hold)

/-- PERF_FALLBACK: in fixed frequency, some in-service frond has been capped for FB_MS ms, or the chip's hottest band has reached the limit band: bounded variation follows (R170,
R249). -/
def execPerfFallback (thermal : Bool) (s : State) : Out := nextOf s <|
  if fget s RZ_PERF_STAT_STATE = 1 ∧ (if thermal then s.rz.hot == 7 else (serviceFronds s).any (capped s)) = true then
    (bump (fset (fset s RZ_PERF_STAT_STATE 2) RZ_PERF_STAT_CAUSE (if thermal then 2 else 1)) RZ_PERF_STAT_FALLBACKS)
  else s

end Sys2Proof.Machine
end

