-- ==== Sys2Proof/Machine/Admission.lean ====
section
/-! DEFINITION. Machine/Admission.lean: island 0x4B: wake admission (R172 to R178), retention domains (R301, R302) and the memory-stack lines (R303). -/
namespace Sys2Proof.Machine

/-- A request enters the queue: 0 first, and within one priority by arrival (R172). -/
def enqueue (r : AReq) : List AReq → List AReq
  | [] => [r]
  | x :: xs => if r.prio < x.prio then r :: x :: xs else x :: enqueue r xs

/-- The request of a frond or domain leaves the queue. -/
def unqueue (dom : Bool) (n : Nat) (l : List AReq) : List AReq := l.filter fun r => !(r.dom == dom && r.n == n)

def sumOf (l : List Nat) : Nat := l.foldl (· + ·) 0

/-- The slope reserved, in 0.5 A/µs (R173). -/
def slopeSum (s : State) : Nat := sumOf (s.adm.slopeF.map fun p => p.2) + sumOf (s.adm.slopeD.map fun p => p.2)

/-- The charge of the last 10 µs, in 0.1 µC. -/
def chargeSum (s : State) : Nat := sumOf s.adm.charges

/-- AD_STAT shows the controller (Table 8-7). A slope above the range of its field has no stated code: it reads a free value. -/
def refreshAd (s : State) : State :=
  let s1 := fset (fset (fset s AD_STAT_FRONDS s.adm.busyF.length) AD_STAT_CHARGE (chargeSum s)) AD_STAT_QUEUED s.adm.queue.length
  let s2 := fsetB s1 AD_STAT_DEFERRING (s.adm.queue.any fun r => r.deferring)
  if slopeSum s ≤ 255 then fset s2 AD_STAT_SLOPE (slopeSum s)
  else let p := draw s2; fset p.2 AD_STAT_SLOPE (p.1.toNat % 256)

def withAdm (s : State) (g : Adm → Adm) : State := refreshAd { s with adm := g s.adm }

/-- The frond that a frond's message to island 0x4B concerns. -/
def AMsg.frond : AMsg → Option Nat
  | .wake false f _ => some f
  | .withdraw f => some f
  | .release f => some f
  | .complete f => some f
  | _ => none

/-- The first message of frond f on its way to island 0x4B, if p holds of it: the messages of one frond arrive in order. -/
def takeAdm (s : State) (f : Nat) (p : AMsg → Bool) : Option (AMsg × State) :=
  match takeFirst (fun m : AMsg => m.frond == some f) s.adm.air with
  | none => none
  | some (m, rest) => if p m then some (m, { s with adm := { s.adm with air := rest } }) else none

/-- WAKE_REQUEST: a frond's request arrives and enters the queue (R172). A domain's request enters with its line: RETENTION_REQUEST. -/
def execWakeRequest (f : Nat) (s : State) : Out := nextOf s <|
  match takeAdm s f (fun m => match m with | .wake _ _ _ => true | _ => false) with
  | some (.wake _ _ p, s1) => (withAdm s1 fun a => { a with queue := enqueue ⟨false, f, p, false, false, false⟩ (unqueue false f a.queue) })
  | _ => s

/-! ### The evaluation (R173 to R178) -/

/-- I_n of R177 in mA: the largest current of the latest valid forecast at island 0x4B, or the latest measured current. -/
def nbrCurrent (s : State) (n : Nat) : Nat :=
  let m := tget 0 s.adm.cur n
  if inSpore s then m else match tget none s.adm.fc n with | some x => x | none => m

/-- R177: the deferring condition of a frond request. -/
def nbrAtPeak (s : State) (f : Nat) : Bool :=
  flag s AD_NBR_CFG_EN && (nbrsOf s f).any fun n =>
    inService s n && decide (1000 * fget s AD_NBR_CFG_ILIM < nbrCurrent s n + 1000 * fget s AD_NBR_CFG_I_WAKE)

/-- The deferral state of a request at an evaluation. -/
def deferNow (s : State) (r : AReq) : AReq :=
  let d := !r.dom && !r.marked && nbrAtPeak s r.n
  { r with deferring := d, ever := r.ever || d }

/-- What the controller makes of one request (R173, R175): 0 granted, 1 passed over, 2 it blocks the requests after it. -/
def verdictOf (s : State) (r : AReq) : Nat :=
  if r.dom then
    (if 2 * fget s AD_CFG_SLOPE_MAX < slopeSum s + fget s AD_CFG_D_SLOPE ∨ fget s AD_CFG_QMAX < chargeSum s + fget s AD_CFG_D_CHARGE then 2 else 0)
  else if r.deferring ∨ 8 < lostOf s r.n ∨ flag s RZ_FLT_LIVE_CHIP_DOWN = true then 1
  else if 2 * fget s AD_CFG_SLOPE_MAX < slopeSum s + fget s AD_CFG_F_SLOPE ∨ fget s AD_CFG_QMAX < chargeSum s + fget s AD_CFG_F_CHARGE then 2
  else if fget s AD_CFG_MAX_FRONDS ≤ s.adm.busyF.length then 1
  else 0

/-- The first request that may be granted, in queue order. -/
def pickReq (s : State) : List AReq → Option AReq
  | [] => none
  | r :: rs => match verdictOf s r with | 0 => some r | 1 => pickReq s rs | _ => none

/-- A grant: the reservation of Table 8-1 is held; a frond's grant leaves for the frond core, a domain enters Waking (R163, R302). -/
def grantReq (s : State) (r : AReq) : State :=
  if r.dom then
    let s1 := withAdm s fun a => { a with queue := unqueue true r.n a.queue, slopeD := tset a.slopeD r.n (fget s AD_CFG_D_SLOPE), charges := a.charges ++ [fget s AD_CFG_D_CHARGE] }
    bump (fset s1 (AD_RET_DOM_STATE r.n) 3) (AD_RET_DOM_WAKES r.n)
  else
    let s1 := withAdm s fun a => { a with queue := unqueue false r.n a.queue, slopeF := tset a.slopeF r.n (fget s AD_CFG_F_SLOPE), busyF := a.busyF ++ [r.n], charges := a.charges ++ [fget s AD_CFG_F_CHARGE] }
    sendUpd (if r.marked then bump s1 AD_STAT_DEFER_EXP else s1) r.n (.grant r.marked)

/-- ADMISSION_EVALUATION: at most one request is granted (R175). -/
def execAdmissionEvaluation (s : State) : Out := nextOf s <|
  if answers s 0x4B then
    let s1 := withAdm s fun a => { a with queue := a.queue.map (deferNow s) }
    if fget s RZ_HARD_STAT_SAG ≠ 0 then s1
    else match pickReq s1 s1.adm.queue with
      | none => s1
      | some r => (grantReq s1 r)
  else s

/-- WAKE_COMPLETE: a frond's completion arrives: its frond count is released and its HOLD starts (R173). -/
def execWakeComplete (f : Nat) (s : State) : Out := nextOf s <|
  match takeAdm s f (fun m => m == .complete f) with
  | some (_, s1) => (withAdm s1 fun a => { a with busyF := a.busyF.filter (· != f) })
  | none => s

/-- WAKE_RELEASE: after a DARK or a soft-start abort the slope and frond count are released; a DARK of a frond that waits withdraws its request (R162, Table 8-1). -/
def execWakeRelease (f : Nat) (s : State) : Out := nextOf s <|
  match takeAdm s f (fun m => m == .release f || m == .withdraw f) with
  | some (.withdraw _, s1) => (withAdm s1 fun a => { a with queue := unqueue false f a.queue })
  | some (_, s1) => (withAdm s1 fun a => { a with slopeF := tdel a.slopeF f, busyF := a.busyF.filter (· != f) })
  | none => s

/-- SLOPE_RESERVATION_RELEASE: HOLD µs after its completion the slope of frond f is released (R173). -/
def execSlopeReservationRelease (f : Nat) (s : State) : Out := nextOf s <|
  if s.adm.busyF.contains f then s else (withAdm s fun a => { a with slopeF := tdel a.slopeF f })

/-- CHARGE_EXPIRY: the oldest charge leaves the 10 µs sum (R173). -/
def execChargeExpiry (s : State) : Out := nextOf s <| (withAdm s fun a => { a with charges := a.charges.drop 1 })

/-- What has arrived has ended the deferring condition of a deferred request, in the cycle in which its deferral expired (`edge`): a near miss (R185, kind 4). -/
def clearing (edge : Bool) (s t : State) : State :=
  nearMissIf (edge && s.adm.queue.any fun r => r.deferring && nbrAtPeak s r.n && !(nbrAtPeak t r.n)) t 0x4B 4

/-- NEIGHBOUR_CURRENT: a measured current forwarded to island 0x4B arrives (R177). `edge`: it arrived in the cycle in which a deferral expired (R185, kind 4). -/
def execNeighbourCurrent (f : Nat) (edge : Bool) (s : State) : Out := nextOf s <|
  match takeFirst (fun m : AMsg => match m with | .current g _ => g == f | _ => false) s.adm.air with
  | some (.current _ i, rest) =>
    (clearing edge s { s with adm := { s.adm with air := rest, cur := tset s.adm.cur f i } })
  | _ => s

/-- DEFERRAL_EXPIRY: DEFER_MAX µs after the evaluation that first deferred it, a request that is still deferred stops being deferred and carries the mark (R178). -/
def execDeferralExpiry (f : Nat) (s : State) : Out := nextOf s <|
  (withAdm s fun a => { a with queue := a.queue.map fun r => if r.dom = false ∧ r.n = f ∧ r.deferring = true then { r with deferring := false, marked := true } else r })

/-! ### Retention domains (R301, R302) -/

/-- The domain's request line is high. -/
def lineHigh (s : State) (n : Nat) : Bool := s.adm.lines.contains n

/-- RET_RDY_n: a domain is ready while it is Active (R414). -/
def readyLine (s : State) (n : Nat) : Bool := fget s (AD_RET_DOM_STATE n) == 1

/-- RET_V_k: VRET, raised by HOT_ADJ while the chip's hottest band is 6 or 7 (R301). -/
def retCode (s : State) (k : Nat) : Nat :=
  fget s (AD_RET_CLASS_VRET k) + (if 6 ≤ fget s TH_STAT_HOT_BAND then fget s (AD_RET_CLASS_HOT_ADJ k) else 0)

/-- STK_RAIL_s follows PG of the group that feeds the stack (R303, Table 2-2). -/
def stackRail (s : State) (k : Nat) : Bool := flag s (VP_GRP_STAT_PG (2 + k / 2))

/-- R301: a write to AD_RET_DOM_n acts in island 0x4B: a domain that becomes enabled starts in Active and takes its line as a level; one that is no longer enabled is Active, and
its request leaves the queue. -/
def domWrite (s : State) (n v : Nat) : State :=
  let was := flag s (AD_RET_DOM_EN n)
  let en := bitOf v 0
  let s1 := fset (fsetB s (AD_RET_DOM_EN n) en) (AD_RET_DOM_CLASS n) (bitsOf v 4 1)
  if en && !was then fset s1 (AD_RET_DOM_STATE n) (if lineHigh s n then 1 else 2)
  else if !en && was then withAdm (fset s1 (AD_RET_DOM_STATE n) 1) fun a => { a with queue := unqueue true n a.queue }
  else s1

/-- RETENTION_REQUEST: the request line of a domain rises with the priority it carries (R302). -/
def execRetentionRequest (n : BitVec 11) (prio : BitVec 2) (s : State) : Out := nextOf s <|
  let k := n.toNat
  if lineHigh s k ∨ 1536 ≤ k then s
  else
    let s1 := { s with adm := { s.adm with lines := s.adm.lines ++ [k] } }
    if flag s (AD_RET_DOM_EN k) && fget s (AD_RET_DOM_STATE k) == 2 then
      (withAdm s1 fun a => { a with queue := enqueue ⟨true, k, prio.toNat, false, false, false⟩ a.queue })
    else s1

/-- RETENTION_WITHDRAW: the line falls: an Active domain enters Retention at once, a queued request leaves the queue, and a Waking domain takes it when it becomes Active (R302). -/
def execRetentionWithdraw (n : BitVec 11) (s : State) : Out := nextOf s <|
  let k := n.toNat
  let s1 := { s with adm := { s.adm with lines := s.adm.lines.filter (· != k) } }
  if flag s (AD_RET_DOM_EN k) && decide (k < 1536) then
    let s2 := withAdm s1 fun a => { a with queue := unqueue true k a.queue }
    (if fget s (AD_RET_DOM_STATE k) = 1 then fset s2 (AD_RET_DOM_STATE k) 2 else s2)
  else s1

/-- DOMAIN_ACTIVE: 2 µs after the grant the reservation is released and the domain is Active; a withdrawal during Waking is taken now (R302). -/
def execDomainActive (n : BitVec 11) (s : State) : Out := nextOf s <|
  let k := n.toNat
  if (tget? s.adm.slopeD k).isSome then
    let s1 := withAdm s fun a => { a with slopeD := tdel a.slopeD k }
    if flag s (AD_RET_DOM_EN k) && fget s (AD_RET_DOM_STATE k) == 3 && decide (k < 1536) then (fset s1 (AD_RET_DOM_STATE k) (if lineHigh s k then 1 else 2)) else s1
  else s

/-- R176: a write to AD_CFG or AD_NBR_CFG is refused; R304: a retention voltage outside its range. -/
def adRefused (s : State) (n : RName) (v : Nat) : Bool :=
  match n with
  | .AD_CFG =>
    bitsOf v 7 0 == 0 || bitsOf v 19 8 == 0 || bitsOf v 54 52 == 0 || decide (min 4 (nF s) < bitsOf v 54 52)
      || decide (2 * bitsOf v 7 0 < bitsOf v 27 20 ∨ 2 * bitsOf v 7 0 < bitsOf v 43 36 ∨ bitsOf v 19 8 < bitsOf v 35 28 ∨ bitsOf v 19 8 < bitsOf v 51 44)
  | .AD_NBR_CFG => decide (200 < bitsOf v 23 16)
  | .AD_RET_CLASS => decide (bitsOf v 11 0 < 1600 ∨ 3200 < bitsOf v 11 0)
  | _ => false

end Sys2Proof.Machine
end

