-- ==== Sys2Proof/Machine/Mem.lean ====
section
/-! DEFINITION. Machine/Mem.lean: addressed byte memories (Moss, the flash) as lists of cells in one canonical form: addresses strictly rising, and no cell equal to what an
unlisted address reads as. Every operation takes that byte as its first argument: 0 for Moss (R401), 0xFF for erased flash (R366). -/
namespace Sys2Proof.Machine

/-- The byte at an address. -/
def mread (d : Byte) : List Host.Cell → Nat → Byte
  | [], _ => d
  | (k, v) :: t, a => if a = k then v else mread d t a

/-- A cell takes its place among rising addresses. -/
def mset : List Host.Cell → Nat → Byte → List Host.Cell
  | [], a, b => [(a, b)]
  | (k, v) :: t, a, b => if a < k then (a, b) :: (k, v) :: t else if a = k then (a, b) :: t else (k, v) :: mset t a b

/-- A byte is written; writing d removes the cell. -/
def mwrite (d : Byte) (m : List Host.Cell) (a : Nat) (b : Byte) : List Host.Cell := if b = d then m.filter (fun c => c.1 != a) else mset m a b

/-- Every address of the list is above lo, the addresses rise, and no cell holds d. -/
def mwfFrom (d : Byte) : Option Nat → List Host.Cell → Bool
  | _, [] => true
  | lo, (k, v) :: t => (match lo with | none => true | some l => decide (l < k)) && decide (v ≠ d) && mwfFrom d (some k) t

/-- The canonical form of a memory. -/
def Memory.wf (d : Byte) (m : List Host.Cell) : Bool := mwfFrom d none m

/-- n bytes from address a on. -/
def mreads (d : Byte) (m : List Host.Cell) (a : Nat) : Nat → List Nat
  | 0 => []
  | n + 1 => (mread d m a).toNat :: mreads d m (a + 1) n

/-- Bytes are written from address a on. -/
def mwrites (d : Byte) : List Host.Cell → Nat → List Nat → List Host.Cell
  | m, _, [] => m
  | m, a, b :: bs => mwrites d (mwrite d m a (BitVec.ofNat 8 b)) (a + 1) bs

/-- Every byte of [lo, hi) reads as d again. -/
def mclear : List Host.Cell → Nat → Nat → List Host.Cell
  | [], _, _ => []
  | (k, v) :: t, lo, hi => if lo ≤ k ∧ k < hi then mclear t lo hi else (k, v) :: mclear t lo hi

/-- The little-endian value of n bytes (R6). -/
def mvalue (d : Byte) (m : List Host.Cell) (a n : Nat) : Nat := leValue (mreads d m a n)

end Sys2Proof.Machine
end

