-- ==== Sys2Proof/Machine/Moss.lean ====
section
/-! DEFINITION. Machine/Moss.lean: Moss, island 0x48 (spec/16_moss_and_queues.md, R348 to R359): words, ownership, aliases, retention, error correction and scrubbing. -/
namespace Sys2Proof.Machine

/-- The bank of a Moss offset. -/
def bankOf (off : Nat) : Nat := off / 0x80000 % 32

def ownerOf (s : State) (b : Nat) : Nat := fget s (MS_BANK_OWNER b)

/-- The owner code of the active Rhizome (Table 16-1). -/
def rzMaster (s : State) : Nat := 1 + fget s RZ_PAIR_STAT_ACTIVE

/-- The word at a Moss offset (R6, R348). -/
def mossWord (s : State) (off : Nat) : Nat := mvalue 0 s.moss.mem off 8

def mossPut (s : State) (off v : Nat) : State := { s with moss := { s.moss with mem := mwrites 0 s.moss.mem off (leBytes 8 v) } }

/-- Bytes of Moss. -/
def mossBytes (s : State) (off n : Nat) : List Nat := mreads 0 s.moss.mem off n
def mossPutBytes (s : State) (off : Nat) (l : List Nat) : State := { s with moss := { s.moss with mem := mwrites 0 s.moss.mem off l } }

/-- The word that an access of a kind stores: 0 a direct write, 1 the bit-set alias, 2 the bit-clear alias (R352). -/
def aliasWord (kind old v : Nat) : Nat :=
  match kind with
  | 0 => v % 2 ^ 64
  | 1 => old ||| v % 2 ^ 64
  | _ => old - (old &&& v)

/-- A write lands, by a master that owns the bank. -/
def mossStore (s : State) (kind off v : Nat) : State := mossPut s off (aliasWord kind (mossWord s off) v)

/-- R349: a write by a master that does not own the bank does nothing and raises the ownership violation. -/
def mossServe (s : State) (m kind off v : Nat) : State :=
  if ownerOf s (bankOf off) = m then mossStore s kind off v
  else raiseD s 0x19 none (off % 2 ^ 24 + m * 2 ^ 24) 0x48

/-- The bank is awake: its accesses are served at once. -/
def awake (s : State) (b : Nat) : Bool := fget s (MS_BANK_RSTATE b) == 0

/-- R359: an access to a retained bank starts its wake, which clears RET and counts. -/
def wakeBank (s : State) (b : Nat) : State :=
  let st := fget s (MS_BANK_RSTATE b)
  if st = 1 ∨ st = 2 then bump (fsetB (fset s (MS_BANK_RSTATE b) 3) (MS_BANK_RET b) false) (MS_BANK_WAKES b) else s

/-- A write by an internal master: served at once, or at the end of the bank's wake (R359). -/
def mossAccess (s : State) (m kind off v : Nat) : State :=
  if awake s (bankOf off) then mossServe s m kind off v
  else
    let s1 := wakeBank s (bankOf off)
    { s1 with moss := { s1.moss with waits := s1.moss.waits ++ [⟨bankOf off, m, kind, off, v⟩] } }

/-! ### Errors (R356 to R358) -/

/-- R358: a corrected error of a bank. -/
def countCe (s : State) (b : Nat) : State :=
  let s1 := bump s (MS_BANK_CE b)
  let n := tget 0 s.moss.ceMs b + 1
  let s2 := { s1 with moss := { s1.moss with ceMs := tset s1.moss.ceMs b n } }
  if fget s MS_CFG_CE_THR < n ∧ s.moss.ceOver.contains b = false then
    raiseD { s2 with moss := { s2.moss with ceOver := s2.moss.ceOver ++ [b] } } 0x1A none b 0x48
  else s2

/-- R356: an uncorrectable word. -/
def countUe (s : State) (off : Nat) : State :=
  raiseD (fset (bump s (MS_BANK_UE (bankOf off))) MS_STAT_LAST_UE off) 0x18 none off 0x48

/-- The outcome of one read of a word (R356). -/
def readEcc (s : State) (off : Nat) (e : Ecc) : State :=
  match e with
  | .clean => s
  | .single => countCe s (bankOf off)
  | .double => countUe s off

/-- The end of a Moss millisecond (R358, R362). -/
def mossMs (s : State) : State :=
  let over' := s.moss.ceOver.filter fun b => decide (fget s MS_CFG_CE_THR < tget 0 s.moss.ceMs b)
  { s with moss := { s.moss with ceMs := [], ceOver := over', qCeMs := 0, qOver := s.moss.qOver && decide (fget s MS_CFG_Q_CE_THR < s.moss.qCeMs) } }

/-- Moss cycles pass; at 1.2 GHz a millisecond is 1,200,000 of them. -/
def mossCycles (s : State) (n : Nat) : State :=
  let c := s.moss.cyc + n
  if 1200000 ≤ c then mossMs { s with moss := { s.moss with cyc := c - 1200000 } } else { s with moss := { s.moss with cyc := c } }

/-- One word of bank b is scrubbed (R357); masters in `mask` (bit m for owner code m + 1) waited for it. -/
def scrubBank (e : Nat → Ecc) (mask : Nat → Nat) (s : State) (b : Nat) : State :=
  if awake s b then
    let i := tget 0 s.moss.scrub b
    let s1 := readEcc s (b * 0x80000 + 8 * i) (e b)
    let s2 := { s1 with moss := { s1.moss with scrub := tset s1.moss.scrub b ((i + 1) % 65536), passed := if i + 1 = 65536 ∧ s1.moss.passed.contains b = false then s1.moss.passed ++ [b] else s1.moss.passed } }
    (bitList 7 (mask b)).foldl (fun t m => bump t (MS_CONFLICT_WAIT (8 * b + m))) s2
  else s

/-- SCRUB: the scrubber takes one word of every awake bank, and its cycles pass (R357). `ecc` and `waits` give, by bank, what the check bits show and the masters that wait for the
word. A pass is complete when every awake bank has completed it. -/
def execScrub (ecc : List Ecc) (waits : List (BitVec 7)) (s : State) : Out := nextOf s <|
  let s0 := mossCycles s (2 ^ fget s MS_CFG_SCRUB_DIV)
  if flag s MS_CFG_SCRUB_EN && answers s 0x48 then
    let s1 := (List.range 32).foldl (scrubBank (fun b => ecc.getD b .clean) (fun b => (waits.getD b 0).toNat)) s0
    if (List.range 32).all fun b => !(awake s1 b) || s1.moss.passed.contains b then
      (bump { s1 with moss := { s1.moss with passed := [] } } MS_STAT_PASSES)
    else s1
  else s0

/-! ### Ownership (R354, Table 16-2) -/

/-- The banks of a model slot. -/
def slotBanks (slot : Nat) (wide : Bool) : List Nat := if wide then [16, 17, 18, 19, 20, 21, 22, 23] else (List.range 4).map fun k => 16 + 4 * slot + k

/-- The banks that an enabled ring touches (R229). -/
def ringBanks (v : Nat) : List Nat :=
  let size := 2 ^ (bitsOf v 11 8 + 8)
  let base := bitsOf v 39 16
  (List.range (((base + size - 1) / 0x80000) + 1 - base / 0x80000)).map fun k => base / 0x80000 + k

/-- BUSY of a bank: a function of Table 16-2 holds it. -/
def bankBusy (s : State) (b : Nat) : Bool :=
  (flag s FH_CTRL_EN && (slotBanks (fget s FH_MODEL_STAT_SLOT) (flag s FH_MODEL_STAT_WIDE)).contains b)
    || ((List.range 16).any fun d => flag s (AD_DMA_CFG_EN d) && !(flag s (AD_DMA_CFG_DEST d)) && (ringBanks (reg s (AD_DMA_CFG d)).toNat).contains b)
    || (match s.load with | none => false | some l => decide (l.src / 0x80000 ≤ b ∧ b ≤ (l.src + 4 * l.len - 1) / 0x80000))
    || (((List.range 256).any fun n => flag s (MT_GRP_CFG_EN n))
        && (b == fget s MT_MEM_CFG_RPL_BANK || b == fget s MT_MEM_CFG_RPL_BANK + 1 || b == fget s MT_MEM_CFG_REG_BANK))
    || (flag s BG_REP_CFG_EN && (decide (fget s BG_REP_CFG_REP_BANK ≤ b ∧ b ≤ fget s BG_REP_CFG_REP_BANK + 3) || b == fget s BG_REP_CFG_JOB_BANK))

/-- R354, R359 and the field tables: a write to MS_BANK_b or MS_CFG is refused. -/
def msRefused (s : State) (n : RName) (i v : Nat) : Bool :=
  match n with
  | .MS_BANK => (bankBusy s i && (bitsOf v 2 0 != ownerOf s i || bitOf v 4)) || (bitOf v 4 && i == 0)
  | .MS_CFG => bitsOf v 23 8 == 0 || bitsOf v 39 24 == 0
  | .MS_Q_SEL => flag s MS_Q_SEL_BUSY || !(hasIsl s (bitsOf v 7 0))
  | _ => false

/-- A bank with RET = 1 and no access waiting enters retention (R359). -/
def enterRetention (s : State) (b : Nat) : State :=
  if flag s (MS_BANK_RET b) && awake s b then fset s (MS_BANK_RSTATE b) 2 else s

/-- The effect of a write to MS_BANK_b (R354, R359). -/
def bankWrite (s : State) (b v : Nat) : State :=
  enterRetention (fsetB (fset s (MS_BANK_OWNER b) (bitsOf v 2 0)) (MS_BANK_RET b) (bitOf v 4)) b

/-- R359: the writes that waited for a bank are served in order, and their masters' waiting cycles count. -/
def serveWaits (s : State) (b : Nat) (cycles : Nat → Nat) : State :=
  let mine := s.moss.waits.filter fun a => a.bank == b
  let s1 := { s with moss := { s.moss with waits := s.moss.waits.filter fun a => a.bank != b, scrub := tset s.moss.scrub b 0 } }
  let s2 := mine.foldl (fun t a => mossServe t a.master a.kind a.off a.data) (fset s1 (MS_BANK_RSTATE b) 0)
  (List.range 7).foldl (fun t m => bumpBy t (MS_CONFLICT_WAIT (8 * b + m)) (cycles m)) s2

end Sys2Proof.Machine
end

