-- ==== Sys2Proof/Machine/Life.lean ====
section
/-! DEFINITION. Machine/Life.lean: the lifetime record in Moss (R389, R390, Table 18-2). -/
namespace Sys2Proof.Machine

/-- Bytes, padded to whole words, are written by an internal master word by word. -/
def mossBlock (s : State) (m off : Nat) : List Nat → State
  | [] => s
  | b0 :: b1 :: b2 :: b3 :: b4 :: b5 :: b6 :: b7 :: t => mossBlock (mossAccess s m 0 off (leValue [b0, b1, b2, b3, b4, b5, b6, b7])) m (off + 8) t
  | l => mossAccess s m 0 off (leValue l)

/-- R295: a record is written from byte 8 on, and its provenance word last. -/
def ringRecord (s : State) (off prov : Nat) (body : List Nat) : State :=
  mossAccess (mossBlock s (rzMaster s) (off + 8) body) (rzMaster s) 0 off prov

/-- The offset of the lifetime record in Moss (R389). -/
def lifeOff : Nat := 0x80000

def lifeU32 (s : State) (b : Nat) : Nat := mvalue 0 s.moss.mem (lifeOff + b) 4

/-- Four bytes of the record change; the write is a whole word (R348). -/
def lifePut32 (s : State) (b v : Nat) : State :=
  let a := lifeOff + b / 8 * 8
  let w := mossWord s a
  mossAccess s (rzMaster s) 0 a (if b % 8 = 0 then putBits w 31 0 v else putBits w 63 32 v)

/-- A bit of SATMAP is set, and NV_LIFE_STAT.SAT follows (R390). -/
def lifeSat (s : State) (j : Nat) : State :=
  let b := 13776 + j / 64 * 8
  let w := mossWord s (lifeOff + b)
  fsetB (mossAccess s (rzMaster s) 0 (lifeOff + b) (w ||| 2 ^ (j % 64))) NV_LIFE_STAT_SAT true

/-- The 32-bit counter at byte b rises by 1; at 0xFFFF_FFFF it stays and its SATMAP bit is set (R390). -/
def lifeBump (s : State) (b : Nat) : State :=
  let v := lifeU32 s b
  let s1 := if v < 0xFFFFFFFF then lifePut32 s b (v + 1) else s
  if 0xFFFFFFFE ≤ v then lifeSat s1 ((b - 40) / 4) else s1

def lifeSeconds (s : State) : Nat := mossWord s (lifeOff + 24)

/-- The rise of E_chip enters the lifetime energy (R389, R390). -/
def lifeEnergy (s : State) (n : Nat) : State :=
  let v := mossWord s (lifeOff + 32) + n
  let s1 := mossAccess s (rzMaster s) 0 (lifeOff + 32) (min v (2 ^ 64 - 1))
  if 2 ^ 64 - 1 ≤ v then lifeSat s1 4095 else s1

end Sys2Proof.Machine
end

