-- ==== Sys2Proof/Machine/Profile.lean ====
section
/-! DEFINITION. Machine/Profile.lean: the path of the profile generator (R158, R159), in fixed point with 512 fractional bits. -/
namespace Sys2Proof.Machine

/-- The fixed-point unit: 512 fractional bits. The durations and positions of R158 are algebraic numbers of degree at most 3 with coefficients of few bits, so that a value that comes
within 2^-400 of a tick or of a half code is equal to it. -/
def fxOne : Nat := 2 ^ 512

/-- What separates two different values of a plan, 2^-400, in fixed point. -/
def fxEps : Nat := 2 ^ 112

/-- Square root of a fixed-point value. -/
def fxSqrt (x : Nat) : Nat := rootBits 2 (x * fxOne) 544 0
/-- Cube root of a fixed-point value. -/
def fxCbrt (x : Nat) : Nat := rootBits 3 (x * fxOne * fxOne) 544 0
def fxMul (a b : Nat) : Nat := a * b / fxOne
def fxDiv (a b : Nat) : Nat := a * fxOne / b

/-- The times of a plan in fixed-point µs: tj, ta, tv (R158). -/
def planTimes (p : Plan) : Nat × Nat × Nat :=
  let v := p.v * fxOne / 128
  let a := p.a * fxOne / 128
  let j := p.j * fxOne / 128
  let d := (if p.p0 ≤ p.e then p.e - p.p0 else p.p0 - p.e) * fxOne / 4
  let aj := fxDiv a j
  let a2j := fxMul a aj
  let full := decide (p.v * p.j ≤ p.a * p.a)
  let vv := if full then 2 * fxMul v (fxSqrt (fxDiv v j)) else fxMul v (fxDiv v a + aj)
  let vc :=
    if vv ≤ d then v
    else if d ≤ 2 * fxMul a2j aj then fxCbrt (fxMul (fxMul d d) j / 4)
    else fxMul (a / 2) (fxSqrt (fxMul aj aj + 4 * fxDiv d a) - aj)
  let tj := if a2j ≤ vc then aj else fxSqrt (fxDiv vc j)
  let ta := if a2j ≤ vc then fxDiv vc a - tj else 0
  (tj, ta, fxDiv d vc - (2 * tj + ta))

/-- The total duration 2 × tacc + tv in fixed-point µs. -/
def planTotal (p : Plan) : Nat :=
  let t := planTimes p
  2 * (2 * t.1 + t.2.1) + t.2.2

/-- Position, velocity and acceleration after a segment of constant jerk, for at most the time that is left. -/
def pathSeg (st : (Int × Int × Int) × Nat) (seg : Nat × Int) : (Int × Int × Int) × Nat :=
  let dt : Int := min seg.1 st.2
  let o : Int := fxOne
  let p := st.1.1
  let v := st.1.2.1
  let a := st.1.2.2
  let d2 := dt * dt / o
  let d3 := d2 * dt / o
  ((p + v * dt / o + a * d2 / o / 2 + seg.2 * d3 / o / 6, v + a * dt / o + seg.2 * d2 / o / 2, a + seg.2 * dt / o), st.2 - min seg.1 st.2)

/-- p(t) in fixed-point mV (R158). -/
def pathAt (p : Plan) (t : Nat) : Int :=
  let x := planTimes p
  let j : Int := p.j * fxOne / 128
  let segs : List (Nat × Int) := [(x.1, j), (x.2.1, 0), (x.1, -j), (x.2.2, 0), (x.1, -j), (x.2.1, 0), (x.1, j)]
  (segs.foldl pathSeg ((0, 0, 0), t)).1.1

/-- The tick number n has reached the end of the path. -/
def planDone (p : Plan) (n : Nat) : Bool := decide (planTotal p ≤ n * fxOne / 8 + fxEps)

/-- A fixed-point value rounded to the nearest integer, ties to even (R159). -/
def fxRound (x : Int) : Int :=
  let q := x / (fxOne : Int)
  let m := (2 * (x % (fxOne : Int)) - (fxOne : Int)).natAbs
  if m ≤ 2 * fxEps then (if q % 2 = 0 then q else q + 1)
  else if 2 * (x % (fxOne : Int)) < (fxOne : Int) then q else q + 1

/-- R159: the code formed at tick n: the rounded value or a neighbour of it, never past E and never farther from E than the code before it; at the end exactly E. -/
def planCode (p : Plan) (n : Nat) : Nat :=
  if planDone p n then p.e
  else
    let r := fxRound (4 * pathAt p (n * fxOne / 8))
    let k : Int := r + (Config.profileSkew p.p0 p.e p.v p.a p.j n % 3 : Nat) - 1
    if p.p0 ≤ p.e then (clampInt p.last p.e (p.p0 + k)).toNat
    else (clampInt p.e p.last (p.p0 - k)).toNat

/-- PROFILE_TICK: every 125 ns the generator forms the next code of the running move (R159); a falling move first waits its FDROP_WAIT ticks (R166). -/
def execProfileTick (f : Nat) (s : State) : Out := nextOf s <|
  match (fr s f).rail.plan with
  | none => s
  | some p =>
    if !(hasF s f) || (fr s f).rail.ending then s
    else if 0 < p.wait then
      (updFr s f fun x => { x with rail := { x.rail with plan := some { p with wait := p.wait - 1 } } })
    else
      let n := p.tick + 1
      let c := planCode p n
      (updFr s f fun x => { x with rail := { x.rail with plan := some { p with tick := n, last := c }, code := some c, ending := planDone p n } })

end Sys2Proof.Machine
end

