-- ==== Sys2Proof/Machine/Sense.lean ====
section
/-! DEFINITION. Machine/Sense.lean: leaf samples, activity counts, the guard and overvoltage comparators, and the degraded phases of a frond (R42 to R45, R75, R127, R179,
R181, R215 to R218, R412). -/
namespace Sys2Proof.Machine

/-- R216: a calibrated current sample in mA. -/
def icSample (gain : Nat) (offs : Int) (q : Nat) : Int := rne (gain * (16 * q - offs)) 16384

/-- R217: a calibrated voltage sample above the base. -/
def vsSample (base gain : Nat) (offs : Int) (v : Nat) : Nat :=
  (clampInt 0 65535 ((base : Int) + rne (gain * (16 * v - offs)) 262144)).toNat

/-- Leaf samples are 10 ns apart, or 100 ns in Spore mode (R215). -/
def leafK (s : State) (f : Nat) : Nat := if coreSt s f = 0 then 10 else 1

/-- V_B of R181 in mV: the bus voltage at the committed G0 target. -/
def busMv (s : State) : Nat := 1600 + 5 * fget s RZ_IBUS_STAT_TARGET

/-- R181: one step of the estimate of a failed sense, which the sum of the slot's estimates takes in; VM is in quarter mV. -/
def estStep (s : State) (f vm : Nat) (p : Phase) : Phase :=
  let k : Int := leafK s f
  let dUp : Int := (4 * (busMv s : Int) - vm) * 5 * k
  let dDn : Int := (vm : Int) * 5 * k
  let num := 4 * p.estNum
  let den := 4 * p.estDen
  let n2 := if p.st = 1 then num + dUp * p.estDen else if p.st = 2 then num - dDn * p.estDen else max 0 (num - dDn * p.estDen)
  { p with estNum := n2, estDen := den, sumNum := p.sumNum * den + n2 * p.sumDen, sumDen := p.sumDen * den }

/-- The estimate of a failed sense as one leaf sample steps it, exactly (R181). -/
def exactEst (s : State) (f n vm : Nat) : Rat :=
  let e := estStep s f vm (phaseOf (fr s f) n)
  (e.estNum : Rat) / (max 1 e.estDen : Nat)

/-- The current of one leaf sample of phase n in whole mA: measured, or, for a failed sense, the estimate as this sample steps it (R181, R216). -/
def leafCurrent (s : State) (f n q vm : Nat) : Int :=
  if bitOf (fget s (FR_PHASE_HEALTH_SENSE_FAIL f)) n then
    let e := estStep s f vm (phaseOf (fr s f) n)
    rne e.estNum (max 1 e.estDen)
  else icSample (fget s (FR_LEAF_CAL_GAIN f n)) (signedOf 16 (fget s (FR_LEAF_CAL_OFFS f n))) q

/-- What one leaf sample does at phase n: trip run (R44), open run (R179), stuck run (R181), estimate (R181). -/
def phaseSample (s : State) (f n q vm : Nat) (p : Phase) : Phase :=
  let cur := leafCurrent s f n q vm
  let run := if p.trip then p.tripRun + 1 else 0
  let lim := fget s (FR_GUARD_CFG_RUN f)
  let stuck := if (q = 0 ∨ q = 255) ∧ bitOf (effMask s f) n = true then (if p.lastRaw = q then p.stuck + 1 else 1) else 0
  let openRun := if p.st = 1 then (if (4 * fget s (FR_DEGRADE_CFG_OPEN_THR f) : Int) ≤ cur then 0 else p.openRun + 1) else p.openRun
  let p1 := { p with trip := false, tripRun := run, ocDue := p.ocDue || (lim != 0 && run == lim), lastRaw := q, stuck := stuck, openRun := openRun }
  if bitOf (fget s (FR_PHASE_HEALTH_SENSE_FAIL f)) n then estStep s f vm p1 else p1

/-- R127: E has reached 2^64 − 1 at this total. -/
def energySat (t : Int) : Bool := decide ((2 ^ 64 - 1 : Nat) ≤ 16 * t / 6103515625)

/-- R54: the sample of a leader whose bridge is closing: the sums of the four codes of both rails, and the run of samples at which their means of eight differ by more than 10 mV. -/
def closeSample (s : State) (f : Nat) (vs : List Nat) (c : Closing) : Closing :=
  match bridgeAt s f with
  | none => c
  | some (o, dir) =>
    if o ≠ f ∨ brState s f dir ≠ 1 ∨ c.seg ≠ 0 then c
    else
      let g := (acrossOf s f dir).getD f
      let d := { c with sums := (vs.sum, (fr s g).intake.vs.sum) :: c.sums.take 7 }
      { d with far := if d.sums.length = 8 ∧ closeNear d = false then c.far + 1 else 0 }

/-- LEAF_SAMPLE: one sample of every leaf sensor of frond f: raw current codes by phase, raw voltage codes by sense point, and the reading of the
bridge current (magnitude in mA in [15:0], out of this frond when [16] is 1), which FR_BRIDGE_STAT shows while the bridge is closed. The intake sums the calibrated currents and
keeps the last codes (R73, R216, R217), the energy total rises by VM × I × k (R127), and the runs of R44, R179 and R181 advance. -/
def execLeafSample (f : Nat) (raw : List (BitVec 8)) (volt : List (BitVec 10)) (ibr : BitVec 17) (s : State) : Out := nextOf s <|
  if !(hasF s f) || !(answers s f) then s
  else
    let x := fr s f
    let vs := (List.range 4).map fun k =>
      vsSample x.intake.base (fget s (FR_VSNS_CAL_GAIN f k)) (signedOf 16 (fget s (FR_VSNS_CAL_OFFS f k))) (volt.getD k 0).toNat
    let vm := vmOf (fget s (FR_LEAF_STAT_VFAIL f)) vs
    let lanes := List.range (nP s)
    let q := fun n => (raw.getD n 0).toNat
    let cur := fun n => leafCurrent s f n (q n) vm
    let tot := lanes.foldl (fun acc n => acc + cur n) (0 : Int)
    let failed := fun n => bitOf (fget s (FR_PHASE_HEALTH_SENSE_FAIL f)) n
    let est := lanes.filter failed
    let serv := (lanes.filter fun n => bitOf (effMask s f) n && !(failed n)).foldl (fun acc n => acc + cur n) (0 : Int)
    let servEst := (est.filter fun n => bitOf (effMask s f) n).foldl (fun acc n => acc + exactEst s f n vm) (0 : Rat)
    let total := x.tot + vm * tot * leafK s f
    let trips := ofBits (lanes.filter fun n => (phaseOf x n).trip)
    let edge := ((List.range 4).filter fun k => (volt.getD k 0).toNat == 0 || (volt.getD k 0).toNat == 1023).length
    let s0 := bumpBy s (FR_LEAF_STAT_VRANGE f) edge
    let s1 := if fget s (FR_BRIDGE_STAT_ROLE f) = 0 then s0
      else fsetB (fset s0 (FR_BRIDGE_STAT_I_BR f) (bitsOf ibr.toNat 15 0)) (FR_BRIDGE_STAT_I_DIR f) (bitOf ibr.toNat 16)
    (updFr s1 f fun y =>
      { lanes.foldl (fun z n => setPhase z n (phaseSample s f n (q n) vm (phaseOf z n))) y with
        intake := { y.intake with
          isum := lanes.foldl (fun t n => tset t n (tget 0 t n + cur n)) y.intake.isum,
          raw := lanes.foldl (fun t n => tset t n (q n)) y.intake.raw,
          n := y.intake.n + 1, vs := vs, trips := y.intake.trips ||| trips },
        tot := total, satE := y.satE || energySat total, closing := closeSample s f vs y.closing,
        law := { y.law with
          iSum := y.law.iSum + serv, iEst := y.law.iEst + servEst, iN := y.law.iN + 1, vSum := y.law.vSum + vm,
          phSum := (lanes.filter fun n => !(failed n)).foldl (fun t n => tset t n (tget 0 t n + cur n)) y.law.phSum,
          phEst := est.foldl (fun t n => tset t n (tget 0 t n + exactEst s f n vm)) y.law.phEst } })

/-- ACTIVITY_STROBE: one set of activity counts; an A0 above 64 is taken as 64 (R279, R412). -/
def execActivityStrobe (f : Nat) (a0 : BitVec 7) (rest : List (BitVec 8)) (s : State) : Out := nextOf s <|
  if !(hasF s f) || !(answers s f) then s
  else
    let a := min a0.toNat 64
    (updFr s f fun x => { x with gov := { x.gov with
      act := (List.range 8).map fun k => x.gov.act.getD k 0 + (if k = 0 then a else (rest.getD (k - 1) 0).toNat),
      actN := x.gov.actN + 1, a0Sum := x.gov.a0Sum + a, a0N := x.gov.a0N + 1 } })

/-- ACTIVITY_TIMEOUT: 20 ns without a toggle: the missing 10 ns counts as zero activity on every input (R412). -/
def execActivityTimeout (f : Nat) (s : State) : Out := nextOf s <|
  if !(hasF s f) || !(answers s f) then s
  else (updFr s f fun x => { x with gov := { x.gov with actN := x.gov.actN + 1, a0N := x.gov.a0N + 1 } })

/-- A phase cell of the member. -/
def hasPhase (s : State) (f n : Nat) : Bool := hasF s f && decide (n < nP s)

/-- A phase cell is changed by g. -/
def updPhase (s : State) (f n : Nat) (g : Phase → Phase) : State := updFr s f fun x => setPhase x n (g (phaseOf x n))

/-- R44: the trip flag sets the phase's bit in TRIPPED, and TOTAL counts the trip. -/
def countTrip (s : State) (f n : Nat) : State :=
  bump (fset s (FR_GUARD_STAT_TRIPPED f) (fget s (FR_GUARD_STAT_TRIPPED f) ||| 2 ^ n)) (FR_GUARD_STAT_TOTAL f)

/-- GUARD_TRIP_POSITIVE: the high side goes off and the low side on; the state in force is 2, and the high side is held off (R42). -/
def execGuardTripPositive (f n : Nat) (s : State) : Out := nextOf s <|
  if hasPhase s f n then (countTrip (updPhase s f n fun p => { p with st := 2, posHold := true, trip := true }) f n) else s

/-- GUARD_RELEASE: the current has fallen 0.5 A below the trip level; the phase stays at its state until its next strobe (R42). -/
def execGuardRelease (f n : Nat) (s : State) : Out := nextOf s <|
  if hasPhase s f n && (phaseOf (fr s f) n).posHold then (updPhase s f n fun p => { p with posHold := false }) else s

/-- GUARD_TRIP_NEGATIVE: the low side goes off, and both switches stay off (R43). -/
def execGuardTripNegative (f n : Nat) (s : State) : Out := nextOf s <|
  if hasPhase s f n then (countTrip (updPhase s f n fun p => { p with st := 0, negHold := true, trip := true }) f n) else s

/-- NEGATIVE_CURRENT_RETURN: the current has returned to zero or above; the phase obeys its next strobe (R43). -/
def execNegativeCurrentReturn (f n : Nat) (s : State) : Out := nextOf s <|
  if hasPhase s f n && (phaseOf (fr s f) n).negHold then (updPhase s f n fun p => { p with negHold := false, zc := true }) else s

/-- PHASE_OVERCURRENT_RUN: a run of trip samples has reached RUN: the phase-overcurrent source is raised once for the run, with the phase in its detail (R44). -/
def execPhaseOvercurrentRun (f n : Nat) (s : State) : Out := nextOf s <|
  if hasPhase s f n && (phaseOf (fr s f) n).ocDue then (raiseF (updPhase s f n fun p => { p with ocDue := false }) 0x28 f n) else s

/-- ZCD_CUTOFF: with ZCD of the latched drive or DE in force, the low side goes off as the current is at or below zero; the state in force is 0 (R75, R139). -/
def execZcdCutoff (f n : Nat) (s : State) : Out := nextOf s <|
  let p := phaseOf (fr s f) n
  if hasPhase s f n && p.st == 2 && (bitOf p.latched 6 || flag s (FR_LAW_STAT_DE f)) then
    (updPhase s f n fun p => { p with st := 0, zc := true })
  else s

/-- The frond and, while it is bridged, its partner (R45). -/
def pairOf (s : State) (f : Nat) : List Nat :=
  if fget s (FR_BRIDGE_STAT_ROLE f) = 0 then [f] else [f, fget s (FR_BRIDGE_STAT_PARTNER f)]

/-- Every high side of a frond is held off (R45). The state in force of a phase with its high side on becomes 0, and after the release the phase waits for its next strobe, as after a guard
trip (DESIGN CHOICE, log entry 112). -/
def holdHigh (s : State) (f : Nat) : State :=
  updFr s f fun x => (List.range (nP s)).foldl (fun y n => setPhase y n { phaseOf y n with st := if (phaseOf y n).st = 1 then 0 else (phaseOf y n).st }) x

/-- RAIL_OVERVOLTAGE: a sense point has crossed above 1.05 V: every high side of the frond, and of its partner while bridged, is held off, and the frond core sees the
crossing at its next boundary (R45). -/
def execRailOvervoltage (f : Nat) (s : State) : Out := nextOf s <|
  if hasF s f && !(fr s f).ovOwn then
    (updFr ((pairOf s f).foldl holdHigh s) f fun x => { x with ovOwn := true, ovDue := true })
  else s

/-- RAIL_OV_RELEASE: the last sense point has fallen below 1.00 V and the high sides are released (R45). -/
def execRailOvRelease (f : Nat) (s : State) : Out := nextOf s <|
  if hasF s f && (fr s f).ovOwn then updFr s f fun x => { x with ovOwn := false } else s

/-- PHASE_HIGH_IMPEDANCE: the cell has received no strobe for four of the sample periods that it has latched: its switches are high-impedance until strobes resume after a restart of the
frond core (R19). -/
def execPhaseHighImpedance (f n : Nat) (s : State) : Out := nextOf s <|
  if hasPhase s f n then (updPhase s f n fun p => { p with st := 0, hiz := true }) else s

/-- PHASE_OPEN: the low-current STATE 1 count has reached OPEN_RUN: the phase is declared open, and the phase-open source is raised (R179, R180). -/
def execPhaseOpen (f n : Nat) (s : State) : Out := nextOf s <|
  if hasPhase s f n && decide (fget s (FR_DEGRADE_CFG_OPEN_RUN f) ≤ (phaseOf (fr s f) n).openRun) && !(bitOf (fget s (FR_PHASE_HEALTH_OPEN f)) n) then
    (raiseF (updPhase (fset s (FR_PHASE_HEALTH_OPEN f) (fget s (FR_PHASE_HEALTH_OPEN f) ||| 2 ^ n)) f n fun p => { p with openRun := 0 }) 0x2C f n)
  else s

/-- R181: the leaf sense of phase n is declared failed at the next slot boundary. -/
def declareSense (s : State) (f n : Nat) : State := updFr s f fun x => { x with senseDue := x.senseDue ||| 2 ^ n }

/-- LEAF_SENSE_FAIL: a raw code stuck at 0x00 or 0xFF for SENSE_RUN samples while the phase is in service: the sense fails, declared at the slot boundary (R181). -/
def execLeafSenseFail (f n : Nat) (s : State) : Out := nextOf s <|
  if hasPhase s f n && decide (fget s (FR_DEGRADE_CFG_SENSE_RUN f) ≤ (phaseOf (fr s f) n).stuck) && !(bitOf (fget s (FR_PHASE_HEALTH_SENSE_FAIL f)) n) then
    (declareSense s f n)
  else s

/-- SATURATION_TRIP: SAT_RUN has first exceeded the limit: outside Soft start the output-saturation source is raised, in Soft start the abort of R164 is due (R140). -/
def execSaturationTrip (f : Nat) (s : State) : Out := nextOf s <|
  if hasF s f && (fr s f).law.satDue then
    let s1 := bump (updFr s f fun x => { x with law := { x.law with satDue := false } }) (FR_LAW_STAT_SAT_TRIPS f)
    if railSt s f = 2 then (updFr s1 f fun x => { x with rail := { x.rail with abortDue := true } })
    else (raiseF s1 0x2A f 0)
  else s

/-- INJECTION_END: the boundary after a cause of R148: the injection ends with the lowest cause that has occurred. -/
def execInjectionEnd (f : Nat) (s : State) : Out := nextOf s <|
  match lowestCode (fr s f).inj.causes with
  | none => s
  | some c => if hasF s f && flag s (FR_INJ_STAT_ACTIVE f) then (endInj s f c) else s

/-- DARK_WAIT_EXPIRY: the first boundary after the last FDROP_WAIT tick: the frond enters Dark, moves and pending command are cancelled, TRIES is cleared, and
a DARK that ends a soft start or a service releases the reservation (R162, Table 8-1). A drain and the chip action end with it (R184, R340). -/
def execDarkWaitExpiry (f : Nat) (s : State) : Out := nextOf s <|
  if hasF s f && (fr s f).rail.darkWait then
    let s0 := if railSt s f = 2 ∨ railSt s f = 3 then toAdm s (.release f) else s
    let s1 := fset (cancelMove s0 f) (FR_RAIL_STAT_TRIES f) 0
    (setRail (updFr s1 f fun x => { x with rail := { x.rail with darkWait := false, settle := 0, doneDue := false, abortDue := false }, gov := { x.gov with draining := false, chip := false } }) f 0)
  else s

def isGrant (m : FMsg) : Bool := match m with | .grant _ => true | _ => false
def grantMark (m : FMsg) : Bool := match m with | .grant d => d | _ => false

/-- SOFT_START_GRANT: the boundary of a grant: in Awaiting admission the frond enters Soft start, writes REF = 0 and starts a move from min(round(VM), E) to E with S1 reading 0
(R163); a grant that finds a DARK applied is ignored and released (R162). -/
def execSoftStartGrant (f : Nat) (s : State) : Out := nextOf s <|
  match takeFirst isGrant (fr s f).upd with
  | none => s
  | some (m, rest) =>
    let s1 := updFr s f fun x => { x with upd := rest }
    if railSt s f = 1 ∧ (fr s f).rail.darkWait = false then
      let e := (fr s f).rail.e
      let s2 := fset (fsetB (fset s1 (FR_RAIL_STAT_STATE f) 2) (FR_RAIL_STAT_DEFER f) (grantMark m)) (FR_SAT_CFG_REF f) 0
      let s3 := setPoint s2 f (min (vmNow s f) e)
      let s4 := updFr (setScal s3 f 1 0) f fun x => { x with rail := { x.rail with wakeReq := false, settle := 0, doneDue := false } }
      (startMove s4 f e (bitsOf (scal s f 0) 63 32))
    else (toAdm s1 (.release f))

/-- RETRY_WAIT_EXPIRY: Retry wait ends, and the frond returns to Awaiting admission (R164). -/
def execRetryWaitExpiry (f : Nat) (s : State) : Out := nextOf s <|
  if hasF s f && railSt s f == 4 && (fr s f).rail.retry then
    let s1 := updFr (setRail s f 1) f fun x => { x with rail := { x.rail with retry := false, wakeReq := true } }
    (toAdm s1 (.wake false f (fget s (FR_DEGRADE_CFG_WPRIO f))))
  else s

end Sys2Proof.Machine
end

