-- ==== Sys2Proof/Machine/Budget.lean ====
section
/-! DEFINITION. Machine/Budget.lean: the budget controller (spec/13_budget_capping.md, R279 to R300, R304), the ladder (R188, R189), the comparison of R190, and the current reports. -/
namespace Sys2Proof.Machine

/-! ### Measured and estimated figures (R281 to R284, R190) -/

/-- A real from a FP32 pattern; a value that is not finite has no stated meaning in the split and is a free one. -/
def ratOf (w : W32) : Rat :=
  if fpFin f32 w.toNat then let p := fpVal f32 w.toNat; (p.1 : Rat) / p.2 else Config.nonFinite w

def w32 (n : Nat) : W32 := BitVec.ofNat 32 n

/-- I_g: the sum of the stage currents of a group, mA (R281). -/
def grpCurrent (s : State) (g : Nat) : Int := (stagesOf s g).foldl (fun a n => a + (stg s n).cur) 0

/-- P_g in W (R281): V_g in 0.25 mV. -/
def pGrp (s : State) (g : Nat) : Rat := ((fget s (VP_GRP_STAT_V g) * grpCurrent s g : Int) : Rat) / 4000000

def sumRat (l : List Rat) : Rat := l.foldl (· + ·) 0

def pMeas (s : State) : Rat := sumRat ((List.range 8).map (pGrp s))
def pOthers (s : State) : Rat := sumRat ([1, 2, 3, 4, 5, 6, 7].map (pGrp s))

/-- A FP32 value of a rational. -/
def fpRat (q : Rat) : Nat := fpOf f32 q.num q.den

def etaNow (s : State) : W32 := match s.bud.eta with | some e => e | none => w32 (fpRat ((fget s BG_EST_CFG_ETA0 : Rat) / 256))

/-- The published class of a frond as the active Rhizome holds it (R268, Table 12-4). -/
def classOf (s : State) (f : Nat) : Nat := match tget? s.rz.fc f with | some r => bitsOf r.w1 29 24 | none => 0

/-- a_k of a record: the sum per microsecond, a sample standing for 10 ns, or 100 ns in Spore mode (R282). -/
def actRate (s : State) (t : TelRec) (k : Nat) : Nat :=
  fpOf f32 ((if inSpore s then 10 else 100) * t.act.getD k 0 : Nat) t.samples

/-- I_est of a record, summed in FP32 in ascending k (R282). -/
def estimate (s : State) (t : TelRec) : Nat :=
  (List.range 8).foldl (fun acc k => fpAdd f32 acc (fpMul f32 (tget 0 s.bud.w (8 * classOf s t.f + k)).toNat (actRate s t k))) (tget 0 s.bud.b t.f).toNat

/-- The domains of R190: a frond, or 64 for the chip. -/
def domOf (s : State) (d : Nat) : Dom := tget {} s.bud.doms d

/-- The trust flag of a frond (R257). -/
def trusted (s : State) (f : Nat) : Bool := (domOf s f).mode == 0 && (domOf s 64).mode == 0

/-- EST_CHIP and EST_FRONDS follow the domains (Table 8-12). -/
def showDoms (s : State) : State :=
  fset (fset s RZ_HARD_STAT_EST_CHIP (domOf s 64).mode) RZ_HARD_STAT_EST_FRONDS (((List.range (nF s)).filter fun f => (domOf s f).mode != 0).length)

def setDom (s : State) (d : Nat) (x : Dom) : State := showDoms { s with bud := { s.bud with doms := tset s.bud.doms d x } }

/-- The blended, measured or raised figure of a domain (R190, R284). -/
def figure (mode : Nat) (meas est : Rat) : Rat := if mode = 0 then max meas est else if mode = 1 then meas else 6 / 5 * est

/-- P_est in W: the frond terms are summed in FP32 in ascending order (R282). -/
def pEst (s : State) : Rat :=
  let sum := (List.range (nF s)).foldl (fun acc f => match tget? s.rz.tel f with
    | none => acc
    | some t => fpAdd f32 acc (fpMul f32 (fpOf f32 t.vMean 4) (tget 0 s.bud.est f).toNat)) 0
  ratOf (w32 (fpDiv f32 sum (etaNow s).toNat)) / 1000000 + pOthers s

def pChip (s : State) : Rat := figure (domOf s 64).mode (pMeas s) (pEst s)

/-- R190: one record of a domain with n records to a millisecond: on the blended figure, the run of records whose gap exceeds 25 %; off it, after a passed test, a gap of at most 10 % for
1 ms returns the domain. -/
def domRecord (s : State) (d n : Nat) (est meas floor : Rat) : State :=
  let x := domOf s d
  let gap := if est < meas then meas - est else est - meas
  if x.mode = 0 then setDom s d { x with bad := if max meas floor / 4 < gap then x.bad + 1 else 0 }
  else
    let good := if gap ≤ max meas floor / 10 then x.good + 1 else 0
    if n ≤ good ∧ x.passed = true ∧ x.mode = 1 then setDom s d {} else setDom s d { x with good := good }

/-- R283: the estimator learns from a record. -/
def learn (s : State) (t : TelRec) : State :=
  let c := classOf s t.f
  let mu := fpCvt f16 f32 (fget s BG_EST_CFG_MU_W)
  let muw := if 0 < tget 0 s.bud.refit t.f then fpMul f32 mu (fpInt f32 16) else mu
  let mub := fpCvt f16 f32 (fget s BG_EST_CFG_MU_B)
  let meas := fpInt f32 (max 0 t.iMean)
  let e := fpSub f32 meas (estimate s t)
  let a := fun k => actRate s t k
  let den := fpAdd f32 (fpInt f32 1) ((List.range 8).foldl (fun acc k => fpAdd f32 acc (fpMul f32 (a k) (a k))) 0)
  let w := (List.range 8).foldl (fun tb k =>
    let i := 8 * c + k
    tset tb i (w32 (fpAdd f32 (tget 0 tb i).toNat (fpDiv f32 (fpMul f32 (fpMul f32 muw e) (a k)) den)))) s.bud.w
  let b := w32 (fpAdd f32 (tget 0 s.bud.b t.f).toNat (fpMul f32 mub e))
  let um := fpOf f32 (t.act.getD 0 0 : Nat) t.samples
  let d0 := (tget 0 s.bud.d c).toNat
  let d := if 8 * t.samples ≤ t.act.getD 0 0 then
      fpAdd f32 d0 (fpDiv f32 (fpSub f32 (fpDiv f32 (fpMul f32 (fpSub f32 meas b.toNat) (fpInt f32 64)) um) d0) (fpInt f32 256))
    else d0
  { s with bud := { s.bud with w := w, b := tset s.bud.b t.f b, d := tset s.bud.d c (w32 d) } }

/-- The forwarded input record of a frond, on the active Rhizome's stream 2 (R257, log entry 107). -/
def inputOf (s : State) (t : TelRec) : FIn :=
  { prov := nextProv s (activeIsl s) 2, cur := t.iMean, act := t.act, h := t.h, rail := t.rail, s0 := pointP s t.f, bridge := t.bridged,
    ovr := t.ovr || decide (1 ≤ fget s RZ_HARD_STAT_LADDER), trust := trusted s t.f }

/-- A figure of a domain joins the means of the report in progress: fronds by number, group g at 64 + g (R294). -/
def reportFigure (s : State) (k : Nat) (i : Int) : State :=
  { s with bud := { s.bud with repSum := tset s.bud.repSum k (tget 0 s.bud.repSum k + i), repN := tset s.bud.repN k (tget 0 s.bud.repN k + 1) } }

/-- The estimate of a record is formed and kept. A record without a leaf sample has no stated rates: its estimate is a free value, and nothing is learnt from it. -/
def takeEstimate (s : State) (t : TelRec) : State :=
  if t.samples = 0 then
    let p := draw s
    { p.2 with bud := { p.2.bud with est := tset p.2.bud.est t.f (p.1.setWidth 32) } }
  else
    let s1 := { s with bud := { s.bud with est := tset s.bud.est t.f (w32 (estimate s t)) } }
    if trusted s t.f && t.rail == 3 && !t.bridged && !t.ovr && fget s RZ_HARD_STAT_LADDER == 0 then learn s1 t else s1

/-- The record goes on to Fiddlehead, unless a takeover runs or the new supervisor has not opened its stream (R257). -/
def forwardInput (s : State) (t : TelRec) : State :=
  if inTakeover s || s.rz.fhShut then s else sendOn { s with fh := { s.fh with inAir := s.fh.inAir ++ [(t.f, inputOf s t)] } } (activeIsl s) 2

/-- The record as the active Rhizome keeps it, with its hold duty among those of the last millisecond (R171). -/
def keepTel (s : State) (t : TelRec) : State :=
  { s with rz := { s.rz with tel := tset s.rz.tel t.f t, holds := tset s.rz.holds t.f ((t.hold :: tget [] s.rz.holds t.f).take 1000) } }

/-- TELEMETRY_RECORD: a telemetry record of frond f arrives at the active Rhizome: it is taken, forwarded to Fiddlehead and island 0x4B, estimated, compared and learnt from
(R177, R190, R257, R280 to R284). -/
def execTelemetryRecord (f : Nat) (s : State) : Out := nextOf s <|
  match takeFirst (fun t : TelRec => t.f == f) s.telAir with
  | none => s
  | some (t, rest) =>
    let meas : Int := max 0 t.iMean
    let s0 := forwardInput (keepTel (recvRec { s with telAir := rest } (activeIsl s) t.prov) t) t
    let s1 := toAdm s0 (.current f meas.toNat)
    let s2 := reportFigure (takeEstimate s1 t) f meas
    let s3 := domRecord s2 f 1000 (ratOf (tget 0 s2.bud.est f)) meas 2000
    (domRecord s3 64 (1000 * nF s) (pEst s3) (pMeas s3) 50)

/-- EST_MEAS_DISAGREE: estimate and measurement of a frond, or of the chip (64), have differed by more than 25 % at every record for 1 ms: the domain uses the measurement and the
sensor self-test runs (R190). -/
def execEstMeasDisagree (d : BitVec 7) (s : State) : Out := nextOf s <|
  let k := d.toNat
  if (k = 64 ∨ hasF s k = true) ∧ (domOf s k).mode = 0 ∧ (if k = 64 then 1000 * nF s else 1000) ≤ (domOf s k).bad then
    let t : TestRun := if k = 64 then ⟨3, 0x3A, 0, 0, 0, 0⟩ else ⟨2, 0x39, k, 0, 0, 0⟩
    let s1 := setDom s k { mode := 1 }
    { bump s1 RZ_FLT_LIVE_TESTS with flt := { s1.flt with tests := s1.flt.tests ++ [t] } }
  else s

/-- R190: the verdict of a domain's self-test: passed, the weights are refitted and the domain may return; failed, 1.2 × x_est holds and the sensor-fail source is raised. -/
def domVerdict (s : State) (d : Nat) (lasting : Bool) : State :=
  let x := domOf s d
  if x.mode = 0 ∨ (x.mode = 2 ∧ lasting = true) then s
  else if lasting then raiseD (setDom s d { x with mode := 2, good := 0, passed := false }) (if d = 64 then 0x3A else 0x39) (if d = 64 then none else some d) 0 (activeIsl s)
  else
    let s1 := setDom s d { x with mode := 1, good := 0, passed := true }
    let n := 10 * fget s BG_EST_CFG_REFIT_MS
    let ds := if d = 64 then List.range (nF s) else [d]
    { s1 with bud := { s1.bud with refit := ds.foldl (fun t f => tset t f n) s1.bud.refit } }

/-! ### The cap in force (R285) -/

/-- V_G0 in V: the committed G0 target (R39). -/
def vG0 (s : State) : Rat := (busMv s : Rat) / 1000

/-- N × 25 A × V_G0. -/
def g0Limit (s : State) : Rat := ((servOf s 0).length : Rat) * 25 * vG0 s

/-- f_v of R285; with V_FOLLOW at V_SAG and the input below it the quotient has no stated value, and x stands for it. -/
def followRatio (s : State) (x : Rat) : Rat :=
  let vf : Int := 8000 + 20 * fget s BG_CAP_V_FOLLOW
  let vs : Int := 8000 + 20 * fget s RZ_SAG_CFG_V_SAG
  if vf ≤ (vinMv s : Int) then 1
  else max ((fget s BG_CAP_FOLLOW_MIN : Rat) / 256) (if vf = vs then x else (((vinMv s : Int) - vs : Int) : Rat) / ((vf - vs : Int) : Rat))

/-- P_mat while it enters the cap (R285, R325). -/
def matTerm (s : State) : Option Rat := if flag s BG_CTRL_MAT && !(flag s MT_PMAT_NONE) then some (fget s MT_PMAT_PMAT : Rat) else none

/-- The terms of P_cap with their codes, in ascending code. -/
def capTerms (s : State) (x : Rat) : List (Nat × Rat) :=
  let host : Rat := fget s BG_CAP_HOST_CAP
  [(0, host), (1, (fget s BG_CAP_SUPPLY : Rat))] ++ (match matTerm s with | some p => [(2, p)] | none => []) ++ [(3, followRatio s x * host), (4, g0Limit s + pOthers s)]

/-- The least term; the lowest code wins a tie. -/
def bindTerm (l : List (Nat × Rat)) : Nat × Rat := l.foldl (fun b t => if t.2 < b.2 then t else b) (l.headD (0, 0))

/-- A real rounded down and held in w bits. -/
def floorU (w : Nat) (q : Rat) : Nat := (clampInt 0 (2 ^ w - 1) q.floor).toNat

/-- A real rounded to nearest, ties to even, held in w bits. -/
def nearU (w : Nat) (q : Rat) : Nat := (clampInt 0 (2 ^ w - 1) (rne q.num q.den)).toNat

/-- The cap of this period: a fall acts at once, a rise is limited to CAP_UP (R285). -/
def capStep (s : State) : State :=
  let p := draw s
  let b := bindTerm (capTerms s ((p.1.toNat : Rat) / 2 ^ 64))
  let s0 := if (vinMv s : Int) < 8000 + 20 * fget s BG_CAP_V_FOLLOW ∧ fget s BG_CAP_V_FOLLOW = fget s RZ_SAG_CFG_V_SAG then p.2 else s
  let cap := min b.2 (s.bud.cap + fget s BG_CTRL_CAP_UP)
  fset (fset { s0 with bud := { s0.bud with cap := cap } } BG_STAT_CAP (floorU 20 cap)) BG_STAT_SRC b.1

/-! ### The split (R286 to R290) -/

/-- η of the period (R282), in FP32. A quotient that is no number (no power on G0 and none of the fronds) leaves η free within its bounds. -/
def etaStep (s : State) : State :=
  let p0 := pGrp s 0
  let sum := (List.range (nF s)).foldl (fun acc f => match tget? s.rz.tel f with
    | none => acc
    | some t => fpAdd f32 acc (fpMul f32 (fpOf f32 t.vMean 4) (fpInt f32 (max 0 t.iMean)))) 0
  let lo := fpOf f32 7 10
  let hi := fpOf f32 98 100
  let p := draw s
  let e := (etaNow s).toNat
  let n := fpAdd f32 e (fpDiv f32 (fpSub f32 (fpDiv f32 sum (fpRat (p0 * 1000000))) e) (fpInt f32 16))
  let free := fpNan f32 n
  let v := if free then lo + p.1.toNat % (hi - lo + 1) else if fpLt f32 n lo then lo else if fpLt f32 hi n then hi else n
  let s1 := if free then p.2 else s
  fset { s1 with bud := { s1.bud with eta := some (w32 v) } } BG_STAT_ETA (nearU 8 (256 * ratOf (w32 v)))

def etaR (s : State) : Rat := ratOf (etaNow s)

/-- A of R286 without its trim. -/
def railPower (s : State) : Rat := min ((s.bud.cap - pOthers s) * etaR s) (g0Limit s * etaR s)

def absRat (q : Rat) : Rat := if q < 0 then -q else q

/-- A_trim moves and is clamped to ±10 % of the untrimmed A (R286). -/
def trimStep (s : State) : State :=
  let lim := absRat (railPower s) / 10
  let t := s.bud.trim + (fget s BG_CTRL_KC : Rat) / 256 * (s.bud.cap - pChip s) * etaR s
  { s with bud := { s.bud with trim := max (-lim) (min lim t) } }

/-- τ_f of every frond in 1/16 (R287). -/
def tauStep (s : State) : State :=
  let st := fget s BG_CTRL_THERM_STEP
  { s with bud := { s.bud with tau := (List.range (nF s)).foldl (fun t f =>
      let x := tget 16 t f
      tset t f (if tget 0 s.rz.band f = 7 then max 1 (x - st) else min 16 (x + st))) s.bud.tau } }

/-- V_f in V: 0.25 mV × max(P, E) (R287). -/
def vOf (s : State) (f : Nat) : Rat := (max (pointP s f) (fr s f).rail.e : Rat) / 4000

def bOf (s : State) (f : Nat) : Rat := ratOf (tget 0 s.bud.b f) / 1000
def dOf (s : State) (f : Nat) : Rat := ratOf (tget 0 s.bud.d (classOf s f)) / 1000

/-- Demand and floor of one frond in W, and the limit of a frond without a bridge (R287). -/
def demand (s : State) (f : Nat) : Rat := vOf s f * max (bOf s f + dOf s f) (((fcMax s f).getD 0 : Rat) / 1000)
def floorOf (s : State) (f : Nat) : Rat := vOf s f * max (bOf s f) ((fget s BG_EST_CFG_MIN_I : Rat) / 4)
def limitOf (s : State) (f : Nat) : Rat := vOf s f * (((tget 16 s.bud.tau f : Nat) : Rat) / 16) * (healthyPh s f : Rat)

/-- The closed pairs, leader first. -/
def pairs (s : State) : List (Nat × Nat) :=
  (List.range (nF s)).filterMap fun f =>
    match (if brState s f 0 = 2 then acrossOf s f 0 else if brState s f 1 = 2 then acrossOf s f 1 else none) with
    | some g => some (f, g)
    | none => none

def paired (s : State) (f : Nat) : Bool := (pairs s).any fun p => p.1 == f || p.2 == f

/-- A unit of the split: the fronds, demand, floor and limit. -/
structure SplitUnit where
  fs : List Nat
  d : Rat
  m : Rat
  l : Rat

/-- The limit of a pair: (h_a + h_b) × 1.0 A of its healthy phases, at the leader's voltage and the lesser thermal factor (R59, R287). -/
def pairLimit (s : State) (a b : Nat) : Rat :=
  vOf s a * (((min (tget 16 s.bud.tau a) (tget 16 s.bud.tau b) : Nat) : Rat) / 16) * ((healthyPh s a + healthyPh s b : Nat) : Rat)

def splitUnits (s : State) : List SplitUnit :=
  let ps := (pairs s).filter fun p => inService s p.1 && inService s p.2
  (ps.map fun p => ⟨[p.1, p.2], demand s p.1 + demand s p.2, floorOf s p.1 + floorOf s p.2, pairLimit s p.1 p.2⟩)
    ++ ((serviceFronds s).filter fun f => !(ps.any fun p => p.1 == f || p.2 == f)).map fun f => ⟨[f], demand s f, floorOf s f, limitOf s f⟩

/-- B of a unit at λ = k / 1024 (R288). -/
def unitShare (u : SplitUnit) (k : Nat) : Rat := min u.l (max u.m ((k : Rat) / 1024 * u.d))

def total (us : List SplitUnit) (k : Nat) : Rat := sumRat (us.map fun u => unitShare u k)

/-- The largest k of 0 to 4,095 with a total of at most a, by its bits; 0 if none. -/
def largestK (a : Rat) (us : List SplitUnit) : Nat :=
  [11, 10, 9, 8, 7, 6, 5, 4, 3, 2, 1, 0].foldl (fun k b => if total us (k + 2 ^ b) ≤ a then k + 2 ^ b else k) 0

/-- The shares of a unit's fronds: a pair divides in the ratio of its demands. Its healthy phases carry the pair's current in equal parts, and what a frond's load exceeds its own phases
by, which the bridge carries, stays within 24 A either way (R50, R59, R287, log entry 118). -/
def unitShares (s : State) (u : SplitUnit) (k : Nat) : List (Nat × Rat) :=
  match u.fs with
  | [a, b] =>
    let t := unitShare u k
    let x := if u.d = 0 then t / 2 else t * demand s a / u.d
    let h := healthyPh s a + healthyPh s b
    let own := if h = 0 then 0 else t * healthyPh s a / (h : Rat)
    let y := max (own - 24 * vOf s a) (min (own + 24 * vOf s a) x)
    [(a, y), (b, t - y)]
  | [f] => [(f, unitShare u k)]
  | _ => []

/-- Fronds in soft start take m_f (R287). -/
def softFronds (s : State) : List Nat := (List.range (nF s)).filter fun f => railSt s f == 2

/-- The split: λ, whether even λ = 0 exceeds A, and the shares (R288). -/
def splitStep (s : State) : State :=
  let soft := (softFronds s).map fun f => (f, floorOf s f)
  let a := railPower s + s.bud.trim - sumRat (soft.map fun p => p.2)
  let us := splitUnits s
  let k := largestK a us
  let sh := soft ++ us.flatMap fun u => unitShares s u k
  fset { s with bud := { s.bud with share := sh.foldl (fun t p => tset t p.1 p.2) [], unreach := decide (a < total us 0) } } BG_STAT_LAMBDA k

/-- ρ_set in 1/1024 (R171, R290). -/
def rhoSet (s : State) : Nat :=
  if fget s RZ_PERF_STAT_STATE = 3 then fget s RZ_PERF_CTRL_RHO_SET
  else
    let used := (List.range 8).filter fun n => fget s (BG_RHO_RHO n) != 0
    let fit := used.filter fun n => decide ((fget s (BG_RHO_P n) : Rat) ≤ s.bud.cap)
    let pick := if fit.isEmpty then
        used.foldl (fun b n => match b with | none => some n | some m => if fget s (BG_RHO_P n) < fget s (BG_RHO_P m) then some n else b) none
      else fit.foldl (fun b n => match b with | none => some n | some m => if fget s (BG_RHO_P m) < fget s (BG_RHO_P n) then some n else b) none
    match pick with | some n => fget s (BG_RHO_RHO n) | none => 1024

/-- ISSUE_T of the share (R289). -/
def issueOf (s : State) (f : Nat) (b : Rat) : Nat :=
  let d := dOf s f
  if d ≤ 0 then 64 else (clampInt 1 64 ((64 * (b / vOf s f - bOf s f) / d).floor)).toNat

def fcodeOf (s : State) (f : Nat) : Nat := match tget? s.rz.tel f with | some t => t.fcode | none => 0

/-- The throughput ratio of R171 for an issue limit and a hold duty in 1/64. -/
def ratioOf (s : State) (f issue : Nat) (hold : Rat) : Rat :=
  (issue : Rat) / 64 * (1 - hold / 64) * (fcodeOf s f : Rat) / (fget s RZ_PERF_CTRL_FFIX : Rat)

/-- ISSUE_T and HOLD_DUTY of a frond (R188, R289). -/
def issueHold (s : State) (f : Nat) (b : Rat) : Nat × Nat :=
  let i0 := issueOf s f b
  let rho : Rat := (rhoSet s : Rat) / 1024
  let st := fget s RZ_PERF_STAT_STATE
  let p : Nat × Nat :=
    if st = 2 ∨ st = 3 then
      let i1 : Nat := if fcodeOf s f = 0 then 64 else (clampInt 0 64 ((64 * rho * fget s RZ_PERF_CTRL_FFIX / fcodeOf s f).ceil)).toNat
      let h : Nat := ((List.range 65).filter fun (h : Nat) => decide (rho ≤ ratioOf s f i1 h)).getLastD 0
      (min i1 i0, h)
    else (i0, 0)
  let l := fget s RZ_HARD_STAT_LADDER
  (if 2 ≤ l then 1 else p.1, if 3 ≤ l then s.rz.hold else p.2)

def fGov (s : State) : Nat := if fget s RZ_PERF_STAT_STATE = 0 && flag s BG_CTRL_BOOST then 255 else fget s BG_CTRL_FNOM

/-- Table 13-2. -/
def s4Word (issue fgov hold istep cur : Nat) : Nat :=
  issue % 128 + fgov % 256 * 2 ^ 8 + hold % 128 * 2 ^ 16 + istep % 2 ^ 16 * 2 ^ 24 + cur % 2 ^ 16 * 2 ^ 40

/-- The word of a frond with share b (R289). -/
def capWordOf (s : State) (f : Nat) (b : Rat) : Nat :=
  let ih := issueHold s f b
  s4Word ih.1 (fGov s) ih.2 (max 1 (floorU 16 (ratOf (tget 0 s.bud.d (classOf s f)) / 64))) (floorU 16 (b / vOf s f * 125))

/-- The word of R291 while the split does not run. -/
def idleWord (s : State) : Nat := s4Word 64 (fGov s) 0 500 0

/-- A frond with more than 4 lost phases that no bridge serves is held at its derated limit by R183 while the split does not run too: by R289's formula of that limit. -/
def idleWordOf (s : State) (f : Nat) : Nat :=
  if 4 < lostOf s f ∧ inBridge s f = false then s4Word (issueOf s f (vOf s f * healthyPh s f)) (fGov s) 0 500 0 else idleWord s

/-- S4 leaves for the fronds, as a command (R27, R289, R291). -/
def sendWords (s : State) : State :=
  if inSpore s then s
  else if flag s BG_CTRL_EN then s.bud.share.foldl (fun t p => sendCmd t p.1 (.capWord (capWordOf s p.1 p.2)) false) s
  else (List.range (nF s)).foldl (fun t f => sendCmd t f (.capWord (idleWordOf s f)) false) s

/-- h_f: the mean clock-hold duty of the last millisecond, in 1/64 (R171). -/
def holdMean (s : State) (f : Nat) : Rat :=
  let l := tget [] s.rz.holds f
  (sumOf l : Rat) / (max 1 l.length : Nat)

/-- Estimated power of a frond at FFIX, full issue and no hold (R170): the learned full-issue current b + D at the voltage that FFIX needs (log entry 119). -/
def fixedPower (s : State) (f : Nat) : Rat :=
  (match freqEndpoint s f (fget s RZ_PERF_CTRL_FFIX) with | some e => (e : Rat) / 4000 | none => vOf s f) * (bOf s f + dOf s f)

/-- PERF_RETURN: the return window has passed with every in-service frond's estimated power at or below 95 % of its share, and no band at the limit: fixed frequency resumes (R170). -/
def perfReturn (s : State) : State :=
  let room := (serviceFronds s).all fun f => decide (fixedPower s f ≤ 95 / 100 * tget 0 s.bud.share f)
  if fget s RZ_PERF_STAT_STATE = 2 ∧ s.rz.hot ≠ 7 ∧ room = true then
    enterFixed (fsetB (bump (fset s RZ_PERF_STAT_STATE 1) RZ_PERF_STAT_RETURNS) RZ_PERF_STAT_SHORT false)
  else s

/-- SHORT and RHO (R171). -/
def perfStep (s : State) : State :=
  let st := fget s RZ_PERF_STAT_STATE
  let live := fun f => match tget? s.rz.tel f with | some t => ratioOf s f t.issue (holdMean s f) | none => 0
  let fs := serviceFronds s
  let least := fs.foldl (fun (b : Option Rat) f => match b with | none => some (live f) | some x => some (min x (live f))) none
  let s1 := match least with | none => s | some x => if fget s RZ_PERF_CTRL_FFIX = 0 then s else fset s RZ_PERF_STAT_RHO (floorU 11 (1024 * x))
  let below := (st = 2 ∨ st = 3) ∧ flag s BG_CTRL_EN = true ∧ fs.any (fun f =>
    let ih := issueHold s f (tget 0 s.bud.share f)
    decide (ratioOf s f ih.1 ih.2 < (rhoSet s : Rat) / 1024)) = true
  let s2 := fsetB s1 RZ_PERF_STAT_SHORT (decide below)
  if decide below && !(flag s RZ_PERF_STAT_SHORT) then raiseD s2 0xB9 none 0 (activeIsl s) else s2

/-! ### The ladder (R188, R189) -/

def vFloor (s : State) (f : Nat) : Nat := min 3800 (max 1600 ((rzPoint s f 0).1 + rzGuard s f))

/-- A step of the ladder is entered. -/
def climb (s : State) : State :=
  let l := fget s RZ_HARD_STAT_LADDER
  match l with
  | 0 => (serviceFronds s).foldl (fun t f => sendCmd t f (.setpoint (voltWord (vFloor s f)) (vFloor s f)) false) (fset s RZ_HARD_STAT_LADDER 1)
  | 1 => fset s RZ_HARD_STAT_LADDER 2
  | 2 => fset { s with rz := { s.rz with hold := min 8 (fget s RZ_DEGRADE_HOLD_MAX) } } RZ_HARD_STAT_LADDER 3
  | 3 =>
    if s.rz.hold < fget s RZ_DEGRADE_HOLD_MAX then { s with rz := { s.rz with hold := min (s.rz.hold + 8) (fget s RZ_DEGRADE_HOLD_MAX) } }
    else raiseD (fsetB (fset s RZ_HARD_STAT_LADDER 4) RZ_HARD_STAT_CAP_UNREACHABLE true) 0xB8 none 0 (activeIsl s)
  | _ => s

/-- A step is retraced; leaving step 1 issues the latest recorded command of each frond. -/
def descend (s : State) : State :=
  match fget s RZ_HARD_STAT_LADDER with
  | 4 => fsetB (fset s RZ_HARD_STAT_LADDER 3) RZ_HARD_STAT_CAP_UNREACHABLE false
  | 3 => if 8 < s.rz.hold then { s with rz := { s.rz with hold := s.rz.hold - 8 } } else fset { s with rz := { s.rz with hold := 0 } } RZ_HARD_STAT_LADDER 2
  | 2 => fset s RZ_HARD_STAT_LADDER 1
  | 1 => s.rz.cmd.foldl (fun t p => sendCmd t p.1 (.setpoint p.2.1 p.2.2) false) (fset s RZ_HARD_STAT_LADDER 0)
  | _ => s

/-- R188, R189: the cap has been exceeded for a full period when it was at the beginning of this one and of the last. -/
def ladderStep (s : State) : State :=
  let m := pMeas s
  let over_ := decide (s.bud.cap < m)
  let under := decide (21 / 20 * m ≤ s.bud.cap)
  let s1 := { s with rz := { s.rz with overN := if over_ then s.rz.overN + 1 else 0, underN := if under then s.rz.underN + 1 else 0 } }
  let l := fget s RZ_HARD_STAT_LADDER
  if decide (2 ≤ s1.rz.overN) && (decide (1 ≤ l) || (flag s BG_CTRL_EN && s.bud.unreach)) then climb s1
  else if 1 ≤ l ∧ 10 ≤ s1.rz.underN then descend s1 else s1

/-! ### The budget period (R288, R304) -/

/-- The waiting writes take effect (R304). -/
def applyPend (s : State) : State :=
  s.bud.pend.foldl (fun t p => if AD_RET_DOM 0 ≤ p.1 ∧ p.1 ≤ AD_RET_DOM 1535 then domWrite t ((p.1 - AD_RET_DOM 0) / 8) p.2 else storeRw t p.1 p.2)
    { s with bud := { s.bud with pend := [] } }

/-- BUDGET_PERIOD: every 100 µs: waiting writes take effect, the figures, the cap and the split are formed, the words leave, the ladder moves, and the estimator's state goes to the
standby (R188, R282 to R291, R304). -/
def budgetPeriod (s : State) : State :=
  if inTakeover s || !(answers s (activeIsl s)) then s
  else
    let s1 := etaStep (applyPend s)
    let s2 := tauStep { s1 with bud := { s1.bud with refit := s1.bud.refit.map fun p => (p.1, p.2 - 1) } }
    let live := (List.range 8).filter fun g => answers s2 0x43 && !(stagesOf s2 g).isEmpty
    let s3 := live.foldl (fun t g => reportFigure t (64 + g) (max 0 (grpCurrent t g))) (capStep s2)
    let s4 := fset (fset s3 BG_POWER_P_MEAS (nearU 32 (1000 * pMeas s3))) BG_POWER_P_CHIP (nearU 32 (1000 * pChip s3))
    let s5 := if flag s4 BG_CTRL_EN && !(inSpore s4) then splitStep (trimStep s4) else { s4 with bud := { s4.bud with unreach := false } }
    let s6 := sendWords (perfStep (ladderStep s5))
    journal s6 (.estimator ⟨s6.bud.w, s6.bud.b, s6.bud.d⟩) false

/-! ### Cuts and energy (R296 to R298, R402) -/

/-- E of a frond, which stays saturated once it has been (R127), and of a group (R296) as an energy value. -/
def frondE (s : State) (f : Nat) : Nat := if (fr s f).satE then 2 ^ 64 - 1 else (clampInt 0 (2 ^ 64 - 1) (16 * (fr s f).tot / 6103515625)).toNat
def grpE (s : State) (g : Nat) : Nat := (clampInt 0 (2 ^ 64 - 1) (1600 * tget 0 s.bud.gTot g / 6103515625)).toNat

/-- E of a frond and of a group as the active Rhizome last knew them, with what it keeps across restarts (R402). -/
def lastF (s : State) (f : Nat) : Nat := tget 0 s.bud.eF f + tget 0 s.bud.keepF f
def lastG (s : State) (g : Nat) : Nat := tget 0 s.bud.eG g + tget 0 s.bud.keepG g

/-- E_chip at a cut: its own figures, the last known ones where an island has not answered (R297, R298). -/
def eChip (s : State) (c : Cut) : Nat :=
  let e := fun g => match c.groups with | some l => l.getD g 0 | none => lastG s g
  let f := sumOf ((List.range (nF s)).map fun f => match tget? c.fronds f with | some x => x | none => lastF s f)
  min (2 ^ 64 - 1) (max (e 0) (min f (2 ^ 64 - 1)) + sumOf ([1, 2, 3, 4, 5, 6, 7].map e))

/-- A cut is requested from every frond core and the VPM controller (R297). -/
def requestCut (s : State) (body : Option (List Nat)) (job : Option (Job × Nat × Bool)) : State :=
  let n := s.bud.cutNo
  let c : Cut := { num := n, wait := List.range (nF s), vpm := true, part := false, sat := false, body := body, job := job }
  { s with bud := { s.bud with cutNo := n + 1, cuts := s.bud.cuts ++ [c], reqAir := s.bud.reqAir ++ ((List.range (nF s)).map fun f => (n, f)) ++ [(n, 0x43)] } }

/-- The job record of Table 13-4 from byte 8 on. -/
def jobBody (j : Job) (endCut : Nat) (b e : CutDone) (srcEnd : Nat) (late : Bool) : List Nat :=
  leBytes 4 (j.id % 2 ^ 24) ++ leBytes 4 j.epoch ++ leBytes 4 j.cut ++ leBytes 4 endCut ++ leBytes 8 (e.e - b.e) ++ leBytes 8 b.e
    ++ [(b.sat || e.sat).toNat + 2 * (b.part || e.part).toNat + 4 * (j.late || late).toNat, j.src % 16 + 16 * (srcEnd % 16)] ++ List.replicate 22 0

def jobOff (s : State) (seq : Nat) : Nat := fget s BG_REP_CFG_JOB_BANK * 0x80000 + 64 * (seq % 1024)
def repOff (s : State) (seq : Nat) : Nat := fget s BG_REP_CFG_REP_BANK * 0x80000 + 512 * (seq % 4096)

/-- A cut is complete: E_chip, the lifetime energy, the report or the job record that waits for it (R294, R299, R300, R389). -/
def cutDone (s : State) (c : Cut) : State :=
  let e := eChip s c
  let d : CutDone := ⟨c.num, e, c.part, c.sat⟩
  let s1 := lifeEnergy s (e - (reg s BG_ENERGY).toNat)
  let s2 := setReg { s1 with bud := { s1.bud with cuts := s1.bud.cuts.filter fun x => x.num != c.num, done := tset s1.bud.done c.num d } } BG_ENERGY (BitVec.ofNat 64 e)
  let s3 := match c.body with
    | none => s2
    | some body =>
      if flag s2 BG_REP_CFG_EN && !(inTakeover s2) then
        let q := s2.bud.repSeq
        let s4 := ringRecord (sentAs s2 (activeIsl s2) 12 q) (repOff s2 q) (provWord q (activeIsl s2) 12) (leBytes 8 e ++ body)
        fset { s4 with bud := { s4.bud with repSeq := (q + 1) % 2 ^ 32 } } BG_REP_STAT_LAST_SEQ q
      else s2
  match c.job with
  | none => s3
  | some (j, src, late) =>
    match tget? s3.bud.done j.cut with
    | none => s3
    | some b =>
      if flag s3 BG_REP_CFG_EN then
        let q := s3.bud.jobSeq
        let s4 := ringRecord (sentAs s3 (activeIsl s3) 13 q) (jobOff s3 q) (provWord q (activeIsl s3) 13) (jobBody j c.num b d src late)
        bump { s4 with bud := { s4.bud with jobSeq := (q + 1) % 2 ^ 32, done := tdel s4.bud.done j.cut } } BG_JOB_STAT_DONE
      else { s3 with bud := { s3.bud with done := tdel s3.bud.done j.cut } }

/-- Cuts to which nothing is missing are completed in order. -/
def finishCuts (s : State) : State :=
  s.bud.cuts.foldl (fun t c => if c.wait.isEmpty ∧ c.vpm = false then cutDone t c else t) s

/-- CUT_REQUEST: a cut request arrives at a frond core, or at the VPM controller (0x43), and its counters are answered (R297). -/
def execCutRequest (i : BitVec 8) (s : State) : Out := nextOf s <|
  let k := i.toNat
  match takeFirst (fun p : Nat × Nat => p.2 == k) s.bud.reqAir with
  | none => s
  | some (p, rest) =>
    let s1 := { s with bud := { s.bud with reqAir := rest } }
    if answers s k then
      let e := if k = 0x43 then (List.range 8).map (grpE s) else [frondE s k]
      sendOn { s1 with bud := { s1.bud with ansAir := s1.bud.ansAir ++ [⟨nextProv s k 1, p.1, k, e.any (· == 2 ^ 64 - 1), e⟩] } } k 1
    else s1

/-- ENERGY_RECORD: an energy answer arrives at the active Rhizome (R297). -/
def execEnergyRecord (i : BitVec 8) (s : State) : Out := nextOf s <|
  let k := i.toNat
  match takeFirst (fun p : EnRec => p.isl == k) s.bud.ansAir with
  | none => s
  | some (r, rest) =>
    let b := { s.bud with ansAir := rest }
    let b1 := if k = 0x43 then { b with eG := (List.range 8).foldl (fun t g => tset t g (r.e.getD g 0)) b.eG } else { b with eF := tset b.eF k (r.e.getD 0 0) }
    let u := { s with bud := b1 }
    let took := fun (c : Cut) => if k = 0x43 then { c with vpm := false, groups := some ((List.range 8).map (lastG u)) } else { c with wait := c.wait.filter (· != k), fronds := tset c.fronds k (lastF u k) }
    let cuts := b1.cuts.map fun c => if c.num = r.cut then { took c with sat := c.sat || r.sat } else c
    (finishCuts (recvRec { s with bud := { b1 with cuts := cuts } } (activeIsl s) r.prov))

/-- CUT_TIMEOUT: 2 µs have passed since the oldest cut was requested: what has not answered contributes its last figures, and the cut is PARTIAL (R297). -/
def execCutTimeout (s : State) : Out := nextOf s <|
  match s.bud.cuts with
  | [] => s
  | c :: cs => (finishCuts { s with bud := { s.bud with cuts := { c with wait := [], vpm := false, part := true } :: cs } })

/-! ### Reports (R294) -/

/-- The mean of a domain's figures, or all ones without any. -/
def repMean (s : State) (k : Nat) : Nat :=
  let n := tget 0 s.bud.repN k
  if n = 0 then 0xFFFFFFFF else (clampInt 0 0xFFFFFFFE (rne (tget 0 s.bud.repSum k) n)).toNat

/-- Input current of R281 in mA: P_meas / (0.92 × VIN); while VIN reads 0 the quotient has no stated value, and x stands for it. -/
def inputMa (s : State) (x : Nat) : Nat := if vinMv s = 0 then x % 2 ^ 32 else nearU 32 (pMeas s * 1000000 / (92 / 100 * (vinMv s : Rat)))

/-- Bytes 16 to 511 of a report record (Table 13-3). -/
def reportBody (s : State) (x : Nat) : List Nat :=
  leBytes 4 (nearU 32 (1000 * pMeas s)) ++ leBytes 4 (nearU 32 (1000 * pChip s)) ++ leBytes 4 (nearU 32 (1000 * s.bud.cap)) ++ leBytes 4 (inputMa s x)
    ++ ((List.range 8).flatMap fun g => leBytes 4 (repMean s (64 + g))) ++ ((List.range 64).flatMap fun f => leBytes 4 (repMean s f))
    ++ leBytes 8 (ofBits (serviceFronds s))
    ++ [fget s RZ_HARD_STAT_LADDER % 8 + 8 * fget s RZ_HARD_STAT_CAP_UNREACHABLE + 16 * fget s RZ_HARD_STAT_SAG
        + 64 * (decide ((domOf s 64).mode ≠ 0)).toNat + 128 * (decide (fget s BG_STAT_SRC = 2)).toNat] ++ List.replicate 183 0

/-- CURRENT_REPORT: every 1 ms a report is formed; its record is written when its cut completes (R294, R297). -/
def execCurrentReport (s : State) : Out := nextOf s <|
  let s1 := { s with bud := { s.bud with repSum := [], repN := [] } }
  if flag s BG_REP_CFG_EN && !(inTakeover s) then
    let p := draw s1
    (requestCut (if vinMv s = 0 then p.2 else s1) (some (reportBody s p.1.toNat)) none)
  else s1

/-! ### Jobs (R299) -/

def isToken (k t : Nat) : Bool := bitsOf t 3 0 == k

/-- A JOB_BEGIN or JOB_END token is taken (R299). -/
def takeJob (s : State) (t : Nat) (late : Bool) : State :=
  let id := bitsOf t 43 20
  let src := bitsOf t 7 4
  if isToken 4 t then
    let ep := match s.bud.lastJob with | none => s.bud.epoch | some p => if id ≤ p then (s.bud.epoch + 1) % 2 ^ 32 else s.bud.epoch
    let j : Job := ⟨id, ep, src, s.bud.cutNo, late⟩
    let s1 := fset (requestCut { s with bud := { s.bud with epoch := ep, lastJob := some id } } none none) BG_REP_STAT_EPOCH ep
    if s.bud.jobs.length < 64 then
      let s2 := { s1 with bud := { s1.bud with jobs := s1.bud.jobs ++ [j] } }
      journal (fset s2 BG_STAT_OPEN_JOBS s2.bud.jobs.length) (.budget 1 id ep) false
    else bump s1 BG_JOB_STAT_FULL
  else
    let best := (s.bud.jobs.filter fun j => j.id == id).foldl (fun (b : Option Job) j => match b with
      | none => some j
      | some x => if serialGt j.epoch x.epoch then some j else b) none
    match best with
    | none => bump (requestCut s none none) BG_JOB_STAT_ORPHANS
    | some j =>
      let s1 := requestCut { s with bud := { s.bud with jobs := s.bud.jobs.filter (· != j) } } none (some (j, src, late))
      journal (fset s1 BG_STAT_OPEN_JOBS s1.bud.jobs.length) (.budget 0 id j.epoch) false

/-- The tokens before the oldest JOB_BEGIN or JOB_END on its way arrive with no effect here; then that token does, if it is of type k (R27, R259). -/
def nextToken (k : Nat) (s : State) : Option (State × Nat) :=
  let isJob := fun (p : Nat × Nat) => isToken 4 p.2 || isToken 5 p.2
  match s.bud.tokAir.dropWhile fun p => !(isJob p) with
  | [] => none
  | p :: rest =>
    if isToken k p.2 then
      some ((s.bud.tokAir.takeWhile (fun p => !(isJob p)) ++ [p]).foldl (fun t q => recvRec t (activeIsl s) q.1) { s with bud := { s.bud with tokAir := rest } }, p.2)
    else none

/-- A token of type k is taken, or held during a takeover. -/
def jobToken (k : Nat) (s : State) : State :=
  match nextToken k s with
  | none => s
  | some (s1, t) => if inTakeover s then { s1 with bud := { s1.bud with lateTok := s1.bud.lateTok ++ [t] } } else takeJob s1 t false

/-- JOB_BEGIN: the oldest job token on its way, a JOB_BEGIN, arrives at the active Rhizome; during a takeover it waits for its end (R299). -/
def jobBegin (s : State) : State := jobToken 4 s

/-- JOB_END: the oldest job token on its way, a JOB_END, arrives at the active Rhizome (R299). -/
def jobEnd (s : State) : State := jobToken 5 s

/-- R304: the refusal rules of the BG_ registers, against the values that would then hold. -/
def bgRefused (s : State) (n : RName) (v : Nat) : Bool :=
  let badMu := fun w => fpNeg f16 w || !(fpFin f16 w) || !(fpLt f16 w (fpInt f16 1))
  match n with
  | .BG_CAP => decide (bitsOf v 47 40 ≤ fget s RZ_SAG_CFG_V_SAG)
  | .BG_EST_CFG => badMu (bitsOf v 15 0) || badMu (bitsOf v 31 16)
  | .BG_REP_CFG =>
    let r := bitsOf v 20 16
    let j := bitsOf v 28 24
    decide (28 < r) || decide (r ≤ j ∧ j ≤ r + 3) || ownerOf s j != rzMaster s || !((List.range 4).all fun k => ownerOf s (r + k) == rzMaster s)
  | _ => false

end Sys2Proof.Machine
end

