-- ==== Sys2Proof/Machine/Fec.lean ====
section
/-! DEFINITION. Machine/Fec.lean: the RS(544,514) code of IEEE 802.3 on 10-bit symbols (R12, R305), and the layout of a codeword (Table 14-1). The field is GF(2^10) modulo
x^10 + x^3 + 1 with α = 2, and the roots of the generator are α^0 to α^29 (the standard's; PRESUMED, log entry 6). A codeword lists its 544 symbols in transmission order. -/
namespace Sys2Proof.Machine

/-- Multiplication by α. -/
def gfDbl (a : Nat) : Nat := if 512 ≤ a then (2 * a) ^^^ 0x409 else 2 * a

def gfMul (a b : Nat) : Nat :=
  if a = 0 ∨ b = 0 then 0
  else (List.range 10).foldl (fun acc i => if bitOf b (9 - i) then gfDbl acc ^^^ a else gfDbl acc) 0

/-- a ^ n over the low k bits of n. -/
def gfPow : Nat → Nat → Nat → Nat
  | 0, _, _ => 1
  | k + 1, a, n =>
    let r := gfPow k (gfMul a a) (n / 2)
    if n % 2 = 1 then gfMul r a else r

/-- α^n, with α^1023 = 1. -/
def gfExp (n : Nat) : Nat := gfPow 10 2 (n % 1023)

def gfInv (a : Nat) : Nat := gfPow 10 a 1022

/-- The value of a polynomial, highest coefficient first. -/
def gfEval (p : List Nat) (x : Nat) : Nat := p.foldl (fun acc c => gfMul acc x ^^^ c) 0

/-- Sum of polynomials, lowest coefficient first. -/
def gfPolyAdd : List Nat → List Nat → List Nat
  | [], q => q
  | p, [] => p
  | a :: p, b :: q => (a ^^^ b) :: gfPolyAdd p q

/-- The generator's coefficients below x^30, highest first. -/
def rsGen : List Nat :=
  (((List.range 30).foldl (fun g j => gfPolyAdd (0 :: g) (g.map (gfMul (gfExp j)))) [1]).take 30).reverse

/-- The 30 parity symbols of 514 message symbols: the remainder of the message shifted by 30 places. -/
def rsParity (msg : List Nat) : List Nat :=
  msg.foldl (fun r m =>
    let fb := m ^^^ r.headD 0
    gfPolyAdd (r.drop 1 ++ [0]) (rsGen.map (gfMul fb))) (List.replicate 30 0)

/-- A message with its parity. -/
def rsEncode (msg : List Nat) : List Nat := msg ++ rsParity msg

def syndromes (w : List Nat) : List Nat := (List.range 30).map fun j => gfEval w (gfExp j)

/-- One round of the search for the error locator (Berlekamp and Massey): the locator, the one before its last change, its length, the distance to that change and its discrepancy. -/
structure Loc where
  c : List Nat := [1]
  b : List Nat := [1]
  len : Nat := 0
  gap : Nat := 1
  d : Nat := 1
deriving DecidableEq, Repr

def locStep (syn : List Nat) (x : Loc) (n : Nat) : Loc :=
  let d := (List.range (x.len + 1)).foldl (fun acc i => acc ^^^ gfMul (x.c.getD i 0) (if i ≤ n then syn.getD (n - i) 0 else 0)) 0
  if d = 0 then { x with gap := x.gap + 1 }
  else
    let c := gfPolyAdd x.c (List.replicate x.gap 0 ++ x.b.map (gfMul (gfMul d (gfInv x.d))))
    if 2 * x.len ≤ n then ⟨c, x.c, n + 1 - x.len, 1, d⟩ else { x with c := c, gap := x.gap + 1 }

/-- The value of a polynomial, lowest coefficient first. -/
def gfEvalLow (p : List Nat) (x : Nat) : Nat := gfEval p.reverse x

/-- The error at power k of a locator: X · Ω(X⁻¹) / Λ'(X⁻¹). -/
def errorAt (syn loc : List Nat) (k : Nat) : Nat :=
  let xi := gfExp (1023 - k)
  let om := (List.range 30).map fun n => (List.range (n + 1)).foldl (fun acc i => acc ^^^ gfMul (loc.getD i 0) (syn.getD (n - i) 0)) 0
  let der := (List.range loc.length).filterMap fun i => if i % 2 = 1 then some (loc.getD i 0) else none
  gfMul (gfExp k) (gfMul (gfEvalLow om xi) (gfInv (gfEvalLow der (gfMul xi xi))))

/-- The corrected codeword within 15 symbols of a received one, with the number of corrected symbols; none where there is none (an uncorrectable codeword). -/
def rsDecode (w : List Nat) : Option (Nat × List Nat) :=
  let syn := syndromes w
  if syn.all (· == 0) then some (0, w)
  else
    let x := (List.range 30).foldl (locStep syn) {}
    let pos := (List.range 544).filter fun k => gfEvalLow x.c (gfExp (1023 - k)) == 0
    if 15 < x.len ∨ pos.length ≠ x.len then none
    else
      let y := (List.range 544).map fun i => if pos.contains (543 - i) then w.getD i 0 ^^^ errorAt syn x.c (543 - i) else w.getD i 0
      if (syndromes y).all (· == 0) then some (pos.length, y) else none

/-! ### The layout of a codeword (R305, Table 14-1): message bit i is bit i mod 10 of symbol i / 10 (DEDUCED, log entry 124) -/

/-- The five bytes of four symbols. -/
def symBytes : List Nat → List Nat
  | a :: b :: c :: d :: t => leBytes 5 (a + b * 2 ^ 10 + c * 2 ^ 20 + d * 2 ^ 30) ++ symBytes t
  | _ => []

/-- The four symbols of five bytes. -/
def byteSyms : List Nat → List Nat
  | a :: b :: c :: d :: e :: t =>
    let v := leValue [a, b, c, d, e]
    [bitsOf v 9 0, bitsOf v 19 10, bitsOf v 29 20, bitsOf v 39 30] ++ byteSyms t
  | _ => []

/-- A codeword of its header fields and 640 bytes of frame data. -/
def codewordOf (cnt lane ffo : Nat) (data : List Nat) : List Nat :=
  rsEncode (cnt % 1024 :: (lane % 4 + 4 * (ffo % 128)) :: byteSyms data)

/-- The 544 symbols of a codeword as it arrives: the header fields with bit 19 above FFO, the data symbols and the parity symbols. -/
def cwSymbols (cnt : BitVec 10) (lane : BitVec 2) (ffo : BitVec 8) (data parity : List (BitVec 10)) : List Nat :=
  cnt.toNat :: (lane.toNat + 4 * ffo.toNat) :: (data ++ parity).map (·.toNat)

/-- The fields of a decoded codeword. -/
def cwCount (w : List Nat) : Nat := w.getD 0 0 % 1024
def cwLane (w : List Nat) : Nat := w.getD 1 0 % 4
def cwFfo (w : List Nat) : Nat := bitsOf (w.getD 1 0) 8 2
def cwData (w : List Nat) : List Nat := symBytes ((w.drop 2).take 512)

end Sys2Proof.Machine
end

