-- ==== Sys2Proof/Machine/MatCore.lean ====
section
/-! DEFINITION. Machine/MatCore.lean: frames of the Mat engine, island 0x46 (spec/14_mat_fabric.md): headers and tags, lanes, routing, flooding, authentication and the replay
check (R305 to R310, R315 to R320). -/
namespace Sys2Proof.Machine

def ml (s : State) (l : Nat) : MLane := tget {} s.mat.lanes l
def updLane (s : State) (l : Nat) (g : MLane → MLane) : State := { s with mat := { s.mat with lanes := tset s.mat.lanes l (g (ml s l)) } }
def mg (s : State) (n : Nat) : MGrp := tget {} s.mat.grps n
def updMg (s : State) (n : Nat) (g : MGrp → MGrp) : State := { s with mat := { s.mat with grps := tset s.mat.grps n (g (mg s n)) } }

/-- The state of a lane (Table 14-2). -/
def laneSt (s : State) (l : Nat) : Nat := fget s (MT_LANE_STAT_STATE l)
def upLanes (s : State) : List Nat := (List.range 4).filter fun l => laneSt s l == 3

def ownId (s : State) : Nat := fget s MT_ID_STAT_ID
def ownUid (s : State) : Nat := (reg s MT_UID).toNat
def numbered (s : State) : Bool := fget s MT_ID_STAT_STATE == 2

/-- n little-endian bytes of a frame from byte i on. -/
def fb (b : List Nat) (i n : Nat) : Nat := leValue ((b.drop i).take n)

/-- A group slot that is in use; slot 0 always holds the fabric group. -/
def grpEn (s : State) (n : Nat) : Bool := flag s (MT_GRP_CFG_EN n)
def grpOf (s : State) (n : Nat) : Nat := if n = 0 then 0 else fget s (MT_GRP_CFG_GROUP n)

/-- The slot that holds a group. -/
def slotOf (s : State) (g : Nat) : Option Nat :=
  if g = 0 then some 0 else (List.range 256).find? fun n => grpEn s n && grpOf s n == g

def keyOf (s : State) (n gen : Nat) : Option Nat := if gen = 0 then (mg s n).key0 else (mg s n).key1

/-! ### Frames -/

/-- The common header (Table 14-4). -/
def frameHdr (type dst src grp gen ep sq len : Nat) : List Nat :=
  [type, 32] ++ leBytes 2 len ++ leBytes 2 dst ++ leBytes 2 src ++ leBytes 2 grp ++ [gen, 0] ++ leBytes 4 ep ++ leBytes 3 sq ++ [0, 0, 0, 0, 0]

/-- The bytes that the tag covers: byte 1 reads 0 (R310). -/
def tagBytes (b : List Nat) : List Nat := b.take 1 ++ 0 :: b.drop 2

/-- The tag of a frame whose bytes up to the tag are b (R310). -/
def frameTag (key : Nat) (b : List Nat) : List Nat := cmac64 (leBytes 16 key) (tagBytes b)

def pad8 (b : List Nat) : List Nat := b ++ List.replicate ((8 - b.length % 8) % 8) 0

/-- R309, Tables 14-6 and 14-7: LEN is legal for the frame's type. A TYPE that Table 14-6 does not list has no layout. -/
def lenOk (b : List Nat) : Bool :=
  let n := fb b 2 2
  let t := fb b 0 1
  n == b.length && n % 8 == 0 &&
    (match t with
    | 1 => n == 40
    | 2 | 3 => n == 56
    | 4 => n == 48
    | 5 => decide (1 ≤ fb b 24 1 ∧ fb b 24 1 ≤ 244 ∧ n = 40 + 8 * ((fb b 24 1 + 1) / 2))
    | 6 => n == 48
    | 7 => n == 56
    | 8 | 9 | 10 => n == 40
    | 11 | 12 => n == 48
    | 13 =>
      let m := fb b 44 2
      decide (1 ≤ m ∧ m ≤ 2400) && n == 56 + (3 * ((m + 1) / 2) + (if bitOf (fb b 46 1) 1 then (m + 7) / 8 else 0) + 7) / 8 * 8
    | _ => false)

/-- A frame's place in a lane's queue: control frames leave ahead of CAPTURE frames (R317). -/
def laneInsert (b : List Nat) (q : List (List Nat)) : List (List Nat) :=
  if fb b 0 1 = 13 then q ++ [b] else q.filter (fun x => fb x 0 1 != 13) ++ b :: q.filter fun x => fb x 0 1 == 13

/-- A frame leaves on a lane. -/
def txLane (s : State) (l : Nat) (b : List Nat) : State :=
  let s1 := updLane s l fun x => { x with out := laneInsert b x.out }
  { s1 with mat := { s1.mat with tx := s1.mat.tx ++ [(l, b)] } }

/-! ### Routing (R315 to R318) -/

def showRoutes (s : State) : State := fset (fset s MT_ROUTE_STAT_DIRECT s.mat.dev.length) MT_ROUTE_STAT_BLOCK s.mat.blk.length

/-- R317: the lane of a destination. -/
def routeLane (s : State) (dst : Nat) : Option Nat :=
  match tget? s.mat.dev dst with
  | some r => some r.lane
  | none => (tget? s.mat.blk (dst / 64 * 64)).map fun r => r.lane

/-- A withdrawn route is advertised with METRIC 32 for 300 ms (R315). -/
def goneAdd (s : State) (key kind lane : Nat) : State :=
  { s with mat := { s.mat with gone := (s.mat.gone.filter fun g => !(g.1 == key && g.2.1 == kind)) ++ [(key, kind, lane, 3)] } }

/-- A route that is held leaves its table. -/
def withdraw (s : State) (key kind : Nat) : State :=
  let tab := if kind = 0 then s.mat.dev else s.mat.blk
  let s1 := if kind = 0 then { s with mat := { s.mat with dev := tdel tab key } } else { s with mat := { s.mat with blk := tdel tab key } }
  showRoutes (match tget? tab key with | some r => goneAdd s1 key kind r.lane | none => s1)

/-- The routes learned on a lane are withdrawn at once (Table 14-10). -/
def dropRoutes (s : State) (l : Nat) : State :=
  let s1 := (s.mat.dev.filter fun r => r.2.lane == l).foldl (fun t r => withdraw t r.1 0) s
  (s.mat.blk.filter fun r => r.2.lane == l).foldl (fun t r => withdraw t r.1 1) s1

/-- The key of the flood cache (R318). -/
def floodKey (b : List Nat) : Nat × Nat × Nat × Nat := (fb b 6 2, fb b 8 2, fb b 12 4, fb b 16 3)

def inCache (s : State) (b : List Nat) : Bool := s.mat.seen.any fun e => (e.1, e.2.1, e.2.2.1, e.2.2.2.1) == floodKey b

def cacheAdd (s : State) (b : List Nat) : State :=
  let k := floodKey b
  { s with mat := { s.mat with seen := ((k.1, k.2.1, k.2.2.1, k.2.2.2, 10) :: s.mat.seen).take 4096 } }

/-- R317: a frame is forwarded on a lane unless HOPS is 1. -/
def forwardOn (s : State) (ls : List Nat) (b : List Nat) : State :=
  if fb b 1 1 ≤ 1 then bump s MT_ROUTE_STAT_HOP_DROPS
  else ls.foldl (fun t l => txLane t l (b.take 1 ++ (fb b 1 1 - 1) :: b.drop 2)) s

/-- R317: a unicast frame for another device. -/
def forward (s : State) (b : List Nat) : State :=
  match routeLane s (fb b 4 2) with
  | none => bump s MT_ROUTE_STAT_NOROUTE
  | some l => forwardOn s [l] b

/-- R318: a flooded frame goes out on every other Up lane, within FLOOD_RATE, once. -/
def flood (s : State) (lane : Nat) (b : List Nat) : State :=
  if inCache s b then s
  else
    let s0 := cacheAdd s b
    if fb b 1 1 ≤ 1 then bump s0 MT_ROUTE_STAT_HOP_DROPS
    else
      ((upLanes s).filter (· != lane)).foldl (fun t l =>
        if (ml t l).flood < fget t (MT_LANE_CFG_FLOOD_RATE l) then forwardOn (updLane t l fun x => { x with flood := x.flood + 1 }) [l] b
        else bump t MT_SEC_STAT_RATE_DROPS) s0

/-! ### Sending -/

/-- A frame of this device leaves: link-local on its lane, flooded on every Up lane, or on its route. -/
def deliver (s : State) (dst : Nat) (lane : Option Nat) (b : List Nat) : State :=
  match lane with
  | some l => if laneSt s l = 3 then txLane s l b else s
  | none =>
    if dst = 0xFFF1 ∨ dst = 0xFFFF then (upLanes s).foldl (fun t l => txLane t l b) (cacheAdd s b)
    else
      match routeLane s dst with
      | none => bump s MT_ROUTE_STAT_NOROUTE
      | some l => txLane s l b

/-- A frame with its header and tag under slot n's key of the generation it sends with. -/
def sealed (s : State) (n type dst src ep sq key : Nat) (body : List Nat) : List Nat :=
  let len := 24 + body.length + 8
  let h := frameHdr type dst src (grpOf s n) (fget s (MT_GRP_CFG_GEN n)) ep sq len ++ body
  h ++ frameTag key h

/-- A frame of this device in slot n (R310, R319, R320): it is numbered in the group's epoch, and waits for the next epoch once SQ would pass 0xFF_FFFF. -/
def sendFrame (s : State) (n type dst : Nat) (lane : Option Nat) (body : List Nat) : State :=
  match keyOf s n (fget s (MT_GRP_CFG_GEN n)) with
  | none => s
  | some key =>
    if inSpore s || !(numbered s) then s
    else
      let g := mg s n
      let sq := if g.sqEp = g.epoch then g.sq + 1 else 1
      if 0xFFFFFF < sq then { s with mat := { s.mat with heldTx := s.mat.heldTx ++ [⟨n, type, dst, lane, body⟩] } }
      else
        let s1 := updMg s n fun x => { x with sq := sq, sqEp := x.epoch }
        deliver s1 dst lane (sealed s n type dst (ownId s) (g.epoch.getD 0) sq key body)

/-- The epoch E of a slot changes; frames that waited for it leave (R320). -/
def setEpoch (s : State) (n e : Nat) : State :=
  let s1 := fset (updMg s n fun x => { x with epoch := some (e % 2 ^ 32) }) (MT_GRP_STAT_EPOCH n) e
  let mine := s1.mat.heldTx.filter fun h => h.slot == n
  mine.foldl (fun t h => sendFrame t n h.type h.dst h.lane h.body) { s1 with mat := { s1.mat with heldTx := s1.mat.heldTx.filter fun h => h.slot != n } }

/-- A BEACON on a lane (Table 14-7). -/
def sendBeacon (s : State) (l : Nat) : State :=
  txLane s l (frameHdr 1 0xFFFE (ownId s) 0 0 0 0 40 ++ leBytes 8 (ownUid s) ++ leBytes 2 (ownId s) ++ [l, (numbered s).toNat + 2 * (inSpore s).toNat, 0, 0, 0, 0])

/-! ### Authentication and replay (R319, R320) -/

/-- A refusal under R319 or R320 is counted; the seventeenth within a millisecond raises the authentication source. -/
def refuseFrame (s : State) (x : Fld) : State :=
  let s1 := bump s x
  let s2 := { s1 with mat := { s1.mat with bad := s1.mat.bad + 1 } }
  if s2.mat.bad = 17 then raiseD s2 0xCB none 0 0x46 else s2

/-- How epoch a stands to b in their low 8 bits: 0 equal, 1 newer, 2 older (RFC 1982). -/
def epochCmp (a b : Nat) : Nat :=
  let d := (a + 256 - b % 256) % 256
  if d = 0 then 0 else if d < 128 then 1 else 2

/-- An entry whose epoch is neither E nor E − 1 of its own group may be replaced. -/
def replaceable (s : State) (e : REnt) : Bool :=
  match slotOf s e.grp with
  | none => true
  | some n => match (mg s n).epoch with
    | none => true
    | some x => e.ep != x % 256 && e.ep != (x + 255) % 256

/-- The replay table takes a frame of a source; none when it is refused. -/
def replayTake (s : State) (src grp ep sq : Nat) : Option State :=
  let l := tget [] s.mat.replay src
  let put := fun l' => some { s with mat := { s.mat with replay := tset s.mat.replay src l' } }
  let e : REnt := ⟨grp, ep % 256, sq⟩
  match l.find? fun x => x.grp == grp with
  | some x =>
    let l' := l.map fun y => if y.grp == grp then e else y
    match epochCmp ep x.ep with
    | 0 => if x.sq < sq then put l' else none
    | 1 => put l'
    | _ => none
  | none =>
    if l.length < 2 then put (l ++ [e])
    else
      match l.find? (replaceable s) with
      | some y => put ((l.filter (· != y)) ++ [e])
      | none => none

/-- A GRANT, or a CANDIDATE with its manager bit set. -/
def fromManager (b : List Nat) : Bool := fb b 0 1 == 8 || (fb b 0 1 == 6 && bitOf (fb b 36 1) 1)

/-- R320: the replay check of a frame for slot n. -/
def replayCheck (s : State) (n : Nat) (b : List Nat) : Option State :=
  let ep := fb b 12 4
  let take := fun t => replayTake t (fb b 6 2) (fb b 8 2) ep (fb b 16 3)
  match (mg s n).epoch with
  | none => if fromManager b then take (setEpoch s n ep) else none
  | some e =>
    if fromManager b && fb b 6 2 == fget s (MT_GRP_STAT_MGR n) && serialGt ep e then take (setEpoch s n ep)
    else if ep = e ∨ ep = (e + 2 ^ 32 - 1) % 2 ^ 32 then take s
    else none

/-- An ASSIGN that answers this device's JOIN (R311, R320). -/
def answersJoin (s : State) (b : List Nat) : Bool :=
  fb b 0 1 == 3 && fb b 4 2 == 0xFFFE && fget s MT_ID_STAT_STATE == 1 && fb b 24 8 == ownUid s
    && (match s.mat.join with | some j => fb b 32 8 == j.1 | none => false)

/-- R319: a frame addressed to this device is taken by its handler, which gets the slot. -/
def authTake (s : State) (b : List Nat) (h : State → Nat → State) : State :=
  match slotOf s (fb b 8 2) with
  | none => refuseFrame s MT_SEC_STAT_NO_KEY
  | some n =>
    match keyOf s n (fb b 10 1) with
    | none => refuseFrame s MT_SEC_STAT_NO_KEY
    | some key =>
      let k := b.length - 8
      if frameTag key (b.take k) != b.drop k then refuseFrame s MT_SEC_STAT_AUTH_FAIL
      else if answersJoin s b || fb b 6 2 == 0 then h s n
      else
        match replayCheck s n b with
        | none => refuseFrame s MT_SEC_STAT_REPLAY
        | some s1 => h s1 n

/-- Destination values that Table 14-5 reserves. -/
def reservedDst (d : Nat) : Bool := d == 0 || d == 0xFFF0 || decide (0xFFF2 ≤ d ∧ d ≤ 0xFFFD)

/-- A frame other than a BEACON has arrived on a lane that is Up: it is taken, flooded, forwarded or dropped (R308, R309, R314, R317, R318). -/
def routeIn (s : State) (lane : Nat) (b : List Nat) (h : State → Nat → State) : State :=
  let dst := fb b 4 2
  if laneSt s lane != 3 || inSpore s || !(answers s 0x46) then s
  else if !(lenOk b) then bump s MT_SEC_STAT_MALFORMED
  else if !(numbered s) then (if answersJoin s b then authTake s b h else s)
  else if reservedDst dst || (dst == 0xFFFF && fb b 8 2 != 0) then s
  else if dst = 0xFFFE then authTake s b h
  else if dst = 0xFFF1 ∨ dst = 0xFFFF then
    let member := dst == 0xFFFF || (match slotOf s (fb b 8 2) with | some n => grpEn s n | none => false)
    flood (if member then authTake s b h else s) lane b
  else if dst = ownId s then authTake s b h
  else forward s b

/-! ### Lanes (R306, R307) -/

/-- Leaving Up raises the lane-down source; the routes learned on the lane go, and of the frames that wait only BEACONs are left (R306, Tables 14-2 and 14-10). -/
def leaveUp (s : State) (l : Nat) : State :=
  let s1 := fset (updLane (dropRoutes s l) l fun x => { x with uid := none, pnum := false, out := x.out.filter fun b => fb b 0 1 == 1 }) (MT_LANE_STAT_PARTNER l) 0
  if laneSt s l = 3 then raiseD s1 0xC8 (some l) 0 0x46 else s1

/-- A loss of lock: 10 ms in Off, or 1 s after the eighth within 1 s (R306). -/
def lockLost (x : MLane) : MLane :=
  let n := 0 :: x.losses
  { x with losses := if 8 ≤ n.length then [] else n, wait := if 8 ≤ n.length then 1000 else 10 }

/-- A lane is held Off. -/
def laneHold (s : State) (l : Nat) : State :=
  fset (updLane (leaveUp s l) l fun x => { x with good := 0, unc := 0, part := [], sync := false, out := [], mid := [] }) (MT_LANE_STAT_STATE l) 0

/-- A lane goes Off; losing lock is counted (R306). -/
def laneOff (s : State) (l : Nat) : State := laneHold (if 2 ≤ laneSt s l then updLane (bump s (MT_LANE_STAT_DOWNS l)) l lockLost else s) l

/-- Self-test 5 holds a lane Off (Table 15-4). -/
def laneTested (s : State) (l : Nat) : Bool := s.flt.tests.any fun t => t.test == 5 && t.unit == l

/-- A lane may acquire: it is enabled, its wait in Off is over, no self-test holds it, an optical engine without a fault is fitted, and REF_CLK is present (R17, R306, R307). -/
def laneMay (s : State) (l : Nat) : Bool :=
  decide (l < 4) && flag s (MT_LANE_CFG_EN l) && (ml s l).wait == 0 && !(laneTested s l) && !s.mat.oeAbsent && !s.mat.oeFault && !s.chip.refAbsent && answers s 0x46

/-- A lane begins to acquire; the optical engine's reset has been released before the first (Table 14-3). -/
def laneAcquire (s : State) (l : Nat) : State :=
  fset (updLane { s with mat := { s.mat with oeReset := false } } l fun x => { x with good := 0, unc := 0, uncMs := 0, part := [], sync := false }) (MT_LANE_STAT_STATE l) 1

/-- A BEACON has arrived on a lane in Linked or Up (R306, R310). -/
def takeBeacon (s : State) (l : Nat) (b : List Nat) : State :=
  if laneSt s l < 2 || !(answers s 0x46) then s
  else if !(lenOk b) then bump s MT_SEC_STAT_MALFORMED
  else
    let uid := fb b 24 8
    let s1 := fset (updLane s l fun x => { x with uid := some uid, pnum := bitOf (fb b 35 1) 0 }) (MT_LANE_STAT_PARTNER l) (fb b 32 2)
    if laneSt s l = 2 ∧ (ml s l).uid = some uid then fset s1 (MT_LANE_STAT_STATE l) 3 else s1

/-- The words of one data area go to the parser (R309): frames that end come out. A first word with an illegal LEN ends parsing up to the next FFO. -/
def feedWord (ffo : Nat) (p : MLane × List (List Nat)) (q : Nat × List Nat) : MLane × List (List Nat) :=
  let x := if !p.1.sync && q.1 == ffo then { p.1 with sync := true, part := [] } else p.1
  if !x.sync || (x.part.isEmpty && q.2.all (· == 0)) then (x, p.2)
  else
    let part := x.part ++ q.2
    let len := fb part 2 2
    if len % 8 ≠ 0 ∨ len < 40 ∨ (if fb part 0 1 = 13 then 4096 else 1024) < len then ({ x with sync := false, part := [] }, p.2 ++ [part])
    else if len ≤ part.length then ({ x with part := [] }, p.2 ++ [part])
    else ({ x with part := part }, p.2)

/-- The frames of a codeword's 640 bytes, and the parser after it. -/
def feedCodeword (x : MLane) (ffo : Nat) (data : List Nat) : MLane × List (List Nat) :=
  ((List.range 80).map fun i => (i, (List.range 8).map fun k => data.getD (8 * i + k) 0)).foldl (feedWord ffo) (x, [])

/-- An uncorrectable codeword (R306, R309). -/
def badCodeword (s : State) (l : Nat) : State :=
  let s1 := bump (updLane s l fun x => { x with unc := x.unc + 1, uncMs := x.uncMs + 1, good := 0, part := [], sync := false }) (MT_LANE_FEC_UNC l)
  if 2 ≤ laneSt s1 l ∧ (4 ≤ (ml s1 l).unc ∨ fget s1 (MT_LANE_CFG_UNC_MAX l) < (ml s1 l).uncMs) then laneOff s1 l else s1

/-- What is left of a queue of frames after n bytes: the rest of the frame in transmission, and the frames after it. -/
def dropBytes : Nat → List (List Nat) → List Nat × List (List Nat)
  | _, [] => ([], [])
  | n, f :: fs => if n = 0 ∧ f ≠ [] then ([], f :: fs) else if n < f.length then (f.drop n, fs) else dropBytes (n - f.length) fs

/-- The codeword that a lane sends next (R305): the frames that wait fill the data area, and zeros follow them; FFO is the word after the frame in transmission. In Acquire it is an
idle codeword (Table 14-2). One codeword is sent for each one received (DESIGN CHOICE, log entry 120). -/
def sendCodeword (s : State) (l : Nat) : State :=
  updLane s l fun x =>
    let ffo := if x.mid.length < 640 ∧ x.out ≠ [] then x.mid.length / 8 else 127
    let b := x.mid ++ x.out.flatten
    let data := b.take 640
    let r := dropBytes 640 (x.mid :: x.out)
    { x with line := codewordOf x.next l ffo (data ++ List.replicate (640 - data.length) 0), next := (x.next + 1) % 1024, mid := r.1, out := r.2 }

/-- A codeword that decodes while the lane acquires: the eighth consistent one gives lock (R306). -/
def acquireStep (s : State) (l cnt lane : Nat) : State :=
  let x := ml s l
  let good := if x.good ≠ 0 ∧ cnt = (x.cnt + 1) % 1024 ∧ lane = x.lane then x.good + 1 else 1
  let s1 := updLane s l fun x => { x with good := good, cnt := cnt, lane := lane, unc := 0 }
  if good = 8 then fset (updLane s1 l fun x => { x with good := 0 }) (MT_LANE_STAT_STATE l) 2 else s1

end Sys2Proof.Machine
end

