-- ==== Sys2Proof/Machine/Mat.lean ====
section
/-! DEFINITION. Machine/Mat.lean: lanes, discovery, device IDs, routes, election, leases, remote access and the MT_ registers (spec/14_mat_fabric.md, R305 to R331). -/
namespace Sys2Proof.Machine

/-! ### The power in force (R325) -/

/-- MT_PMAT: the least member value over the enabled slots, and the lowest slot that sets it. -/
def showPmat (s : State) : State :=
  let l := ((List.range 256).filter (grpEn s)).map fun n => (fget s (MT_GRP_STAT_GRANT n), n)
  match l with
  | [] => fset (fset (fsetB s MT_PMAT_NONE true) MT_PMAT_PMAT 0) MT_PMAT_SLOT 0
  | h :: t =>
    let m := t.foldl (fun b p => if p.1 < b.1 then p else b) h
    fset (fset (fsetB s MT_PMAT_NONE false) MT_PMAT_PMAT m.1) MT_PMAT_SLOT m.2

/-- A slot's lease state and member value. -/
def setLease (s : State) (n st v : Nat) : State := showPmat (fset (fset s (MT_GRP_STAT_LEASE n) st) (MT_GRP_STAT_GRANT n) v)

def lfloor (s : State) (n : Nat) : Nat := fget s (MT_GRP_MEM_LFLOOR n)

/-! ### Reports and grants (R322 to R324) -/

/-- Bytes 24 on of a REPORT (R322, Table 14-7). -/
def memReport (s : State) (n : Nat) : List Nat :=
  let d := nearU 32 (sumRat ((serviceFronds s).map (demand s)) / etaR s + pOthers s)
  let deficit := if s.bud.unreach then nearU 32 (pMeas s - s.bud.cap) else 0
  let p := s.mat.prog.getD (0, 0)
  leBytes 4 d ++ leBytes 4 (lfloor s n) ++ leBytes 4 deficit ++ leBytes 4 p.1 ++ [p.2 % 256, s.mat.prog.isSome.toNat + 2 * s.bud.unreach.toNat, 0, 0]
    ++ leBytes 4 (fget s (MT_GRP_STAT_GRANT n))

/-- The manager takes a member's REPORT. -/
def takeReport (s : State) (n src : Nat) (b : List Nat) : State :=
  let old := (mg s n).membs.find? fun m => m.id == src
  let m : Memb := ⟨src, fb b 24 4, fb b 28 4, bitOf (fb b 41 1) 1, fb b 36 4, fb b 40 1, bitOf (fb b 41 1) 0, 0, (old.map (·.grant)).getD 0, (old.map (·.left)).getD 0⟩
  updMg s n fun x => { x with membs := (x.membs.filter fun y => y.id != src) ++ [m] }

/-- A member sends its REPORT to the device that it takes as manager, or takes it itself. -/
def sendReport (s : State) (n : Nat) : State :=
  let m := fget s (MT_GRP_STAT_MGR n)
  if m = 0 then s
  else if m = ownId s then takeReport s n m (List.replicate 24 0 ++ memReport s n)
  else sendFrame s n 7 m none (memReport s n)

/-- R324: a member takes a grant, clamped, for LEASE_m milliseconds, and answers with a REPORT. -/
def takeGrant (s : State) (n grant lease : Nat) : State :=
  if grpEn s n then
    let s1 := updMg s n fun x => { x with lease := min lease (fget s (MT_GRP_MEM_LEASE_MAX n)) }
    sendReport (setLease s1 n 1 (min (fget s (MT_GRP_MEM_GCEIL n)) (max (lfloor s n) grant))) n
  else s

/-- a is at a lesser position than b: STEP differences under RFC 1982 (R323). -/
def posDiff (a b : Memb) : Int := signedOf 32 (a.step + 2 ^ 32 - b.step % 2 ^ 32) * 256 + ((a.prog : Int) - b.prog)

/-- R323 steps 3 and 4: the slack of a member, and its weight in 1/SLACK_MAX. -/
def memSlack (sm : Nat) (ms : List Memb) (m : Memb) : Nat :=
  let valid := ms.filter fun x => x.valid
  if m.deficit then 0
  else if !m.valid then sm
  else
    let lo := valid.foldl (fun b x => if posDiff x b < 0 then x else b) m
    min sm (posDiff m lo).toNat

def memWeight (sm bias : Nat) (ms : List Memb) (m : Memb) : Nat := sm + bias * (sm - memSlack sm ms m)

/-- The largest k, built from bit n down, for which p holds (p holds at 0 and is monotone). -/
def largestNat (p : Nat → Bool) : Nat → Nat → Nat
  | 0, k => k
  | n + 1, k => largestNat p n (if p (k + 2 ^ n) then k + 2 ^ n else k)

/-- R323 steps 2 to 5: the grants of a round with ceiling c: (member ID, grant), and UNDER. -/
def grantSplit (s : State) (n c : Nat) (ms : List Memb) : List (Nat × Nat) × Bool :=
  let sm := fget s (MT_GRP_MGR_SLACK_MAX n)
  let bias := fget s (MT_GRP_MGR_BIAS n)
  let fl := fun (m : Memb) => min m.floor (fget s (MT_GRP_MGR_FLOOR_MAX n))
  let dm := fun (m : Memb) => max (fl m) (min m.demand 4095)
  let sumF := (ms.map fl).sum
  if c ≤ sumF then (ms.map fun m => (m.id, fl m * c / sumF), true)
  else
    let u := 16 * sm
    let part := fun k m => min ((dm m - fl m) * u) (k * memWeight sm bias ms m)
    let k := largestNat (fun k => decide ((ms.map (part k)).sum ≤ (c - sumF) * u)) 17 0
    (ms.map fun m => (m.id, (fl m * u + part k m) / u), false)

/-- R322, R323: one grant round of the manager of slot n. -/
def grantRound (s : State) (n : Nat) : State :=
  let me := ownId s
  let s0 := takeReport s n me (List.replicate 24 0 ++ memReport s n)
  let s1 := setEpoch s0 n (((mg s0 n).epoch.getD 0) + 1)
  let g := mg s1 n
  let inRound := g.membs.filter fun m => m.age ≤ 4
  let gone := (g.membs.filter fun m => decide (4 < m.age ∧ 0 < m.left)).map (·.grant)
  let want := g.sites.foldl (fun c x => min c x.2.1) (10 * fget s1 (MT_GRP_MGR_CEIL n))
  let c := match g.c with | none => want | some p => min want (p + p / 16)
  let r := grantSplit s1 n (c - gone.sum) inRound
  let lease := 2 * fget s1 (MT_GRP_CFG_LEASE n)
  let s2 := updMg s1 n fun x => { x with
    c := some c,
    membs := (x.membs.filter fun m => decide (m.age ≤ 4 ∨ 0 < m.left)).map fun m =>
      match r.1.find? fun q => q.1 == m.id with | some q => { m with grant := q.2, left := lease } | none => m }
  r.1.foldl (fun t q => if q.1 = me then takeGrant t n q.2 lease else sendFrame t n 8 q.1 none (leBytes 4 q.2 ++ leBytes 2 lease ++ [r.2.toNat, 0])) s2

/-! ### Election (R313, R321) -/

/-- The lowest ID of a list, 0 for none. -/
def lowestId (l : List Nat) : Nat := match lowestCode l with | some x => x | none => 0

/-- The device that slot n takes as manager: the lowest eligible candidate of the last three periods, itself included. -/
def managerOf (s : State) (n : Nat) : Nat :=
  lowestId ((((mg s n).cands.filter fun c => decide (c.age ≤ 3) && bitOf c.flags 0).map (·.id)) ++ (if flag s (MT_GRP_CFG_ELIG n) && numbered s then [ownId s] else []))

/-- The device that this member takes as registrar (R313). -/
def registrarOf (s : State) : Nat :=
  lowestId ((((mg s 0).cands.filter fun c => decide (c.age ≤ 3) && bitOf c.flags 2).map (·.id)) ++ (if flag s MT_ID_CFG_REG_CAP && numbered s && grpEn s 0 then [ownId s] else []))

/-- R321: the manager that slot n takes, and whether this device acts as manager. -/
def elect (s : State) (n : Nat) : State :=
  let m := managerOf s n
  let s1 := if m = fget s (MT_GRP_STAT_MGR n) then s else sendReport (raiseD (fset s (MT_GRP_STAT_MGR n) m) 0xCC none 0 0x46) n
  if m ≠ 0 ∧ m = ownId s ∧ 3 ≤ (mg s n).age then
    if fget s (MT_GRP_STAT_ROLE n) = 2 then s1
    else setEpoch (fset (updMg s1 n fun x => { x with c := none }) (MT_GRP_STAT_ROLE n) 2) n ((mg s n).epoch.getD 0 + 65536)
  else fset s1 (MT_GRP_STAT_ROLE n) (if grpEn s n then 1 else 0)

/-- R313: whether this device acts as registrar. -/
def electReg (s : State) : State :=
  let acts := registrarOf s = ownId s ∧ ownId s ≠ 0 ∧ 3 ≤ (mg s 0).age
  if acts then
    if flag s MT_ID_STAT_REGISTRAR then s
    else fsetB { s with mat := { s.mat with ids := [], regLeft := 1000 * fget s MT_ID_CFG_ID_LEASE } } MT_ID_STAT_REGISTRAR true
  else fsetB s MT_ID_STAT_REGISTRAR false

/-- Bytes 24 on of a CANDIDATE. -/
def candBody (s : State) (n : Nat) : List Nat :=
  leBytes 8 (ownUid s) ++ leBytes 4 ((mg s n).epoch.getD 0)
    ++ [(flag s (MT_GRP_CFG_ELIG n)).toNat + 2 * (fget s (MT_GRP_STAT_ROLE n) == 2).toNat
        + (if n = 0 then 4 * (flag s MT_ID_CFG_REG_CAP).toNat + 8 * (flag s MT_ID_STAT_REGISTRAR).toNat else 0), 0, 0, 0]

/-- LEASE_PERIOD: a lease period of group slot n ends: elections, a CANDIDATE, the manager's grant round, and a CEILING (R313, R321, R322, R326). -/
def execLeasePeriod (n : BitVec 8) (s : State) : Out := nextOf s <|
  let n := n.toNat
  if !(grpEn s n) || !(numbered s) || inSpore s || !(answers s 0x46) then s
  else
    let s1 := updMg s n fun x => { x with
      age := min 255 (x.age + 1),
      cands := (x.cands.map fun c => { c with age := c.age + 1 }).filter fun c => c.age ≤ 3,
      sites := (x.sites.map fun c => (c.1, c.2.1, c.2.2 + 1)).filter fun c => c.2.2 ≤ 4,
      membs := x.membs.map fun m => { m with age := min 255 (m.age + 1) } }
    let s2 := elect s1 n
    let s3 := if n = 0 then electReg s2 else s2
    let s4 := if flag s3 (MT_GRP_CFG_ELIG n) || (n == 0 && flag s3 MT_ID_CFG_REG_CAP) then sendFrame s3 n 6 0xFFF1 none (candBody s3 n) else s3
    let s5 := if fget s4 (MT_GRP_STAT_ROLE n) = 2 then grantRound s4 n else s4
    let m := fget s5 (MT_GRP_STAT_MGR n)
    if flag s5 MT_SITE_VALID && flag s5 (MT_GRP_CFG_SITE n) && m != 0 then
      if m = ownId s5 then (updMg s5 n fun x => { x with sites := (x.sites.filter fun c => c.1 != m) ++ [(m, fget s5 MT_SITE_CEIL, 0)] })
      else (sendFrame s5 n 9 m none (leBytes 4 (fget s5 MT_SITE_CEIL) ++ [0, 0, 0, 0]))
    else s5

/-! ### Device IDs (R311 to R314) -/

/-- R314: a device that leaves Numbered drops every lease and starts again from Unnumbered. -/
def leaveNumbered (s : State) : State :=
  let s1 := ((List.range 256).filter (grpEn s)).foldl (fun t n =>
    fset (fset (setLease (updMg t n fun x => { x with age := 0, cands := [], membs := [], sites := [], c := none }) n 0 (lfloor t n)) (MT_GRP_STAT_MGR n) 0) (MT_GRP_STAT_ROLE n) 1) s
  fset (fset (fsetB { s1 with mat := { s1.mat with join := none, ids := [], relays := [] } } MT_ID_STAT_REGISTRAR false) MT_ID_STAT_ID 0) MT_ID_STAT_STATE 0

/-- R311: a device with STATIC_EN enters Numbered with its static ID; every other enters Unnumbered. -/
def startId (s : State) : State :=
  if flag s MT_ID_CFG_STATIC_EN then fset (fset s MT_ID_STAT_ID (fget s MT_ID_CFG_STATIC)) MT_ID_STAT_STATE 2 else s

def joinBody (uid nonce proxy : Nat) : List Nat := leBytes 8 uid ++ leBytes 8 nonce ++ leBytes 2 proxy ++ [0, 0, 0, 0, 0, 0]
def assignBody (uid nonce id st lane : Nat) : List Nat := leBytes 8 uid ++ leBytes 8 nonce ++ leBytes 2 id ++ [st, lane, 0, 0, 0, 0]

/-- JOIN_SEND: a JOIN to the partner of the lowest Up lane whose partner beacons as numbered, with a fresh NONCE (R311). -/
def execJoinSend (s : State) : Out := nextOf s <|
  match (upLanes s).find? fun l => (ml s l).pnum, keyOf s 0 (fget s (MT_GRP_CFG_GEN 0)) with
  | some l, some key =>
    if fget s MT_ID_STAT_STATE = 0 ∧ inSpore s = false ∧ answers s 0x46 = true then
      let d := draw s
      let nonce := d.1.toNat
      let s1 := bump (fset { d.2 with mat := { d.2.mat with join := some (nonce, l) } } MT_ID_STAT_STATE 1) MT_ID_STAT_JOINS
      (txLane s1 l (sealed s1 0 2 0xFFFE 0 0 1 key (joinBody (ownUid s) nonce 0)))
    else s
  | _, _ => s

/-- JOIN_TIMEOUT: 1 s without an ASSIGN (R311). -/
def execJoinTimeout (s : State) : Out := nextOf s <|
  if fget s MT_ID_STAT_STATE = 1 then (fset { s with mat := { s.mat with join := none } } MT_ID_STAT_STATE 0) else s

/-- FULL_RETRY_EXPIRY: JOIN_RETRY seconds in Full (R311). -/
def execFullRetryExpiry (s : State) : Out := nextOf s <| if fget s MT_ID_STAT_STATE = 3 then (fset s MT_ID_STAT_STATE 0) else s

/-- R312: the registrar's answer to a JOIN: (STATUS, ID). -/
def allocate (s : State) (uid proxy : Nat) : Nat × Nat :=
  if s.mat.regLeft ≠ 0 then (3, 0)
  else
    match s.mat.ids.find? fun e => e.2 == uid with
    | some e => (0, e.1)
    | none =>
      let free := fun i => i != 0 && decide (i ≤ 0xFFEF) && i != ownId s && (tget? s.mat.ids i).isNone
      match ((List.range 64).map fun k => proxy / 64 * 64 + k).find? free with
      | some i => (0, i)
      | none => match (List.range 0xFFF0).find? free with
        | some i => (0, i)
        | none => (1, 0)

/-- The registrar allocates, and keeps what it gave. -/
def allocated (s : State) (uid proxy : Nat) : State × Nat × Nat :=
  let r := allocate s uid proxy
  (if r.1 = 0 then { s with mat := { s.mat with ids := tset s.mat.ids r.2 uid } } else s, r)

/-- A JOIN arrives: a proxy relays it to the registrar that it takes, or answers WAIT while it takes none; the registrar answers its proxy (R311 to R313). -/
def takeJoin (lane : Nat) (b : List Nat) (s : State) (_ : Nat) : State :=
  let uid := fb b 24 8
  let nonce := fb b 32 8
  if fb b 4 2 = 0xFFFE then
    let r := registrarOf s
    if r = 0 then sendFrame s 0 3 0xFFFE (some lane) (assignBody uid nonce 0 3 lane)
    else if (ml s lane).joins ≠ 0 then s
    else
      let s1 := updLane { s with mat := { s.mat with relays := (s.mat.relays.filter fun x => x.2.2 != lane) ++ [(uid, nonce, lane)] } } lane fun x => { x with joins := 1 }
      if r = ownId s then
        if flag s MT_ID_STAT_REGISTRAR then
          let a := allocated s1 uid (ownId s)
          sendFrame a.1 0 3 0xFFFE (some lane) (assignBody uid nonce a.2.2 a.2.1 lane)
        else s1
      else sendFrame s1 0 2 r none (joinBody uid nonce (ownId s))
  else if flag s MT_ID_STAT_REGISTRAR then
    let a := allocated s uid (fb b 40 2)
    sendFrame a.1 0 3 (fb b 6 2) none (assignBody uid nonce a.2.2 a.2.1 0)
  else s

/-- An ASSIGN arrives: the joiner acts on its STATUS, a Numbered device leaves on CONFLICT, and a proxy relays it to its joiner (R311, Table 14-8). -/
def takeAssign (_lane : Nat) (b : List Nat) (s : State) (_ : Nat) : State :=
  let st := fb b 42 1
  if answersJoin s b then
    let s1 := fset s MT_ID_STAT_LAST st
    match st with
    | 0 => fset (fset { s1 with mat := { s1.mat with join := none } } MT_ID_STAT_ID (fb b 40 2)) MT_ID_STAT_STATE 2
    | 1 => raiseD (fset { s1 with mat := { s1.mat with join := none } } MT_ID_STAT_STATE 3) 0xCA none 0 0x46
    | 2 => bump s1 MT_ID_STAT_CONFLICTS
    | _ => s1
  else if numbered s && fb b 24 8 == ownUid s && st == 2 then leaveNumbered (bump (fset s MT_ID_STAT_LAST 2) MT_ID_STAT_CONFLICTS)
  else
    match takeFirst (fun x : Nat × Nat × Nat => x.1 == fb b 24 8 && x.2.1 == fb b 32 8) s.mat.relays with
    | some (x, rest) => sendFrame { s with mat := { s.mat with relays := rest } } 0 3 0xFFFE (some x.2.2) (assignBody x.1 x.2.1 (fb b 40 2) st x.2.2)
    | none => s

/-- RENEW_SEND: a Numbered device renews its ID (R312). -/
def execRenewSend (s : State) : Out := nextOf s <|
  let r := registrarOf s
  if numbered s && r != 0 && r != ownId s then (sendFrame s 0 4 r none (leBytes 8 (ownUid s) ++ leBytes 2 (ownId s) ++ [0, 0, 0, 0, 0, 0])) else s

/-- A RENEW arrives at the registrar: it is renewed, or answered CONFLICT when another UID holds the ID (R312). -/
def takeRenew (b : List Nat) (s : State) (_ : Nat) : State :=
  let uid := fb b 24 8
  let id := fb b 32 2
  if !(flag s MT_ID_STAT_REGISTRAR) then s
  else if (match tget? s.mat.ids id with | some u => u != uid | none => id == ownId s && uid != ownUid s) then
    sendFrame s 0 3 (fb b 6 2) none (assignBody uid 0 id 2 0)
  else { s with mat := { s.mat with ids := tset s.mat.ids id uid } }

/-- ID_LEASE_EXPIRY: the registrar frees an ID that has not been renewed (R312). -/
def execIdLeaseExpiry (id : BitVec 16) (s : State) : Out := nextOf s <|
  if flag s MT_ID_STAT_REGISTRAR then { s with mat := { s.mat with ids := tdel s.mat.ids id.toNat } } else s

/-! ### Routes (R315, R316) -/

/-- A 4-byte entry of a ROUTE frame. -/
def routeEntry (id kind metric : Nat) : List Nat := leBytes 2 id ++ [kind, metric]

/-- The entries advertised on a lane (R315). -/
def routeEntries (s : State) (l : Nat) : List (List Nat) :=
  [routeEntry (ownId s) 0 0, routeEntry (ownId s / 64 * 64) 1 0]
    ++ ((s.mat.dev.filter fun r => r.2.lane != l && decide (r.2.metric < 3)).map fun r => routeEntry r.1 0 r.2.metric)
    ++ ((s.mat.blk.filter fun r => r.2.lane != l && decide (r.2.metric < 31)).map fun r => routeEntry r.1 1 r.2.metric)
    ++ (s.mat.gone.filter fun g => g.2.2.1 != l).map fun g => routeEntry g.1 g.2.1 32

/-- The ROUTE frames of a lane, at most 244 entries each. -/
def sendRoutes (s : State) (l : Nat) : State :=
  let es := routeEntries s l
  (List.range ((es.length + 243) / 244)).foldl (fun t k =>
    let p := (es.drop (244 * k)).take 244
    sendFrame t 0 5 0xFFFE (some l) ([p.length, 0, 0, 0, 0, 0, 0, 0] ++ pad8 p.flatten)) s

/-- ROUTE_ADVERTISE: every 100 ms (R315). The JOIN limits of R311 start again, and withdrawn routes leave after 300 ms. -/
def execRouteAdvertise (s : State) : Out := nextOf s <|
  let s1 := if numbered s && !(inSpore s) && answers s 0x46 then (upLanes s).foldl sendRoutes s else s
  let s2 := { s1 with mat := { s1.mat with gone := (s1.mat.gone.map fun g => (g.1, g.2.1, g.2.2.1, g.2.2.2 - 1)).filter fun g => g.2.2.2 != 0 } }
  ((List.range 4).foldl (fun t l => updLane t l fun x => { x with joins := 0 }) s2)

/-- One entry of a ROUTE frame (R315, R316). -/
def takeRoute (lane : Nat) (s : State) (e : List Nat) : State :=
  let id := fb e 0 2
  let kind := fb e 2 1
  let m := fb e 3 1 + 1
  let tab := if kind = 0 then s.mat.dev else s.mat.blk
  let cur := tget? tab id
  if kind ≠ 0 ∧ kind ≠ 1 then s
  else if 32 ≤ m then (match cur with | some r => if r.lane = lane then withdraw s id kind else s | none => s)
  else
    let install := match cur with
      | none => decide (tab.length < 1024)
      | some r => decide (m < r.metric) || r.lane == lane || (m == r.metric && decide (lane < r.lane))
    if install then
      let t' := tset tab id ⟨lane, m⟩
      let s1 := { s with mat := { s.mat with gone := s.mat.gone.filter fun g => !(g.1 == id && g.2.1 == kind) } }
      showRoutes (if kind = 0 then { s1 with mat := { s1.mat with dev := t' } } else { s1 with mat := { s1.mat with blk := t' } })
    else if cur.isNone ∧ kind = 0 then bump s MT_ROUTE_STAT_FULL
    else s

/-- A ROUTE frame arrives. -/
def takeRoutes (lane : Nat) (b : List Nat) (s : State) (_ : Nat) : State :=
  (List.range (fb b 24 1)).foldl (fun t k => takeRoute lane t ((b.drop (32 + 4 * k)).take 4)) s

/-- ROUTE_EXPIRY: a device (false) or block (true) route not refreshed for 350 ms (R315). -/
def execRouteExpiry (block : Bool) (id : BitVec 16) (s : State) : Out := nextOf s <|
  if (tget? (if block then s.mat.blk else s.mat.dev) id.toNat).isSome then (withdraw s id.toNat block.toNat) else s

/-! ### Frames that arrive -/

/-- A CANDIDATE arrives (R313, R321). -/
def takeCandidate (b : List Nat) (s : State) (n : Nat) : State :=
  let src := fb b 6 2
  let s1 := updMg s n fun x => { x with cands := (x.cands.filter fun c => c.id != src) ++ [⟨src, fb b 36 1, fb b 32 4, 0⟩] }
  let s2 := elect s1 n
  if n = 0 then electReg s2 else s2

/-- A CEILING arrives at the manager (R326). -/
def takeCeiling (b : List Nat) (s : State) (n : Nat) : State :=
  if fget s (MT_GRP_STAT_ROLE n) = 2 then
    updMg s n fun x => { x with sites := (x.sites.filter fun c => c.1 != fb b 6 2) ++ [(fb b 6 2, fb b 24 4, 0)] }
  else s

/-- A REG_RSP frame of this device (Table 14-7). -/
def sendRegRsp (s : State) (dev tag st addr data : Nat) : State :=
  sendFrame s (tag / 2 ^ 24) 12 dev none (leBytes 3 tag ++ [st] ++ leBytes 4 addr ++ leBytes 8 data)

/-- R327: a REG_RD or REG_WR is queued as a host access, or answered DENIED. -/
def takeReg (we : Bool) (b : List Nat) (s : State) (n : Nat) : State :=
  let src := fb b 6 2
  let addr := fb b 24 4
  let page := addr / 0x10000
  let cnt := tget 0 s.mat.reqs src + 1
  let s1 := { s with mat := { s.mat with reqs := tset s.mat.reqs src cnt } }
  let tag := fb b 16 3 + n * 2 ^ 24
  if flag s (MT_GRP_CFG_RA_EN n) && decide (fget s MT_RA_CFG_RA_LO ≤ page ∧ page ≤ fget s MT_RA_CFG_RA_HI ∧ cnt ≤ fget s MT_RA_CFG_RATE) && page != 7 then
    { s1 with bus := { s1.bus with queue := s1.bus.queue ++ [{ src := .mat src tag, we := we, addr := addr, data := if we then fb b 32 8 else 0 }] } }
  else sendRegRsp s1 src tag 3 addr 0

/-- A REG_RSP arrives at the requester (R327). -/
def takeRegRsp (b : List Nat) (s : State) (_ : Nat) : State :=
  { s with mat := { s.mat with answers := s.mat.answers ++ [(fb b 24 3, fb b 27 1, fb b 28 4, fb b 32 8)] } }

/-- What a frame that has been taken does, by its TYPE (Table 14-6). -/
def takeType (lane : Nat) (b : List Nat) (s : State) (n : Nat) : State :=
  match fb b 0 1 with
  | 2 => takeJoin lane b s n
  | 3 => takeAssign lane b s n
  | 4 => takeRenew b s n
  | 5 => takeRoutes lane b s n
  | 6 => takeCandidate b s n
  | 7 => takeReport s n (fb b 6 2) b
  | 8 => takeGrant s n (fb b 24 4) (fb b 28 2)
  | 9 => takeCeiling b s n
  | 10 => takeReg false b s n
  | 11 => takeReg true b s n
  | 12 => takeRegRsp b s n
  | _ => s

/-- A frame has arrived on a lane. -/
def frameIn (lane : Nat) (s : State) (b : List Nat) : State :=
  if fb b 0 1 = 1 then takeBeacon s lane b else routeIn s lane b (takeType lane b)

/-- A frame of one type has arrived on a lane: the bytes are its operand. A frame of another type is another command's. -/
def frameOf (type : Nat) (lane : BitVec 2) (b : List Byte) (s : State) : State :=
  let l := b.map (·.toNat)
  if fb l 0 1 = type then frameIn lane.toNat s l else s

/-- BEACON: a BEACON arrives and may bring the lane Up (R306). -/
def execBeacon (lane : BitVec 2) (b : List Byte) (s : State) : Out := nextOf s <| (frameOf 1 lane b s)
/-- JOIN: a JOIN arrives at a proxy or the registrar (R311, R312). -/
def execJoin (lane : BitVec 2) (b : List Byte) (s : State) : Out := nextOf s <| (frameOf 2 lane b s)
/-- ASSIGN: an ASSIGN arrives (R311, R312). -/
def execAssign (lane : BitVec 2) (b : List Byte) (s : State) : Out := nextOf s <| (frameOf 3 lane b s)
/-- RENEW: a RENEW arrives at the registrar (R312). -/
def execRenew (lane : BitVec 2) (b : List Byte) (s : State) : Out := nextOf s <| (frameOf 4 lane b s)
/-- ROUTE: a ROUTE frame arrives (R315). -/
def execRoute (lane : BitVec 2) (b : List Byte) (s : State) : Out := nextOf s <| (frameOf 5 lane b s)
/-- CANDIDATE: a CANDIDATE arrives (R321). -/
def execCandidate (lane : BitVec 2) (b : List Byte) (s : State) : Out := nextOf s <| (frameOf 6 lane b s)
/-- REPORT: a member's REPORT arrives at the manager (R322). -/
def execReport (lane : BitVec 2) (b : List Byte) (s : State) : Out := nextOf s <| (frameOf 7 lane b s)
/-- GRANT: a GRANT arrives (R324). `edge`: it arrived in the cycle in which the lease that the slot holds expired, and renewed it (R185, kind 5). -/
def execGrant (lane : BitVec 2) (b : List Byte) (edge : Bool) (s : State) : Out := nextOf s <|
  let l := b.map (·.toNat)
  let renewed := fun (t : State) (n : Nat) => nearMissIf (edge && fget t (MT_GRP_STAT_LEASE n) == 1) (takeType lane.toNat l t n) 0x46 5
  if fb l 0 1 = 8 then routeIn s lane.toNat l renewed else s
/-- CEILING: a CEILING arrives at the manager (R326). -/
def execCeiling (lane : BitVec 2) (b : List Byte) (s : State) : Out := nextOf s <| (frameOf 9 lane b s)
/-- REG_RSP: a REG_RSP arrives at the requester (R327). -/
def execRegRsp (lane : BitVec 2) (b : List Byte) (s : State) : Out := nextOf s <| (frameOf 12 lane b s)
/-- CAPTURE: a CAPTURE frame arrives at its destination (R328); its samples leave no state that the spec names. -/
def execCapture (lane : BitVec 2) (b : List Byte) (s : State) : Out := nextOf s <| (frameOf 13 lane b s)

/-- A decoded codeword of a lane (R305, R306, R309): the number of corrected symbols and the symbols, none for an uncorrectable one. -/
def takeCodeword (s : State) (l : Nat) (r : Option (Nat × List Nat)) : State :=
  match r with
  | none => badCodeword s l
  | some (corr, w) =>
    let s1 := bumpBy s (MT_LANE_FEC_CORR l) corr
    if laneSt s l = 1 then acquireStep s1 l (cwCount w) (cwLane w)
    else
      let r := feedCodeword (ml s1 l) (cwFfo w) (cwData w)
      r.2.foldl (frameIn l) (updLane s1 l fun _ => { r.1 with unc := 0, cnt := cwCount w, lane := cwLane w })

/-- A codeword arrives on a lane that is not Off, and the lane sends its next (R305). -/
def codeword (l : Nat) (sym : List Nat) (s : State) : State :=
  if laneSt s l = 0 ∨ answers s 0x46 = false then s else takeCodeword (sendCodeword s l) l (rsDecode sym)

/-- LANE_REACQUIRE: a lane's Off wait ends (R306). -/
def execLaneReacquire (l : BitVec 2) (s : State) : Out := nextOf s <|
  if laneSt s l.toNat = 0 ∧ laneMay s l.toNat then (laneAcquire s l.toNat) else s

/-- LOSS_OF_SIGNAL: OE_LOS_l changes; high, the lane loses lock and goes Off (R306). -/
def execLossOfSignal (l : BitVec 2) (high : Bool) (s : State) : Out := nextOf s <|
  let s1 := fsetB s (MT_LANE_STAT_LOS l.toNat) high
  if high && laneSt s l.toNat != 0 then (laneOff s1 l.toNat) else s1

/-- BEACON_TIMEOUT: 4 ms without a beacon: a lane that is Up returns to Linked (R306). -/
def execBeaconTimeout (l : BitVec 2) (s : State) : Out := nextOf s <|
  if laneSt s l.toNat = 3 then (fset (leaveUp s l.toNat) (MT_LANE_STAT_STATE l.toNat) 2)
  else (updLane s l.toNat fun x => { x with uid := none })

/-- BEACON_SEND: every 1 ms, each Linked or Up lane sends a BEACON (R306). The counters per millisecond start again, and the millisecond counts against the flood cache, the
registrar's first lease, the leases that the manager has granted and the waits of the lanes in Off. -/
def execBeaconSend (s : State) : Out := nextOf s <|
  let s1 := if answers s 0x46 then ((List.range 4).filter fun l => 2 ≤ laneSt s l).foldl sendBeacon s else s
  let s2 := { s1 with mat := { s1.mat with
    bad := 0, reqs := [], regLeft := s1.mat.regLeft - 1,
    seen := (s1.mat.seen.map fun e => (e.1, e.2.1, e.2.2.1, e.2.2.2.1, e.2.2.2.2 - 1)).filter fun e => e.2.2.2.2 != 0,
    grps := s1.mat.grps.map fun p => (p.1, { p.2 with membs := p.2.membs.map fun m => { m with left := m.left - 1 } }) } }
  ((List.range 4).foldl (fun t l => updLane t l fun x => { x with
    uncMs := 0, flood := 0, wait := x.wait - 1, losses := (x.losses.map (· + 1)).filter (· < 1000) }) s2)

/-- OE_FAULT: OE_FAULT_N goes low (R307). -/
def execOeFault (s : State) : Out := nextOf s <|
  if s.mat.oeFault then s
  else (raiseD (((List.range 4).filter fun l => laneSt s l != 0).foldl laneOff { s with mat := { s.mat with oeFault := true } }) 0xC9 none 0 0x46)

/-- OE_FAULT_CLEAR: OE_FAULT_N returns high; each lane acquires again by its LANE_REACQUIRE, 10 ms later (R307). -/
def execOeFaultClear (s : State) : Out := nextOf s <|
  (List.range 4).foldl (fun t l => updLane t l fun x => { x with wait := max x.wait 10 }) { s with mat := { s.mat with oeFault := false } }

/-- OE_PRESENT_CHANGE: OE_PRESENT_N changes (R307). -/
def execOePresentChange (present : Bool) (s : State) : Out := nextOf s <|
  let s1 := { s with mat := { s.mat with oeAbsent := !present } }
  if present then s1 else (((List.range 4).filter fun l => laneSt s l != 0).foldl laneOff s1)

/-- LEASE_EXPIRY: the lease of slot n expires (R324). -/
def execLeaseExpiry (n : BitVec 8) (s : State) : Out := nextOf s <|
  let n := n.toNat
  if grpEn s n && fget s (MT_GRP_STAT_LEASE n) == 1 then
    (raiseD (fset s (MT_GRP_STAT_LEASE n) (if fget s (MT_GRP_STAT_GRANT n) ≤ lfloor s n then 3 else 2)) 0xCD none 0 0x46)
  else s

/-- LEASE_FALL_TICK: a millisecond after the expiry, the member value falls by FALL down to LFLOOR (R324). -/
def execLeaseFallTick (n : BitVec 8) (s : State) : Out := nextOf s <|
  let n := n.toNat
  if grpEn s n && fget s (MT_GRP_STAT_LEASE n) == 2 then
    let v := max (lfloor s n) (fget s (MT_GRP_STAT_GRANT n) - fget s (MT_GRP_MEM_FALL n))
    (setLease s n (if v = lfloor s n then 3 else 2) v)
  else s

/-! ### The MT_ registers (R330, R331) -/

/-- R330: a write to an MT_ register is refused with ERR. -/
def mtRefused (s : State) (n : RName) (i v : Nat) : Bool :=
  let now := match n with | .MT_LANE_CFG | .MT_SITE | .MT_CAP_DST => true | _ => false
  (inSpore s && !now) ||
  (match n with
  | .MT_ID_CFG =>
    (bitOf v 16 && decide (bitsOf v 15 0 = 0 ∨ 0xFFEF < bitsOf v 15 0)) || (bitOf v 17 && !(bitOf v 16)) || bitsOf v 31 24 == 0 || bitsOf v 39 32 == 0
  | .MT_GRP_CFG =>
    let g := bitsOf v 47 32
    bitsOf v 15 8 == 0 || (i == 0 && g != 0) || (bitOf v 0 && (List.range 256).any fun m => m != i && grpEn s m && grpOf s m == g)
      || (grpEn s i && bitOf v 0 && g != fget s (MT_GRP_CFG_GROUP i))
  | .MT_GRP_MGR => bitsOf v 51 40 == 0
  | .MT_GRP_MEM => decide (bitsOf v 23 12 < bitsOf v 11 0)
  | .MT_RA_CFG => decide (bitsOf v 25 16 < bitsOf v 9 0)
  | .MT_MEM_CFG =>
    let r := bitsOf v 4 0
    let own := fun b => fget s (MS_BANK_OWNER b) == 6
    decide (30 < r) || !(own r && own (r + 1) && own (bitsOf v 12 8))
      || (((List.range 256).any (grpEn s)) && (r != fget s MT_MEM_CFG_RPL_BANK || bitsOf v 12 8 != fget s MT_MEM_CFG_REG_BANK))
  | .MT_KEY_CMD => bitOf v 9 && bitsOf v 8 8 == fget s (MT_GRP_CFG_GEN (bitsOf v 7 0))
  | _ => false)

/-- The member value follows LFLOOR and GCEIL at once (R331); after an expiry it goes on falling to a lower LFLOOR (R324). -/
def clampMember (s : State) (n : Nat) : State :=
  let v := fget s (MT_GRP_STAT_GRANT n)
  let w := min (fget s (MT_GRP_MEM_GCEIL n)) (max (lfloor s n) (if fget s (MT_GRP_STAT_LEASE n) = 0 then lfloor s n else v))
  let st := fget s (MT_GRP_STAT_LEASE n)
  if grpEn s n then setLease s n (if st < 2 then st else if w ≤ lfloor s n then 3 else 2) w else s

/-- The slot starts with no epoch and at LFLOOR (R331). -/
def slotStart (s : State) (n : Nat) : State :=
  let s1 := updMg s n fun x => { key0 := x.key0, key1 := x.key1 }
  let s2 := setReg s1 (MT_GRP_STAT n) 0
  setLease (fset s2 (MT_GRP_STAT_ROLE n) 1) n 0 (lfloor s n)

/-- The slot drops its lease, manager role, epoch and replay entries (R331). -/
def slotStop (s : State) (n g : Nat) : State :=
  let s1 := updMg s n fun x => { key0 := x.key0, key1 := x.key1 }
  let s2 := { s1 with mat := { s1.mat with
    replay := (s1.mat.replay.map fun p => (p.1, p.2.filter fun e => e.grp != g)).filter fun p => !p.2.isEmpty,
    heldTx := s1.mat.heldTx.filter fun h => h.slot != n } }
  showPmat (setReg s2 (MT_GRP_STAT n) 0)

/-- R331: a write to an MT_ register takes effect; `store` writes its RW bits. -/
def mtWrite (s : State) (n : RName) (i v : Nat) (store : State → State) : State :=
  match n with
  | .MT_LANE_CFG =>
    let s1 := store s
    if !(bitOf v 0) && laneSt s i != 0 then laneOff s1 i else s1
  | .MT_ID_CFG =>
    let s1 := store s
    if bitsOf v 17 0 = bitsOf (reg s MT_ID_CFG).toNat 17 0 then s1
    else startId (if fget s MT_ID_STAT_STATE = 0 then s1 else leaveNumbered s1)
  | .MT_GRP_CFG =>
    let was := grpEn s i
    let s1 := store s
    if bitOf v 0 && !was then slotStart s1 i else if !(bitOf v 0) && was then slotStop s1 i (grpOf s i) else s1
  | .MT_GRP_MEM => clampMember (store s) i
  | .MT_KEY_LO | .MT_KEY_HI => setReg s (if n = .MT_KEY_LO then MT_KEY_LO else MT_KEY_HI) (BitVec.ofNat 64 v)
  | .MT_KEY_CMD =>
    let s1 := store s
    if bitOf v 9 then
      let key := (reg s MT_KEY_LO).toNat + (reg s MT_KEY_HI).toNat * 2 ^ 64
      let s2 := updMg s1 (bitsOf v 7 0) fun x => if bitOf v 8 then { x with key1 := some key } else { x with key0 := some key }
      setReg (setReg s2 MT_KEY_LO 0) MT_KEY_HI 0
    else s1
  | _ => store s

end Sys2Proof.Machine
end

