-- ==== Sys2Proof/Machine/Converters.lean ====
section
/-! DEFINITION. Machine/Converters.lean: the converter cluster, island 0x44: bursts, samples, DMA rings, window comparators and leaf calibration (spec/10_sensing.md,
R219 to R238). -/
namespace Sys2Proof.Machine

def cv (s : State) (c : Nat) : Cv := tget {} s.conv.cvs c
def updCv (s : State) (c : Nat) (g : Cv → Cv) : State := { s with conv := { s.conv with cvs := tset s.conv.cvs c (g (cv s c)) } }
def dm (s : State) (d : Nat) : Dma := tget {} s.conv.dmas d
def updDm (s : State) (d : Nat) (g : Dma → Dma) : State := { s with conv := { s.conv with dmas := tset s.conv.dmas d (g (dm s d)) } }

/-- Converter c is the odd member of a formed pair (R220). -/
def oddOfPair (s : State) (c : Nat) : Bool := c % 2 == 1 && flag s (AD_CONV_CFG_PAIR (c - 1))

/-- The enabled DMA channel that a converter feeds (R228). -/
def channelOf (s : State) (c : Nat) : Option Nat := (List.range 16).find? fun d => flag s (AD_DMA_CFG_EN d) && fget s (AD_DMA_CFG_SRC d) == c

/-! ### Triggers (R222 to R224) -/

/-- SEL of a converter names the stage (edges 0 and 1) or the group (edge 2) `sel` (R223). -/
def selIs (edge own sel : Nat) : Bool := if edge = 2 then own % 8 == sel % 8 else own == sel

/-- A burst that an event of an edge of stage or group `sel` has started (R223). -/
def Burst.ofEvent (b : Burst) (edge sel : Nat) : Bool := b.src == 2 && b.edge == edge && selIs edge b.sel sel

/-- A trigger arrives at converter c; `src` is the trigger source. A busy converter drops it (R224). -/
def trigger (src : Nat) (s : State) (c : Nat) : State :=
  let sel := fget s (AD_CONV_TRIG_SEL c)
  let edge := fget s (AD_CONV_TRIG_EDGE c)
  if !(flag s (AD_CONV_CFG_EN c)) || oddOfPair s c || !(answers s 0x44) then s
  else
    match (cv s c).run with
    | some b => bump (updCv s c fun x => { x with run := some { b with stale := b.stale || (src == 2 && b.ofEvent edge sel) } }) (AD_CONV_STAT_BUSY_DROPS c)
    | none =>
      let b : Burst := ⟨fget s (AD_CONV_CFG_CH c), fget s (AD_CONV_CFG_DIV c), fget s (AD_CONV_CFG_LEN c) + 1, flag s (AD_CONV_CFG_CONT c), flag s (AD_CONV_CFG_PAIR c), src, sel, edge,
        false, 0, false⟩
      fsetB (updCv s c fun x => { x with run := some b }) (AD_CONV_STAT_BUSY c) true

/-- TIMER_TRIGGER: the timer of converter c fires (R222). -/
def execTimerTrigger (c : BitVec 3) (s : State) : Out := nextOf s <|
  if (cv s c.toNat).timer then (trigger 1 s c.toNat) else s

/-- A converter that a PWM event or skip event of an edge concerns (R220, R223). -/
def pwmFor (s : State) (edge sel c : Nat) : Bool :=
  fget s (AD_CONV_TRIG_SRC c) == 2 && fget s (AD_CONV_TRIG_EDGE c) == edge && flag s (AD_CONV_CFG_EN c) && !(oddOfPair s c) && selIs edge (fget s (AD_CONV_TRIG_SEL c)) sel

def convsWhere (p : Nat → Bool) : List Nat := (List.range 8).filter p

/-- PWM_EVENT: the event of an edge (0 rising, 1 falling, 2 period start) of stage or group `sel` arrives (R223). -/
def execPwmEvent (edge : BitVec 2) (sel : BitVec 6) (s : State) : Out := nextOf s <|
  ((convsWhere (pwmFor s edge.toNat sel.toNat)).foldl (trigger 2) s)

/-- A cancel drops the trigger of its own edge's event while the burst has taken no sample (R223); a cancel is that of the latest event of its edge (DEDUCED, log entry 121). -/
def cancelBurst (edge sel : Nat) (s : State) (c : Nat) : State :=
  match (cv s c).run with
  | some b =>
    if b.ofEvent edge sel && b.taken == 0 && !b.stale then
      fsetB (bump (updCv s c fun x => { x with run := none }) (AD_CONV_STAT_CANCELLED c)) (AD_CONV_STAT_BUSY c) false
    else s
  | none => s

/-- PWM_CANCEL: the edge has been suppressed after its event was sent (R223). -/
def execPwmCancel (edge : BitVec 2) (sel : BitVec 6) (s : State) : Out := nextOf s <| ((List.range 8).foldl (cancelBurst edge.toNat sel.toNat) s)

/-- SKIP_EVENT: it starts nothing and is counted (R223). -/
def execSkipEvent (edge : BitVec 2) (sel : BitVec 6) (s : State) : Out := nextOf s <|
  ((convsWhere (pwmFor s edge.toNat sel.toNat)).foldl (fun t c => bump t (AD_CONV_STAT_SKIPPED c)) s)

/-- WINDOW_TRIGGER: an event of comparator w triggers every converter with SRC = 3 and SEL = w (R235). -/
def execWindowTrigger (w : BitVec 6) (s : State) : Out := nextOf s <|
  match takeFirst (· == w.toNat) s.conv.trigs with
  | none => s
  | some (_, rest) =>
    ((convsWhere fun c => fget s (AD_CONV_TRIG_SRC c) == 3 && fget s (AD_CONV_TRIG_SEL c) == w.toNat).foldl (trigger 3) { s with conv := { s.conv with trigs := rest } })

/-- CONVERGED: the background correction of converter c has reached the limits of Table 10-1 (R219). -/
def execConverged (c : BitVec 3) (s : State) : Out := nextOf s <|
  if answers s 0x44 then (fsetB s (AD_CONV_STAT_CONVERGED c.toNat) true) else s

/-! ### Window comparators (R234, R235) -/

/-- The next state of a comparator on sample v, and whether there is an event. -/
def winNext (st lo hi hys v : Nat) : Nat × Bool :=
  match st with
  | 0 => if hi < v then (1, true) else if v < lo then (2, true) else (0, false)
  | 1 => if v < lo then (2, true) else if v + hys < hi then (0, false) else (1, false)
  | _ => if hi < v then (1, true) else if lo + hys < v then (0, false) else (2, false)

/-- Comparator w takes a valid sample. -/
def winSample (s : State) (v w : Nat) : State :=
  let r := winNext (tget 0 s.conv.wins w) (fget s (AD_WIN_CFG_LO w)) (fget s (AD_WIN_CFG_HI w)) (fget s (AD_WIN_CFG_HYS w)) v
  let s1 := { s with conv := { s.conv with wins := tset s.conv.wins w r.1 } }
  let out := fget s1 AD_WIN_OUT_OUT
  let s2 := fset s1 AD_WIN_OUT_OUT (putBits out w w (decide (r.1 ≠ 0)).toNat)
  if r.2 then
    let s3 := sendOn (fset s2 AD_WIN_EVT_EVT (fget s2 AD_WIN_EVT_EVT ||| 2 ^ w)) 0x44 16
    let s4 := { s3 with conv := { s3.conv with trigs := s3.conv.trigs ++ [w] } }
    if flag s (AD_WIN_CFG_FAULT w) then raiseD s4 (0x40 + w) none 0 0x44 else s4
  else s2

/-- The comparators that take a sample of the burst of converter c, or of the pair that c leads. -/
def winsFor (s : State) (c ch : Nat) (pair : Bool) : List Nat :=
  (List.range 64).filter fun w => flag s (AD_WIN_CFG_EN w) && (fget s (AD_WIN_CFG_CONV w) == c || (pair && fget s (AD_WIN_CFG_CONV w) == c + 1)) && (flag s (AD_WIN_CFG_ANYCH w) || fget s (AD_WIN_CFG_CH w) == ch)

/-! ### Samples, records and rings (R221, R225 to R233) -/

/-- A channel whose samples are invalid: reserved, or of a frond that the member lacks (R221, Table 10-2). -/
def badChannel (s : State) (ch : Nat) : Bool :=
  (decide (ch < 0x100) && decide (nF s ≤ ch / 4)) || (decide (0x100 ≤ ch ∧ ch < 0x140) && decide (nF s ≤ ch - 0x100)) || decide (0x1DB ≤ ch ∧ ch ≤ 0x1DF)

/-- R225: a sample word. -/
def sampleWord (code : Nat) (invalid : Bool) : Nat := code + 0x1000 * invalid.toNat + 0x2000 * (decide (code = 0 ∨ code = 4095)).toNat

/-- SIZE of a ring. -/
def ringSize (s : State) (d : Nat) : Nat := 2 ^ (fget s (AD_DMA_CFG_SIZE_LOG d) + 8)

/-- FILL of a ring (R229). -/
def ringFill (s : State) (d : Nat) : Nat := (fget s (AD_DMA_WR_WR d) + 2 ^ 32 - fget s (AD_DMA_RD_RD d)) % 2 ^ 32

/-- Bytes of a record of n samples (R228). -/
def recordSize (n : Nat) : Nat := 16 + 8 * ((n + 3) / 4)

/-- Bytes 8 to 15 of a capture record (Table 10-3). -/
def recordHdr (c n : Nat) (b : Burst) : List Nat :=
  leBytes 2 b.ch ++ [c + 8 * b.pair.toNat + 16 * b.src + 64 * b.cont.toNat, b.div] ++ leBytes 4 n

/-- A record of n samples starts in channel d: in stop mode only if it fits whole beside what has not landed yet (R230); otherwise it takes the next SEQ. -/
def startRecord (s : State) (d c n : Nat) (b : Burst) : State :=
  let x := dm s d
  let moss := !(flag s (AD_DMA_CFG_DEST d))
  if moss && !(flag s (AD_DMA_CFG_MODE d)) && decide (ringSize s d < ringFill s d + 8 * x.words.length + recordSize n) then
    fsetB (bump (updDm s d fun x => { x with left := n, skip := true, part := [], held := 0 }) (AD_DMA_STAT_DROPS d)) (AD_DMA_STAT_OVF d) true
  else
    let prov := provWord x.seq 0x44 d
    let hdr := recordHdr c n b
    let s1 := fset (sentAs s 0x44 d x.seq) (AD_DMA_WR_SEQ d) x.seq
    updDm s1 d fun x => { x with
      left := n, skip := false, part := [], held := 0, seq := (x.seq + 1) % 2 ^ 32,
      words := if moss then x.words ++ [(prov, 0, false), (leValue hdr, 0, false)] else x.words,
      hdr := leBytes 8 prov ++ hdr, frame := [], idx := 0 }

/-- The bytes of packed 12-bit samples (Table 14-7): two samples in 3 bytes. -/
def pack12 : List Nat → List Nat
  | [] => []
  | [a] => leBytes 3 (a % 4096)
  | a :: b :: t => leBytes 3 (a % 4096 + b % 4096 * 4096) ++ pack12 t

/-- Bytes 24 on of a CAPTURE frame: m sample words from index idx; the bitmap of invalid samples is there when one of them is invalid. -/
def captureBody (hdr frame : List Nat) (idx : Nat) (last : Bool) : List Nat :=
  let inv := frame.map fun w => bitOf w 12
  let any := inv.contains true
  let map := if any then leBytes ((frame.length + 7) / 8) (ofBits ((List.range frame.length).filter fun j => inv.getD j false)) else []
  hdr.take 12 ++ (hdr.drop 12).take 4 ++ leBytes 4 idx ++ leBytes 2 frame.length ++ [last.toNat + 2 * any.toNat, 0] ++ pad8 (pack12 frame ++ map)

/-- One sample word goes into a channel: into the word being packed, or the frame being filled; `new` is 1 for a sample that the buffer holds, 0 for a lost one. -/
def pushSample (new : Nat) (s : State) (d w : Nat) : State :=
  let x := dm s d
  if x.left = 0 then s
  else
    let last := x.left == 1
    let held := x.held + new
    if x.skip then updDm s d fun x => { x with left := x.left - 1 }
    else if flag s (AD_DMA_CFG_DEST d) then
      let frame := x.frame ++ [w]
      if frame.length = 2400 ∨ last = true then
        updDm s d fun x => { x with
          left := x.left - 1, buf := x.buf + new, held := 0, frame := [], idx := x.idx + frame.length,
          outq := x.outq ++ [(captureBody x.hdr frame x.idx last, (held, last))] }
      else updDm s d fun x => { x with left := x.left - 1, buf := x.buf + new, held := held, frame := frame }
    else
      let part := x.part ++ [w]
      if part.length = 4 ∨ last = true then
        updDm s d fun x => { x with
          left := x.left - 1, buf := x.buf + new, held := 0, part := [],
          words := x.words ++ [(leValue (part.flatMap (leBytes 2)), held, last)] }
      else updDm s d fun x => { x with left := x.left - 1, buf := x.buf + new, held := held, part := part }

/-- The samples that the local buffer holds (R226). -/
def bufSize (b : Burst) : Nat := if b.pair then 65536 else 32768

/-- Every sample that the burst or segment still lacks is written as lost (R224, R225). -/
def loseRest : Nat → State → Nat → State
  | 0, s, _ => s
  | n + 1, s, d => loseRest n (pushSample 0 s d 0x1000) d

/-- The samples of a burst, or of a continuous segment (R227). -/
def burstLen (b : Burst) : Nat := if b.cont then 65536 else b.len

/-- The converter whose burst a sample of converter c belongs to: the even member of a pair takes the even samples (R220). -/
def burstOf (s : State) (c : Nat) : Option (Nat × Burst) :=
  match (cv s c).run with
  | some b => if b.pair && b.taken % 2 == 1 then none else some (c, b)
  | none =>
    if c % 2 = 1 then
      match (cv s (c - 1)).run with
      | some b => if b.pair && b.taken % 2 == 1 then some (c - 1, b) else none
      | none => none
    else none

/-- CONVERTER_SAMPLE: converter c takes one sample with the given code: the sample word, the comparators, and the record of its channel (R225 to R228, R234). With EN clear the
burst ends here, and the samples that a burst, or a segment that has begun, still lacks are lost (R224). -/
def execConverterSample (c : BitVec 3) (code : BitVec 12) (s : State) : Out := nextOf s <|
  match burstOf s c.toNat with
  | none => s
  | some (a, b) =>
    let n := burstLen b
    let d := channelOf s a
    if !(flag s (AD_CONV_CFG_EN a)) then
      if !b.cont && decide (n ≤ b.taken) then s
      else
        let s1 := match d with
          | none => s
          | some d => if b.taken % n ≠ 0 then loseRest (n - b.taken % n) s d else if b.cont then s else loseRest n (startRecord s d a n b) d
        (updCv s1 a fun x => { x with run := some { b with cont := false, len := n, taken := n } })
    else if !b.cont && decide (n ≤ b.taken) then s
    else
      let fresh := b.taken % n == 0
      let s0 := if fresh then (if b.taken = 0 then bump s (AD_CONV_STAT_BURSTS a) else s) else s
      let s1 := match d with | some d => if fresh then startRecord s0 d a n b else s0 | none => s0
      let invalid := !(flag s (AD_CONV_STAT_CONVERGED c.toNat)) || s.chip.refAbsent || badChannel s b.ch
      let full := match d with | some d => decide (bufSize b ≤ (dm s1 d).buf) | none => false
      let lost := (b.lost && !fresh) || full
      let s2 := match d with
        | some d => if lost then fsetB (pushSample 0 s1 d 0x1000) (AD_DMA_STAT_TRUNC d) true else pushSample 1 s1 d (sampleWord code.toNat invalid)
        | none => s1
      let s3 := updCv s2 a fun x => { x with run := some { b with taken := if b.cont then (b.taken + 1 - 1) % n + 1 else b.taken + 1, lost := lost } }
      if invalid then s3 else ((winsFor s a b.ch b.pair).foldl (fun t w => winSample t code.toNat w) s3)

/-- BURST_COMPLETE: the last sample of a burst has been taken, and the converter is free (R224). -/
def execBurstComplete (c : BitVec 3) (s : State) : Out := nextOf s <|
  match (cv s c.toNat).run with
  | some b => if !b.cont && decide (b.len ≤ b.taken) then (fsetB (updCv s c.toNat fun x => { x with run := none }) (AD_CONV_STAT_BUSY c.toNat) false) else s
  | none => s

/-- FILL was `before`: having risen from below WM to WM or above, it sets WM_HIT and raises the channel's notification (R232). -/
def watermark (s : State) (d before : Nat) : State :=
  let wm := fget s (AD_DMA_CFG_WM d)
  if before < wm ∧ wm ≤ ringFill s d then raiseD (fsetB s (AD_DMA_STAT_WM_HIT d) true) (0x80 + d) none 0 0x44 else s

/-- The channel's write count rises: the watermark and, in overwrite mode, the overflow (R230, R232). -/
def advanceWr (s : State) (d n : Nat) : State :=
  let before := ringFill s d
  let s1 := fset s (AD_DMA_WR_WR d) (fget s (AD_DMA_WR_WR d) + n)
  if flag s (AD_DMA_CFG_DEST d) then s1
  else
    let after := ringFill s1 d
    watermark (if flag s (AD_DMA_CFG_MODE d) && decide (ringSize s d < after) then fsetB s1 (AD_DMA_STAT_OVF d) true else s1) d before

/-- DMA_WORD_LANDS: the next record word of channel d lands in Moss, or with DEST = 1 its next frame is queued to the Mat engine (R229, R232, R233, R328). A bank that the converter DMA
does not own refuses the word; a retained bank wakes first (R359). -/
def execDmaWordLands (d : BitVec 4) (s : State) : Out := nextOf s <|
  let d := d.toNat
  if !(flag s (AD_DMA_CFG_EN d)) then s
  else if flag s (AD_DMA_CFG_DEST d) then
    match (dm s d).outq with
    | [] => s
    | (body, (n, last)) :: rest =>
      let s1 := updDm s d fun x => { x with outq := rest, buf := x.buf - n }
      let s2 := advanceWr (sendFrame s1 (fget s MT_CAP_DST_GSLOT) 13 (fget s MT_CAP_DST_DST) none body) d (24 + body.length + 8)
      (if last then bump s2 (AD_DMA_STAT_RECORDS d) else s2)
  else
    match (dm s d).words with
    | [] => s
    | (w, (n, last)) :: rest =>
      let off := fget s (AD_DMA_CFG_BASE d) + fget s (AD_DMA_WR_WR d) % ringSize s d
      if !(awake s (bankOf off)) then (wakeBank s (bankOf off))
      else if ownerOf s (bankOf off) ≠ 4 then
        let s1 := fsetB (fsetB (mossServe s 4 0 off w) (AD_DMA_CFG_EN d) false) (AD_DMA_STAT_OWNERR d) true
        (raiseD (updDm s1 d fun x => { x with words := [], part := [], held := 0, buf := 0, left := 0 }) 0x3B none d 0x44)
      else
        let s1 := updDm (mossPut s off w) d fun x => { x with words := rest, buf := x.buf - n }
        let s2 := advanceWr s1 d 8
        (if last then bump s2 (AD_DMA_STAT_RECORDS d) else s2)

/-! ### Leaf calibration (R236, R237) -/

/-- An item that the sequencer visits: 36 × frond + item, phases 0 to 31, sense points 32 to 35. -/
def lcalItemOk (s : State) (p : Nat) : Bool :=
  let f := p / 36
  let i := p % 36
  inService s f &&
    (if i < 32 then bitOf (effMask s f) i && !(bitOf (fget s (FR_PHASE_HEALTH_SENSE_FAIL f)) i) else !(bitOf (fget s (FR_LEAF_STAT_VFAIL f)) (i - 32)))

def updLcal (s : State) (g : Lcal → Lcal) : State := { s with conv := { s.conv with lcal := g s.conv.lcal } }

/-- The requested frond is done: RESULT. -/
def lcalReqDone (s : State) (result : Nat) : State := fsetB (fset (updLcal s fun x => { x with cmd := none }) AD_LCAL_CMD_RESULT result) AD_LCAL_CMD_BUSY false

/-- The next item of frond f from item i0 on. -/
def lcalNext (s : State) (f i0 : Nat) : Option Nat := (List.range 36).find? fun i => decide (i0 ≤ i) && lcalItemOk s (36 * f + i)

/-- An item is selected: a phase by its frond's calibration tap. Its first window opens. -/
def lcalSelect (s : State) (p : Nat) (byCmd : Bool) : State :=
  let s1 := updLcal s fun x => { x with item := some (p / 36, p % 36), pairs := [], s0 := scal s (p / 36) 0, byCmd := byCmd }
  let s2 := fset (fset s1 AD_LCAL_STAT_FROND (p / 36)) AD_LCAL_STAT_ITEM (p % 36)
  if p % 36 < 32 then fset s2 (FR_LEAF_STAT_CALSEL (p / 36)) (p % 36) else s2

/-- The sweep selects its next item; at its end it waits (R236). -/
def lcalSweep (s : State) : State :=
  if s.conv.lcal.wait then s
  else
    match (List.range (36 * nF s)).find? fun p => decide (s.conv.lcal.pos ≤ p) && lcalItemOk s p with
    | some p => updLcal (lcalSelect s p false) fun x => { x with pos := p + 1 }
    | none => bump (updLcal s fun x => { x with pos := 0, wait := true }) AD_LCAL_STAT_SWEEPS

/-- LCAL_ITEM: the calibration sequencer selects the next item: of the requested frond, else of a frond that a self-test has queued, else of the sweep (R236, R343). -/
def execLcalItem (s : State) : Out := nextOf s <|
  let x := s.conv.lcal
  if !(flag s AD_LCAL_CFG_EN) || inSpore s || !(answers s 0x44) || x.item.isSome then s
  else
    match x.cmd with
    | some (f, i0) =>
      if !(inService s f) then (lcalReqDone s 2)
      else
        match lcalNext s f i0 with
        | some i => (updLcal (lcalSelect s (36 * f + i) true) fun x => { x with cmd := some (f, i + 1) })
        | none => (lcalReqDone s x.rej.toNat)
    | none =>
      match x.test.orElse fun _ => x.tests.head?.map fun f => (f, 0) with
      | none => (lcalSweep s)
      | some (f, i0) =>
        let rest := if x.test.isSome then x.tests else x.tests.drop 1
        match (if inService s f then lcalNext s f i0 else none) with
        | some i => (updLcal (lcalSelect s (36 * f + i) false) fun x => { x with test := some (f, i + 1), tests := rest })
        | none => (updLcal s fun x => { x with test := none, tests := rest })

/-- LCAL_SWEEP_WAIT: PERIOD ms after a sweep, the sequencer starts again (R236). -/
def execLcalSweepWait (s : State) : Out := nextOf s <| (updLcal s fun x => { x with wait := false })

/-- LCAL_WINDOW: a window closes: the sum and number of the raw codes, and of the converter's codes; `bad` when the converter or the tap has reported an invalid sample. A window in
which S0 has changed is taken again as well, and the next window opens (R236). The precision value is 2 mA per code
above 1,024 for a phase, and 0.3 mV per code, in 0.25 mV counts less B, for a sense point (Table 10-2). -/
def execLcalWindow (sumRaw nRaw sumCode nCode : BitVec 32) (bad : Bool) (s : State) : Out := nextOf s <|
  match s.conv.lcal.item with
  | none => s
  | some (f, i) =>
    let c := fget s AD_LCAL_CFG_CONV
    let s1 := updLcal s fun x => { x with s0 := scal s f 0 }
    if bad || scal s f 0 != s.conv.lcal.s0 || nRaw == 0 || nCode == 0 || !(flag s (AD_CONV_STAT_CONVERGED c)) || s.chip.refAbsent || decide (2 ^ fget s AD_LCAL_CFG_W_LOG ≤ s.conv.lcal.pairs.length) then s1
    else
      let base := bitsOf (scal s f 0) 11 0 - 512
      let n := nCode.toNat
      let y : Int × Nat := if i < 32 then (2 * ((sumCode.toNat : Int) - 1024 * n), n) else (6 * (sumCode.toNat : Int) - 5 * base * n, 5 * n)
      (updLcal s1 fun x => { x with pairs := x.pairs ++ [(16 * (sumRaw.toNat : Int), nRaw.toNat, y.1, y.2)] })

/-- A pair as exact rationals. -/
def pairRat (p : Int × Nat × Int × Nat) : Rat × Rat := ((p.1 : Rat) / p.2.1, (p.2.2.1 : Rat) / p.2.2.2)

def meanRat (l : List Rat) : Rat := sumRat l / l.length

/-- r² of pairs against y = a·x + b. -/
def residual2 (l : List (Rat × Rat)) (a b : Rat) : Rat := meanRat (l.map fun p => (p.2 - (a * p.1 + b)) * (p.2 - (a * p.1 + b)))

/-- The square root of a rational, rounded to nearest. -/
def sqrtNear (q : Rat) : Nat :=
  let k := Nat.sqrt q.floor.toNat
  if ((2 * k + 1 : Nat) : Rat) * (2 * k + 1 : Nat) / 4 < q then k + 1 else k

/-- R237: the fit of an item: GAIN, OFFS and r²; none where the line has no such GAIN and OFFS. `k` is 16384 or 262144. -/
def lcalFit (l : List (Rat × Rat)) (k spread gain : Nat) : Option (Int × Int × Rat) :=
  let xs := l.map (·.1)
  let lo := xs.foldl min (xs.headD 0)
  let hi := xs.foldl max (xs.headD 0)
  let mx := meanRat xs
  let my := meanRat (l.map (·.2))
  if (16 * spread : Nat) ≤ hi - lo then
    let sxx := sumRat (l.map fun p => (p.1 - mx) * (p.1 - mx))
    let sxy := sumRat (l.map fun p => (p.1 - mx) * (p.2 - my))
    if sxx = 0 ∨ sxy = 0 then none
    else
      let a := sxy / sxx
      let b := my - a * mx
      some (rneRat (k * a) 1, rneRat (-b / a) 1, residual2 l a b)
  else if gain = 0 then none
  else
    let o := rneRat (mx - my * k / gain) 1
    let a : Rat := (gain : Rat) / k
    some (gain, o, residual2 l a (-(a * o)))

/-- Table 10-5: a fit is accepted. -/
def fitOk (phase : Bool) (lim : Nat) (r : Int × Int × Rat) : Bool :=
  let res := if phase then 2 * lim else lim
  (if phase then decide (19200 ≤ r.1 ∧ r.1 ≤ 32000 ∧ 768 ≤ r.2.1 ∧ r.2.1 ≤ 1280) else decide (14746 ≤ r.1 ∧ r.1 ≤ 18022 ∧ -512 ≤ r.2.1 ∧ r.2.1 ≤ 512))
    && decide (r.2.2 ≤ ((res * res : Nat) : Rat))

/-- LCAL_FIT: the windows of an item are complete: an accepted fit is sent to the frond's calibration word, a rejected one declares the sense failed (R181, R218, R237). -/
def execLcalFit (s : State) : Out := nextOf s <|
  match s.conv.lcal.item with
  | none => s
  | some (f, i) =>
    if s.conv.lcal.pairs.length < 2 ^ fget s AD_LCAL_CFG_W_LOG then s
    else
      let phase := decide (i < 32)
      let l := s.conv.lcal.pairs.map pairRat
      let gain := if phase then fget s (FR_LEAF_CAL_GAIN f i) else fget s (FR_VSNS_CAL_GAIN f (i - 32))
      let fit := lcalFit l (if phase then 16384 else 262144) (fget s AD_LCAL_CFG_SPREAD) gain
      let lim := if phase then fget s AD_LCAL_CFG_RES_MAX else fget s AD_LCAL_CFG_VRES_MAX
      let s1 := updLcal s fun x => { x with item := none, pairs := [] }
      let good := match fit with | some r => if fitOk phase lim r then some r else none | none => none
      match good with
      | some r =>
        let w := patOf 16 r.1 + 2 ^ 16 * patOf 16 r.2.1
        let res := min 0xFFFF (sqrtNear r.2.2)
        if phase then (sendUpd (bump (fset s1 (FR_LEAF_CAL_RES f i) res) (FR_LEAF_CAL_FITS f i)) f (.write (0x600 + 8 * i) w))
        else (sendUpd (bump (fset s1 (FR_VSNS_CAL_RES f (i - 32)) res) (FR_VSNS_CAL_FITS f (i - 32))) f (.write (0x700 + 8 * (i - 32)) w))
      | none =>
        let s2 := bump (updLcal s1 fun x => { x with rej := x.rej || x.byCmd }) AD_LCAL_STAT_REJECTS
        if phase then (declareSense s2 f i)
        else
          let v := fget s2 (FR_LEAF_STAT_VFAIL f) ||| 2 ^ (i - 32)
          (raiseF (fset s2 (FR_LEAF_STAT_VFAIL f) v) 0x38 f i)

/-! ### The registers from AD_ offset 0x0100 on (R222, R227, R231, R238) -/

/-- The rate limit of continuous conversion into Moss (R227). -/
def contBad (cont pair : Bool) (div : Nat) (toMoss : Bool) : Bool := cont && toMoss && decide (div < (if pair then 3 else 2))

/-- The channel of converter c writes to Moss. -/
def feedsMoss (s : State) (c : Nat) : Bool := match channelOf s c with | some d => !(flag s (AD_DMA_CFG_DEST d)) | none => false

/-- Converter c is reserved by the calibration sequencer (R238). -/
def lcalReserved (s : State) (c : Nat) : Bool := flag s AD_LCAL_CFG_EN && fget s AD_LCAL_CFG_CONV == c

/-- Refusal rules of the converter registers. -/
def cvRefused (s : State) (n : RName) (i v : Nat) : Bool :=
  match n with
  | .AD_CONV_CFG =>
    lcalReserved s i || (bitOf v 1 && (i % 2 == 1 || lcalReserved s (i + 1))) || decide (12 < bitsOf v 14 11) || contBad (bitOf v 15) (bitOf v 1) (bitsOf v 14 11) (feedsMoss s i)
  | .AD_CONV_TRIG =>
    let src := bitsOf v 1 0
    let edge := bitsOf v 9 8
    lcalReserved s i || edge == 3 || decide (100000 < bitsOf v 28 12) || (src == 1 && bitsOf v 51 32 == 0) || (src == 2 && decide (edge ≤ 1) && decide (48 ≤ bitsOf v 7 2))
  | .AD_WIN_CFG => decide (bitsOf v 39 28 ≤ bitsOf v 27 16)
  | .AD_DMA_CFG =>
    let size := 2 ^ (bitsOf v 11 8 + 8)
    let src := bitsOf v 3 1
    let old := (reg s (AD_DMA_CFG i)).toNat
    let rw := 0xFFFFFFFFFFFF0F3F
    decide (13 < bitsOf v 11 8)
      || (if flag s (AD_DMA_CFG_EN i) then v &&& rw != old - 1
          else bitOf v 0 &&
            ((channelOf s src).isSome || oddOfPair s src || lcalReserved s src
              || (!(bitOf v 4) && (bitsOf v 39 16 % size != 0 || decide (size < bitsOf v 63 40) || (ringBanks v).any fun b => decide (32 ≤ b) || ownerOf s b != 4))))
  | .AD_DMA_RD =>
    !(flag s (AD_DMA_CFG_MODE i)) && !(flag s (AD_DMA_CFG_DEST i)) && decide (ringSize s i < (fget s (AD_DMA_WR_WR i) + 2 ^ 32 - v % 2 ^ 32) % 2 ^ 32)
  | .AD_LCAL_CFG =>
    let c := bitsOf v 3 1
    decide (bitsOf v 6 4 < 2 ∨ 6 < bitsOf v 6 4)
      || (bitOf v 0 && (flag s (AD_CONV_CFG_PAIR c) || oddOfPair s c || (channelOf s c).isSome))
  | .AD_LCAL_CMD => bitOf v 8 && (flag s AD_LCAL_CMD_BUSY || !(flag s AD_LCAL_CFG_EN))
  | _ => false

/-- The effect of a write to a converter register; `store` writes its RW bits. -/
def cvWrite (s : State) (n : RName) (i v : Nat) (store : State → State) : State :=
  match n with
  | .AD_CONV_CFG => updCv (store s) i fun x => { x with timer := x.timer && bitOf v 0 }
  | .AD_CONV_TRIG =>
    let s1 := updCv (store s) i fun x => { x with timer := bitsOf v 1 0 == 1 && flag s (AD_CONV_CFG_EN i) }
    if bitOf v 63 then trigger 0 s1 i else s1
  | .AD_WIN_CFG =>
    let s1 := store s
    fset { s1 with conv := { s1.conv with wins := tdel s1.conv.wins i } } AD_WIN_OUT_OUT (putBits (fget s1 AD_WIN_OUT_OUT) i i 0)
  | .AD_DMA_CFG =>
    if bitOf v 0 then
      updDm (resetOut (fset (setReg (store s) (AD_DMA_WR i) 0) (AD_DMA_RD_RD i) 0) 0x44 i) i fun _ => {}
    else
      let s1 := store s
      updDm s1 i fun x => { x with words := [], part := [], held := 0, buf := 0, left := 0, frame := [], outq := [] }
  | .AD_DMA_RD =>
    let before := ringFill s i
    let s1 := store s
    if flag s1 (AD_DMA_CFG_EN i) && !(flag s1 (AD_DMA_CFG_DEST i)) then watermark s1 i before else s1
  | .AD_LCAL_CFG =>
    let s1 := store s
    let s2 := if bitOf v 0 then s1
      else
        let s3 := updLcal s1 fun _ => {}
        fsetB s3 AD_LCAL_CMD_BUSY false
    (List.range 8).foldl (fun t c => fsetB t (AD_CONV_STAT_RESERVED_CAL c) (bitOf v 0 && bitsOf v 3 1 == c)) s2
  | .AD_LCAL_CMD =>
    let s1 := store s
    if bitOf v 8 then fsetB (updLcal s1 fun x => { x with cmd := some (bitsOf v 5 0, 0), rej := false }) AD_LCAL_CMD_BUSY true else s1
  | _ => store s

end Sys2Proof.Machine
end

