-- ==== Sys2Proof/Machine/Model.lean ====
section
/-! DEFINITION. Machine/Model.lean: forecaster models (R124, R253, R269 to R274): the image, its check, dot products and layers. A model is read through a function from image offsets to bytes. -/
namespace Sys2Proof.Machine

/-- n little-endian bytes of an image. -/
def imgU (rd : Nat → Nat) (off n : Nat) : Nat := leValue ((List.range n).map fun k => rd (off + k))

/-- A section entry (Table 12-7). -/
structure Sect where
  typ : Nat
  fmt : Nat
  perF : Bool
  rsv : Bool
  off : Nat
  rows : Nat
  cols : Nat
  bytes : Nat
deriving DecidableEq, Repr

def sectAt (rd : Nat → Nat) (i : Nat) : Sect :=
  let o := 64 + 16 * i
  ⟨rd o, rd (o + 1), rd (o + 2) % 2 == 1, decide (2 ≤ imgU rd (o + 2) 2), imgU rd (o + 4) 4, imgU rd (o + 8) 2, imgU rd (o + 10) 2, imgU rd (o + 12) 4⟩

def sects (rd : Nat → Nat) : List Sect := (List.range (imgU rd 12 2)).map (sectAt rd)

/-- A layer descriptor (Table 12-8). -/
structure Layer where
  op : Nat
  act : Nat
  in0 : Nat
  in1 : Nat
  out : Nat
  flags : Nat
  w : Nat
  u : Nat
  b : Nat
  scale : Nat
  rsv : Nat
deriving DecidableEq, Repr

def layerAt (rd : Nat → Nat) (i : Nat) : Layer :=
  let o := imgU rd 24 4 + 16 * i
  ⟨rd o, rd (o + 1), rd (o + 2), rd (o + 3), rd (o + 4), rd (o + 5), imgU rd (o + 6) 2, imgU rd (o + 8) 2, imgU rd (o + 10) 2, imgU rd (o + 12) 2, imgU rd (o + 14) 2⟩

def layers (rd : Nat → Nat) : List Layer := (List.range (imgU rd 22 2)).map (layerAt rd)

def hasHead (rd : Nat → Nat) : Bool := rd 14 % 2 == 1
def hasClass (rd : Nat → Nat) : Bool := rd 14 / 2 % 2 == 1

/-- The width of a state tensor: the n-th type-3 section holds tensor 32 + n, 64 rows of FP16 (log entry 14). -/
def stateSect (rd : Nat → Nat) (t : Nat) : Option Sect := ((sects rd).filter fun x => x.typ == 3)[t - 32]?
def stateWidth (rd : Nat → Nat) (t : Nat) : Option Nat := (stateSect rd t).map fun x => x.bytes / 128

/-! ### The check (R273, R274) -/

def eltBits (fmt : Nat) : Nat := [8, 8, 16, 8, 4].getD fmt 0

/-- Two byte ranges do not meet. -/
def apart (a b : Nat × Nat) : Bool := decide (a.2 ≤ b.1 ∨ b.2 ≤ a.1)

def allApart : List (Nat × Nat) → Bool
  | [] => true
  | x :: xs => xs.all (apart x) && allApart xs

/-- The input width of the online head, or 0. -/
def headWidth (rd : Nat → Nat) : Nat :=
  match (layers rd).find? fun l => l.flags % 2 == 1 with
  | none => 0
  | some l => match (sects rd)[l.w]? with | none => 0 | some x => x.cols

/-- Placement and size (R273) in a slot of `size` bytes. -/
def placed (rd : Nat → Nat) (size : Nat) : Bool :=
  let n := imgU rd 12 2
  let img := imgU rd 8 4
  let upd := if hasHead rd then 6144 * headWidth rd else 0
  let ss := sects rd
  let own := [(0, 64 + 16 * n), (imgU rd 24 4, imgU rd 24 4 + 16 * imgU rd 22 2)] ++ ss.map fun x => (x.off, x.off + x.bytes)
  decide (1 ≤ n ∧ n ≤ 64) && ss.all (fun x => x.off % 64 == 0 && decide (x.off + x.bytes ≤ if x.typ = 3 then size - upd else img))
    && decide (imgU rd 24 4 + 16 * imgU rd 22 2 ≤ img ∧ img + upd ≤ size) && allApart own

/-- Bytes of one copy of a matrix with n values to a row, packed (R120). -/
def copyBytes (x : Sect) (n : Nat) : Nat := (x.rows * n * eltBits x.fmt + 7) / 8

/-- A matrix section holds rows of n values. -/
def holds (x : Sect) (n : Nat) : Bool := x.bytes == (if x.perF then 64 else 1) * copyBytes x n

/-- A section's own fields agree (Table 12-7). A matrix of a chip dense layer holds 64 × COLS values to a row (log entry 113). -/
def sectOk (x : Sect) : Bool :=
  let copies := if x.perF then 64 else 1
  !x.rsv && (match x.typ with
    | 1 => decide (x.fmt ≤ 4) && (holds x x.cols || holds x (64 * x.cols))
    | 2 => x.fmt == 0 && x.bytes == copies * (2 * x.rows)
    | 3 => x.fmt == 0 && x.bytes % 128 == 0
    | _ => false)

/-- A matrix section with the given shape, k values to a column of COLS, and operand kind (integer or floating point). -/
def matOk (rd : Nat → Nat) (i rows cols k : Nat) (int : Bool) : Bool :=
  match (sects rd)[i]? with
  | none => false
  | some x => x.typ == 1 && x.rows == rows && x.cols == cols && holds x (k * cols) && (if int then decide (3 ≤ x.fmt) else decide (x.fmt ≤ 2))

def vecOk (rd : Nat → Nat) (i rows : Nat) : Bool :=
  match (sects rd)[i]? with | none => false | some x => x.typ == 2 && x.rows == rows

/-- The width of a tensor that a layer may read: IN, a tensor written earlier, or a state tensor. -/
def widthOf (rd : Nat → Nat) (seen : Tbl Nat) (t : Nat) : Option Nat :=
  if t = 0 then some 32 else if 32 ≤ t ∧ t ≤ 47 then stateWidth rd t else tget? seen t

/-- The width that a layer writes, if it keeps R274. COLS of a chip dense layer is the width of one row of IN0: 16 bits hold no 64 × 8,192 (DESIGN CHOICE, log entry 113). -/
def layerOut (rd : Nat → Nat) (seen : Tbl Nat) (l : Layer) : Option Nat :=
  let int := bitOf l.flags 1
  let bias := fun n => l.b == 0xFFFF || vecOk rd l.b n
  let scaled := fun n => !int || vecOk rd l.scale n
  match widthOf rd seen l.in0 with
  | none => none
  | some w =>
    match l.op with
    | 1 | 3 =>
      match (sects rd)[l.w]? with
      | none => none
      | some x => if matOk rd l.w x.rows w (if l.op = 3 then 64 else 1) int && bias x.rows && scaled x.rows then some x.rows else none
    | 2 =>
      match stateWidth rd l.in1 with
      | none => none
      | some n => if decide (32 ≤ l.in1 ∧ l.in1 ≤ 47) && matOk rd l.w (3 * n) w 1 int && matOk rd l.u (3 * n) n 1 int && bias (3 * n) && scaled (3 * n) then some n else none
    | 4 | 5 => match widthOf rd seen l.in1 with | none => none | some v => if v = w ∧ scaled w = true then some w else none
    | 6 => match widthOf rd seen l.in1 with | none => none | some v => if scaled (w + v) then some (w + v) else none
    | _ => none

def walkLayers (rd : Nat → Nat) : Tbl Nat → List Layer → Option (Tbl Nat)
  | seen, [] => some seen
  | seen, l :: ls =>
    match layerOut rd seen l with
    | none => none
    | some w =>
      let okOut := if l.out = 1 then w == 8 else if l.out = 2 then hasClass rd && w == imgU rd 20 2
        else if 3 ≤ l.out ∧ l.out ≤ 31 then decide (w ≤ 8192) else decide (32 ≤ l.out ∧ l.out ≤ 47) && stateWidth rd l.out == some w
      if okOut && decide (l.act ≤ 3) && decide (l.flags ≤ 3) then walkLayers rd (tset seen l.out w) ls else none

/-- The online head meets R270. -/
def headOk (rd : Nat → Nat) : Bool :=
  match (layers rd).filter fun l => l.flags % 2 == 1 with
  | [] => !(hasHead rd)
  | [l] => hasHead rd && l.op == 1 && l.act == 0 && l.out == 1 && (match (sects rd)[l.w]? with
      | none => false
      | some x => x.fmt == 2 && x.perF && decide (x.cols ≤ 256))
  | _ => false

/-- The code of Table 12-9 for the rules that concern the image alone; 0 if it passes. The reserved bytes of the layer list can be read only once the list has its place. -/
def modelCode (rd : Nat → Nat) (size : Nat) : Nat :=
  let img := imgU rd 8 4
  if imgU rd 0 4 ≠ 0x444D4846 ∨ imgU rd 4 2 ≠ 1 ∨ imgU rd 6 2 ≠ 64 ∨ imgU rd 28 12 ≠ 0 ∨ imgU rd 48 16 ≠ 0 ∨ 4 ≤ imgU rd 14 2 then 1
  else if img < 64 ∨ size < img then 3
  else if crc32 ((List.range img).map fun k => if 44 ≤ k ∧ k < 48 then 0 else rd k) ≠ imgU rd 44 4 then 2
  else if placed rd size = false then 3
  else if (layers rd).any fun l => l.rsv != 0 then 1
  else if 1140 < imgU rd 16 2 ∨ rd 18 < 2 ∨ 32 < rd 18 ∨ rd 19 = 0 ∨ 64 < imgU rd 20 2 ∨ (imgU rd 20 2 = 0 ∧ hasClass rd = true) ∨ (imgU rd 20 2 ≠ 0 ∧ hasClass rd = false) ∨ imgU rd 22 2 = 0 ∨ 256 < imgU rd 22 2 then 4
  else if (sects rd).all sectOk && headOk rd && (match walkLayers rd [] (layers rd) with
      | none => false
      | some seen => tget? seen 1 == some 8 && (!(hasClass rd) || tget? seen 2 == some (imgU rd 20 2))) then 0 else 5

/-! ### Counted arithmetic (R118, R119, R125) -/

/-- What FH_ARITH_STAT counts of a computation: floating-point overflows and saturations, INT32 saturations, results with BOUND_VOID; and whether a NaN was produced. -/
structure Cnt where
  ovf : Nat := 0
  sat : Nat := 0
  voids : Nat := 0
  nan : Bool := false
deriving DecidableEq, Repr

def Cnt.add (a b : Cnt) : Cnt := ⟨a.ovf + b.ovf, a.sat + b.sat, a.voids + b.voids, a.nan || b.nan⟩

/-- A FP32 value and what its computation has counted. -/
structure Num where
  v : Nat
  c : Cnt := {}
deriving DecidableEq, Repr

/-- What a result w in format k counts; `fin`: its operands were finite. -/
def counted (k : Fmt) (fin : Bool) (w : Nat) : Cnt := { ovf := (fin && fpInf k w).toNat, nan := fpNan k w }

/-- An operation on FP32 values. -/
def numOp (op : Nat → Nat → Nat) (a b : Num) : Num :=
  let v := op a.v b.v
  ⟨v, (a.c.add b.c).add (counted f32 (fpFin f32 a.v && fpFin f32 b.v) v)⟩

def numAdd (a b : Num) : Num := numOp (fpAdd f32) a b
def numMul (a b : Num) : Num := numOp (fpMul f32) a b

/-- A value narrowed to format k, as a FP32 value again. -/
def numTo (k : Fmt) (a : Num) : Num :=
  let w := fpCvt f32 k a.v
  ⟨fpCvt k f32 w, a.c.add (counted k (fpFin f32 a.v) w)⟩

def cntSum (l : List Num) : Cnt := l.foldl (fun c a => c.add a.c) {}

/-! ### Dot products (R123, R124) -/

/-- An operand of the lanes. -/
inductive MOp where
  | nan
  | inf (neg : Bool)
  | fin (n : Int) (d : Nat)
deriving DecidableEq, Repr

def mopOf (k : Fmt) (w : Nat) : MOp := if fpNan k w then .nan else if fpInf k w then .inf (fpNeg k w) else let v := fpVal k w; .fin v.1 v.2

/-- A weight of a floating-point format: 0 E4M3, 1 E5M2, 2 BF16. -/
def weightOp (fmt w : Nat) : MOp :=
  match fmt with
  | 0 => if w % 128 = 127 then .nan else let v := fpVal e4m3 w; .fin v.1 v.2
  | 1 => mopOf e5m2 w
  | _ => mopOf bf16 w

/-- An exact product in units of 2^-300. -/
def prodOf : MOp → MOp → MOp
  | .fin a x, .fin b y => .fin (a * b * 2 ^ 300 / ((x * y : Nat) : Int)) 1
  | .inf s, .inf t => .inf (s != t)
  | .inf s, .fin b _ => if b = 0 then .nan else .inf (s != decide (b < 0))
  | .fin a _, .inf t => if a = 0 then .nan else .inf (t != decide (a < 0))
  | _, _ => .nan

def chunksOf {α : Type} (n : Nat) : Nat → List α → List (List α)
  | 0, _ => []
  | _ + 1, [] => []
  | k + 1, l => l.take n :: chunksOf n k (l.drop n)

/-- The blocks of a sum (R124). -/
def blocksOf {α : Type} (l : List α) : List (List α) := chunksOf 4096 l.length l

/-- A dot product of n terms carries BOUND_VOID (R124). -/
def voidCnt (n : Nat) : Cnt := { voids := (decide (262144 < n)).toNat }

/-- v rounded to nearest at 2^(e - 38). -/
def roundBlk (e : Nat) (v : Int) : Int := rne v (2 ^ (e - 38)) * 2 ^ (e - 38)

/-- One block: the exact sum of its rounded products, and its largest product exponent. -/
def blockSum (l : List Int) : Int × Nat :=
  let e := l.foldl (fun m p => max m (Nat.log2 p.natAbs)) 0
  (l.foldl (fun a p => a + roundBlk e p) 0, e)

def combine2 (a b : Int × Nat) : Int × Nat :=
  let e := max a.2 b.2
  ((if a.2 < e then roundBlk e a.1 else a.1) + (if b.2 < e then roundBlk e b.1 else b.1), e)

def pairUp : List (Int × Nat) → List (Int × Nat)
  | a :: b :: t => combine2 a b :: pairUp t
  | l => l

/-- Up to 64 blocks, combined in six rounds. -/
def treeSum (l : List (Int × Nat)) : Int := ((List.range 6).foldl (fun t _ => pairUp t) l).foldl (fun a p => a + p.1) 0

/-- A dot product with FP32 accumulation (R124): each group of 64 blocks is rounded once, and the groups are added in order. -/
def dotFp (xs ws : List MOp) : Num :=
  let ps := (xs.zip ws).map fun p => prodOf p.1 p.2
  let c := voidCnt ps.length
  let infs := ps.filterMap fun p => match p with | .inf s => some s | _ => none
  if ps.any (· == .nan) || (infs.contains true && infs.contains false) then ⟨f32.nan, { c with nan := true }⟩
  else match infs with
    | s :: _ => ⟨(if s then f32.sign else 0) + f32.inf, c⟩
    | [] =>
      let blocks := (blocksOf (ps.map fun p => match p with | .fin n _ => n | _ => 0)).map blockSum
      let groups := (chunksOf 64 blocks.length blocks).map fun g => (let v := fpOf f32 (treeSum g) (2 ^ 300); ⟨v, counted f32 true v⟩ : Num)
      match groups with
      | [] => ⟨0, c⟩
      | r :: rs => let t := rs.foldl numAdd r; ⟨t.v, t.c.add c⟩

/-- A dot product with INT32 accumulation (R121, R123, R124). A block of 4,096 products of at most 2^14 stays below 2^27, and 128 such blocks, the most that a layer forms, below 2^34:
the 40-bit blocks and the 48-bit combiner hold every sum exactly, so only the last step saturates. -/
def dotInt (xs ws : List Int) : Num :=
  let blocks := (blocksOf ((xs.zip ws).map fun p => p.1 * p.2)).map fun b => b.foldl (· + ·) 0
  let sum := blocks.foldl (· + ·) 0
  let y := clampInt (-2 ^ 31) (2 ^ 31 - 1) sum
  ⟨fpInt f32 y, { voidCnt (min xs.length ws.length) with sat := (y != sum).toNat }⟩

/-! ### Non-linear functions (R253) -/

/-- e^-t for t ≥ 0, in units of 2^-64: the range is reduced by ln 2 and the series evaluated from its 25th term on. -/
def expFix (t : Nat) : Nat :=
  if 90 * 2 ^ 64 ≤ t then 0
  else
    let r := t % ln2Fix.toNat
    (List.range 25).foldl (fun a k => 2 ^ 64 - r * a / ((25 - k) * 2 ^ 64)) (2 ^ 64) / 2 ^ (t / ln2Fix.toNat)

/-- The exact sigmoid (2) or tanh (3) of a FP32 value that is no NaN, in units of 2^-64 and to within 2^-54. -/
def actExact (k y : Nat) : Int :=
  let x := fpVal f32 y
  let e := if fpInf f32 y then 0 else expFix ((if k = 2 then 1 else 2) * x.1.natAbs * 2 ^ 64 / x.2)
  if k = 2 then ((if fpNeg f32 y then e else 2 ^ 64) * 2 ^ 64 / (2 ^ 64 + e) : Nat)
  else
    let m : Nat := (2 ^ 64 - e) * 2 ^ 64 / (2 ^ 64 + e)
    if fpNeg f32 y then -(m : Int) else m

/-- The FP16 result of sigmoid or tanh: a value within 2^-11 of the exact one, rounded. Which one is left open: the offset is free (log entry 12). -/
def activation (k y : Nat) : Nat :=
  if fpNan f32 y then f16.nan
  else fpOf f16 (actExact k y + clampInt (-(2 ^ 53 + 2 ^ 11)) (2 ^ 53 + 2 ^ 11) (Config.activationOffset k y).toInt) (2 ^ 64)

/-- The vector post-processor's result (ACT of Table 12-8): a non-linear function's result is FP16. -/
def nonLin (k : Nat) (a : Num) : Num :=
  match k with
  | 1 => numTo f16 { a with v := if fpNeg f32 a.v && !(fpNan f32 a.v) then 0 else a.v }
  | 2 | 3 => let w := activation k a.v; ⟨fpCvt f16 f32 w, a.c.add { nan := fpNan f16 w }⟩
  | _ => a

/-! ### Layers -/

/-- What a run has produced: tensors (64 rows of FP32 values, those of FP16 tensors widened), by tensor the fronds whose row was fed by a dot product with BOUND_VOID in this cycle, the
head inputs by frond (FP16), and the counts. -/
structure Eng where
  tens : Tbl (List (List Nat)) := []
  marks : Tbl (List Nat) := []
  head : List (List Nat) := []
  c : Cnt := {}
deriving DecidableEq, Repr

def rowOf (e : Eng) (t f : Nat) : List Nat := (tget [] e.tens t).getD f []

/-- Row f of tensor t was fed by a dot product with BOUND_VOID in this cycle (R264). -/
def marked (e : Eng) (t f : Nat) : Bool := (tget [] e.marks t).contains f

/-- Values to a row of a layer's weights. -/
def rowLen (l : Layer) (x : Sect) : Nat := if l.op = 3 then 64 * x.cols else x.cols

/-- Row r of a matrix section for frond f with n values to a row, as raw codes (R120). Each frond's copy begins at a byte. -/
def rowCodes (rd : Nat → Nat) (x : Sect) (n f r : Nat) : List Nat :=
  let o := x.off + (if x.perF then f else 0) * copyBytes x n
  (List.range n).map fun c =>
    let i := r * n + c
    match x.fmt with
    | 2 => imgU rd (o + 2 * i) 2
    | 4 => (rd (o + i / 2) / (if i % 2 = 0 then 1 else 16)) % 16
    | _ => rd (o + i)

/-- Element r of a vector section for frond f, FP16; 0 where no section is named. -/
def vecElt (rd : Nat → Nat) (i f r : Nat) : Nat :=
  match (sects rd)[i]? with
  | none => 0
  | some x => imgU rd (x.off + 2 * ((if x.perF then f else 0) * x.rows + r)) 2

/-- Width of the integers that an activation becomes beside weights of an integer format: INT8 beside INT8; the spec names none beside INT4 (log entry 13). -/
def actBits (fmt : Nat) : Nat := if fmt = 4 && Config.int4Activations then 4 else 8

/-- An activation as the lanes take it: BF16 (R269), or an integer under R119 (log entry 13). -/
def actOp (v : Nat) : MOp := mopOf bf16 (fpCvt f32 bf16 v)
def actInt (fmt v : Nat) : Int := fpRound f32 (-2 ^ (actBits fmt - 1)) (2 ^ (actBits fmt - 1) - 1) v

/-- What the conversion of a row of activations counts; `int`: the format of an integer layer's weights. -/
def actCnt (int : Option Nat) (x : List Nat) : Cnt :=
  x.foldl (fun c v => c.add (match int with
    | some fmt => { ovf := (fpFin f32 v && actInt fmt v != fpRound f32 (-2 ^ 200) (2 ^ 200) v).toNat }
    | none => counted bf16 (fpFin f32 v) (fpCvt f32 bf16 v))) {}

/-- The conversions of an input row at section sec. -/
def entryCnt (rd : Nat → Nat) (l : Layer) (sec : Nat) (x : List Nat) : Cnt :=
  match (sects rd)[sec]? with
  | none => {}
  | some sc => actCnt (if bitOf l.flags 1 then some sc.fmt else none) x

/-- Row r of a weight section over an input row, without bias: an integer layer's INT32 sum times its SCALE element, or the FP32 sum; `own` replaces the weights (the online head). -/
def rowDot (rd : Nat → Nat) (l : Layer) (sec f r : Nat) (x : List Nat) (own : Option (List Nat)) : Num :=
  match (sects rd)[sec]? with
  | none => ⟨0, {}⟩
  | some sc =>
    let codes := rowCodes rd sc (rowLen l sc) f r
    if bitOf l.flags 1 then numMul (dotInt (x.map (actInt sc.fmt)) (codes.map (signedOf (eltBits sc.fmt)))) ⟨fpCvt f16 f32 (vecElt rd l.scale f r), {}⟩
    else dotFp (x.map actOp) (match own with
      | some ws => ws.map (mopOf bf16)
      | none => codes.map (weightOp sc.fmt))

def addBias (rd : Nat → Nat) (l : Layer) (f r : Nat) (y : Num) : Num := if l.b = 0xFFFF then y else numAdd y ⟨fpCvt f16 f32 (vecElt rd l.b f r), {}⟩

/-- A value as tensor t keeps it: FP32 in FCST and CLASS, FP16 elsewhere. -/
def stored (t : Nat) (y : Num) : Num := if t = 1 ∨ t = 2 then y else numTo f16 y

/-- The rows of a dense layer for one frond. -/
def denseRow (rd : Nat → Nat) (l : Layer) (f : Nat) (x : List Nat) (own : Option (List (List Nat))) : List Num :=
  match (sects rd)[l.w]? with
  | none => []
  | some sc => (List.range sc.rows).map fun r => nonLin l.act (addBias rd l f r (rowDot rd l l.w f r x (own.map fun m => m.getD r [])))

/-- The gated recurrent unit of one frond: its new state as FP32 values (R269). z is used twice and counts once. -/
def gruRow (rd : Nat → Nat) (l : Layer) (f : Nat) (x h : List Nat) : List Num :=
  let n := h.length
  (List.range n).map fun j =>
    let wx := fun r => rowDot rd l l.w f r x none
    let uh := fun r => rowDot rd l l.u f r h none
    let gate := fun r => nonLin 2 (addBias rd l f r (numAdd (wx r) (uh r)))
    let z := gate j
    let c := nonLin 3 (numAdd (addBias rd l f (2 * n + j) (wx (2 * n + j))) (numMul (gate (n + j)) (uh (2 * n + j))))
    numAdd (numMul (numOp (fpSub f32) ⟨fpInt f32 1, {}⟩ z) c) (numMul ⟨z.v, {}⟩ ⟨h.getD j 0, {}⟩)

/-- Two rows, element by element. -/
def elementRow (op : Num → Num → Num) (act : Nat) (x y : List Nat) : List Num := (x.zip y).map fun p => nonLin act (op ⟨p.1, {}⟩ ⟨p.2, {}⟩)

/-- The values that a layer forms for one frond before they are stored, and the conversions of its inputs (Table 12-8). -/
def layerRow (rd : Nat → Nat) (own : Nat → Option (List (List Nat))) (e : Eng) (l : Layer) (f : Nat) : List Num × Cnt :=
  let x := rowOf e l.in0 f
  let y := rowOf e l.in1 f
  match l.op with
  | 1 => (denseRow rd l f x (if l.flags % 2 = 1 then own f else none), entryCnt rd l l.w x)
  | 2 => (gruRow rd l f x y, (entryCnt rd l l.w x).add (entryCnt rd l l.u y))
  | 3 => let all := (List.range 64).flatMap (rowOf e l.in0); (denseRow rd l 0 all none, entryCnt rd l l.w all)
  | 4 => (elementRow numAdd l.act x y, {})
  | 5 => (elementRow numMul l.act x y, {})
  | _ => ((x ++ y).map fun v => ⟨v, {}⟩, {})

/-- The row of frond f that a layer writes was fed by a dot product with BOUND_VOID. -/
def rowMarked (e : Eng) (l : Layer) (f : Nat) (ys : List Num) : Bool :=
  decide (0 < (cntSum ys).voids) || (if l.op = 3 then (List.range 64).any (marked e l.in0) else marked e l.in0 f)
    || (decide (l.op = 2 ∨ 4 ≤ l.op) && marked e l.in1 f)

/-- One layer runs for all fronds (Table 12-8); a chip dense layer forms one row for all. `own` gives the online head's weights by frond. -/
def runLayer (rd : Nat → Nat) (own : Nat → Option (List (List Nat))) (e : Eng) (l : Layer) : Eng :=
  let rows := if l.op = 3 then List.replicate 64 (layerRow rd own e l 0) else (List.range 64).map (layerRow rd own e l)
  let out := rows.map fun p => p.1.map (stored l.out)
  let c := ((rows.zip out).take (if l.op = 3 then 1 else 64)).foldl (fun c p => (c.add (cntSum p.2)).add p.1.2) e.c
  let vals := fun (t : Nat) => rows.map fun p => p.1.map fun y => (stored t y).v
  let m := (List.range 64).filter fun f => rowMarked e l f (rows.getD f ([], {})).1
  let e2 : Eng := { tens := tset e.tens l.out (vals l.out), marks := tset e.marks l.out m, c, head := if l.flags % 2 = 1 then (List.range 64).map (fun f => (rowOf e l.in0 f).map (fpCvt f32 f16)) else e.head }
  if l.op = 2 then { e2 with tens := tset e2.tens l.in1 (vals l.in1), marks := tset e2.marks l.in1 m } else e2

end Sys2Proof.Machine
end

