-- ==== Sys2Proof/Machine/Fiddlehead.lean ====
section
/-! DEFINITION. Machine/Fiddlehead.lean: island 0x42 and the hint intake (spec/12_fiddlehead.md). -/
namespace Sys2Proof.Machine

def fhF (s : State) (f : Nat) : FhF := tget {} s.fh.fronds f
def updFhF (s : State) (f : Nat) (g : FhF → FhF) : State := { s with fh := { s.fh with fronds := tset s.fh.fronds f (g (fhF s f)) } }

/-- The Moss offset and size of a model slot. -/
def slotBase (slot : Nat) (wide : Bool) : Nat := if wide then 0x800000 else 0x800000 + 0x200000 * slot
def slotSize (wide : Bool) : Nat := if wide then 0x400000 else 0x200000

/-- The model in a slot. -/
def slotRd (s : State) (slot : Nat) (wide : Bool) : Nat → Nat := fun k => (mread 0 s.moss.mem (slotBase slot wide + k)).toNat

/-- The selected model. -/
def runRd (s : State) : Nat → Nat := slotRd s (fget s FH_MODEL_STAT_SLOT) (flag s FH_MODEL_STAT_WIDE)
def runBase (s : State) : Nat := slotBase (fget s FH_MODEL_STAT_SLOT) (flag s FH_MODEL_STAT_WIDE)

/-- FH_STAT.STATE and WARM_LEFT (R277). -/
def showFh (s : State) : State :=
  let warm := rdWarm s - s.fh.ran
  if inSpore s then fset (fset s FH_STAT_STATE 3) FH_STAT_WARM_LEFT 0
  else if flag s FH_CTRL_EN then fset (fset s FH_STAT_STATE (if 0 < warm then 1 else 2)) FH_STAT_WARM_LEFT warm
  else fset (fset s FH_STAT_STATE 0) FH_STAT_WARM_LEFT 0
where
  rdWarm (s : State) : Nat := if flag s FH_MODEL_STAT_LOADED then runRd s 19 else 0

/-- FH_ENABLE: the write of EN: 0 to 1 starts the cycles and resets the streams; in Spore mode it is ignored (R253, R254, R263). -/
def fhEnable (s : State) (en : Bool) : State :=
  if inSpore s then s
  else if en && !(flag s FH_CTRL_EN) then
    let s1 := { fsetB s FH_CTRL_EN true with fh := { s.fh with seq := 0, run := none, ran := 0, past := [], fronds := s.fh.fronds.map fun p => (p.1, { p.2 with p0 := [] }) } }
    showFh ([0, 1, 2].foldl (fun t k => (List.range 64).foldl (fun u f => resetNext u (fcKey k f)) (resetOut t 0x42 k)) s1)
  else showFh (fsetB s FH_CTRL_EN en)

/-! ### Inputs and hints (R257 to R261) -/

/-- FH_INPUT_RECORD: the oldest forwarded input record, one of frond f, arrives (R25, R257). -/
def execFhInputRecord (f : Nat) (s : State) : Out := nextOf s <|
  match takeHead (fun p : Nat × FIn => p.1 == f) s.fh.inAir with
  | none => s
  | some (p, rest) =>
    let s1 := { s with fh := { s.fh with inAir := rest } }
    if answers s 0x42 then recvRec (updFhF s1 f fun x => { x with got := some p.2, hist := (p.2.cur :: x.hist).take 8 }) 0x42 p.2.prov else s1

/-- The fields that Table 12-3 leaves unused for a type are 0, and a range is in order (R259). -/
def tokenOk (t : Nat) : Bool :=
  let range := decide (bitsOf t 13 8 ≤ bitsOf t 19 14)
  match bitsOf t 3 0 with
  | 0 => bitsOf t 63 8 == 0
  | 1 | 2 => range && bitsOf t 63 48 == 0
  | 3 => range && bitsOf t 63 20 == 0
  | 4 | 5 => bitsOf t 19 8 == 0 && bitsOf t 63 44 == 0
  | 6 => bitsOf t 19 8 == 0 && bitsOf t 63 60 == 0
  | 7 => range && bitsOf t 63 36 == 0
  | _ => false

/-- HINT_TOKEN: a token of source src arrives at the hint intake (R259, R260). -/
def execHintToken (src : BitVec 4) (w : W64) (s : State) : Out := nextOf s <|
  let t := putBits w.toNat 7 4 src.toNat
  if !(answers s 0x4C) then s
  else if !(tokenOk t) then (bump s FH_HINT_STAT_BAD)
  else
    let k := bitsOf t 3 0
    let s0 := sendOn (sendOn s 0x4C 0) 0x4C 1
    let s1 := if k = 0 then s0
      else if s.fh.queue.length < 256 then bump { s0 with fh := { s.fh with queue := s.fh.queue ++ [(nextProv s 0x4C 0, t)] } } FH_HINT_STAT_TOKENS
      else bump s0 FH_HINT_STAT_DROPS
    let s2 := { s1 with bud := { s1.bud with tokAir := s1.bud.tokAir ++ [(nextProv s 0x4C 1, t)] } }
    (if k = 6 then { s2 with mat := { s2.mat with prog := some (bitsOf t 59 28, bitsOf t 27 20) } } else s2)

/-- R261: one step of ageing. -/
def ageHint (h : Hint) : Hint :=
  if 0 < h.lead then { h with lead := h.lead - 1 } else if h.dur ≤ 1 then {} else { h with dur := h.dur - 1 }

def hintOf (t : Nat) : Hint := ⟨bitsOf t 27 20, bitsOf t 35 28, if bitsOf t 47 36 = 0 then 4095 else bitsOf t 47 36⟩

/-- A token is applied at a latch (Table 12-3); fronds from F on are ignored. -/
def applyToken (s : State) (t : Nat) : State :=
  let fs := (List.range (nF s)).filter fun f => decide (bitsOf t 13 8 ≤ f ∧ f ≤ bitsOf t 19 14)
  let each := fun (g : FhF → FhF) => fs.foldl (fun st f => updFhF st f g) s
  match bitsOf t 3 0 with
  | 1 => each fun x => { x with heavy := hintOf t }
  | 2 => each fun x => { x with light := hintOf t }
  | 3 => each fun x => { x with heavy := {}, light := {} }
  | 4 => { s with fh := { s.fh with jobs := s.fh.jobs + 1 } }
  | 5 => { s with fh := { s.fh with jobs := s.fh.jobs - 1 } }
  | 6 => { s with fh := { s.fh with prog := bitsOf t 27 20 } }
  | 7 => each fun x => { x with user := signedOf 16 (bitsOf t 35 20) }
  | _ => s

/-- The beginning of a cycle: inputs latch, hint state ages, tokens apply in queue order (R254, R257, R261). A token takes its values when it is applied, so what ages is what stood before. -/
def latchInputs (s : State) : State :=
  let s1 := (List.range (nF s)).foldl (fun t f => updFhF t f fun x =>
    let x1 := { x with heavy := ageHint x.heavy, light := ageHint x.light, curs := x.hist }
    match x.got with
    | some r => { x1 with latch := some r, got := none, age := 0 }
    | none => { x1 with age := x.age + 1 }) s
  s.fh.queue.foldl (fun t p => applyToken t p.2) { s1 with fh := { s1.fh with queue := [] } }

/-! ### Features (R258, Table 12-1) -/

def fp16 (n : Int) (d : Nat) : Nat := fpOf f16 n d

/-- The latest measured current of a frond in mA, from its latched record. -/
def latCur (s : State) (f : Nat) : Int := match (fhF s f).latch with | some r => r.cur | none => 0

def inServ (s : State) (f : Nat) : Bool := match (fhF s f).latch with | some r => r.rail == 3 | none => false

def featureRow (s : State) (f : Nat) : List Nat :=
  if nF s ≤ f then List.replicate 32 0
  else
    let x := fhF s f
    let r := x.latch
    let act := match r with | some y => y.act | none => []
    let hint := fun h : Hint => [fp16 h.lead 256, fp16 h.level 256, fp16 h.dur 4096]
    let nb := fun o : Option Nat => match o with | none => 0 | some n => if inServ s n then fp16 (latCur s n) 64000 else 0
    ((List.range 8).map fun k => fp16 (act.getD k 0 : Nat) 1024) ++ ((List.range 8).map fun k => fp16 (x.curs.getD k 0) 64000)
      ++ hint x.heavy ++ hint x.light ++ [fp16 s.fh.prog 256, fp16 x.user 32768, fp16 (if 0 < s.fh.jobs then 1 else 0) 1]
      ++ [nb (northOf s f), nb (eastOf s f), nb (southOf s f), nb (westOf s f)]
      ++ [fp16 (match r with | some y => (y.h : Int) | none => 0) 32, fp16 (match r with | some y => (y.s0 : Int) | none => 0) 4096, fp16 1 1]

/-! ### The model run (R253, R262, R269) -/

/-! The update area of a head of width w (R273): 64 × 8 rows of FP32 masters, 2,048 × w bytes, then the head inputs of 32 cycles, 64 rows of FP16 each, 4,096 × w bytes. The spec gives
the area's size and place; the order within it is the model's (log entry 115). -/

/-- The Moss offset of the update area of a slot. -/
def updArea (slot : Nat) (wide : Bool) (w : Nat) : Nat := slotBase slot wide + slotSize wide - 6144 * w
def runArea (s : State) : Nat := updArea (fget s FH_MODEL_STAT_SLOT) (flag s FH_MODEL_STAT_WIDE) (headWidth (runRd s))

/-- Where row k of frond f's master stands, and the head input of frond f in cycle n. -/
def masterAt (area w f k : Nat) : Nat := area + 4 * w * (8 * f + k)
def inputAt (area w n f : Nat) : Nat := area + 2048 * w + 2 * w * (64 * (n % 32) + f)

/-- n-byte values of Moss. -/
def mossVals (s : State) (off n count : Nat) : List Nat := (List.range count).map fun c => mvalue 0 s.moss.mem (off + n * c) n
def mossPutVals (s : State) (off n : Nat) (l : List Nat) : State := mossPutBytes s off (l.flatMap (leBytes n))

def masterRow (s : State) (w f k : Nat) : List Nat := mossVals s (masterAt (runArea s) w f k) 4 w

/-- The head's BF16 weights of a frond: its FP32 master, rounded (R270). -/
def headOf (s : State) (w f : Nat) : Option (List (List Nat)) := some ((List.range 8).map fun k => (masterRow s w f k).map (fpCvt f32 bf16))

/-- The recurrent state in its sections: tensor t, row by row, as FP32 values (R273). -/
def stateTensor (s : State) (t : Nat) : Option (List (List Nat)) :=
  match stateSect (runRd s) t with
  | none => none
  | some x =>
    let w := x.bytes / 128
    some ((List.range 64).map fun f => (List.range w).map fun c => fpCvt f16 f32 (imgU (runRd s) (x.off + 2 * (f * w + c)) 2))

def stateTensors : List Nat := (List.range 16).map fun k => 32 + k

/-- One run of the selected model. -/
def runModel (s : State) : Eng :=
  let rd := runRd s
  let w := headWidth rd
  let inp := (List.range 64).map (featureRow s)
  let e0 : Eng := {
    tens := stateTensors.foldl (fun t k => match stateTensor s k with | none => t | some rows => tset t k rows) [(0, inp.map fun r => r.map (fpCvt f16 f32))]
    c := (inp.flatMap id).foldl (fun c w => c.add (counted f16 true w)) {} }
  (layers rd).foldl (runLayer rd (headOf s w)) e0

/-- The writes of the state tensors: Moss offset of each FP16 value. -/
def stateWrites (s : State) (e : Eng) : List (Nat × Nat) :=
  stateTensors.flatMap fun k => match stateSect (runRd s) k, tget? e.tens k with
    | some x, some rows =>
      let w := x.bytes / 128
      (List.range 64).flatMap fun f => (List.range w).map fun c => (runBase s + x.off + 2 * (f * w + c), fpCvt f32 f16 ((rows.getD f []).getD c 0))
    | _, _ => []

def horizons : List Nat := [2, 4, 6, 8, 12, 16, 24, 32]

/-- The last point whose horizon the model covers (R262). -/
def lastPt (h : Nat) : Nat := ((List.range 8).filter fun k => decide (horizons.getD k 0 ≤ h)).getLastD 0

/-- A point as a count of 2 mA: 32,000 times the value, rounded once; a NaN, which makes the record invalid, becomes 0 (R119). -/
def pointOf (v : Nat) : Nat :=
  if fpFin f32 v then let x := fpVal f32 v; (clampInt 0 65535 (rne (32000 * x.1) x.2)).toNat else (fpRound f32 0 65535 v).toNat

/-- Points of a frond, those beyond the horizon taking the last (R262). -/
def pointsOf (h : Nat) (row : List Nat) : List Nat := (List.range 8).map fun k => pointOf (row.getD (min k (lastPt h)) 0)

/-- FFV (R265). -/
def ffvOf (pts gain : Nat) (p : List Nat) (im : Int) : Int :=
  let k := (List.range pts).foldl (fun b k => if (2 * (p.getD b 0 : Int) - im).natAbs < (2 * (p.getD k 0 : Int) - im).natAbs then k else b) 0
  clampInt (-32768) 32767 (rne (gain * (2 * (p.getD k 0 : Int) - im)) 1000)

/-- NIDLE (R266). -/
def nidleOf (pts stepI per spare h : Nat) (p : List Nat) (im : Int) : Nat :=
  let pm := 2 * (p.take pts).foldl max 0
  if (stepI * 250 : Nat) < (pm : Int) - im then 0 else min 32 (h - ceilDiv pm (per * 8) - spare)

/-- The largest logit, the lowest index on a tie (R268). -/
def argMax (l : List Nat) : Nat :=
  (List.range l.length).foldl (fun b k => if fpLt f32 (l.getD b 0) (l.getD k 0) then k else b) 0

/-- The frond is frozen in this cycle (R271, the conditions of the cycle itself), with FH_CFG and FH_NLMS_CFG as they stand at its beginning (R278). -/
def frozenNow (s : State) (f : Nat) : Bool :=
  let nl := s.fh.nlms.getD (reg s FH_NLMS_CFG).toNat
  match (fhF s f).latch with
  | none => true
  | some r => !(bitOf nl 32) || decide (fget s FH_CFG_STALE ≤ (fhF s f).age) || r.rail != 3 || r.bridge || r.ovr || !r.trust

/-- The clamped error e of a point (R270). -/
def headErr (nl : Nat) (im : Int) (pk : Nat) : Num :=
  let lim := fpOf f32 (bitsOf nl 47 40 : Nat) 256
  let e := numOp (fpSub f32) ⟨fpOf f32 im 64000, {}⟩ ⟨pk, {}⟩
  { e with v := if fpLt f32 lim e.v then lim else if fpLt f32 e.v (fpFlip f32 lim) then fpFlip f32 lim else e.v }

/-- A frond's row of weights after one update (R270), from the finite error e and head input u: the new FP32 row, and what was counted, its rounding to BF16 included. The product of a
vector with itself is formed as every dot product is (R124). -/
def headUpdate (nl : Nat) (e : Num) (u row : List Nat) : List Nat × Cnt :=
  let mu : Num := ⟨fpCvt f16 f32 (bitsOf nl 15 0), {}⟩
  let ops := u.map (mopOf f16)
  let den := numAdd ⟨fpCvt f16 f32 (bitsOf nl 31 16), {}⟩ (dotFp ops ops)
  let me := numMul mu e
  let new := (row.zip u).map fun p => numAdd ⟨p.1, {}⟩ (numOp (fpDiv f32) (numMul ⟨me.v, {}⟩ ⟨fpCvt f16 f32 p.2, {}⟩) ⟨den.v, {}⟩)
  (new.map (·.v), new.foldl (fun c a => (c.add a.c).add (counted bf16 (fpFin f32 a.v) (fpCvt f32 bf16 a.v))) (me.c.add den.c))

/-- The updates of a frond in cycle n (R270, R271): new rows by point, points whose e or u is not finite, whether any point was skipped, and what was counted. -/
structure HeadStep where
  rows : List (Nat × List Nat) := []
  bad : List Nat := []
  skipped : Bool := false
  c : Cnt := {}
deriving DecidableEq, Repr

/-- One point: an earlier cycle that reaches a stored input, and neither cycle freezes it. -/
def headPoint (s : State) (n f k : Nat) (froz : Bool) (a : HeadStep) : HeadStep :=
  let c := horizons.getD k 0
  match s.fh.past[c - 1]? with
  | none => a
  | some p =>
    let w := headWidth (runRd s)
    let nl := s.fh.nlms.getD (reg s FH_NLMS_CFG).toNat
    let e := headErr nl (latCur s f) ((tget [] p.p f).getD k 0)
    let u := mossVals s (inputAt (runArea s) w (n + 32 - c) f) 2 w
    if !(fpFin f32 e.v) || !(u.all (fpFin f16)) then { a with bad := a.bad ++ [k], skipped := true }
    else if froz || p.froz.contains f || (tget [] p.bad f).contains k then { a with skipped := true }
    else
      let r := headUpdate nl e u (masterRow s w f k)
      { a with rows := a.rows ++ [(k, r.1)], c := a.c.add r.2 }

def headStep (s : State) (n f : Nat) (froz : Bool) : HeadStep := (List.range (lastPt (runRd s 18) + 1)).foldl (fun a k => headPoint s n f k froz a) {}

/-- The published class and its hold (R268). -/
def classStep (s : State) (f : Nat) (logits : List Nat) : State :=
  if logits.isEmpty then fset s (FH_FROND_CLASS f) 0
  else if !(logits.all (fpFin f32)) then s
  else
    let c := argMax logits
    let x := fhF s f
    let n := if x.cand = c then x.candN + 1 else 1
    let s1 := updFhF s f fun y => { y with cand := c, candN := n }
    if fget s FH_CFG_CLASS_HOLD ≤ n then fset s1 (FH_FROND_CLASS f) c else s1

/-- Forecast error of this cycle (R267). -/
def errStep (s : State) (f : Nat) : State :=
  match (fhF s f).p0[1]?, (fhF s f).latch with
  | some (some (p : Nat)), some r => fset s (FH_FROND_ERR f) (min ((p : Int) - (r.cur : Int)).natAbs 0xFFFFFF)
  | _, _ => s

/-- The record of one frond (R263 to R268, Table 12-4), and the state it leaves. -/
def recordOf (e : Eng) (warm : Bool) (seq : Nat) (s : State) (f : Nat) : State × FcRec :=
  let x := fhF s f
  let row := rowOf e 1 f
  let logits := if hasClass (runRd s) then rowOf e 2 f else []
  let p := pointsOf (runRd s 18) row
  let im := latCur s f
  let fin := (row.take (lastPt (runRd s 18) + 1)).all (fpFin f32) && logits.all (fpFin f32)
  let valid := decide (x.age < fget s FH_CFG_STALE) && inServ s f && !warm && fin
  let s1 := classStep (errStep s f) f logits
  let h := match x.latch with | some r => r.h | none => 0
  let ffv := if valid then ffvOf (fget s FH_CFG_FF_PTS) (fget s FH_CFG_FF_GAIN) p im else 0
  let nid := if valid then nidleOf (fget s FH_CFG_NID_PTS) (fget s FH_CFG_STEP_I) (fget s FH_CFG_I_PER) (fget s FH_CFG_SPARE) h p im else 0
  let hinted := x.heavy != {} || x.light != {}
  let w1 := patOf 16 ffv + nid * 2 ^ 16 + valid.toNat * 2 ^ 22 + (marked e 1 f || (hasClass (runRd s) && marked e 2 f)).toNat * 2 ^ 23 + fget s1 (FH_FROND_CLASS f) % 64 * 2 ^ 24 + hinted.toNat * 2 ^ 30
  let upd := hasHead (runRd s) && !(headStep s seq f (frozenNow s f)).rows.isEmpty
  let w4 := fget s1 (FH_FROND_ERR f) + upd.toNat * 2 ^ 24
  let word := fun a => leValue ((List.range 4).flatMap fun k => leBytes 2 (p.getD (a + k) 0))
  (updFhF (fsetB s1 (FH_FROND_VALID f) valid) f fun y => { y with p0 := ((if valid then some (2 * p.getD 0 0) else none) :: y.p0).take 2 }, ⟨provWord seq 0x42 0, w1, word 0, word 4, w4⟩)

/-- A waiting switch takes effect: the model is selected and its warm-up begins (R275 to R277). -/
def selectModel (s : State) (slot : Nat) (wide : Bool) : State :=
  let rd := slotRd s slot wide
  let s1 := fset (fsetB (fset (fsetB s FH_MODEL_STAT_LOADED true) FH_MODEL_STAT_SLOT slot) FH_MODEL_STAT_WIDE wide) FH_MODEL_STAT_H (rd 18)
  let s2 := fset (fset (fset s1 FH_MODEL_STAT_NCLASS (imgU rd 20 2)) FH_MODEL_STAT_CYCLES (imgU rd 16 2)) FH_MODEL_STAT_MODEL_ID (imgU rd 40 4)
  let s3 := (List.range 64).foldl (fun t f => fset (fsetB t (FH_FROND_FROZEN f) false) (FH_FROND_UPDATES f) 0) s2
  showFh { s3 with fh := { s3.fh with switch := none, ran := 0, past := [] } }

/-- FH_ARITH_STAT takes what a computation has counted (R118, R119, R125). -/
def arithStat (s : State) (c : Cnt) : State :=
  let s1 := if 0 < c.voids then bumpBy (fsetB s FH_ARITH_STAT_BOUND_VOID true) FH_ARITH_STAT_VOID_CNT c.voids else s
  let s2 := if 0 < c.sat then bumpBy (fsetB s1 FH_ARITH_STAT_INT_SAT true) FH_ARITH_STAT_SAT_CNT c.sat else s1
  let s3 := if 0 < c.ovf then bumpBy (fsetB s2 FH_ARITH_STAT_FP_OVF true) FH_ARITH_STAT_SAT_CNT c.ovf else s2
  if c.nan then fsetB s3 FH_ARITH_STAT_NAN true else s3

/-- Fiddlehead owns every bank of a slot: it reads a model only from such (R272). -/
def slotOwned (s : State) (slot : Nat) (wide : Bool) : Bool := (slotBanks slot wide).all fun b => ownerOf s b == 5

/-- A waiting switch takes effect at a cycle beginning, from banks that Fiddlehead owns. -/
def takeSwitch (s : State) : State :=
  match s.fh.switch with
  | none => s
  | some p => if slotOwned s p.1 p.2 then selectModel s p.1 p.2 else s

/-- FORECAST_CYCLE: a cycle is due to begin: a running cycle skips it; otherwise a waiting switch takes effect, the inputs latch and the model runs (R254, R255, R276). Where the banks of
the selected slot have been handed away, no model can be read and no cycle runs (R272, log entry 116). -/
def execForecastCycle (s : State) : Out := nextOf s <|
  let s0 := takeSwitch s
  if !(flag s FH_CTRL_EN) || !(flag s FH_MODEL_STAT_LOADED) || !(answers s 0x42) || inSpore s then s
  else if s.fh.run.isSome then (raiseD (bump s FH_STAT_SKIPS) 0xC0 none 0 0x42)
  else if !(slotOwned s0 (fget s0 FH_MODEL_STAT_SLOT) (flag s0 FH_MODEL_STAT_WIDE)) then s
  else
    let s1 := latchInputs { s0 with fh := { s0.fh with nlms := some (reg s0 FH_NLMS_CFG).toNat } }
    let e := runModel s1
    let warm := decide (s1.fh.ran < runRd s1 19)
    let fold := (List.range (nF s1)).foldl (fun (a : State × List (Nat × FcRec)) f =>
      let r := recordOf e warm s1.fh.seq a.1 f
      (r.1, a.2 ++ [(f, r.2)])) (arithStat s1 e.c, [])
    let past : FhPast := { p := (List.range (nF s1)).map fun f => (f, rowOf e 1 f), froz := (List.range (nF s1)).filter fun f => frozenNow s1 f }
    { fold.1 with fh := { fold.1.fh with run := some ⟨s1.fh.seq, fold.2, past, e.head, stateWrites s1 e, warm⟩, seq := (s1.fh.seq + 1) % 2 ^ 32 } }

/-- A record with VALID = 0, as an abandoned cycle sends it (R256): FFV and NIDLE 0, its points kept. -/
def voidRec (r : FcRec) : FcRec := { r with w1 := putBits r.w1 22 0 0 }

/-- The update of frond f after the records of cycle r have been sent: its FP32 rows, FROZEN, UPDATES and the points that the cycle spoils (R270, R271). -/
def updateHead (s : State) (r : FhRun) (a : State × FhPast) (f : Nat) : State × FhPast :=
  let w := headWidth (runRd s)
  let froz := r.past.froz.contains f
  let h := headStep s r.seq f froz
  let t := h.rows.foldl (fun t p => mossPutVals t (masterAt (runArea s) w f p.1) 4 p.2) (arithStat (fsetB a.1 (FH_FROND_FROZEN f) (froz || h.skipped)) h.c)
  (if h.rows.isEmpty then t else bump t (FH_FROND_UPDATES f), { a.2 with bad := if h.bad.isEmpty then a.2.bad else tset a.2.bad f h.bad })

/-- The head is updated after the records have been sent; then the cycle's head inputs are stored, and the cycle is the latest past one. -/
def updateHeads (s : State) (r : FhRun) : State :=
  let w := headWidth (runRd s)
  let u := if hasHead (runRd s) then (List.range (nF s)).foldl (updateHead s r) (s, r.past) else (s, r.past)
  let s1 := if hasHead (runRd s) then (List.range 64).foldl (fun t f => mossPutVals t (inputAt (runArea s) w r.seq f) 2 (r.head.getD f [])) u.1 else u.1
  { s1 with fh := { s1.fh with past := (u.2 :: s1.fh.past).take 32 } }

/-- The records leave on streams 0 to 2 (R263). -/
def sendRecords (s : State) (l : List (Nat × FcRec)) : State :=
  let on := fun (k : Nat) => l.map fun p => (p.1, { p.2 with prov := provWord (provSeq p.2.prov) 0x42 k })
  let s0 := l.foldl (fun t p => [0, 1, 2].foldl (fun u k => sentAs u 0x42 k (provSeq p.2.prov)) t) s
  let s1 := l.foldl (fun t p => sendUpd t p.1 (.forecast p.2.prov p.2.w1 p.2.w2 p.2.w3)) s0
  { s1 with fh := { s1.fh with adAir := s1.fh.adAir ++ on 1 }, rz := { s1.rz with fcAir := s1.rz.fcAir ++ on 2 } }

/-- Reads of Moss by Fiddlehead, as (offset, what the check bits show); and the first offset that met an uncorrectable error (R256, R356). -/
def modelReads (s : State) (reads : List (BitVec 24 × Ecc)) : State := reads.foldl (fun t p => readEcc t p.1.toNat p.2) s
def firstUe (reads : List (BitVec 24 × Ecc)) : Option Nat := (reads.find? fun p => p.2 == .double).map fun p => p.1.toNat

/-- FORECAST_RECORDS_SENT: the model has finished and the records are sent; an uncorrectable error in a read of model data abandons the cycle (R255, R256, R270, R277). `reads`: the reads
of the cycle whose check bits showed an error. An abandoned cycle writes no recurrent state; it is a cycle that ran, with an update of the heads from the cycles before it (R263, R271). -/
def execForecastRecordsSent (reads : List (BitVec 24 × Ecc)) (s : State) : Out := nextOf s <|
  match s.fh.run with
  | none => s
  | some r =>
    let s1 := fset { modelReads s reads with fh := { s.fh with run := none, ran := min 255 (s.fh.ran + 1) } } FH_STAT_CYCLE r.seq
    match firstUe reads with
    | some off =>
      let s2 := (List.range (nF s1)).foldl (fun t f => updFhF (fsetB t (FH_FROND_VALID f) false) f fun y => { y with p0 := none :: y.p0.drop 1 }) s1
      (showFh (raiseD (updateHeads (sendRecords s2 (r.recs.map fun p => (p.1, voidRec p.2))) r) 0xC1 none off 0x42))
    | none => (showFh (r.st.foldl (fun t p => mossPutVals t p.1 2 [p.2]) (updateHeads (sendRecords s1 r.recs) r)))

/-- FORECAST_RECORD: a record of frond f arrives at its core, at the admission controller or at the active Rhizome (R263). `edge`: at the admission controller it cleared a deferral in
the cycle in which that expired (R185, kind 4). -/
def execForecastRecord (d : FcDest) (f : Nat) (edge : Bool) (s : State) : Out := nextOf s <|
  match d with
  | .core =>
    match takeUpd (fun m : FMsg => match m with | .forecast _ _ _ _ => true | _ => false) [] (fr s f).upd with
    | none => s
    | some (m, rest) =>
      let x := fr s f
      if answers s f then recvSeq (setFr s f { x with upd := rest, inbox := x.inbox ++ [(0, m)] }) (fcKey 0 f) (32 * 0x42) f (match m with | .forecast p _ _ _ => provSeq p | _ => 0)
      else setFr s f { x with upd := rest }
  | .admission =>
    match takeHead (fun p : Nat × FcRec => p.1 == f) s.fh.adAir with
    | none => s
    | some (p, rest) =>
      let s1 := recvSeq { s with fh := { s.fh with adAir := rest } } (fcKey 1 f) (32 * 0x42 + 1) 0x4B (provSeq p.2.prov)
      let pts := (List.range 4).flatMap fun k => [2 * bitsOf p.2.w2 (16 * k + 15) (16 * k), 2 * bitsOf p.2.w3 (16 * k + 15) (16 * k)]
      (clearing edge s { s1 with adm := { s1.adm with fc := tset s.adm.fc f (if bitOf p.2.w1 22 then some (maxOf pts) else none) } })
  | .rhizome =>
    match takeHead (fun p : Nat × FcRec => p.1 == f) s.rz.fcAir with
    | none => s
    | some (p, rest) => recvSeq { s with rz := { s.rz with fcAir := rest, fc := tset s.rz.fc f p.2 } } (fcKey 2 f) (32 * 0x42 + 2) (activeIsl s) (provSeq p.2.prov)

/-! ### Changing the model (R275) -/

/-- The refusal codes that are decided at the write: 0 none (Table 12-9). -/
def modelRefusal (s : State) (op slot : Nat) (wide : Bool) : Nat :=
  let banks := slotBanks slot wide
  let running := flag s FH_CTRL_EN && flag s FH_MODEL_STAT_LOADED && banks.any fun b => (slotBanks (fget s FH_MODEL_STAT_SLOT) (flag s FH_MODEL_STAT_WIDE)).contains b
  if inSpore s then 8
  else if !(slotOwned s slot wide) || (op == 2 && (running || (wide && flag s FH_CTRL_EN))) then 6
  else 0

/-- The effect of a write to FH_MODEL_CMD that is not refused. -/
def modelCmd (s : State) (v : Nat) : State :=
  let op := bitsOf v 1 0
  let slot := bitsOf v 2 2
  let wide := bitOf v 3
  let s1 := fsetB (fset s FH_MODEL_CMD_SLOT slot) FH_MODEL_CMD_WIDE wide
  if op = 0 ∨ op = 3 then s1
  else
    let c := modelRefusal s op slot wide
    if c ≠ 0 then fset s1 FH_MODEL_CMD_RESULT c
    else { fsetB s1 FH_MODEL_CMD_BUSY true with fh := { s1.fh with check := some (op, slot, wide) } }

/-- R275 step 1: the state sections are zeroed. -/
def zeroStates (s : State) (slot : Nat) (wide : Bool) : State :=
  ((sects (slotRd s slot wide)).filter fun x => x.typ == 3).foldl (fun t x =>
    { t with moss := { t.moss with mem := mclear t.moss.mem (slotBase slot wide + x.off) (slotBase slot wide + x.off + x.bytes) } }) s

/-- R275 step 2: the FP32 masters of the update area are the head's BF16 weights. -/
def initHead (s : State) (slot : Nat) (wide : Bool) : State :=
  let rd := slotRd s slot wide
  let w := headWidth rd
  match (layers rd).find? fun l => l.flags % 2 == 1 with
  | none => s
  | some l => match (sects rd)[l.w]? with
    | none => s
    | some x => (List.range 512).foldl (fun t k => mossPutVals t (masterAt (updArea slot wide w) w (k / 8) (k % 8)) 4 ((rowCodes rd x w (k / 8) (k % 8)).map (fpCvt bf16 f32))) s

/-- A checked model is to be switched to: at once while EN is 0, else at the next cycle beginning (R275, R374 step 2). -/
def switchTo (s : State) (slot : Nat) (wide : Bool) : State :=
  let s1 := initHead (zeroStates s slot wide) slot wide
  if flag s FH_CTRL_EN then { s1 with fh := { s1.fh with switch := some (slot, wide) } } else selectModel s1 slot wide

/-- The code of a check that completes: 6 where the slot's banks have been handed away meanwhile (R272), 7 where a read met an uncorrectable error (Table 12-9). -/
def checkCode (s : State) (slot : Nat) (wide ue : Bool) : Nat :=
  if !(slotOwned s slot wide) then 6 else if ue then 7 else modelCode (slotRd s slot wide) (slotSize wide)

/-- MODEL_CHECK_DONE: the check completes; `reads`: its reads whose check bits showed an error (R274, R275, R356). -/
def execModelCheckDone (reads : List (BitVec 24 × Ecc)) (s : State) : Out := nextOf s <|
  match s.fh.check with
  | none => s
  | some (op, slot, wide) =>
    let c := checkCode s slot wide (firstUe reads).isSome
    let s1 := fsetB (fset { modelReads s reads with fh := { s.fh with check := none } } FH_MODEL_CMD_RESULT c) FH_MODEL_CMD_BUSY false
    (if c = 0 ∧ op = 2 then switchTo s1 slot wide else s1)

/-- R278: the refusal rules of the FH_ registers. -/
def fhRefused (s : State) (n : RName) (v : Nat) : Bool :=
  match n with
  | .FH_CTRL => !(inSpore s) && bitOf v 0 && !(flag s FH_MODEL_STAT_LOADED)
  | .FH_CFG =>
    let a := bitsOf v 11 8
    let b := bitsOf v 15 12
    decide (a = 0 ∨ 8 < a ∨ b = 0 ∨ 8 < b) || bitsOf v 31 24 == 0 || bitsOf v 43 36 == 0 || bitsOf v 47 44 == 0
  | .FH_NLMS_CFG =>
    let mu := bitsOf v 15 0
    let eps := bitsOf v 31 16
    fpNeg f16 mu || !(fpFin f16 mu) || !(fpLt f16 mu (fpInt f16 1)) || !(fpFin f16 eps) || !(fpLt f16 0 eps)
  | .FH_MODEL_CMD => flag s FH_MODEL_CMD_BUSY
  | _ => false

end Sys2Proof.Machine
end

