-- ==== Sys2Proof/Machine/Respond.lean ====
section
/-! DEFINITION. Machine/Respond.lean: how an access is answered: at the host port (R396, R408), as a REG_RSP (R327), as a PMBus answer (R415, R416), in the debug register (R419). -/
namespace Sys2Proof.Machine

/-! ### LINEAR11 (R416) -/

/-- LINEAR11 of a value: the least exponent N at which the rounded mantissa has |Y| ≤ 1,023; none for a value beyond the format. -/
def linear11 (q : Rat) : Option Nat :=
  ((List.range 32).find? fun k =>
      let x := if k < 16 then q * 2 ^ (16 - k) else q / 2 ^ (k - 16)
      decide ((rne x.num x.den).natAbs ≤ 1023)).map fun k =>
    let x := if k < 16 then q * 2 ^ (16 - k) else q / 2 ^ (k - 16)
    patOf 5 ((k : Int) - 16) * 2 ^ 11 + patOf 11 (rne x.num x.den)

/-- The value of a LINEAR11 word as an exact number. -/
def linear11Val (w : Nat) : Rat :=
  let y : Int := signedOf 11 (w % 2048)
  let n := signedOf 5 (w / 2048)
  if 0 ≤ n then (y : Rat) * 2 ^ n.toNat else (y : Rat) / 2 ^ (-n).toNat

/-- R416: a written value: rounded down to a whole unit; none when it is negative or above the largest value. -/
def linear11Unit (w m : Nat) : Option Nat :=
  let v := (linear11Val w).floor
  if 0 ≤ v ∧ v ≤ m then some v.toNat else none

/-! ### PMBus answers -/

/-- The bytes of an answer leave the target. -/
def pmOut (s : State) (l : List Nat) : State := { s with pm := { s.pm with ans := s.pm.ans ++ [l] } }

/-- The answer of a read command leaves with its PEC, over both address bytes, the command code and the data (R12). -/
def pmSay (s : State) (code : Nat) (l : List Nat) : State :=
  let a := 0x58 + s.pm.addr
  pmOut s (l ++ [pec8 ([2 * a, code, 2 * a + 1] ++ l)])

/-- A word answer in LINEAR11; a value that the format cannot hold gives a free word (DESIGN CHOICE: the spec states no result). -/
def pmLinear (s : State) (code : Nat) (q : Rat) : State :=
  match linear11 q with
  | some w => pmSay s code (leBytes 2 w)
  | none => let d := draw s; pmSay d.2 code (leBytes 2 d.1.toNat)

/-- A STATUS_CML bit is set (R416). -/
def pmCml (s : State) (b : Nat) : State := pmStep { s with pm := { s.pm with cml := s.pm.cml ||| 2 ^ b } }

/-- A block answer carries its byte count first. -/
def pmBlock (s : State) (code : Nat) (l : List Nat) : State := pmSay s code (l.length :: l)

/-- P_meas in W from BG_POWER. -/
def pmWatts (data : Nat) : Rat := (bitsOf data BG_POWER_P_MEAS.hi BG_POWER_P_MEAS.lo : Rat) / 1000

/-- Table 20-4: the answer of a read command from the register word that it has read. -/
def pmAnswer (s : State) (code data : Nat) : State :=
  match code with
  | 0x88 => pmLinear s code ((bitsOf data VP_VIN_STAT_VIN.hi VP_VIN_STAT_VIN.lo : Rat) / 1000)
  | 0x89 =>
    if vinMv s = 0 then let d := draw s; pmSay d.2 code (leBytes 2 d.1.toNat)
    else pmLinear s code (pmWatts data * 1000 / (92 / 100 * (vinMv s : Rat)))
  | 0x8D => pmLinear s code ((signedOf 16 (bitsOf data TH_STAT_HOT_READ.hi TH_STAT_HOT_READ.lo) : Rat) / 16)
  | 0x96 => pmLinear s code (pmWatts data)
  | 0x97 => pmLinear s code (pmWatts data * 100 / 92)
  | 0x9B => pmBlock s code [bitsOf data RZ_ID_STEPPING.hi RZ_ID_STEPPING.lo]
  | 0xD0 => pmLinear s code (bitsOf data BG_CAP_SUPPLY.hi BG_CAP_SUPPLY.lo : Rat)
  | 0xD1 => pmLinear s code (bitsOf data MT_SITE_CEIL.hi MT_SITE_CEIL.lo : Rat)
  | 0xD2 => pmBlock s code (leBytes 8 data)
  | _ => pmSay s code (leBytes 2 data)

/-! ### Answers -/

def statusCode : Status → Nat
  | .ok => 0
  | .err => 1
  | .own => 2

/-- An access is answered; the data are 0 for a write and for every response other than OK to a read (R408). -/
def respond (s : State) (a : Access) (st : Status) (data : Nat) : State :=
  let d := if st = .ok ∧ a.we = false then data else 0
  match a.src with
  | .host => { s with bus := { s.bus with resp := s.bus.resp ++ [⟨.host, st, d⟩] } }
  | .mat dev tag => sendRegRsp s dev tag (statusCode st) a.addr d
  | .pmbus code => if a.we then (if st = .ok then s else pmCml s 6) else pmAnswer s code d
  | .tap => { s with tap := { s.tap with dbg := some (statusCode st, d) } }
  | .own => s

end Sys2Proof.Machine
end

