-- ==== Sys2Proof/Machine/Faults.lean ====
section
/-! DEFINITION. Machine/Faults.lean: the fault collector, island 0x47 (spec/15_faults.md, R332 to R347): raises, levels, records, level-3 and chip actions, self-tests and outputs,
and the begin of a Lichen takeover (R341, R379). -/
namespace Sys2Proof.Machine

/-- The indices that Table 15-1 lists. -/
def sources : List Nat := (List.range 256).filter fun i => (fltRow i).isSome

/-- The class of a source (Table 15-1). -/
def classOfSrc (i : Nat) : Nat := match fltRow i with | some r => r.1 | none => 0

/-- The set sources. -/
def setSources (s : State) : List Nat := sources.filter fun i => isSet s i

/-- The highest LVL among set sources (Table 15-10). -/
def maxLvl (s : State) : Nat := maxOf ((setSources s).map (lvlOf s))

/-- L_c: the highest level among the set sources of a class (R334). -/
def classLvl (s : State) (c : Nat) : Nat := maxOf (((setSources s).filter fun i => classOfSrc i == c).map (lvlOf s))

/-- R340, R342: the outputs and RZ_FLT_LIVE follow what has changed. -/
def showFlt (s : State) : State :=
  let m := maxLvl s
  let s1 := fset (fsetB (fsetB s RZ_FLT_LIVE_FAULT0 (decide (fget s RZ_FLT_CTRL_F0_THR ≤ m))) RZ_FLT_LIVE_FAULT1 (decide (fget s RZ_FLT_CTRL_F1_THR ≤ m))) RZ_FLT_LIVE_MAX_LVL m
  let s2 := fset s1 RZ_FLT_LIVE_TESTS s.flt.tests.length
  let s3 := if fget s RZ_FLT_CTRL_ALIVE_THR ≤ m then fsetB { s2 with flt := { s2.flt with aliveStop := true } } RZ_FLT_LIVE_ALIVE false else s2
  let left := s.flt.chipSrcs.filter fun i => isSet s i
  let s4 := { s3 with flt := { s3.flt with chipSrcs := left } }
  pmStep (if left.isEmpty then fsetB s4 RZ_FLT_LIVE_CHIP_DOWN false else s4)

/-! ### Records (R345, R346) -/

def recBody (r : FRec) : List Nat :=
  leBytes 8 (provWord r.seq 0x47 0) ++ [r.src, r.cls + 16 * r.lvl, r.kind, r.sev + 8 * r.forced.toNat + 16 * r.pinned.toNat + 32 * r.ovf.toNat]
    ++ leBytes 4 r.rseq ++ leBytes 8 r.units ++ [r.test, r.verdict] ++ leBytes 2 r.tdetail ++ leBytes 4 r.detail ++ [r.active] ++ List.replicate 29 0

/-- The 64 bytes of a record (Table 15-5). -/
def recBytes (r : FRec) : List Nat := recBody r ++ leBytes 2 (crc16 (recBody r))

/-- RZ_FLT_NVM follows the waiting records and the fault slots. -/
def showNvm (s : State) : State :=
  fsetB (fsetB (fset s RZ_FLT_NVM_USED s.flash.fslots.length) RZ_FLT_NVM_PINNED s.flash.pinned.isSome) RZ_FLT_NVM_PENDING (!s.flt.nvmQ.isEmpty)

/-- A record waits for its NVM write; the oldest one is replaced when the collector holds no more. -/
def queueNvm (s : State) (r : FRec) : State :=
  if s.flt.nvmQ.length < s.flt.depth then showNvm { s with flt := { s.flt with nvmQ := s.flt.nvmQ ++ [r] } }
  else showNvm (bump { s with flt := { s.flt with nvmQ := s.flt.nvmQ.drop 1 ++ [r] } } RZ_FLT_NVM_LOST)

/-- The counts of the lifetime record (R389). -/
def lifeRecord (s : State) (r : FRec) : State :=
  if r.kind = 0 then lifeBump s (12608 + 4 * r.src)
  else if r.kind = 3 ∧ r.verdict ≠ 0 then lifeBump s (13632 + 16 * (r.test - 1) + 4 * (r.verdict - 1))
  else s

/-- One record is written: RZ_FLT_LAST, the NVM queue and the lifetime counts. `nvm`: the level that decides the NVM write. -/
def record (s : State) (r : FRec) (nvm : Nat) : State :=
  let s1 := sentAs { s with flt := { s.flt with seq := (s.flt.seq + 1) % 2 ^ 32, last := some r } } 0x47 0 r.seq
  let b := recBytes r
  let s2 := (List.range 8).foldl (fun t n => setReg t (RZ_FLT_LAST n) (BitVec.ofNat 64 (leValue ((b.drop (8 * n)).take 8)))) s1
  let s3 := if r.kind = 1 ∨ r.kind = 2 then bump s2 RZ_FLT_LIVE_ESCALATIONS else s2
  let s4 := lifeRecord s3 r
  if fget s RZ_FLT_CTRL_NVM_THR ≤ nvm then queueNvm s4 r else s4

/-- A record of source i at a level, with what it takes from the state. -/
def recOf (s : State) (i kind lvl : Nat) (forced : Bool) (rseq detail : Nat) : FRec :=
  ⟨s.flt.seq, i, classOfSrc i, lvl, kind, fget s (RZ_FLT_CFG_SEV i), forced, false, flag s RZ_FLT_FIRST_OVF, rseq, unitsOf s i, 0, 0, 0, detail, activeIsl s⟩

/-! ### Level-3 actions (R339) -/

/-- A fault of level 3 or 4 sourced in frond u ends its injection (R148, cause 3). -/
def injFault (i : Nat) (s : State) (u : Nat) : State :=
  if frondSources.contains i && hasF s u then updFr s u fun x => { x with inj := { x.inj with causes := x.inj.causes ++ [3] } } else s

/-- The level-3 action on one unit of a source. -/
def actUnit (i : Nat) (s : State) (u : Nat) : State :=
  if frondSources.contains i then
    let s1 := injFault i s u
    if hasF s u = false then s
    else match fget s (RZ_FLT_CFG_ACT i) with
      | 0 => capFrond s1 i u
      | 1 => { s1 with rz := { s1.rz with policyReq := s1.rz.policyReq ++ [(u, i)] } }
      | _ => if railSt s u = 0 then s1 else { s1 with rz := { s1.rz with drainReq := if s1.rz.drainReq.contains u then s1.rz.drainReq else s1.rz.drainReq ++ [u] } }
  else if 0x90 ≤ i ∧ i ≤ 0x94 then (if stSt s u = 0 then s else lockout s u 12)
  else if 0x98 ≤ i ∧ i ≤ 0xA7 then
    if u ≤ 5 then
      (serviceFronds s).foldl (fun t f => capFrond t i f) { s with flt := { s.flt with grpCap := if s.flt.grpCap.contains i then s.flt.grpCap else s.flt.grpCap ++ [i] } }
    else { s with vpm := { s.vpm with vidAir := s.vpm.vidAir ++ [(u, 0)] } }
  else s

/-- The level-3 action acts on every unit of the source on which it has not acted yet. -/
def level3 (s : State) (i : Nat) : State :=
  let done := tget 0 s.flt.acted i
  let new := (bitList 64 (unitsOf s i)).filter fun u => !(bitOf done u)
  new.foldl (actUnit i) { s with flt := { s.flt with acted := tset s.flt.acted i (done ||| unitsOf s i) } }

/-! ### Chip action (R340) and takeover (R341, R379) -/

/-- R340 steps 1 and 2. -/
def chipAction (s : State) (i : Nat) : State :=
  let s1 := { s with flt := { s.flt with chipSrcs := if s.flt.chipSrcs.contains i then s.flt.chipSrcs else s.flt.chipSrcs ++ [i] } }
  if flag s RZ_FLT_LIVE_CHIP_DOWN then s1
  else
    let s2 := fsetB s1 RZ_FLT_LIVE_CHIP_DOWN true
    if s2.flt.chipDrain then s2 else broadcast { s2 with flt := { s2.flt with chipDrain := true } } .chipDrain

/-- R378: the standby goes out of sync. While RESYNC_EN is 1 it resynchronises. -/
def outOfSync (s : State) : State := fsetB (fsetB s RZ_PAIR_STAT_SYNC false) RZ_PAIR_STAT_RESYNC (flag s RZ_PAIR_CFG_RESYNC_EN)

/-- The access in progress when a takeover begins: one whose entry the standby holds is answered OK, one whose entry it never received ERR; a read or an unjournalled write is
answered ERR when the takeover completes (R379). -/
def takeCur (s : State) (jAir : List JEntry) (journalled : Access → Bool) : State :=
  match s.bus.cur with
  | none => s
  | some (a, ph) =>
    let s1 := { s with bus := { s.bus with cur := none } }
    match ph with
    | .commit seq => respond s1 a (if jAir.any fun e => e.seq == seq then .err else .ok) 0
    | .island _ => if journalled a then respond s1 a .ok 0 else { s1 with bus := { s1.bus with lost := s1.bus.lost ++ [a] } }
    | .moss _ => { s1 with bus := { s1.bus with lost := s1.bus.lost ++ [a] } }

/-- Operations of the failed Rhizome end: a restart with RESULT 3, an update with code 7, an ageing command with RESULT 3, a top-k scan with ABORTED, a start-up that has not left
Spore mode at the image read (R381, R404, R131, R374, R387). -/
def abortOps (s : State) : State :=
  let s1 := match s.chip.restart with
    | none => s
    | some r => setIsl (fsetB (fset { s with chip := { s.chip with restart := none } } RZ_ISLAND_RST_RESULT 3) RZ_ISLAND_RST_BUSY false) r.isl { isl s r.isl with inReset := true, halted := true }
  let s2 := if flag s NV_UPD_CMD_BUSY then
      fsetB (fset { s1 with nv := { s1.nv with ops := s1.nv.ops.filter fun o => match o with | .upd _ _ _ _ _ => false | _ => true } } NV_UPD_CMD_RESULT 7) NV_UPD_CMD_BUSY false
    else s1
  let kept := s.age.commit || s.bus.ready.any fun e => match e.op with | .tables _ => true | _ => false
  let redo := match s.age.run with | some r => r.kind == 0 && !kept | none => false
  let s3 := if s2.age.run.isSome ∧ kept = false then { s2 with age := { s2.age with run := none, due := s2.age.due || redo } } else s2
  let s4 := if flag s NV_AGE_CMD_BUSY then fsetB (fset { s3 with age := { s3.age with cmd := none } } NV_AGE_CMD_RESULT 3) NV_AGE_CMD_BUSY false else s3
  let s5 := if s.chip.topk.isSome then
      fsetB (fsetB ((List.range 8).foldl (fun t n => fsetB t (RZ_TOPK_RES_VALID n) false) { s4 with chip := { s4.chip with topk := none } }) RZ_TOPK_CTRL_ABORTED true) RZ_TOPK_CTRL_BUSY false
    else s4
  if inSpore s && decide (3 ≤ fget s NV_BOOT_STAT_STEP) then
    fset { s5 with nv := { s5.nv with held := [] }, chip := { s5.chip with exitWait := [] } } NV_BOOT_STAT_STEP 2
  else s5

/-- R379: a takeover begins: the failed Rhizome's island is held in reset (R16), entries that the standby holds commit, and accesses that it has not answered are cut off; a bridge command
that the standby never received has had its response (Table 2-13), and the stream to Fiddlehead waits for its handshake (R257). -/
def takeoverBegin (s : State) : State :=
  let old := activeIsl s
  let air := s.bus.jAir
  let s1 := takeCur s air fun a => a.we && (s.bus.commits.any fun c => c.1 == a.addr)
  let held := s.bus.jWait.filter fun e => !(air.any fun x => x.seq == e.seq)
  let s2 := { s1 with
    bus := { s1.bus with ready := s1.bus.ready ++ held.map (fun e => { e with wait := false }), jWait := [], jAir := [], jAck := [],
                         lost := s1.bus.lost ++ s1.bus.queue.filter (fun a => !(a.src == .own)), queue := [] }
    flt := { s1.flt with takeTrig := true } }
  let lostBridge := air.any fun e => match e.op with | .write a _ => a == RZ_BRIDGE_CMD | _ => false
  let s2 := { (if lostBridge then fsetB s2 RZ_BRIDGE_CMD_BUSY false else s2) with rz := { s2.rz with fhShut := true } }
  let s3 := setIsl s2 old { isl s2 old with inReset := true, halted := true, cycles := 0, gaps := 0 }
  let s4 := fsetB (fset s3 RZ_PAIR_STAT_ACTIVE (1 - fget s RZ_PAIR_STAT_ACTIVE)) RZ_PAIR_STAT_TAKEOVER true
  abortOps (fsetB (fsetB s4 RZ_PAIR_STAT_SYNC false) RZ_PAIR_STAT_RESYNC false)

/-- A trigger of Table 15-3: a stop of the active Rhizome's island; source 0x12 or 0x13 that reaches level 4 with its unit bit, or that a raise names at level 4; a FORCE of 0x12 that
names it. `old` is the level before the raise. -/
def isTrigger (s : State) (i : Nat) (unit : Option Nat) (forced : Bool) (old lvl : Nat) : Bool :=
  let act := fget s RZ_PAIR_STAT_ACTIVE
  i == 2 + act || (i == 0x12 && forced && unit == some act) || ((i == 0x12 || i == 0x13) && lvl == 4 && bitOf (unitsOf s i) act && (unit == some act || decide (old < 4)))

/-- A fault of the standby that only takes it out of sync (R341). -/
def isStandbyFault (s : State) (i : Nat) (unit : Option Nat) (lvl : Nat) : Bool :=
  let sb := 1 - fget s RZ_PAIR_STAT_ACTIVE
  i == 2 + sb || ((i == 0x12 || i == 0x13) && lvl == 4 && unit == some sb)

/-- What a raise that has taken its level starts: a takeover, the standby's loss of sync, or the chip action (R340, R341). -/
def actRaise (s : State) (i : Nat) (unit : Option Nat) (forced : Bool) (old lvl : Nat) : State :=
  let s0 := if lvl = 4 then { s with flt := { s.flt with chipSrcs := if s.flt.chipSrcs.contains i then s.flt.chipSrcs else s.flt.chipSrcs ++ [i] } } else s
  if isTrigger s0 i unit forced old lvl then
    if inTakeover s0 then s0 else if inSync s0 then takeoverBegin s0 else chipAction s0 i
  else if isStandbyFault s0 i unit lvl then outOfSync s0
  else if lvl = 4 then chipAction s0 i
  else s0

/-! ### Raises (R333, R334, R336, R337) -/

/-- R336: FIRST latches, or the raise is a later one. -/
def latchFirst (s : State) (i : Nat) : State :=
  if flag s RZ_FLT_FIRST_VALID then bump (fsetB s RZ_FLT_FIRST_OVF true) RZ_FLT_FIRST_OVF_CNT
  else fset (fsetB (fset s RZ_FLT_FIRST_SRC i) RZ_FLT_FIRST_VALID true) RZ_FLT_FIRST_SEQ s.flt.seq

/-- The units of a raise: the unit that it names; for a group source the group that its index names (Table 15-1). -/
def raiseUnit (r : Raise) : Option Nat := if 0x98 ≤ r.src ∧ r.src ≤ 0xA7 ∧ r.unit = none then some (r.src % 8) else r.unit

/-- R343: a raise starts the test of its source, or a verdict says that it was not run. Test 5 holds its lane Off. -/
def startTest (s : State) (r : Raise) (u : Nat) (seq lvl : Nat) : State :=
  let t := fltTest r.src
  let busy := s.flt.tests.any fun x => x.test == t && x.unit == u
  if t = 0 then s
  else if r.forced || busy || (t == 1 && railSt s u != 3) then
    record s { recOf s r.src 3 (lvlOf s r.src) r.forced seq r.detail with test := t, tdetail := if busy && !r.forced then 1 else 0 } lvl
  else
    let s1 := { s with flt := { s.flt with tests := s.flt.tests ++ [⟨t, r.src, u, r.detail, seq, lvl⟩] } }
    if t = 5 ∧ laneSt s u ≠ 0 then laneHold s1 u else s1

/-- R333: one raise is taken: status, units, COUNT, level, records, window, actions and test. -/
def takeRaise (s : State) (r : Raise) : State :=
  match fltRow r.src with
  | none => s
  | some row =>
    let i := r.src
    let u := raiseUnit r
    let before := isSet s i
    let old := if before then lvlOf s i else 0
    let sev := fget s (RZ_FLT_CFG_SEV i)
    let lc := classLvl s row.1
    let new := if bitOf (fget s RZ_FLT_CTRL_ESC_EN) row.1 && decide (1 ≤ lc) then min 4 (max sev (lc + 1)) else sev
    let lvl := max old new
    let seq := s.flt.seq
    let s1 := setReg s (RZ_FLT_STAT (i / 64)) (BitVec.ofNat 64 ((reg s (RZ_FLT_STAT (i / 64))).toNat ||| 2 ^ (i % 64)))
    let s2 := setReg s1 (RZ_FLT_UNIT i) (BitVec.ofNat 64 (unitsOf s i ||| (match u with | some k => 2 ^ (k % 64) | none => 0)))
    let s3 := latchFirst (bump (bump s2 (RZ_FLT_CFG_COUNT i)) RZ_FLT_LIVE_FAULTS) i
    let s4 := record s3 (recOf s3 i 0 (max old sev) r.forced seq r.detail) (max old sev)
    let s5 := if sev < new then record s4 (recOf s4 i 1 lvl r.forced seq r.detail) lvl else s4
    let s6 := fset s5 (RZ_FLT_CFG_LVL i) lvl
    let s7 := if lvl = 2 ∧ before = false then { s6 with flt := { s6.flt with windows := tset s6.flt.windows i seq } } else s6
    let again := u.filter fun k => bitOf (tget 0 s7.flt.acted i) k
    let s8 := if 3 ≤ lvl then level3 (match again with | some k => injFault i s7 k | none => s7) i else s7
    let s9 := actRaise s8 i u r.forced old lvl
    showFlt (startTest s9 r (u.getD 0) seq lvl)

/-- The raise of a source and unit that is on its way; sources 0x12 and 0x13 are raised by the supervisors' hardware itself. -/
def pickRaise (s : State) (src : Nat) (unit : Option Nat) (detail : Nat) : Option (Raise × State) :=
  match takeFirst (fun r : Raise => r.src == src && r.unit == unit) s.flt.raises with
  | some (r, rest) => some (r, { s with flt := { s.flt with raises := rest } })
  | none =>
    match unit with
    | some u => if (src = 0x12 ∨ src = 0x13) ∧ u < 2 then some (⟨src, unit, detail, 0x40 + u, false⟩, s) else none
    | none => none

/-! ### Acknowledgement and windows (R335, R337) -/

/-- One source is acknowledged. -/
def ackSource (s : State) (i : Nat) : State :=
  let s1 := setReg s (RZ_FLT_STAT (i / 64)) (BitVec.ofNat 64 ((reg s (RZ_FLT_STAT (i / 64))).toNat - ((reg s (RZ_FLT_STAT (i / 64))).toNat &&& 2 ^ (i % 64))))
  let s2 := setReg (fset s1 (RZ_FLT_CFG_LVL i) 0) (RZ_FLT_UNIT i) 0
  releaseCaps { s2 with
    flt := { s2.flt with windows := tdel s2.flt.windows i, acted := tdel s2.flt.acted i }
    rz := { s2.rz with policyReq := s2.rz.policyReq.filter fun p => p.2 != i } } i

/-- An acknowledgement of RZ_FLT_STAT_j arrives. -/
def ackSources (s : State) (j bits : Nat) : State :=
  showFlt (((bitList 64 bits).filter fun b => isSet s (64 * j + b)).foldl (fun t b => ackSource t (64 * j + b)) s)

/-- R337: a window expires. -/
def windowExpiry (s : State) (i : Nat) : State :=
  match tget? s.flt.windows i with
  | none => s
  | some seq =>
    let s1 := { s with flt := { s.flt with windows := tdel s.flt.windows i } }
    if isSet s i ∧ lvlOf s i = 2 then
      let s2 := fset s1 (RZ_FLT_CFG_LVL i) 3
      showFlt (level3 (record s2 (recOf s2 i 2 3 false seq 0) 3) i)
    else s1

/-! ### Self-tests (R343) -/

/-- What a verdict does beside its record: 1 transient, 2 lasting, 3 external, 4 aborted. -/
def verdictEffect (s : State) (t : TestRun) (verdict : Nat) : State :=
  match t.test with
  | 1 => if verdict = 2 ∧ hasF s t.unit then fset s (FR_PHASE_HEALTH_OPEN t.unit) (fget s (FR_PHASE_HEALTH_OPEN t.unit) ||| 2 ^ (t.detail % 32)) else s
  | 2 =>
    let s1 := updLcal s fun x => { x with tests := if x.tests.contains t.unit then x.tests else x.tests ++ [t.unit] }
    if t.src = 0x39 ∧ verdict ≠ 4 then domVerdict s1 t.unit (verdict == 2) else s1
  | 3 => if verdict ≠ 4 then domVerdict s 64 (verdict == 2) else s
  | 4 =>
    if t.src = 0x18 ∨ t.src = 0xC1 then mossPut s (t.detail / 8 * 8) 0
    else if t.src = 0x31 ∧ t.detail < 0xE00 then setImem s t.unit t.detail 0
    else s
  | _ => s

/-- A self-test ends with its verdict. -/
def testVerdict (s : State) (src unit verdict tdetail : Nat) : State :=
  match takeFirst (fun t : TestRun => t.src == src && t.unit == unit) s.flt.tests with
  | none => s
  | some (t, rest) =>
    let s1 := { s with flt := { s.flt with tests := rest } }
    let s2 := record s1 { recOf s1 src 3 (lvlOf s src) false t.seq t.detail with test := t.test, verdict := verdict, tdetail := tdetail } t.lvl
    showFlt (verdictEffect s2 t verdict)

/-! ### Registers (R347) -/

/-- The refusal rules of the collector's registers. -/
def fcRefused (s : State) (n : RName) (i v : Nat) : Bool :=
  let badThr := fun t => t == 0 || decide (4 < t)
  match n with
  | .RZ_FLT_CTRL =>
    badThr (bitsOf v 2 0) || badThr (bitsOf v 6 4) || badThr (bitsOf v 10 8) || decide (4 < bitsOf v 14 12) || bitsOf v 47 40 == 0
      || (bitOf v 48 && decide (bitsOf v 2 0 ≤ maxLvl s))
  | .RZ_FLT_CFG =>
    decide (4 < bitsOf v 2 0) || bitsOf v 9 8 == 3 || bitsOf v 31 12 == 0 || decide (1000000 < bitsOf v 31 12) || (bitOf v 32 && (fltRow i).isNone)
  | _ => false

/-- The effect of a write to a collector register; `store` writes its RW bits. -/
def fcWrite (s : State) (n : RName) (i v : Nat) (store : State → State) : State :=
  match n with
  | .RZ_FLT_STAT => { s with bus := { s.bus with fltAcks := s.bus.fltAcks ++ [(i, v)] } }
  | .RZ_FLT_FIRST =>
    if bitOf v 8 then fset (fsetB (fsetB s RZ_FLT_FIRST_VALID false) RZ_FLT_FIRST_OVF false) RZ_FLT_FIRST_SRC 0 else s
  | .RZ_FLT_CTRL =>
    let s1 := store s
    let s2 := if bitOf v 48 then { s1 with flt := { s1.flt with aliveStop := false } } else s1
    showFlt s2
  | .RZ_FLT_NVM => if bitOf v 24 then showNvm { s with flash := { s.flash with fslots := [], pinned := none } } else s
  | .RZ_FLT_CFG =>
    let s1 := store s
    if bitOf v 32 then takeRaise s1 ⟨i, if bitOf v 39 then some (bitsOf v 38 33) else none, 0, activeIsl s, true⟩ else s1
  | _ => store s

end Sys2Proof.Machine
end

