-- ==== Sys2Proof/Machine/Topk.lean ====
section
/-! DEFINITION. Machine/Topk.lean: the top-k unit of the active Rhizome (R129 to R131). -/
namespace Sys2Proof.Machine

/-- The latest telemetry record of a frond as the active Rhizome holds it, by phase (Table 5-7 metric 1). -/
def phaseMean (s : State) (f n : Nat) : Int := match tget? s.rz.tel f with | some t => t.phase.getD n 0 | none => 0

/-- Table 5-7: the positions of a metric with their values; with `excl` the positions of R130 are skipped. The spec leaves open, and the model chooses (DESIGN CHOICE, log entry 123): the gap
of metric 3 is rounded to the nearest mA, a position of metrics 1 to 4 of which no record has arrived yet ranks with 0, and so does a negative stage current in metric 5. -/
def topkList (s : State) (metric : Nat) (excl : Bool) : List (Nat × Int) :=
  let keep := fun (skip : Bool) (x : Nat × Int) => if excl && skip then none else some x
  let fronds := fun (v : Nat → Int) => (List.range (nF s)).filterMap fun f => keep (railSt s f == 0) (f, v f)
  match metric with
  | 0 =>
    ((List.range (4 * nF s)).filterMap fun n => keep (flag s (TH_SENS_QUAR n)) (n, s16 (fget s (TH_SENS_READ n))))
      ++ (List.range 16).map fun m => (256 + m, s16 (fget s (TH_REM_STAT_READ m)))
  | 1 =>
    (List.range (nF s)).flatMap fun f => (List.range (nP s)).filterMap fun n => keep (!(bitOf (fget s (FR_PHASE_MASK_MASK f)) n)) (f * 32 + n, phaseMean s f n)
  | 2 => fronds fun f => measured s f
  | 3 => fronds fun f => nearU 32 (absRat (ratOf (tget 0 s.bud.est f) - (measured s f : Rat)))
  | 4 => fronds fun f => match tget? s.rz.fc f with | some r => bitsOf r.w4 23 0 | none => 0
  | _ => (List.range 48).filterMap fun n => keep (!(flag s (VP_STAGE_IMG_EN n))) (n, max 0 (stg s n).cur)

/-- The rank order of R130: the first of two positions comes before the second. -/
def rankBefore (smallest : Bool) (a b : Nat × Int) : Bool :=
  if a.2 = b.2 then decide (a.1 < b.1) else if smallest then decide (a.2 < b.2) else decide (b.2 < a.2)

/-- An entry is put in its place among the first eight. -/
def rankInsert (smallest : Bool) (l : List (Nat × Int)) (x : Nat × Int) : List (Nat × Int) :=
  ((l.takeWhile fun y => rankBefore smallest y x) ++ x :: l.dropWhile fun y => rankBefore smallest y x).take 8

/-- The eight results of a scan, as (position, 32-bit value). -/
def topkScan (s : State) (metric : Nat) (smallest excl : Bool) : List (Nat × Nat) :=
  ((topkList s metric excl).foldl (rankInsert smallest) []).map fun x => (x.1, patOf 32 x.2)

/-- R131: a GO write is refused. -/
def topkRefused (s : State) (v : Nat) : Bool := bitOf v 8 && (flag s RZ_TOPK_CTRL_BUSY || decide (5 < bitsOf v 3 0) || inTakeover s)

/-- A write to RZ_TOPK_CTRL that is not refused (R129). -/
def topkWrite (s : State) (v : Nat) (store : State → State) : State :=
  let s1 := store s
  if bitOf v 8 then
    fsetB (fsetB { s1 with chip := { s1.chip with topk := some (topkScan s1 (bitsOf v 3 0) (bitOf v 4) (bitOf v 5)) } } RZ_TOPK_CTRL_ABORTED false) RZ_TOPK_CTRL_BUSY true
  else s1

/-- TOPK_SCAN_DONE: the eight result registers change together (R129, R130). -/
def execTopkScanDone (s : State) : Out := nextOf s <|
  match s.chip.topk with
  | none => s
  | some l =>
    let s1 := (List.range 8).foldl (fun t n => setReg t (RZ_TOPK_RES n) (match l[n]? with
      | some x => BitVec.ofNat 64 (x.2 + x.1 * 2 ^ 32 + 2 ^ 63)
      | none => 0)) s
    (fsetB { s1 with chip := { s1.chip with topk := none } } RZ_TOPK_CTRL_BUSY false)

end Sys2Proof.Machine
end

