-- ==== Sys2Proof/Machine/Image.lean ====
section
/-! DEFINITION. Machine/Image.lean: OTP and image (spec/17_startup_image.md, R364 to R372): the boot word, the image layout and verification steps 1 to 6. An image is read through a
function from offsets to bytes. -/
namespace Sys2Proof.Machine

/-! ### OTP (R364, R365) -/

/-- Byte b of the OTP. -/
def otpByte (s : State) (b : Nat) : Nat := bitsOf s.otp.toNat (8 * b + 7) (8 * b)

/-- n bytes of the OTP from byte b on. -/
def otpBytes (s : State) (b n : Nat) : List Nat := (List.range n).map fun k => otpByte s (b + k)

/-- The boot word (Table 17-2). -/
def bootWord (s : State) : Nat := bitsOf s.otp.toNat 511 448

def otpUid (s : State) : Nat := bitsOf s.otp.toNat 447 384

/-- The rollback floor: the number of set bits of ROLLBACK. -/
def rollFloor (s : State) : Nat := popCount 16 (bitsOf (bootWord s) 57 42)

/-- The counts N0 to N5 of the boot map. -/
def bootCounts (s : State) : List Nat := bitsOf (bootWord s) 5 0 :: (List.range 5).map fun k => bitsOf (bootWord s) (8 + 3 * k) (6 + 3 * k)

/-- The counts meet Table 2-2 and sum to at most 48 (R365). -/
def bootMapOk (s : State) : Bool :=
  let c := bootCounts s
  ((List.range 6).all fun g => decide (grpLeast g ≤ c.getD g 0 ∧ c.getD g 0 ≤ grpMost g)) && decide (sumOf c ≤ 48)

/-- The boot map: the group of each stage, in ascending order (R365). -/
def bootMap (s : State) : List (Option Nat) :=
  let l := (List.range 6).flatMap fun g => List.replicate ((bootCounts s).getD g 0) (some g)
  (l ++ List.replicate (48 - l.length) none).take 48

/-- An image can pass verification: PROG is 1 and HASH is not zero (R365). -/
def otpHash (s : State) : List Nat := otpBytes s 16 32
def otpReady (s : State) : Bool := bitOf (bootWord s) 63 && !((otpHash s).all (· == 0))

/-! ### The image (R371, Tables 17-6 to 17-9) -/

/-- The bytes of an image slot. -/
def imgMem (s : State) (slot : Nat) : List Host.Cell := if slot = 0 then s.flash.img0 else s.flash.img1
def imgRd (s : State) (slot : Nat) : Nat → Nat := fun k => (mread 0xFF (imgMem s slot) k).toNat

/-- n bytes of an image. -/
def imgBytes (rd : Nat → Nat) (off n : Nat) : List Nat := (List.range n).map fun k => rd (off + k)

def imgSize (rd : Nat → Nat) : Nat := imgU rd 8 4

/-- Table 17-6: the header. -/
def headerOk (rd : Nat → Nat) : Bool :=
  imgU rd 0 4 == 0x4D495A46 && imgU rd 4 2 == 1 && imgU rd 6 2 == 64 && imgSize rd % 64 == 0 && decide (256 ≤ imgSize rd ∧ imgSize rd ≤ 8388608)
    && decide (1 ≤ imgU rd 12 2 ∧ imgU rd 12 2 ≤ 64 ∧ rd 17 ≤ 16) && imgU rd 18 2 == 0 && (imgBytes rd 24 40).all (· == 0)

/-- A section entry (Table 17-7). -/
structure ISect where
  type : Nat
  zero : Bool
  off : Nat
  bytes : Nat
  dest : Nat
deriving DecidableEq, Repr

def isectAt (rd : Nat → Nat) (i : Nat) : ISect :=
  let o := 64 + 16 * i
  ⟨rd o, imgU rd (o + 1) 3 == 0, imgU rd (o + 4) 4, imgU rd (o + 8) 4, imgU rd (o + 12) 4⟩

def isects (rd : Nat → Nat) : List ISect := (List.range (imgU rd 12 2)).map (isectAt rd)

/-- The only section of a type. -/
def isect (rd : Nat → Nat) (t : Nat) : Option ISect := (isects rd).find? fun x => x.type == t

/-- The stage map of a type-5 section: byte n is the group of stage n, or 0xFF. -/
def stageMapOf (rd : Nat → Nat) (x : ISect) : List (Option Nat) := (imgBytes rd x.off 48).map fun b => if b = 0xFF then none else some b

/-- R33: every group's count lies within Table 2-2. -/
def stageMapOk (l : List (Option Nat)) : Bool :=
  (l.all fun g => match g with | none => true | some g => decide (g < 8))
    && (List.range 8).all fun g => let n := (l.filter fun x => x == some g).length; decide (grpLeast g ≤ n ∧ n ≤ grpMost g)

/-- Table 17-9: the limits of one section. -/
def isectOk (rd : Nat → Nat) (x : ISect) : Bool :=
  match x.type with
  | 1 => x.dest == 0 && decide (x.bytes ≤ 0x100000)
  | 2 => decide (8 ≤ x.bytes ∧ x.dest < 0xE00 ∧ x.dest + (x.bytes - 8) / 4 ≤ 0xE00) && x.bytes % 4 == 0
  | 3 => x.dest == 0 && decide (x.bytes ≤ 0x200000) && modelCode (fun k => if k < x.bytes then rd (x.off + k) else 0) 0x200000 == 0
  | 4 => x.dest == 0 && x.bytes % 16 == 0 && decide (x.bytes / 16 ≤ 65536)
  | 5 => x.dest == 0 && x.bytes == 48 && stageMapOk (stageMapOf rd x)
  | 6 => x.dest == 0 && x.bytes == 16
  | 7 => x.dest == 0 && x.bytes % 24 == 0 && decide (x.bytes / 24 ≤ 512)
      && (List.range (x.bytes / 24)).all fun k => decide (rd (x.off + 24 * k + 1) ≤ 1) && (imgBytes rd (x.off + 24 * k + 2) 6).all (· == 0)
  | 8 => x.dest == 0 && x.bytes == 2048
  | 9 => x.dest % 8 == 0 && decide (x.dest + x.bytes ≤ 0x400000)
  | _ => false

/-- R371 and step 6 of R372: the section table. -/
def sectionsOk (rd : Nat → Nat) : Bool :=
  let l := isects rd
  let n := fun t => (l.filter fun x => x.type == t).length
  (l.all fun x => x.zero && x.off % 64 == 0 && decide (64 + 16 * l.length ≤ x.off ∧ x.off + x.bytes ≤ imgSize rd - 128))
    && allApart ((l.filter fun x => x.bytes != 0).map fun x => (x.off, x.off + x.bytes))
    && ([1, 4, 5, 8].all fun t => n t == 1) && ([3, 6, 7, 9].all fun t => decide (n t ≤ 1)) && l.all (isectOk rd)

/-- Steps 1 to 6 of R372: the code of Table 17-10. `fail`: a flash read failed; `ue`: the staged bytes met an uncorrectable error. -/
def verifyImage (s : State) (rd : Nat → Nat) (fail ue : Bool) : Nat :=
  let q := imgSize rd - 128
  let key := imgBytes rd q 64
  let be := fun (o n : Nat) => beValue (imgBytes rd (q + o) n)
  if fail then 8
  else if !(headerOk rd) then 1
  else if rd 14 ≠ nF s ∨ rd 15 ≠ nP s ∨ rd 16 ≠ gridW (nF s) then 2
  else if ue then 9
  else if !(otpReady s) || sha256 key != otpHash s || !(onCurve (be 0 32) (be 32 32)) then 3
  else if !(ecdsaVerify (be 0 32) (be 32 32) (beValue (sha256 (imgBytes rd 0 q))) (be 64 32) (be 96 32)) then 4
  else if rd 17 < rollFloor s then 5
  else if !(sectionsOk rd) then 6
  else 0

/-- The source that a verification code raises (R372). -/
def raiseCode (s : State) (code : Nat) : State :=
  if code = 0 then s else if code = 8 then raiseD s 0x25 none 0 0x4A else raiseD s 0x20 none code (activeIsl s)

/-! ### Boot records (R368, Table 17-4) -/

/-- The boot record in force; SLOT 0, STATE 0 where neither copy is valid. -/
def bootRec (s : State) : BootRec :=
  match s.flash.boot0, s.flash.boot1 with
  | some a, some b => if serialGt b.seq a.seq then b else a
  | some a, none => a
  | none, some b => b
  | none, none => ⟨2 ^ 32 - 1, 0, 0, 0, 0⟩

/-- A new boot record is written into the other copy with SEQ + 1. -/
def putBoot (s : State) (slot state prev : Nat) : State :=
  let r := bootRec s
  let n : BootRec := ⟨(r.seq + 1) % 2 ^ 32, slot, state, prev, r.cfg⟩
  if s.flash.boot0 = some r then { s with flash := { s.flash with boot1 := some n } } else { s with flash := { s.flash with boot0 := some n } }

end Sys2Proof.Machine
end

