-- ==== Sys2Proof/Machine/Ageing.lean ====
section
/-! DEFINITION. Machine/Ageing.lean: canary measurements, re-plans and the table record (R382 to R388), and the lifetime counters (R389 to R392). -/
namespace Sys2Proof.Machine

/-! ### The table record (R388) -/

def tabBody (r : TabRec) : List Nat :=
  leBytes 4 0x4E414C50 ++ leBytes 4 r.seq ++ leBytes 8 r.uid ++ leBytes 4 r.imageId ++ leBytes 4 r.replans ++ leBytes 8 r.secs ++ List.replicate 32 0
    ++ r.cur.flatMap (fun p => leBytes 2 p.1 ++ [p.2 % 256, 0]) ++ r.base.flatMap (leBytes 2) ++ List.replicate 956 0

/-- The 4,096 bytes of a table record (Table 18-1). -/
def tabBytes (r : TabRec) : List Nat := tabBody r ++ leBytes 4 (crc32 (tabBody r))

/-- The valid record with the greatest SEQ. -/
def tabRec (s : State) : Option TabRec :=
  (s.flash.tabs.filter fun p => p.2.uid == otpUid s).foldl (fun (b : Option TabRec) p => match b with
    | none => some p.2
    | some r => if serialGt p.2.seq r.seq then some p.2 else b) none

/-- The baseline VCODE of point i of frond f. -/
def baseOf (s : State) (f i : Nat) : Nat :=
  match tabRec s with
  | some r => r.base.getD (8 * f + i) 0
  | none => (s.nv.sec8.getD (8 * f + i) (0, 0)).1

/-- A point as a word of FR_FMAX_n. -/
def pointWord (p : Nat × Nat) : Nat := putBits (putBits 0 (FR_FMAX_VCODE 0 0).hi (FR_FMAX_VCODE 0 0).lo p.1) (FR_FMAX_FCODE 0 0).hi (FR_FMAX_FCODE 0 0).lo p.2

/-- The power-on seconds at which the next re-plan is due (R385). -/
def dueAt (s : State) : Nat := (match tabRec s with | some r => r.secs | none => 0) + 3600 * fget s NV_AGE_CFG_PERIOD

def showDue (s : State) : State := fset s NV_AGE_STAT_DUE (dueAt s % 2 ^ 32)

/-! ### Measurement (R383, R384) -/

/-- R384: the frond may be measured: its rail state is In service or Dark and its band is at most BAND_MAX. -/
def mayMeasure (s : State) (f : Nat) : Bool :=
  (railSt s f == 3 || railSt s f == 0) && decide (tget 0 s.rz.band f ≤ fget s NV_AGE_CFG_BAND_MAX)

/-- A re-plan or measurement starts (R384, R385); kind 3 measures nothing. -/
def startRun (s : State) (kind : Nat) : State :=
  let all := List.range (nF s)
  let d := all.filter fun f => !(mayMeasure s f)
  { s with age := { s.age with sent := false, commit := false, run := some ⟨kind, if kind = 3 then [] else all, if kind = 3 then [] else d.map fun f => (f, 0), [], false⟩ } }

/-- The next run that waits. -/
def nextRun (s : State) : State :=
  if s.age.run.isSome then s
  else match s.age.cmd with
    | some k => startRun { s with age := { s.age with cmd := none } } k
    | none => if s.age.due ∧ inSpore s = false then startRun { s with age := { s.age with due := false } } 0 else s

/-- D of line k at point i: at v_i (0) or at v_i + 16 (1). -/
def canaryD (vals : List (BitVec 16)) (i k j : Nat) : Nat := (vals.getD (8 * i + 2 * k + j) 0).toNat

/-- R383: the faulty lines over the points that are measured. -/
def badLines (vals : List (BitVec 16)) (pts : List Nat) : List Nat :=
  (List.range 4).filter fun k => pts.any fun i =>
    decide (2000 < canaryD vals i k 0 ∨ 2000 < canaryD vals i k 1 ∨ canaryD vals i k 0 < canaryD vals i k 1)

/-- R383: slack in ps and sensitivity in 1/16 ps per code of point i, from the sound line with the largest D. -/
def slackOf (vals : List (BitVec 16)) (lines : List Nat) (i fcode : Nat) : Int × Nat :=
  let best := lines.foldl (fun b k => match b with
    | none => some k
    | some m => if canaryD vals i m 0 < canaryD vals i k 0 then some k else b) (none : Option Nat)
  let k := best.getD 0
  (rne 80000 fcode - canaryD vals i k 0, max 1 (canaryD vals i k 0 - canaryD vals i k 1))

/-- FR_CANARY from the slacks. -/
def canaryWord (l : List (Option (Int × Nat))) : Nat :=
  leValue ((List.range 8).map fun i => match l.getD i none with | none => 0x80 | some x => patOf 8 (clampInt (-127) 127 x.1))

/-- The frond is skipped with a cause (R384). -/
def skipFrond (s : State) (f cause : Nat) : State := bump (fset s (FR_AGE_STAT_CAUSE f) cause) NV_AGE_STAT_SKIPS

/-! ### Planning (R386, R387) -/

/-- R386 for one point: its new code and remainder, or the cause of an abandonment. -/
def planPoint (s : State) (f i : Nat) (m : Option (Int × Nat)) (prev : Option Nat) : (Int × Int) ⊕ Nat :=
  let p := rzPoint s f i
  match m with
  | none => .inl (p.1, 0)
  | some (sl, g) =>
    let sh : Int := fget s NV_AGE_CFG_S_T - sl
    let step : Int := fget s NV_AGE_CFG_STEP
    let d : Int := if sh.natAbs ≤ fget s NV_AGE_CFG_DB then 0 else if 0 < sh then -((-(16 * sh)) / g) else -((16 * -sh) / g)
    let st := clampInt (-step) step d
    let v1 := max ((p.1 : Int) + st) (baseOf s f i)
    let v2 := match prev with | some q => max v1 ((q : Int) + 1) | none => v1
    if step < v2 - p.1 then .inr 1 else if 3800 < v2 then .inr 2 else .inl (v2, d - st)

/-- R386 for a frond: the new codes with their remainders, or the point and cause of an abandonment. -/
def planFrond (s : State) (f : Nat) (res : List (Option (Int × Nat))) : Nat → List (Int × Int) → List (Int × Int) ⊕ (Nat × Nat)
  | 0, acc => .inl acc
  | n + 1, acc =>
    let i := acc.length
    match planPoint s f i (res.getD i none) (acc.getLast?.map fun x => x.1.toNat) with
    | .inr c => .inr (i, c)
    | .inl x => planFrond s f res n (acc ++ [x])

/-- The ageing-margin source of a frond. -/
def raiseAge (s : State) (f point cause : Nat) : State := raiseD s 0xBA (some f) (point + 16 * cause) (activeIsl s)

/-- One measured frond is planned: its new points, if it is not abandoned. -/
def planOne (a : State × List (Nat × Nat) × Bool) (x : Nat × List (Option (Int × Nat))) : State × List (Nat × Nat) × Bool :=
  let s := a.1
  let f := x.1
  match planFrond s f x.2 8 [] with
  | .inr (i, c) => (raiseAge (skipFrond s f c) f i c, a.2.1, true)
  | .inl l =>
    let over_ := (List.range 8).find? fun i => decide (0 < (l.getD i (0, 0)).2 ∨ (fget s NV_AGE_CFG_AGE_MAX : Int) < (l.getD i (0, 0)).1 - baseOf s f i)
    let s1 := match over_ with | some i => raiseAge s f i 0 | none => s
    (s1, a.2.1 ++ (List.range 8).map fun i => (8 * f + i, pointWord ((l.getD i (0, 0)).1.toNat, (rzPoint s f i).2)), a.2.2)

/-- Every frond has been measured or skipped: the new tables are journalled as one entry (R387); a measurement alone ends. -/
def finishRun (s : State) : State :=
  match s.age.run with
  | none => s
  | some r =>
    if r.todo.isEmpty = false ∨ s.age.sent = true then s
    else if r.kind = 2 then
      nextRun (fsetB (fset { s with age := { s.age with run := none } } NV_AGE_CMD_RESULT r.bad.toNat) NV_AGE_CMD_BUSY false)
    else if r.kind = 3 then
      journal { s with age := { s.age with sent := true } } (.tables ((List.range (8 * nF s)).map fun k => (k, pointWord (s.nv.sec8.getD k (0, 0))))) false
    else
      let p := r.res.foldl planOne (s, [], r.bad)
      journal { p.1 with age := { p.1.age with sent := true, run := some { r with bad := p.2.2 } } } (.tables p.2.1) false

/-- A frond of the run is done. -/
def frondDone (s : State) (f : Nat) (g : Replan → Replan) : State :=
  match s.age.run with
  | none => s
  | some r => { s with age := { s.age with run := some (g { r with todo := r.todo.filter (· != f), defer := tdel r.defer f }) } }

/-- A frond's measurement completes: 8 values of each point: four lines at v_i and v_i + 16 (R382, R383). -/
def canaryMeasured (f : Nat) (vals : List (BitVec 16)) (s : State) : State :=
  match s.age.run with
  | none => s
  | some r =>
    if r.todo.contains f && (tget? r.defer f).isNone && mayMeasure s f then
      let pts := (List.range 8).filter fun i => (rzPoint s f i).2 != 0
      let bad := badLines vals pts
      let s1 := fset s (FR_AGE_STAT_BAD_LINES f) (ofBits bad)
      if bad.length = 4 then finishRun (frondDone (raiseAge (skipFrond s1 f 5) f 0 5) f fun x => { x with bad := true })
      else
        let lines := (List.range 4).filter fun k => !(bad.contains k)
        let res := (List.range 8).map fun i => if pts.contains i then some (slackOf vals lines i (rzPoint s f i).2) else none
        let s2 := setReg s1 (FR_CANARY f) (BitVec.ofNat 64 (canaryWord res))
        finishRun (frondDone s2 f fun x => { x with res := tset x.res f res })
    else s

/-- MEASURE_RETRY for one frond: measured again from now on, or skipped after 3,600 seconds (R384). -/
def retryFrond (s : State) (p : Nat × Nat) : State :=
  match s.age.run with
  | none => s
  | some r =>
    if mayMeasure s p.1 then { s with age := { s.age with run := some { r with defer := tdel r.defer p.1 } } }
    else if p.2 + 1 < 3600 then { s with age := { s.age with run := some { r with defer := tset r.defer p.1 (p.2 + 1) } } }
    else frondDone (skipFrond s p.1 (if railSt s p.1 = 3 ∨ railSt s p.1 = 0 then 3 else 4)) p.1 fun x => { x with bad := true }

/-- A frond that has begun to wait since its measurement started waits as a deferred one. -/
def deferNew (s : State) : State :=
  match s.age.run with
  | none => s
  | some r => { s with age := { s.age with run := some { r with defer := r.todo.foldl (fun t f => if (tget? t f).isNone && !(mayMeasure s f) then tset t f 0 else t) r.defer } } }

/-- The 1 s retry of the deferred fronds. -/
def measureRetry (s : State) : State :=
  match s.age.run with
  | none => s
  | some r => finishRun (deferNew (r.defer.foldl retryFrond s))

/-- The committed tables act (R387): the points go to the fronds as commands, frequency-form fronds are commanded again, voltage-form endpoints below the first point rise to it,
and the record waits for its write. -/
def tablesCommitted (s : State) (pts : List (Nat × Nat)) : State :=
  let fronds := (List.range (nF s)).filter fun f => pts.any fun p => p.1 / 8 == f
  let word := fun (k : Nat) => ((pts.find? fun p => p.1 == k).map fun p => p.2).getD 0
  let one := fun (t : State) (f : Nat) =>
    let ws := (List.range 8).map fun i => word (8 * f + i)
    let vf := ws.map fun w => (bitsOf w (FR_FMAX_VCODE 0 0).hi (FR_FMAX_VCODE 0 0).lo, bitsOf w (FR_FMAX_FCODE 0 0).hi (FR_FMAX_FCODE 0 0).lo)
    let t1 := sendCmd { t with rz := { t.rz with tab := tset t.rz.tab f vf } } f (.fmax ws) false
    let shift := leValue ((List.range 8).map fun i => min 255 ((vf.getD i (0, 0)).1 - baseOf t f i))
    let t2 := setReg (fset t1 (FR_AGE_STAT_CAUSE f) 0) (FR_AGE_SHIFT f) (BitVec.ofNat 64 shift)
    let v0 := (vf.getD 0 (0, 0)).1
    match tget? t2.rz.cmd f with
    | some (w, e) => if bitOf w 0 then reissueFreq t2 f else if e < v0 then journal t2 (.setpoint f (voltWord v0) v0) false else t2
    | none => t2
  let s1 := fronds.foldl one s
  match s1.age.run with
  | none => s1
  | some r =>
    let old := tabRec s1
    let rebuilt := decide (r.kind = 3)
    let cur := (List.range 512).map fun k => if k / 8 < nF s1 then rzPoint s1 (k / 8) (k % 8) else (0, 0)
    let base := (List.range 512).map fun k => if k / 8 < nF s1 then (if rebuilt then (s1.nv.sec8.getD k (0, 0)).1 else baseOf s1 (k / 8) (k % 8)) else 0
    let rec_ : TabRec := ⟨match old with | some o => (o.seq + 1) % 2 ^ 32 | none => 0, otpUid s1,
      if rebuilt then fget s1 NV_IMAGE_ID_IMAGE_ID else (match old with | some o => o.imageId | none => fget s1 NV_IMAGE_ID_IMAGE_ID),
      (match old with | some o => o.replans | none => 0) + (!rebuilt).toNat, lifeSeconds s1, cur, base⟩
    let s2 := if rebuilt then s1 else lifeBump (bump s1 NV_AGE_STAT_REPLANS) 48
    { s2 with age := { s2.age with commit := true }, nv := { s2.nv with ops := s2.nv.ops ++ [.table rec_] } }

/-- The record has been written: the run ends. -/
def tableWritten (s : State) (r : TabRec) : State :=
  let s1 := { s with flash := { s.flash with tabs := tset s.flash.tabs (r.seq % 16) r, spoiled := tdel s.flash.spoiled (768 + r.seq % 16) } }
  match s1.age.run with
  | none => showDue s1
  | some q =>
    let s2 := { s1 with age := { s1.age with run := none, commit := false } }
    nextRun (showDue (if q.kind = 0 ∨ flag s2 NV_AGE_CMD_BUSY = false then s2 else fsetB (fset s2 NV_AGE_CMD_RESULT q.bad.toNat) NV_AGE_CMD_BUSY false))

/-! ### NV_AGE_ registers -/

def ageRefused (s : State) (n : RName) (v : Nat) : Bool :=
  match n with
  | .NV_AGE_CFG => bitsOf v 15 8 == 0 || bitsOf v 37 32 == 0 || decide (40 < bitsOf v 37 32)
  | .NV_AGE_CMD => flag s NV_AGE_CMD_BUSY
  | _ => false

/-- A write to NV_AGE_CMD that is not refused. -/
def ageCmd (s : State) (v : Nat) : State :=
  let op := bitsOf v 1 0
  if op = 0 then s
  else if inSpore s then fset s NV_AGE_CMD_RESULT 2
  else
    let s1 := fsetB { s with age := { s.age with cmd := some op } } NV_AGE_CMD_BUSY true
    finishRun (nextRun s1)

/-- R385: a periodic re-plan falls due by power-on time; in Spore mode it waits for the exit. -/
def replanDue (s : State) : State :=
  if flag s NV_AGE_CFG_EN && decide (dueAt s ≤ lifeSeconds s) && !s.age.due && !(match s.age.run with | some r => r.kind == 0 || r.kind == 1 | none => false) then
    nextRun { s with age := { s.age with due := true } }
  else nextRun s

/-! ### Lifetime counters (R389 to R392) -/

/-- The counters of one frond for one second. -/
def lifeFrond (s : State) (f : Nat) : State :=
  if railSt s f = 0 then lifeBump s (12352 + 4 * f)
  else
    let t := (List.range 4).foldl (fun (m : Int) q => max m (s16 (fget s (TH_SENS_READ (4 * f + q))))) (s16 (fget s (TH_SENS_READ (4 * f))))
    let vb := min 15 ((fget s (FR_RAIL_STAT_POINT f) - 1600) / 140)
    let tb := if t < 0 then 0 else min 15 (1 + (t / 128).toNat)
    let ib := min 15 (measured s f / 4000)
    let o := 64 + 192 * f
    lifeBump (lifeBump (lifeBump s (o + 4 * vb)) (o + 64 + 4 * tb)) (o + 128 + 4 * ib)

/-- A flush waits for the flash port (R391). -/
def flushLife (s : State) : State := fsetB { s with nv := { s.nv with ops := s.nv.ops ++ [.life] } } NV_LIFE_STAT_PENDING true

/-- LIFETIME_TICK: one second of the active Rhizome (R389, R391). -/
def execLifetimeTick (s : State) : Out := nextOf s <|
  if inTakeover s || !(answers s (activeIsl s)) then s
  else
    let t := lifeSeconds s + 1
    let s1 := mossAccess s (rzMaster s) 0 (lifeOff + 24) t
    let s2 := (List.range (nF s)).foldl lifeFrond s1
    (if t % 3840 = 0 then flushLife s2 else s2)

/-- The record as it is written: SEQ + 1, its provenance word and CRC (Table 18-2). -/
def lifeWritten (s : State) : State :=
  let seq := (lifeU32 s 12 + 1) % 2 ^ 32
  let m := rzMaster s
  let k := 32 * activeIsl s + 14
  let n := (tget {} s.strms k).seqOut.toNat
  let s1 := mossAccess (mossAccess (mossAccess s m 0 lifeOff (provWord n (activeIsl s) 14)) m 0 (lifeOff + 8) (0x4546494C + seq * 2 ^ 32)) m 0 (lifeOff + 16) (otpUid s)
  let body := mossBytes s1 lifeOff 16380
  let s2 := lifePut32 s1 16380 (crc32 body)
  let cells := mwrites 0 [] 0 (mossBytes s2 lifeOff 16384)
  let s3 := fset (sendOn { s2 with flash := { s2.flash with life := tset s2.flash.life (seq % 256) cells, spoiled := tdel s2.flash.spoiled (seq % 256) } } (activeIsl s) 14) NV_LIFE_STAT_SEQ seq
  fsetB s3 NV_LIFE_STAT_PENDING (s3.nv.ops.any fun o => o == .life)

/-- R392: a lifetime position holds a valid record: its SEQ. -/
def lifeValid (s : State) (c : List Host.Cell) : Option Nat :=
  if mvalue 0 c 8 4 = 0x4546494C ∧ mvalue 0 c 16 8 = otpUid s ∧ mvalue 0 c 16380 4 = crc32 (mreads 0 c 0 16380) then some (mvalue 0 c 12 4) else none

/-- R392: the start-up loads the valid record with the greatest SEQ, or starts at zero. -/
def loadLife (s : State) : State :=
  let best := s.flash.life.foldl (fun (b : Option (Nat × List Host.Cell)) p => match lifeValid s p.2 with
    | none => b
    | some q => match b with
      | none => some (q, p.2)
      | some (m, _) => if serialGt q m then some (q, p.2) else b) none
  let s1 := match best with
    | none => fsetB (fset { s with moss := { s.moss with mem := mclear s.moss.mem lifeOff (lifeOff + 16384) } } NV_LIFE_STAT_SEQ 0) NV_LIFE_STAT_FRESH true
    | some (q, c) => fset (mossPutBytes s lifeOff (mreads 0 c 0 16384)) NV_LIFE_STAT_SEQ q
  let sat := (List.range 64).any fun j => mossWord s1 (lifeOff + 13776 + 8 * j) != 0
  lifeBump (fsetB s1 NV_LIFE_STAT_SAT sat) 40

end Sys2Proof.Machine
end

