-- ==== Sys2Proof/Machine/Nvm.lean ====
section
/-! DEFINITION. Machine/Nvm.lean: flash operations (R366, R381, R393, R394): updates, copies of records, and fault slots (R346). -/
namespace Sys2Proof.Machine

/-! ### Image updates (R381) -/

def slotBooted (s : State) : Nat := fget s NV_BOOT_STAT_SLOT
def verOk (s : State) (slot : Nat) : Bool := if slot = 0 then s.nv.verOk0 else s.nv.verOk1
def setVerOk (s : State) (slot : Nat) (b : Bool) : State := if slot = 0 then { s with nv := { s.nv with verOk0 := b } } else { s with nv := { s.nv with verOk1 := b } }
def setImg (s : State) (slot : Nat) (m : List Host.Cell) : State := if slot = 0 then { s with flash := { s.flash with img0 := m } } else { s with flash := { s.flash with img1 := m } }

/-- Table 17-13: the refusal code of an operation; 0 when it runs. -/
def updRefusal (s : State) (op slot len foff moff : Nat) : Nat :=
  match op with
  | 1 => if slot = slotBooted s then 1 else if foff % 256 ≠ 0 ∨ len % 256 ≠ 0 ∨ moff % 8 ≠ 0 ∨ len = 0 ∨ 0x200000 < len ∨ 0x800000 < foff + len then 2 else 0
  | 3 => if slot = slotBooted s then 1 else if verOk s slot = false then 3 else 0
  | 4 => if flag s NV_BOOT_STAT_TRIAL then 0 else 4
  | 5 => if flag s NV_BOOT_STAT_TRIAL ∨ inSpore s ∨ fget s NV_BOOT_STAT_SVN ≤ rollFloor s then 5 else 0
  | _ => 0

/-- A write to NV_UPD_CMD that is not refused with ERR. -/
def updCmd (s : State) (v : Nat) (store : State → State) : State :=
  let op := bitsOf v 2 0
  let slot := bitsOf v 3 3
  let len := bitsOf v 25 4
  let foff := fget s NV_UPD_ADDR_FOFF
  let moff := fget s NV_UPD_ADDR_MOFF
  let s1 := store s
  if op = 0 ∨ 6 ≤ op then s1
  else
    let c := updRefusal s op slot len foff moff
    if c ≠ 0 then fset s1 NV_UPD_CMD_RESULT c
    else
      let s2 := fsetB { s1 with nv := { s1.nv with ops := s1.nv.ops ++ [.upd op slot len foff moff] } } NV_UPD_CMD_BUSY true
      if op = 1 then setVerOk s2 slot false else s2

def updDone (s : State) (code : Nat) : State := fsetB (fset s NV_UPD_CMD_RESULT code) NV_UPD_CMD_BUSY false

/-- The bytes that OP 1 erases: the slot, or the sectors that its range covers. -/
def erased (len foff : Nat) : Nat × Nat := if foff = 0 then (0, 0x800000) else (foff / 4096 * 4096, (foff + len + 4095) / 4096 * 4096)

/-- OP 1: its sectors are erased, and bytes are programmed from `off` on. -/
def programImg (s : State) (slot len foff off : Nat) (bytes : List Nat) : State :=
  let r := erased len foff
  setImg s slot (mwrites 0xFF (mclear (imgMem s slot) r.1 r.2) off bytes)

/-- n free bytes of the flash, from the draw d on: the spec does not say what a program that failed leaves. -/
def spoiltBytes (d n : Nat) : List Nat := (List.range n).map fun k => (Config.freeValue (d + k)).toNat % 256

/-- n free bytes are drawn. -/
def drawBytes (s : State) (n : Nat) : List Nat × State := (spoiltBytes s.draws n, { s with draws := s.draws + n })

/-- A lifetime position or table sector of n bytes whose program failed (R366). -/
def spoil (s : State) (key n : Nat) : State := { s with draws := s.draws + n, flash := { s.flash with spoiled := tset s.flash.spoiled key s.draws } }

/-- A boot record was not written: the sector of the other copy has been erased and holds no valid record (R367). -/
def bootFailed (s : State) : State :=
  if s.flash.boot0 = some (bootRec s) then { s with flash := { s.flash with boot1 := none } } else { s with flash := { s.flash with boot0 := none } }

/-- ROLLBACK with the lowest clear bits set until n bits are set. -/
def raiseFloor (n : Nat) : Nat → Nat → Nat
  | 0, w => w
  | k + 1, w =>
    if n ≤ popCount 16 w then w
    else match (List.range 16).find? fun i => !(bitOf w i) with
      | none => w
      | some i => raiseFloor n k (w ||| 2 ^ i)

/-- OP 5: the rollback floor rises to the running SVN. -/
def commitSvn (s : State) : State :=
  let w := raiseFloor (fget s NV_BOOT_STAT_SVN) 16 (bitsOf (bootWord s) 57 42)
  let s1 := { s with otp := BitVec.ofNat 512 (putBits s.otp.toNat (448 + 57) (448 + 42) w) }
  fset s1 NV_BOOT_STAT_FLOOR (rollFloor s1)

/-- An update operation completes; `bad`: a program did not read back. -/
def updEffect (s : State) (op slot len foff moff : Nat) (bad : Bool) : State :=
  match op with
  | 1 =>
    if bad then
      let b := drawBytes s len
      updDone (raiseD (programImg b.2 slot len foff foff b.1) 0x23 none foff 0x4A) 6
    else updDone (programImg s slot len foff foff (mossBytes s moff len)) 0
  | 2 =>
    let c := verifyImage s (imgRd s slot) false false
    updDone (raiseCode (fset (setVerOk s slot (c == 0)) NV_UPD_CMD_VRES c) c) (if c = 0 then 0 else 8)
  | 3 => if bad then updDone (raiseD (bootFailed s) 0x23 none 0 0x4A) 6 else updDone (putBoot s slot 1 (slotBooted s)) 0
  | 4 => if bad then updDone (raiseD (bootFailed s) 0x23 none 0 0x4A) 6 else updDone (fsetB (putBoot s (slotBooted s) 0 (bootRec s).prev) NV_BOOT_STAT_TRIAL false) 0
  | _ => if bad then updDone s 6 else updDone (commitSvn s) 0

/-! ### Copies (R394) -/

def readSize (area : Nat) : Nat := [16384, 4096, 128, 4096].getD area 0

/-- Table 18-7: RESULT 1: the destination is not host-owned or not aligned, or POS lies beyond the area. -/
def readRefused (s : State) (area pos moff : Nat) : Bool :=
  let n := readSize area
  moff % 8 != 0 || decide (0x1000000 < moff + n) || (area == 3 && decide (16 ≤ pos))
    || !((List.range ((moff + n - 1) / 0x80000 + 1 - moff / 0x80000)).all fun k => ownerOf s (moff / 0x80000 + k) == 3)

/-- A write to NV_READ_CMD that is not refused. -/
def readCmd (s : State) (v : Nat) (store : State → State) : State :=
  let s1 := store s
  let area := bitsOf v 1 0
  let pos := bitsOf v 9 2
  let moff := bitsOf v 39 16
  if bitOf v 40 = false then s1
  else if readRefused s area pos moff then fset s1 NV_READ_CMD_RESULT 1
  else fsetB { s1 with nv := { s1.nv with ops := s1.nv.ops ++ [.read area pos moff] } } NV_READ_CMD_BUSY true

/-- The flash content that a copy takes; an absent record reads as erased flash, and one whose program failed as the free bytes that it left. -/
def readBytes (s : State) (area pos : Nat) : List Nat :=
  let none_ := fun (n : Nat) => List.replicate n 0xFF
  let lost := fun (key n : Nat) => match tget? s.flash.spoiled key with | some d => spoiltBytes d n | none => none_ n
  match area with
  | 0 => (match tget? s.flash.life pos with | some c => mreads 0 c 0 16384 | none => lost pos 16384)
  | 1 => (List.range 64).flatMap fun n => match tget? s.flash.fslots n with | some r => recBytes r | none => none_ 64
  | 2 => (match s.flash.vpm0 with | some r => vrecBytes r | none => none_ 64) ++ (match s.flash.vpm1 with | some r => vrecBytes r | none => none_ 64)
  | _ => match tget? s.flash.tabs pos with | some r => tabBytes r | none => lost (768 + pos) 4096

/-! ### The port (R393) -/

def opClass : FlashOp → Nat
  | .table _ => 2
  | .life => 3
  | .upd _ _ _ _ _ => 4
  | .read _ _ _ => 4

/-- The operation that the port serves: the highest waiting class, in request order. -/
def pickOp (s : State) : Option (FlashOp × State) :=
  match [2, 3, 4].find? fun c => s.nv.ops.any fun o => opClass o == c with
  | none => none
  | some c => (takeFirst (fun o => opClass o == c) s.nv.ops).map fun p => (p.1, { s with nv := { s.nv with ops := p.2 } })

/-- A table record or a lifetime record whose write failed is not valid in its sectors; what they hold is free. -/
def tableFailed (s : State) (r : TabRec) : State :=
  let t := tableWritten s r
  spoil { t with flash := { t.flash with tabs := tdel t.flash.tabs (r.seq % 16) } } (768 + r.seq % 16) 4096
def lifeFailed (s : State) : State :=
  let t := lifeWritten s
  spoil { t with flash := { t.flash with life := tdel t.flash.life (lifeU32 t 12 % 256) } } (lifeU32 t 12 % 256) 16384

/-- An operation completes. -/
def opComplete (s : State) (bad : Bool) : State :=
  if answers s 0x4A = false then s
  else match pickOp s with
    | none => s
    | some (.table r, s1) => if bad then tableFailed (raiseD s1 0x23 none 0 0x4A) r else tableWritten s1 r
    | some (.life, s1) => if bad then lifeFailed (raiseD s1 0x23 none 0 0x4A) else lifeWritten s1
    | some (.upd op slot len foff moff, s1) => updEffect s1 op slot len foff moff bad
    | some (.read area pos moff, s1) =>
      fsetB (fset (mossPutBytes s1 moff (readBytes s1 area pos)) NV_READ_CMD_RESULT 0) NV_READ_CMD_BUSY false

/-- FLASH_OP_COMPLETE: the operation that the port serves completes, and the port passes to the highest waiting class (R393). `bad`: its program did not read back (R366). -/
def execFlashOpComplete (bad : Bool) (s : State) : Out := nextOf s <| (opComplete s bad)

/-- FLASH_ACCESS_TIMEOUT: a read or program has not completed within 10 ms: source 0x25 is raised, and the operation that the port serves fails (R366). -/
def execFlashAccessTimeout (s : State) : Out := nextOf s <|
  if answers s 0x4A = false then s
  else match pickOp s with
    | none => s
    | some (o, s1) =>
      let s2 := raiseD s1 0x25 none 0 0x4A
      (match o with
        | .table r => tableFailed s2 r
        | .life => lifeFailed s2
        | .upd 2 slot _ _ _ => updDone (fset (setVerOk s2 slot false) NV_UPD_CMD_VRES 8) 8
        | .upd 1 slot len foff _ =>
          let r := erased len foff
          let b := drawBytes s2 (r.2 - r.1)
          updDone (programImg b.2 slot len foff r.1 b.1) 6
        | .upd op _ _ _ _ => updDone (if op = 5 then s2 else bootFailed s2) 6
        | .read _ _ _ => fsetB (fset s2 NV_READ_CMD_RESULT 2) NV_READ_CMD_BUSY false)

/-! ### Fault slots (R346) -/

/-- The slot that a record takes: the lowest free one, or the one with the lowest SEQ except the pinned slot. -/
def faultSlot (s : State) : Nat :=
  match (List.range 64).find? fun n => (tget? s.flash.fslots n).isNone with
  | some n => n
  | none =>
    match (s.flash.fslots.filter fun p => some p.1 != s.flash.pinned).foldl (fun (b : Option (Nat × Nat)) p => match b with
      | none => some (p.1, p.2.seq)
      | some x => if serialGt x.2 p.2.seq then some (p.1, p.2.seq) else b) none with
    | none => 0
    | some x => x.1

/-- FAULT_RECORD_NVM_WRITE: the active Rhizome writes the oldest waiting record to a fault slot; the first one since the last clear is pinned (R346). -/
def execFaultRecordNvmWrite (s : State) : Out := nextOf s <|
  if answers s (activeIsl s) && answers s 0x4A && !(inTakeover s) then
    match s.flt.nvmQ with
    | [] => s
    | r :: rest =>
      let n := faultSlot s
      let first := s.flash.pinned.isNone
      let s1 := { s with flt := { s.flt with nvmQ := rest }
                         flash := { s.flash with fslots := tset s.flash.fslots n { r with pinned := first }, pinned := if first then some n else s.flash.pinned } }
      (showNvm s1)
  else s

end Sys2Proof.Machine
end

