-- ==== Sys2Proof/Machine/RegFile.lean ====
section
/-! DEFINITION. Machine/RegFile.lean: the register file as accesses see it (spec/19_register_map.md): the domain of an address, which writes are journalled, which are refused, what
a read returns and what a write does. -/
namespace Sys2Proof.Machine

/-! ### Domains (Table 19-1) -/

/-- The island whose domain holds an address; none for domain S. -/
def holder (a : Nat) : Option Nat :=
  let o := a % 0x10000
  let k := a / 0x10000
  if 0x100 ≤ k then some 0x48
  else if 16 ≤ k then (if k < 80 then some (k - 16) else none)
  else match k with
    | 0 => if 0x1000 ≤ o ∧ o ≤ 0x2FFF then some 0x47 else none
    | 2 => if 0x100 ≤ o ∧ o ≤ 0xFFF then some 0x44 else some 0x4B
    | 3 => some 0x45
    | 4 => some 0x43
    | 6 => some 0x42
    | 7 => some 0x46
    | 8 => some 0x48
    | 9 => if 0x100 ≤ o ∧ o ≤ 0x20F then none else some 0x4A
    | _ => none

/-- The domain of an address answers within 1 µs (R396 case 2). -/
def holderUp (s : State) (a : Nat) : Bool := match holder a with | none => true | some i => answers s i

/-- The commands of a frond core: carried on its command stream and checked by the core (R88). -/
def isFrCmd : RName → Bool
  | .FR_CORE_CTRL | .FR_SAMPLE_CFG | .FR_PHASE_MASK | .FR_PROG_CTRL | .FR_GUARD_CFG | .FR_LAW_CFG | .FR_INJ_CFG | .FR_SAT_CFG | .FR_RAIL_CMD | .FR_SETPOINT
  | .FR_PROF_CFG | .FR_SS_CFG | .FR_OPP_CFG | .FR_GROUP | .FR_PHASE_HEALTH | .FR_DEGRADE_CFG | .FR_LEAF_CAL | .FR_VSNS_CAL | .FR_LEAF_STAT => true
  | _ => false

/-- R304: writes that apply at the next budget period. -/
def isBudget : RName → Bool
  | .BG_CTRL | .BG_CAP | .BG_EST_CFG | .BG_RHO | .BG_REP_CFG | .FR_GOV_CFG | .AD_RET_CLASS | .AD_RET_DOM => true
  | _ => false

/-- A register that a write can change. -/
def hasWrites (r : RegRow) : Bool := r.rw != 0 || r.w1c != 0 || r.wo != 0

/-- The MT_ registers that are written (R330). -/
def isMt (n : RName) : Bool :=
  match n with
  | .MT_LANE_CFG | .MT_ID_CFG | .MT_MEM_CFG | .MT_KEY_LO | .MT_KEY_HI | .MT_KEY_CMD | .MT_RA_CFG | .MT_CAP_DST | .MT_SITE | .MT_GRP_CFG | .MT_GRP_MGR | .MT_GRP_MEM => true
  | _ => false

/-- A write that is sent to the standby and answered after its commit (R376). -/
def journalled (n : RName) : Bool :=
  isFrCmd n || isBudget n || isMt n ||
  match n with
  | .FC_TARGET | .FC_LOAD_SRC | .FC_LOAD_CMD | .FC_PUSH_DATA | .FC_PUSH_CMD | .RZ_IBUS_OPT | .RZ_BRIDGE_CMD | .RZ_PERF_CTRL | .RZ_DEGRADE | .RZ_SAG_CFG | .RZ_PAIR_CFG
  | .RZ_FLT_STAT | .RZ_FLT_CTRL | .RZ_FLT_CFG | .RZ_ISLAND_RST | .AD_CFG | .AD_NBR_CFG | .TH_CFG | .TH_BAND | .TH_REM_CFG | .TH_SENS | .VP_GRP_PWM | .VP_GRP_LOOP
  | .VP_GRP_LIM | .VP_GRP_LL | .VP_VID | .VP_STAGE_CMD | .VP_LASTF_STAT | .FH_CTRL | .FH_CFG | .FH_NLMS_CFG | .FH_MODEL_CMD | .MS_BANK | .MS_CFG | .NV_UPD_CMD
  | .NV_AGE_CFG | .NV_AGE_CMD | .NV_LIFE_STAT => true
  | _ => false

/-- A write that a rule refuses during a Lichen takeover. -/
def takeoverRefuses (n : RName) (v : Nat) : Bool :=
  match n with
  | .RZ_IBUS_OPT | .RZ_DEGRADE | .RZ_SAG_CFG => false
  | .RZ_BRIDGE_CMD => bitsOf v 13 12 != 0
  | .FC_LOAD_CMD => bitOf v 32
  | .FC_PUSH_CMD => bitOf v 8
  | .RZ_ISLAND_RST => bitOf v 12
  | .NV_LIFE_STAT => bitsOf v NV_LIFE_STAT_FLUSH.hi NV_LIFE_STAT_FLUSH.lo == 1
  | .RZ_TOPK_CTRL => bitOf v 8
  | _ => journalled n

/-! ### Program loads and scalar pushes (R77, R83, R84) -/

/-- R77, R84: the refusals of the FC_ commands. -/
def fcCmdRefused (s : State) (n : RName) (v : Nat) : Bool :=
  match n with
  | .FC_LOAD_CMD => bitOf v 32 && flag s FC_LOAD_CMD_BUSY
  | .FC_PUSH_CMD => bitOf v 8 && (decide (bitsOf v 5 0 < 8) || flag s FC_PUSH_CMD_BUSY || (fget s FC_TARGET_FRONDS) % 2 ^ nF s == 0)
  | _ => false

/-- The targets of FC_TARGET. -/
def targets (s : State) (mask : Nat) : List Nat := (List.range (nF s)).filter fun f => bitOf mask f

/-- Table 3-8: the refusal code of a load; 0 when it starts. -/
def loadCode (s : State) (dst len src mask : Nat) : Nat :=
  if 0xE00 < dst + len ∨ len = 0 ∨ src % 4 ≠ 0 then 1
  else if (targets s mask).any fun f => groupHolds (afterInbox s f) f dst (dst + len) then 2
  else if bankOf src ≠ (src + 4 * len - 1) / 0x80000 ∨ ownerOf s (bankOf src) ≠ 7 then 3
  else if (targets s mask).any fun f => coreSt s f == 0 then 4
  else 0

/-- A write to FC_LOAD_CMD at its commit. -/
def loadCmd (s : State) (v : Nat) : State :=
  if bitOf v 32 then
    let dst := fget s FC_LOAD_CMD_DST
    let len := fget s FC_LOAD_CMD_LEN
    let src := fget s FC_LOAD_SRC_ADDR
    let mask := fget s FC_TARGET_FRONDS
    let c := loadCode s dst len src mask
    if c ≠ 0 then fset s FC_LOAD_CMD_RESULT c else fsetB { s with load := some ⟨dst, len, src, mask⟩ } FC_LOAD_CMD_BUSY true
  else s

/-- The word at a 4-byte aligned Moss offset. -/
def mossHalf (s : State) (off : Nat) : Nat := mvalue 0 s.moss.mem off 4

/-- Words of a source are written into a frond's instruction memory from word dst on. -/
def putProgram (s : State) (f dst : Nat) (ws : List Nat) : State := (ws.foldl (fun (a : State × Nat) w => (setImem a.1 f a.2 w, a.2 + 1)) (s, dst)).1

/-- A load ends (R83): with an uncorrectable error at word `ue` of the source, the words before it have been written; a target whose core has stopped takes none. -/
def loadDone (s : State) (ue : Option Nat) : State :=
  match s.load with
  | none => s
  | some l =>
    let n := match ue with | some k => min k l.len | none => l.len
    let stopped := ue.any fun k => decide (k < l.len)
    let ws := (List.range n).map fun k => mossHalf s (l.src + 4 * k)
    let tg := targets s l.targets
    let s1 := (tg.filter (answers s)).foldl (fun t f => putProgram t f l.dst ws) s
    let s2 := if stopped then readEcc s1 (l.src + 4 * n) .double else s1
    fsetB (fset { s2 with load := none } FC_LOAD_CMD_RESULT (if stopped then 5 else if tg.all (answers s) then 0 else 6)) FC_LOAD_CMD_BUSY false

/-- A write to FC_PUSH_CMD at its commit: a command to each target, whose acknowledgements end BUSY (R77, R79). -/
def pushCmd (s : State) (v : Nat) : State :=
  if bitOf v 8 then
    let tg := targets s (fget s FC_TARGET_FRONDS)
    let s1 := tg.foldl (fun t f => sendCmd t f (.scalar (fget s FC_PUSH_CMD_INDEX) (reg s FC_PUSH_DATA).toNat) false) s
    fsetB { s1 with pushWait := tg } FC_PUSH_CMD_BUSY true
  else s

/-- A target has acknowledged a push (Table 3-23). -/
def pushAcked (s : State) (f : Nat) : State :=
  let w := s.pushWait.filter (· != f)
  if s.pushWait.contains f && w.isEmpty then fsetB { s with pushWait := w } FC_PUSH_CMD_BUSY false else { s with pushWait := w }

/-! ### Restarts (R404) -/

/-- The stop source of an island, and its unit (Table 15-1). -/
def stopSource (i : Nat) : Nat × Option Nat :=
  if i < 64 then (1, some i) else if i ≤ 0x46 then (i - 0x40 + 2, none) else (i - 0x48 + 9, none)

def stopIsSet (s : State) (i : Nat) : Bool := isSet s (stopSource i).1 && (match (stopSource i).2 with | some f => bitOf (unitsOf s 1) f | none => true)

/-- R404: a GO is refused. -/
def restartRefused (s : State) (i : Nat) : Bool :=
  flag s RZ_ISLAND_RST_BUSY || inTakeover s || i == 0x47 || i == 0x48 || i == 0x49 || i == activeIsl s || !(hasIsl s i) || !(stopIsSet s i)

/-- The registers of a range of addresses return to their reset values. -/
def dropRegs (s : State) (p : Nat → Bool) : State := { s with regs := s.regs.filter fun x => !(p x.1) }

/-- Bits of a register that a reset of its domain leaves: values that the applied image or OTP give (R399). -/
def keepMask (a : Nat) : Nat :=
  match regAt a with
  | none => 0
  | some r =>
    match r.row.name with
    | .NV_BOOT_STAT | .NV_IMAGE_ID | .MT_UID | .FH_MODEL_STAT | .TH_SCAL | .FR_FMAX => 2 ^ 64 - 1
    | .TH_SENS => putBits 0 (TH_SENS_UNCAL 0).hi (TH_SENS_UNCAL 0).lo 1
    | .VP_STAGE => putBits (putBits 0 (VP_STAGE_GROUP 0).hi (VP_STAGE_GROUP 0).lo (2 ^ 64)) (VP_STAGE_IMG_EN 0).hi (VP_STAGE_IMG_EN 0).lo 1
    | .FR_BRIDGE_STAT => putBits (putBits 0 (FR_BRIDGE_STAT_IMG_EN_E 0).hi (FR_BRIDGE_STAT_IMG_EN_E 0).lo 1) (FR_BRIDGE_STAT_IMG_EN_S 0).hi (FR_BRIDGE_STAT_IMG_EN_S 0).lo 1
    | _ => 0

/-- R398, R399: the registers of island i's domain return to their reset values, with the loaded ones kept. -/
def resetDomain (s : State) (i : Nat) : State :=
  let kept := s.regs.filter fun x => holder x.1 == some i && keepMask x.1 != 0
  let s1 := dropRegs s fun a => holder a == some i
  kept.foldl (fun t x => setReg t x.1 (BitVec.ofNat 64 (regReset x.1 - (regReset x.1 &&& keepMask x.1) + (x.2.toNat &&& keepMask x.1)))) s1

/-- What an island holds beside its registers is lost with its reset (Table 19-4). The trip signals that the thermal unit has given keep their level until new samples decide, as S6 does
(log entry 117). -/
def resetHidden (s : State) (i : Nat) : State :=
  match i with
  | 0x42 => { s with fh := {} }
  | 0x43 => { s with vpm := { stages := (List.range 48).foldl (fun t n => if (stg s n).flt then tset t n { flt := true } else t) [] } }
  | 0x44 => { s with conv := {} }
  | 0x45 => { s with th := { air := s.th.air, ref := s.th.ref, sent := s.th.sent, trips := s.th.trips, remTrips := s.th.remTrips } }
  | 0x46 => { s with mat := { oeAbsent := s.mat.oeAbsent, oeFault := s.mat.oeFault, oeReset := s.mat.oeReset, tx := s.mat.tx,
                              grps := s.mat.grps.map fun p => (p.1, ({ key0 := p.2.key0, key1 := p.2.key1 } : MGrp)) } }
  | 0x4A =>
    { s with nv := { s.nv with ops := s.nv.ops.filter fun o => match o with | .upd _ _ _ _ _ => false | .read _ _ _ => false | _ => true } }
  | 0x4B => { s with adm := { lines := s.adm.lines } }
  | _ => if i < 64 then setFr s i {} else s

/-- The codes of an update and of a copy that the restart has ended (Table 19-4). -/
def endFlashOps (s t : State) : State :=
  let u := if flag s NV_UPD_CMD_BUSY then fset t NV_UPD_CMD_RESULT 6 else t
  if flag s NV_READ_CMD_BUSY then fset u NV_READ_CMD_RESULT 2 else u

/-- R402: the last energy figures that the active Rhizome received from the island are kept and added to its later answers. -/
def keepEnergy (s : State) (i : Nat) : State :=
  let b := { s.bud with ansAir := s.bud.ansAir.filter fun a => a.isl != i }
  if i = 0x43 then
    { s with bud := { b with keepG := (List.range 8).foldl (fun t g => tset t g (tget 0 b.keepG g + tget 0 b.eG g)) b.keepG, eG := [], gTot := [] } }
  else if i < 64 then { s with bud := { b with keepF := tset b.keepF i (tget 0 b.keepF i + tget 0 b.eF i), eF := tdel b.eF i } }
  else s

/-- A data stream whose receiver is island i (key): Fiddlehead's forecasts and a neighbour's BX to a frond core, the input records to Fiddlehead, the forecasts to the admission
controller. -/
def streamInto (s : State) (i k : Nat) : Bool :=
  if i < 64 then k == fcKey 2 i || (k % 32 == 2 && (nbrsOf s i).contains (k / 32))
  else if i = 0x42 then k == 32 * 0x40 + 2 || k == 32 * 0x41 + 2
  else i == 0x4B && decide (fcKey 1 0 ≤ k ∧ k ≤ fcKey 1 63)

/-- A restart resets the streams of island i, each with its handshake (R25); as a receiver it takes the first number as it comes (log entry 122). -/
def resetStreams (s : State) (i : Nat) : State :=
  { s with strms := s.strms.map fun p =>
      if p.1 < fcKey 0 0 ∧ p.1 / 32 = i then (p.1, { p.2 with sent := false, seqOut := 0, expect := 0, refusing := false, next := some 0 })
      else if streamInto s i p.1 then (p.1, { p.2 with next := none }) else p }

/-- R404 step 1: the island is reset and released; it waits for its heartbeat. -/
def restartGo (s : State) (i : Nat) : State :=
  let s1 := resetStreams (resetHidden (resetDomain (keepEnergy s i) i) i) i
  let s2 := if i = 0x4A then endFlashOps s s1 else s1
  let s3 := setIsl s2 i { isl s2 i with halted := true, inReset := false, cycles := 0, gaps := 0 }
  fsetB { s3 with chip := { s3.chip with restart := some ⟨i, true⟩ } } RZ_ISLAND_RST_BUSY true

/-! ### Reads -/

/-- The word that a read returns: WO bits read 0, and BUSY of a bank follows Table 16-2. -/
def regRead (s : State) (a : Nat) (r : RegAt) : Nat :=
  let x := (reg s a).toNat
  let y := x - (x &&& r.row.wo)
  if r.row.name = .MS_BANK then putBits y (MS_BANK_BUSY r.i).hi (MS_BANK_BUSY r.i).lo (bankBusy s r.i).toNat else y

/-- Table 0-3: a read of RC bits returns them to their reset values. -/
def regReadEnd (s : State) (a : Nat) (r : RegAt) : State :=
  if r.row.rc = 0 then s
  else
    let x := (reg s a).toNat
    setReg s a (BitVec.ofNat 64 (x - (x &&& r.row.rc) + (regReset a &&& r.row.rc)))

/-! ### Writes -/

/-- RW bits take the written value and written ones clear W1C bits (Table 0-3). -/
def storeAll (s : State) (a v : Nat) : State :=
  match regAt a with
  | none => s
  | some r =>
    let t := storeRw s a v
    if r.row.w1c = 0 then t
    else
      let x := (reg t a).toNat
      setReg t a (BitVec.ofNat 64 (x - (x &&& (r.row.w1c &&& v))))

/-- R89: a write to FR_IMEM_m is refused. -/
def imemRefused (s : State) (f m : Nat) : Bool := coreSt s f != 2 || decide (0xE00 < 2 * m + 2) || groupHolds s f (2 * m) (2 * m + 2)

/-- R29, R363: a snapshot is refused. -/
def probeRefused (s : State) (v : Nat) : Bool := flag s RZ_ISLAND_PROBE_BUSY || !(hasIsl s (bitsOf v 7 0))

/-- Every refusal rule of a register, but for those of a takeover: the write is answered ERR and changes nothing (R396 case 4). A frond core checks its own commands when they
arrive; the active Rhizome checks here what it can see itself: the endpoint of a set-point (R154), FR_GOV_CFG (R304) and the calibration words (R238). -/
def regRefused (s : State) (r : RegAt) (v : Nat) : Bool :=
  let n := r.row.name
  let i := r.i
  if !(hasWrites r.row) then false
  else if isMt n then mtRefused s n i v
  else
    match n with
    | .FR_IMEM => imemRefused s r.f i
    | .FR_SETPOINT | .FR_GOV_CFG | .FR_LEAF_CAL | .FR_VSNS_CAL => frCmdRefused s r.f n i v
    | .RZ_ISLAND_PROBE => probeRefused s v
    | .RZ_ISLAND_RST => bitOf v 12 && restartRefused s (bitsOf v 7 0)
    | .RZ_TOPK_CTRL => topkRefused s v
    | .VP_GRP_PWM | .VP_GRP_LOOP | .VP_GRP_LIM | .VP_GRP_LL => inSpore s || vpRefused s n i v
    | .NV_UPD_CMD => flag s NV_UPD_CMD_BUSY
    | .NV_READ_CMD => flag s NV_READ_CMD_BUSY
    | _ =>
      fcCmdRefused s n v || rzRefused s n v || fcRefused s n i v || adRefused s n v || thRefused s n i v || vpRefused s n i v || cvRefused s n i v || bgRefused s n v
        || fhRefused s n v || msRefused s n i v || ageRefused s n v

/-- The effect of a write that no rule refuses, in the domain that holds the register. Commands of a frond core act through Machine/Boundary.lean instead. -/
def applyReg (s : State) (a : Nat) (r : RegAt) (v : Nat) : State :=
  let n := r.row.name
  let i := r.i
  let store := fun t : State => storeAll t a v
  match n with
  | .RZ_IBUS_OPT => ibusWrite s store
  | .RZ_BRIDGE_CMD => bridgeWrite s v
  | .RZ_PERF_CTRL => perfWrite s v store
  | .RZ_TOPK_CTRL => topkWrite s v store
  | .RZ_ISLAND_PROBE => fsetB { store s with probe := some ⟨bitsOf v 7 0, bitsOf v 12 8⟩ } RZ_ISLAND_PROBE_BUSY true
  | .MS_Q_SEL => fsetB { store s with qProbe := some ⟨bitsOf v 7 0, bitsOf v 12 8⟩ } MS_Q_SEL_BUSY true
  | .RZ_ISLAND_RST => if bitOf v 12 then restartGo (store s) (bitsOf v 7 0) else store s
  | .FC_TARGET => storeAll s a (v % 2 ^ nF s)
  | .FC_LOAD_CMD => loadCmd (store s) v
  | .FC_PUSH_CMD => pushCmd (store s) v
  | .RZ_FLT_STAT | .RZ_FLT_FIRST | .RZ_FLT_CTRL | .RZ_FLT_NVM | .RZ_FLT_CFG => fcWrite s n i v store
  | .AD_CONV_CFG | .AD_CONV_TRIG | .AD_WIN_CFG | .AD_DMA_CFG | .AD_DMA_RD | .AD_LCAL_CFG | .AD_LCAL_CMD => cvWrite s n i v store
  | .AD_RET_DOM => domWrite s i v
  | .TH_SENS | .TH_REM_CFG => thWrite s n i v store
  | .VP_GRP_PWM | .VP_GRP_LOOP | .VP_GRP_LIM | .VP_GRP_LL | .VP_VID | .VP_STAGE_CMD | .VP_LASTF_STAT => vpWrite s n i v store
  | .FH_CTRL => fhEnable s (bitOf v 0)
  | .FH_MODEL_CMD => modelCmd s v
  | .MT_LANE_CFG | .MT_ID_CFG | .MT_GRP_CFG | .MT_GRP_MEM | .MT_KEY_LO | .MT_KEY_HI | .MT_KEY_CMD => mtWrite s n i v store
  | .MS_BANK => bankWrite s i v
  | .NV_UPD_CMD => updCmd s v store
  | .NV_READ_CMD => readCmd s v store
  | .NV_AGE_CFG => showDue (store s)
  | .NV_AGE_CMD => ageCmd s v
  | .NV_LIFE_STAT => if bitsOf v NV_LIFE_STAT_FLUSH.hi NV_LIFE_STAT_FLUSH.lo = 1 then flushLife s else s
  | .FR_IMEM => setReg s a (BitVec.ofNat 64 v)
  | _ => store s

end Sys2Proof.Machine
end

