-- ==== Sys2Proof/Machine/Access.lean ====
section
/-! DEFINITION. Machine/Access.lean: how accesses are carried out (R376, R377, R380, R395 to R397, R408, R409) and how the active Rhizome acts on what has committed. -/
namespace Sys2Proof.Machine

/-! ### Committed values (R376, R405) -/

/-- A value commits; the commit before it is kept, so that a withdrawal can return to it. -/
def addCommit (l : List (Nat × W64)) (a v : Nat) : List (Nat × W64) :=
  let mine := l.filter fun p => p.1 == a
  match mine.getLast? with
  | none => l ++ [(a, BitVec.ofNat 64 v)]
  | some p => l.filter (fun q => q.1 != a) ++ [p, (a, BitVec.ofNat 64 v)]

/-- The last commit of an address is withdrawn (R396). -/
def dropCommit (l : List (Nat × W64)) (a : Nat) : List (Nat × W64) :=
  let mine := l.filter fun p => p.1 == a
  l.filter (fun q => q.1 != a) ++ mine.dropLast

/-- A journal entry as it changes the committed state. -/
def commitOp (l : List (Nat × W64)) (op : JOp) : List (Nat × W64) :=
  match op with
  | .write a v => addCommit l a v
  | .setpoint f v _ => addCommit l (FR_SETPOINT f) v
  | .vid g v => addCommit l (VP_VID g) v
  | .withdraw a => dropCommit l a
  | _ => l

/-- The last committed value of every address, in the order of the last commits (R405). -/
def lastCommits (l : List (Nat × W64)) : List (Nat × Nat) :=
  l.foldr (fun p acc => if acc.any (fun q => q.1 == p.1) then acc else (p.1, p.2.toNat) :: acc) []

/-! ### Answers of the access in progress -/

/-- The access in progress is answered. -/
def answerCur (s : State) (st : Status) (data : Nat) : State :=
  match s.bus.cur with
  | none => s
  | some (a, _) => respond { s with bus := { s.bus with cur := none } } a st data

/-- The access in progress waits for the acknowledgement of an island. -/
def awaitIsl (s : State) (i : Nat) : State :=
  match s.bus.cur with
  | none => s
  | some (a, _) => { s with bus := { s.bus with cur := some (a, .island i) } }

/-- An island's acknowledgement leaves for the active Rhizome, if an access waits for it. -/
def sendAck (s : State) (i : Nat) (ok wait : Bool) : State := if wait then { s with bus := { s.bus with acks := s.bus.acks ++ [{ isl := i, ok := ok, wait := wait }] } } else s

/-! ### Committed operations -/

/-- A committed register write acts, or is sent on (R376). -/
def actWrite (s : State) (a : Nat) (r : RegAt) (v : Nat) (wait : Bool) : State :=
  let n := r.row.name
  let await := fun (t : State) (i : Nat) => if wait then awaitIsl t i else t
  if isFrCmd n then await (sendCmd s r.f (.write (a % 0x10000) v) wait) r.f
  else match holder a with
    | none =>
      let s1 := if isBudget n then { s with bud := { s.bud with pend := s.bud.pend ++ [(a, v)] } } else applyReg s a r v
      if wait then answerCur s1 .ok 0 else s1
    | some i =>
      if answers s i then
        if isBudget n then
          let s1 := { s with bud := { s.bud with pend := s.bud.pend ++ [(a, v)] } }
          if wait then answerCur s1 .ok 0 else s1
        else if n = .RZ_FLT_STAT then await (applyReg s a r v) i
        else await (sendAck (applyReg s a r v) i true wait) i
      else await s i

/-- R55: the commit of a set-point command for frond f is also that of the frond at the other end of its closed bridge, in both copies. -/
def commitBoth (s : State) (f v : Nat) : State :=
  match partnerOf s f with
  | none => s
  | some g =>
    let add := fun l => addCommit l (FR_SETPOINT g) v
    { s with bus := { s.bus with commits := add s.bus.commits, standby := if inSync s then add s.bus.standby else s.bus.standby } }

/-- R155: the endpoint of a set-point entry at its commit: in frequency form that of the G_T and table which the active Rhizome holds then. -/
def commitE (s : State) (f v ep : Nat) : Nat := if bitOf v 0 then (freqEndpoint s f (bitsOf v 23 16)).getD ep else ep

/-- A committed entry acts. -/
def actEntry (s0 : State) (e : JEntry) : State :=
  let s := { s0 with bus := { s0.bus with commits := commitOp s0.bus.commits e.op } }
  match e.op with
  | .write a v =>
    match regAt a with
    | none => s
    | some r => actWrite s a r v e.wait
  | .setpoint f v ep =>
    let s1 := commitSetpoint (commitBoth s f v) f v (commitE s f v ep) e.wait
    if e.wait then (if 1 ≤ fget s RZ_HARD_STAT_LADDER then answerCur s1 .ok 0 else awaitIsl s1 f) else s1
  | .withdraw _ => s
  | .bridge f dir op cause => if bridgeResult s f dir op = 0 then bridgeAct s f dir op cause else s
  | .vid g v =>
    let s1 := { s with vpm := { s.vpm with vidAir := s.vpm.vidAir ++ [(g, v)] } }
    if g = 0 then fset s1 RZ_IBUS_STAT_TARGET ((v - 6400) / 20) else s1
  | .tables pts => tablesCommitted s pts
  | .darkFrond f => sendUpd (sendCmd s f (.write 0x88 2) false) f (.drain false)
  | .nmin n => takeNmin s n
  | .estimator c => { s with bud := { s.bud with copy := c } }
  | .budget _ _ _ => s

/-! ### Starting an access (R395 to R397) -/

/-- A Moss access is served: by the host port's master, or by the active Rhizome's own (R348, R349, R352, R353, R356). -/
def mossFinish (s : State) (x : Access) : State :=
  let kind := x.addr / 0x1000000 - 1
  let off := x.addr % 0x1000000
  let s1 := if x.we ∧ kind = 0 then s else readEcc s off x.ecc
  let bad := x.ecc == .double && !(x.we && kind == 0)
  if x.we then (if bad then respond s1 x .err 0 else respond (mossStore s1 kind off x.data) x .ok 0)
  else if bad then respond s1 x .err 0 else respond s1 x .ok (mossWord s off)

def waitFor (s : State) (x : Access) (p : Phase3) : State := { s with bus := { s.bus with cur := some (x, p) } }

def startMoss (s : State) (x : Access) : State :=
  let b := bankOf (x.addr % 0x1000000)
  let m := if x.src = .own then rzMaster s else 3
  if !(answers s 0x48) then waitFor s x (.island 0x48)
  else if x.we && ownerOf s b != m then respond s x .own 0
  else if awake s b then mossFinish s x
  else waitFor (wakeBank s b) x (.moss b)

/-- R415: a PMBus write of a field is a host write of its register with the other fields unchanged, those of a write that still waits for its budget period included. -/
def pmData (s : State) (x : Access) : Nat :=
  match x.src with
  | .pmbus _ =>
    if x.addr = BG_CAP then
      let w := match (s.bud.pend.filter fun p => p.1 == BG_CAP).getLast? with | some p => p.2 | none => (reg s BG_CAP).toNat
      putBits w BG_CAP_SUPPLY.hi BG_CAP_SUPPLY.lo x.data
    else if x.addr = MT_SITE then
      putBits (putBits (reg s MT_SITE).toNat MT_SITE_CEIL.hi MT_SITE_CEIL.lo x.data) MT_SITE_VALID.hi MT_SITE_VALID.lo (if x.data = 0 then 0 else 1)
    else x.data
  | _ => x.data

/-- R397: a host write to VP_VID_0 to VP_VID_5 is answered OWN. -/
def vidOwned (r : RegAt) : Bool := r.row.name == .VP_VID && decide (r.i < 6)

/-- A write to a register of the member. -/
def startWrite (s : State) (x : Access) (r : RegAt) (v : Nat) : State :=
  let a := x.addr
  let n := r.row.name
  if vidOwned r && x.src != .own then (if holderUp s a then respond s x .own 0 else waitFor s x (.island 0x43))
  else if journalled n then
    if regRefused s r v then respond s x .err 0
    else
      let s1 := if n = .RZ_BRIDGE_CMD ∧ bitsOf v 13 12 ≠ 0 then fsetB s RZ_BRIDGE_CMD_BUSY true else s
      let op := if n = .FR_SETPOINT then JOp.setpoint r.f v (setpointE s r.f v) else .write a v
      journal (waitFor s1 x (.commit s.bus.jSeq)) op true
  else match holder a with
    | none => if regRefused s r v then respond s x .err 0 else respond (applyReg s a r v) x .ok 0
    | some i =>
      if !(answers s i) then waitFor s x (.island i)
      else if regRefused s r v then respond s x .err 0
      else respond (applyReg s a r v) x .ok 0

/-- R396: an access is carried out: the first case that applies. -/
def startAccess (s : State) (x : Access) : State :=
  let a := x.addr
  if x.deny || a % 8 != 0 then respond s x .err 0
  else if 0x1000000 ≤ a then startMoss s x
  else if 0x100000 ≤ a ∧ a < 0x500000 ∧ nF s ≤ (a - 0x100000) / 0x10000 then respond s x (if x.we then .err else .ok) 0
  else match regAt a with
    | none => respond s x .err 0
    | some r =>
      if x.we then startWrite s x r (pmData s x)
      else match holder a with
        | none => respond (regReadEnd s a r) x .ok (regRead s a r)
        | some i =>
          if answers s i then respond (regReadEnd (nearMissIf (x.edge && decide (i < 64)) s (activeIsl s) 6) a r) x .ok (regRead s a r) else waitFor s x (.island i)

/-! ### The work of the active Rhizome that an event releases -/

/-- One piece of work: the first committed entry acts, or the first waiting access starts. -/
def work (s : State) : Option State :=
  match s.bus.ready with
  | e :: rest => some (actEntry { s with bus := { s.bus with ready := rest } } e)
  | [] =>
    match s.bus.cur, s.bus.queue with
    | none, x :: q => if answers s (activeIsl s) && !(inTakeover s) then some (startAccess { s with bus := { s.bus with queue := q } } x) else none
    | _, _ => none

/-- At most n pieces of work, in order. -/
def workN : Nat → State → State
  | 0, s => s
  | n + 1, s => match work s with | none => s | some t => workN n t

/-- Everything that is ready is carried out. The bound is never reached: a piece of work adds no access and at most the commands of one re-plan. -/
def flush (s : State) : State := workN (4 * (s.bus.ready.length + s.bus.queue.length) + 1024) s

/-! ### Arrival of an access (R380, R409) -/

/-- The accesses that have been accepted and not answered. -/
def waiting (s : State) : List Access := s.bus.lost ++ (match s.bus.cur with | some c => [c.1] | none => []) ++ s.bus.queue

/-- HOST_REQ_READY is 1 (R409). -/
def hostReady (s : State) : Bool := !s.chip.rst && decide (((waiting s).filter fun x => x.src == .host).length + s.bus.resp.length < 32)

/-- A rule refuses the access during a takeover. -/
def refusedNow (x : Access) : Bool :=
  x.we && match regAt x.addr with
    | none => false
    | some r => takeoverRefuses r.row.name x.data && !(vidOwned r)

/-- A remote access (R327). -/
def Access.ofMat (x : Access) : Bool := match x.src with | .mat _ _ => true | _ => false

/-- An access reaches the path of R409. During a takeover a refused one is answered ERR, the first 16 others are held, and further ones are answered ERR, each in its place; a remote access
is carried out after it (R327, R380). -/
def submit (s : State) (x : Access) : State :=
  if inTakeover s then
    let held := (s.bus.queue.filter fun y => !y.deny && !y.ofMat).length
    let y := { x with deny := !x.ofMat && (refusedNow x || decide (16 ≤ held)) }
    if y.deny && (waiting s).isEmpty then respond s y .err 0 else { s with bus := { s.bus with queue := s.bus.queue ++ [y] } }
  else flush { s with bus := { s.bus with queue := s.bus.queue ++ [x] } }

/-- A request at the host register port (R408, R409); one that is not accepted changes nothing. -/
def hostTake (s : State) (x : Access) : State := if hostReady s && answers s 0x49 then pmStep (submit s x) else s

/-- A host access. -/
def hostAccess (s : State) (we : Bool) (addr : BitVec 26) (data : W64) (ecc : Ecc) : State :=
  hostTake s { src := .host, we := we, addr := addr.toNat, data := data.toNat, ecc := ecc }

/-- A host write of a register. -/
def hostWrite (s : State) (addr v : Nat) : State := hostAccess s true (BitVec.ofNat 26 addr) (BitVec.ofNat 64 v) .clean

/-- HOST_REQUEST: a request is accepted and carried out in acceptance order (R396, R408, R409); `path` says how a read ends on its way (R185, R356). -/
def execHostRequest (we : Bool) (addr : BitVec 26) (data : W64) (path : ReadPath) (s : State) : Out := nextOf s <|
  hostTake s { src := .host, we := we, addr := addr.toNat, data := data.toNat, ecc := path.ecc, edge := path.edge }

/-- REGISTER_WRITE: a host write to a register that has no row of its own (R396). -/
def execRegisterWrite (addr : BitVec 26) (data : W64) (s : State) : Out := nextOf s <| hostAccess s true addr data .clean

/-- HOST_RESPONSE_TAKEN: the oldest response is taken at the port (R408). -/
def execHostResponseTaken (s : State) : Out := nextOf s <| { s with bus := { s.bus with resp := s.bus.resp.drop 1 } }

/-! ### Timeouts and acknowledgements (R27, R88, R396) -/

/-- Commands from number n on move down by one. -/
def renumber (n : Nat) (l : List FCmd) : List FCmd := (l.filter fun c => c.seq != n).map fun c => if n < c.seq then { c with seq := c.seq - 1 } else c

/-- The frond never applies the command that an access waited for: its latest command with an access waiting leaves the stream (R396). -/
def dropWaiting (x : Frond) : Frond :=
  match (x.unacked.filter fun c => c.wait).getLast? with
  | none => x
  | some c =>
    if x.exp ≤ c.seq then { x with air := renumber c.seq x.air, unacked := renumber c.seq x.unacked, sent := x.sent - 1 }
    else { x with inbox := x.inbox.filter fun q => !(q.1 == c.seq && q.2 == c.msg), unacked := x.unacked.filter fun d => d.seq != c.seq }

/-- The answer of island i to the access in progress is on its way: the island runs, and its acknowledgement, or the command that it will acknowledge, is in flight. -/
def answerComing (s : State) (i : Nat) : Bool :=
  answers s i && (s.bus.acks.any (fun a => a.isl == i) || (decide (i < 64) && (fr s i).unacked.any fun c => c.wait) || (i == 0x47 && !s.bus.fltAcks.isEmpty))

/-- R396 case 2: the holding island has not answered within 1 µs. -/
def accessTimeout (s : State) : State :=
  match s.bus.cur with
  | some (x, .island i) =>
    if answerComing s i then s
    else
      let wrote := x.we && (match regAt x.addr with | some r => journalled r.row.name && !(vidOwned r) | none => false)
      let s1 := answerCur s .err 0
      if wrote then journal (if i < 64 then updFr s1 i dropWaiting else s1) (.withdraw x.addr) false else s1
  | _ => s

/-- HOST_ACCESS_TIMEOUT: the holding island does not answer within 1 µs: the access is answered ERR, and a journalled write is withdrawn (R396). -/
def execHostAccessTimeout (s : State) : Out := nextOf s <| pmStep (flush (accessTimeout s))

end Sys2Proof.Machine
end

