-- ==== Sys2Proof/Machine/Startup.lean ====
section
/-! DEFINITION. Machine/Startup.lean: reset, start-up, the application of an image and the Spore exit (R364 to R375, R398, R399, R401, R420). Time is left out: what Table 17-5
places within microseconds of the rise of RST_N is one command. -/
namespace Sys2Proof.Machine

/-! ### Reset (R398, R401, R420) -/

/-- RST_N goes low: every domain returns to reset. OTP, flash, the straps, the levels that the surroundings drive and the TAP stay; an EXTEST that is selected drives the pins now (R418). -/
def resetAll (s : State) : State :=
  { s with
    regs := [], fronds := [], bus := {}, isls := [], strms := [], probe := none, qProbe := none, flt := {}, pushWait := [], load := none,
    adm := { lines := s.adm.lines }, telAir := [], tap := { s.tap with drives := s.tap.ir == 0 },
    vpm := { stages := (List.range 48).foldl (fun t n => if (stg s n).flt then tset t n { flt := true } else t) [] },
    nv := {}, moss := {}, th := {}, rz := {}, bud := {}, conv := {}, fh := {},
    mat := { oeAbsent := s.mat.oeAbsent, oeFault := s.mat.oeFault }, age := {}, pm := { addr := s.pm.addr }, chip := { refAbsent := s.chip.refAbsent, rst := true } }

/-- RESET_ASSERT (R420). -/
def execResetAssert (s : State) : Out := nextOf s <| resetAll s

/-! ### Privileged rails (R168, R198) -/

/-- CRC-16 of the record (Table 7-5). -/
def privCrcOk (s : State) : Bool := crc16 (otpBytes s 0 14) == leValue (otpBytes s 14 2)

/-- BAD shows the groups of `gs` whose entry is invalid or out of range (Table 7-13). -/
def showBad (s : State) (gs : List Nat) : State :=
  fset s RZ_PRIV_STAT_BAD (fget s RZ_PRIV_STAT_BAD ||| ofBits ((gs.filter fun g => !(privOk s g)).map (· - 1)))

/-- The groups of `gs` start from the record. The privileged-table source is raised when the CRC fails, and for a group with stages that has no usable entry (R168). -/
def privStart (s : State) (gs : List Nat) : State :=
  let withStages := gs.filter fun g => !(stagesOf s g).isEmpty
  let s0 := showBad s gs
  if !(privCrcOk s) then raiseD s0 0x22 none 0 (activeIsl s)
  else
    let s1 := gs.foldl (fun t g => if privOk t g then takeVid t g (privVid t g (flag t RZ_PRIV_STAT_HOT)) else t) s0
    withStages.foldl (fun t g =>
      if privOk t g then fset t RZ_PRIV_STAT_APPLIED (fget t RZ_PRIV_STAT_APPLIED ||| 2 ^ (g - 1)) else raiseD t 0x22 none g (activeIsl t)) s1

/-! ### Release (R364, R365, R368, R369, R370) -/

/-- Bitwise majority of three reads. -/
def majority (a b c : BitVec 512) : BitVec 512 := (a &&& b) ||| (a &&& c) ||| (b &&& c)

/-- The OTP is read three times. The reads carry what was fixed at test; bits that the block has set since read as set (log entry 15). -/
def readOtp (s : State) (r1 r2 r3 : BitVec 512) : State :=
  let a := s.otp ||| r1
  let b := s.otp ||| r2
  let c := s.otp ||| r3
  let s1 := { s with otp := majority a b c }
  let s2 := if a = b ∧ b = c then s1 else raiseD (fsetB s1 NV_BOOT_STAT_OTP_MAJ true) 0x21 none 0 0x4A
  let s3 := fset (fsetB s2 NV_BOOT_STAT_OTP_PROG (bitOf (bootWord s2) 63)) NV_BOOT_STAT_FLOOR (rollFloor s2)
  fsetB (fset (fset s3 NV_BOOT_STAT_STEP 1) MT_UID_UID (otpUid s3)) RZ_PRIV_STAT_CRC_OK (privCrcOk s3)

/-- The set-point default of OTP: VCODE and the committed endpoint of frond f (R157, Table 7-7). -/
def defaultSetpoint (s : State) (f : Nat) : State :=
  let w := bootWord s
  let vd := bitsOf w 32 21
  if bitOf w 33 ∧ 1600 ≤ vd ∧ vd ≤ 3800 then updFr (fset (fset s (FR_SETPOINT_VCODE f) vd) (FR_RAIL_STAT_END f) vd) f fun x => { x with rail := { x.rail with e := vd } } else s

/-- The boot map, the defaults of VID and of the set-point, and the privileged record take effect (R37, R157, R168, R198, R365). -/
def bootRails (s : State) : State :=
  let s1 := if bootMapOk s then applyStageMap (fsetB s NV_BOOT_STAT_MAP_OK true) (bootMap s) else raiseD s 0x21 none 1 0x4A
  let w := bootWord s
  let bd := bitsOf w 40 34
  let s2 := if bitOf w 41 ∧ bd ≤ 80 then fset s1 RZ_IBUS_STAT_TARGET bd else s1
  let s3 := takeVid s2 0 (6400 + 20 * fget s2 RZ_IBUS_STAT_TARGET)
  let s4 := privStart s3 [1, 2, 3, 4, 5]
  (List.range (nF s4)).foldl defaultSetpoint s4

/-- The boot record is read: a trial is booted once, and an unconfirmed one returns to PREV (R368). -/
def bootSlot (s : State) : State :=
  let r := bootRec s
  let s1 := match r.state with
    | 1 => fset (fsetB (putBoot s r.slot 2 r.prev) NV_BOOT_STAT_TRIAL true) NV_BOOT_STAT_SLOT r.slot
    | 2 => fset (putBoot s r.prev 0 r.prev) NV_BOOT_STAT_SLOT r.prev
    | _ => fset s NV_BOOT_STAT_SLOT r.slot
  fset s1 NV_BOOT_STAT_STEP 2

/-- The calibration area is loaded, or source 0x24 is raised (R239, R369). -/
def loadCal (s : State) : State :=
  match s.flash.cal with
  | some (uid, ws) =>
    if uid = otpUid s then
      fsetB ((List.range (4 * nF s)).foldl (fun t n => fsetB (setReg t (TH_SCAL n) (BitVec.ofNat 64 (ws.getD n 0))) (TH_SENS_UNCAL n) false) s) NV_BOOT_STAT_CAL_OK true
    else raiseD s 0x24 none 0 0x4A
  | none => raiseD s 0x24 none 0 0x4A

/-- The VPM slots are read: the valid record with the greater SEQ is shown (R214). -/
def loadVrec (s : State) : State :=
  let best := match s.flash.vpm0, s.flash.vpm1 with
    | some a, some b => some (if serialGt b.seq a.seq then b else a)
    | some a, none => some a
    | none, b => b
  match best with
  | none => s
  | some r => fsetB (fsetB (showVrec s r) VP_LASTF_STAT_LOADED true) VP_LASTF_STAT_VALID true

/-- The standby starts to synchronise (R378, R380). -/
def startResync (s : State) : State := fsetB s RZ_PAIR_STAT_RESYNC (flag s RZ_PAIR_CFG_RESYNC_EN)

/-- RESET_RELEASE: RST_N rises and the start-up runs up to the boot record, the calibration area and the VPM slots (Table 17-5, to 0.10 ms). `r1`, `r2`, `r3`: the three reads of the
OTP; `pmAddr`: the PM_ADDR straps. -/
def execResetRelease (r1 r2 r3 : BitVec 512) (pmAddr : BitVec 3) (s : State) : Out := nextOf s <|
  if fget s NV_BOOT_STAT_STEP = 0 then
    let s1 := { s with chip := { s.chip with rst := false }, tap := { s.tap with drives := false }, pm := { s.pm with addr := pmAddr.toNat } }
    pmStep (startResync (loadLife (loadVrec (loadCal (bootSlot (bootRails (readOtp s1 r1 r2 r3)))))))
  else s

/-- FROND_ON_BROADCAST: G0 has PG = 1: ON is sent to every frond (R370). -/
def execFrondOnBroadcast (s : State) : Out := nextOf s <|
  if inSpore s && flag s (VP_GRP_STAT_PG 0) && decide (1 ≤ fget s NV_BOOT_STAT_STEP) && answers s (activeIsl s) && !(inTakeover s) then
    (List.range (nF s)).foldl (fun t f => sendCmd t f (.write 0x88 1) false) s
  else s

/-! ### Sections of an image (R374 steps 1 to 6) -/

/-- Where staged byte x lies in Moss (R372). -/
def stageOff (x : Nat) : Nat := if x < 0x400000 then 8 * 0x80000 + x else 20 * 0x80000 + (x - 0x400000)

/-- The banks of the staging area. -/
def stageBanks : List Nat := (List.range 8).map (· + 8) ++ (List.range 8).map (· + 20)

def setOwner (s : State) (b m : Nat) : State := fset s (MS_BANK_OWNER b) m

/-- The image is staged: the active Rhizome owns the staging banks. -/
def stageImage (s : State) (rd : Nat → Nat) : State :=
  let n := min (imgSize rd) 0x800000
  let lo := imgBytes rd 0 (min n 0x400000)
  let hi := imgBytes rd 0x400000 (n - 0x400000)
  let s1 := stageBanks.foldl (fun t b => setOwner t b (rzMaster t)) s
  mossPutBytes (mossPutBytes s1 (stageOff 0) lo) (stageOff 0x400000) hi

/-- The staged bytes. -/
def stagedRd (s : State) : Nat → Nat := fun x => (mread 0 s.moss.mem (stageOff x)).toNat

/-- The staging banks are zeroed and return to their owners after reset (Table 16-3). -/
def unstage (s : State) : State :=
  let m := mclear (mclear s.moss.mem (stageOff 0) (stageOff 0 + 0x400000)) (stageOff 0x400000) (stageOff 0x400000 + 0x400000)
  stageBanks.foldl (fun t b => setOwner t b (bankOwnerReset b)) { s with moss := { s.moss with mem := m } }

/-- Step 1: the stage map; a privileged group that gets its first stages starts from the record. -/
def applyMap (s : State) (rd : Nat → Nat) : State :=
  match isect rd 5 with
  | none => s
  | some x =>
    let s1 := applyStageMap s (stageMapOf rd x)
    match [1, 2, 3, 4, 5].filter fun g => (stagesOf s g).isEmpty && !(stagesOf s1 g).isEmpty with
    | [] => s1
    | fresh => privStart s1 fresh

/-- Step 2: the model is copied to slot 0, checked as R274 says and selected; `ue`: the copy met an uncorrectable error. -/
def applyModel (s : State) (rd : Nat → Nat) (ue : Bool) : State :=
  match isect rd 3 with
  | none => s
  | some x =>
    let s1 := mossPutBytes s (16 * 0x80000) (imgBytes rd x.off x.bytes)
    let c := modelCode (slotRd s1 0 false) (slotSize false)
    if ue then raiseD s1 0xC1 none 7 0x42 else if c = 0 then switchTo s1 0 false else fset s1 FH_MODEL_CMD_RESULT c

/-- The words of a loop program: the 8-byte frond mask, then 32-bit words (Table 17-9). -/
def progWords (rd : Nat → Nat) (x : ISect) : List Nat := (List.range ((x.bytes - 8) / 4)).map fun k => imgU rd (x.off + 8 + 4 * k) 4

/-- Step 3 and Table 19-4: the loop programs are copied into bank 29, one after another, and loaded into the fronds that `sel` takes. -/
def applyPrograms (s : State) (rd : Nat → Nat) (sel : Nat → Bool) : State :=
  (((isects rd).filter fun x => x.type == 2).foldl (fun (a : State × Nat) x =>
    let t := mossPutBytes a.1 (29 * 0x80000 + a.2) (imgBytes rd x.off x.bytes)
    let fs := (List.range (nF t)).filter fun f => bitOf (imgU rd x.off 8) f && sel f
    (fs.foldl (fun u f => putProgram u f x.dest (progWords rd x)) t, (a.2 + x.bytes) % 0x80000)) (s, 0)).1

/-- Step 4: the Moss preload, the firmware, the Mat keys and the bridge enables. -/
def applyData (s : State) (rd : Nat → Nat) : State :=
  let s1 := match isect rd 9 with | some x => mossPutBytes s x.dest (imgBytes rd x.off x.bytes) | none => s
  let s2 := match isect rd 1 with | some x => { s1 with nv := { s1.nv with fw := imgBytes rd x.off x.bytes } } | none => s1
  let s3 := match isect rd 7 with
    | some x => (List.range (x.bytes / 24)).foldl (fun t k =>
        let o := x.off + 24 * k
        let key := leValue (imgBytes rd (o + 8) 16)
        updMg t (rd o) fun g => if rd (o + 1) = 1 then { g with key1 := some key } else { g with key0 := some key }) s2
    | none => s2
  match isect rd 6 with
  | some x => (List.range (nF s3)).foldl (fun t f => fsetB (fsetB t (FR_BRIDGE_STAT_IMG_EN_E f) (bitOf (imgU rd x.off 8) f)) (FR_BRIDGE_STAT_IMG_EN_S f) (bitOf (imgU rd (x.off + 8) 8) f)) s3
  | none => s3

/-- The points of section 8. -/
def section8 (rd : Nat → Nat) : List (Nat × Nat) :=
  match isect rd 8 with
  | some x => (List.range 512).map fun k => (imgU rd (x.off + 4 * k) 2, rd (x.off + 4 * k + 2))
  | none => []

/-- The points of a frond take effect, in the frond and as the active Rhizome holds them (R155, R167, R399). -/
def setPoints (s : State) (f : Nat) (pts : List (Nat × Nat)) : State :=
  let s1 := (List.range 8).foldl (fun t i => setReg t (FR_FMAX f i) (BitVec.ofNat 64 (pointWord (pts.getD i (0, 0))))) s
  let shift := leValue ((List.range 8).map fun i => min 255 ((pts.getD i (0, 0)).1 - baseOf s f i))
  setReg { s1 with rz := { s1.rz with tab := tset s1.rz.tab f pts } } (FR_AGE_SHIFT f) (BitVec.ofNat 64 shift)

/-- Step 5: the Fmax points come from the table area, or from section 8, which is then written as record SEQ 0 (R388). -/
def applyTables (s : State) (rd : Nat → Nat) : State :=
  let sec := section8 rd
  let s1 := { s with nv := { s.nv with sec8 := sec } }
  let cur := match tabRec s1 with | some r => r.cur | none => sec
  let s2 := (List.range (nF s1)).foldl (fun t f => setPoints t f ((List.range 8).map fun i => cur.getD (8 * f + i) (0, 0))) s1
  let inF := fun k : Nat => decide (k / 8 < nF s2)
  match tabRec s2 with
  | some _ => showDue s2
  | none =>
    let r : TabRec := ⟨0, otpUid s2, imgU rd 20 4, 0, lifeSeconds s2, (List.range 512).map fun k => if inF k then sec.getD k (0, 0) else (0, 0),
      (List.range 512).map fun k => if inF k then (sec.getD k (0, 0)).1 else 0⟩
    { s2 with nv := { s2.nv with ops := s2.nv.ops ++ [.table r] } }

/-- Steps 1 to 6 of R374. -/
def applySections (s : State) (rd : Nat → Nat) (ue : Bool) : State :=
  unstage (applyTables (applyData (applyPrograms (applyModel (applyMap s rd) rd ue) rd (answers s)) rd) rd)

/-! ### The register table (R373, R374 step 7) -/

/-- The entries of a type-4 section: address and value. -/
def regEntries (rd : Nat → Nat) : List (Nat × Nat) :=
  match isect rd 4 with
  | none => []
  | some x => (List.range (x.bytes / 16)).map fun k => (imgU rd (x.off + 16 * k) 8 % 2 ^ 26, imgU rd (x.off + 16 * k + 8) 8)

/-- An entry that a rule refuses or ignores in Spore mode. -/
def sporeHolds (n : RName) (v : Nat) : Bool :=
  match n with
  | .FR_GROUP | .FR_SAMPLE_CFG | .FR_PHASE_MASK | .FR_SETPOINT | .RZ_PERF_CTRL | .VP_GRP_PWM | .VP_GRP_LOOP | .VP_GRP_LIM | .VP_GRP_LL | .FH_CTRL | .RZ_IBUS_OPT => true
  | .FR_CORE_CTRL => !(bitOf v 0)
  | .FR_INJ_CFG => bitOf v 2
  | .RZ_BRIDGE_CMD => bitsOf v 13 12 != 0
  | .FC_LOAD_CMD => bitOf v 32
  | .FH_MODEL_CMD => bitsOf v 1 0 == 1 || bitsOf v 1 0 == 2
  | .NV_AGE_CMD => bitsOf v 1 0 != 0
  | .NV_UPD_CMD => bitsOf v 2 0 == 5
  | .MT_LANE_CFG | .MT_SITE | .MT_CAP_DST => false
  | _ => isMt n

def entryHeld (p : Nat × Nat) : Bool := match regAt p.1 with | some r => sporeHolds r.row.name p.2 | none => false

/-- An entry would be refused (R373). -/
def entryRefused (s : State) (a v : Nat) : Bool :=
  if a % 8 ≠ 0 then true
  else if 0x1000000 ≤ a then ownerOf s (bankOf (a % 0x1000000)) != rzMaster s
  else match regAt a with
    | none => true
    | some r => decide (0x100000 ≤ a ∧ nF s ≤ r.f) || vidOwned r || (if isFrCmd r.row.name then frCmdRefused s r.f r.row.name r.i v else regRefused s r v)

/-- What an entry leaves (R373). -/
def entryApply (s : State) (a v : Nat) : State :=
  if 0x1000000 ≤ a then mossStore s (a / 0x1000000 - 1) (a % 0x1000000) v
  else match regAt a with
    | none => s
    | some r =>
      if r.row.name = .FR_SETPOINT then applySetpoint s r.f 0 v (setpointE s r.f v)
      else if isFrCmd r.row.name then applyFrWrite s r.f (a % 0x10000) v
      else applyReg s a r v

/-- The state from which the check pass starts: the sections applied, the frond cores out of Spore state with nothing bound, and no refusal for Spore mode or a takeover (R373). -/
def checkBase (s : State) (rd : Nat → Nat) : State :=
  let s1 := applySections s rd false
  let s2 := fsetB (fsetB (fsetB s1 NV_BOOT_STAT_SPORE false) RZ_PAIR_STAT_TAKEOVER false) FH_MODEL_STAT_LOADED (isect rd 3).isSome
  (List.range (nF s2)).foldl (fun t f =>
    let t1 := fset t (FR_CORE_STAT_STATE f) 1
    let t2 := setReg (setReg t1 (FR_SAMPLE_CFG f) (BitVec.ofNat 64 (regReset (FR_SAMPLE_CFG f)))) (FR_PHASE_MASK f) (BitVec.ofNat 64 (regReset (FR_PHASE_MASK f)))
    (List.range 8).foldl (fun u g => setReg u (FR_GROUP f g) 0) t2) s2

/-- The index of the first entry that would be refused. -/
def firstRefused : State → Nat → List (Nat × Nat) → Option Nat
  | _, _, [] => none
  | s, k, p :: ps => if entryRefused s p.1 p.2 then some k else firstRefused (entryApply s p.1 p.2) (k + 1) ps

/-! ### Reading and applying an image -/

/-- R372: one slot is verified: its code, with ENTRY under code 7 and the image staged when its header passes. -/
def trySlot (s : State) (slot : Nat) (fail ue : Bool) : State × Nat :=
  let rd := imgRd s slot
  let c := verifyImage s rd fail ue
  let s1 := if c = 1 ∨ c = 2 ∨ c = 8 then s else stageImage s rd
  let s2 := if c = 0 then
      match firstRefused (checkBase s1 rd) 0 (regEntries rd) with
      | none => (s1, 0)
      | some k => (fset s1 NV_BOOT_STAT_ENTRY k, 7)
    else (s1, c)
  (raiseCode (fset s2.1 (if slot = 0 then NV_BOOT_STAT_RES0 else NV_BOOT_STAT_RES1) s2.2) s2.2, s2.2)

/-- IMAGE_READ: the image is staged and verified, with the other slot after a failure (R372, R373). `fail` and `ue`: bit k: a flash read of slot k fails; the staging of slot k meets an
uncorrectable error. -/
def execImageRead (fail ue : BitVec 2) (s : State) : Out := nextOf s <|
  if fget s NV_BOOT_STAT_STEP = 2 ∧ inSpore s = true ∧ answers s (activeIsl s) = true ∧ answers s 0x4A = true ∧ inTakeover s = false then
    let a := fget s NV_BOOT_STAT_SLOT
    let b := 1 - a
    let x := trySlot s a (bitOf fail.toNat a) (bitOf ue.toNat a)
    if x.2 = 0 then fset x.1 NV_BOOT_STAT_STEP 6
    else
      let y := trySlot x.1 b (bitOf fail.toNat b) (bitOf ue.toNat b)
      if y.2 = 0 then
        let t := putBoot y.1 b 0 (bootRec y.1).prev
        fset (fsetB (fsetB (fset t NV_BOOT_STAT_SLOT b) NV_BOOT_STAT_FELLBACK true) NV_BOOT_STAT_TRIAL false) NV_BOOT_STAT_STEP 6
      else fset (unstage y.1) NV_BOOT_STAT_STEP 9
  else s

/-- IMAGE_APPLY: the verified image is applied; register-table entries that Spore mode refuses or ignores are held (R374). `ue`: the copy of the model met an uncorrectable error. -/
def execImageApply (ue : Bool) (s : State) : Out := nextOf s <|
  if fget s NV_BOOT_STAT_STEP = 6 ∧ answers s (activeIsl s) = true ∧ inTakeover s = false then
    let rd := stagedRd s
    let s1 := applySections s rd ue
    let s2 := fset (fset s1 NV_BOOT_STAT_SVN (rd 17)) NV_IMAGE_ID_IMAGE_ID (imgU rd 20 4)
    let es := regEntries rd
    let own := (es.filter fun p => !(entryHeld p)).map fun p => ({ src := .own, we := true, addr := p.1, data := p.2 } : Access)
    let s3 := { s2 with nv := { s2.nv with held := es.filter entryHeld }, bus := { s2.bus with queue := s2.bus.queue ++ own } }
    pmStep (flush (fset s3 NV_BOOT_STAT_STEP 7))
  else s

/-! ### Spore exit (R375) -/

/-- A held entry of a frond core. -/
def heldFor (f : Nat) (p : Nat × Nat) : Bool := match regAt p.1 with | some r => isFrCmd r.row.name && r.f == f | none => false
def heldFr (p : Nat × Nat) : Bool := match regAt p.1 with | some r => isFrCmd r.row.name | none => false

/-- A held entry of a frond is part of the committed state (R376, R405), and a set-point is the frond's latest command (R155). -/
def commitHeld (s : State) (p : Nat × Nat) : State :=
  match regAt p.1 with
  | none => s
  | some r =>
    let add := fun l => addCommit l p.1 p.2
    let s1 := { s with bus := { s.bus with commits := add s.bus.commits, standby := if inSync s then add s.bus.standby else s.bus.standby } }
    if r.row.name = .FR_SETPOINT then { s1 with rz := { s1.rz with cmd := tset s1.rz.cmd r.f (p.2, setpointE s1 r.f p.2) } } else s1

/-- SPORE_EXIT: the image has been applied and no frond is starting up: every frond core is sent its held entries, to apply at one boundary, and the S4 of R291 (R375). -/
def execSporeExit (s : State) : Out := nextOf s <|
  let starting := (List.range (nF s)).any fun f => railSt s f == 1 || railSt s f == 2 || railSt s f == 4
  let own := ((waiting s).filter fun x => x.src == .own).isEmpty
  if fget s NV_BOOT_STAT_STEP = 7 ∧ starting = false ∧ own = true ∧ s.chip.exitWait = [] ∧ answers s (activeIsl s) = true ∧ inTakeover s = false then
    let s1 := (s.nv.held.filter heldFr).foldl commitHeld s
    let s2 := (List.range (nF s1)).foldl (fun t f => sendCmd t f (.sporeExit ((s.nv.held.filter (heldFor f)).map fun p => (p.1 % 0x10000, p.2))) false) s1
    let s3 := (List.range (nF s2)).foldl (fun t f => sendCmd t f (.capWord (idleWordOf s f)) false) s2
    { s3 with nv := { s3.nv with held := s.nv.held.filter fun p => !(heldFr p) }, chip := { s2.chip with exitWait := List.range (nF s3) } }
  else s

/-- A frond core has acknowledged the Spore exit; the last one ends Spore mode, and the other held entries are written in table order (R375). -/
def sporeAcked (s : State) (f : Nat) : State :=
  if s.chip.exitWait.contains f then
    let w := s.chip.exitWait.filter (· != f)
    let s1 := { s with chip := { s.chip with exitWait := w } }
    if w.isEmpty then
      let own := s.nv.held.map fun p => ({ src := .own, we := true, addr := p.1, data := p.2 } : Access)
      let s2 := fset (fsetB s1 NV_BOOT_STAT_SPORE false) NV_BOOT_STAT_STEP 8
      nextRun (showFh { s2 with nv := { s2.nv with held := [] }, bus := { s2.bus with queue := s2.bus.queue ++ own } })
    else s1
  else s

end Sys2Proof.Machine
end

