-- ==== Sys2Proof/Machine/Pair.lean ====
section
/-! DEFINITION. Machine/Pair.lean: the Lichen pair (R376 to R380), restarts (R404, R405) and the fault collector's commands (R333 to R347). -/
namespace Sys2Proof.Machine

/-! ### The journal (R376 to R378) -/

def standbyIsl (s : State) : Nat := 0x41 - fget s RZ_PAIR_STAT_ACTIVE

/-- JOURNAL_ENTRY: the oldest entry in flight arrives at the standby, which applies and acknowledges it (R376). The journal is a command stream: an entry out of sequence is refused (R27). -/
def execJournalEntry (s : State) : Out := nextOf s <|
  match s.bus.jAir with
  | [] => s
  | e :: rest =>
    if answers s (standbyIsl s) && e.seq % 2 ^ 32 == s.bus.sbSeq % 2 ^ 32 then
      { s with bus := { s.bus with jAir := rest, standby := commitOp s.bus.standby e.op, sbSeq := e.seq + 1, jAck := s.bus.jAck ++ [e.seq] } }
    else s

/-- JOURNAL_ACK: the standby's acknowledgement arrives: its entry commits (R376). `edge`: it arrived in the expiry cycle of ACK_TO (R185, kind 2). -/
def execJournalAck (edge : Bool) (s : State) : Out := nextOf s <|
  match s.bus.jAck with
  | [] => s
  | n :: rest =>
    let s1 := { s with bus := { s.bus with jAck := rest } }
    match takeFirst (fun e : JEntry => e.seq == n) s1.bus.jWait with
    | none => s1
    | some (e, left) => pmStep (flush (nearMissIf edge { s1 with bus := { s1.bus with jWait := left, ready := s1.bus.ready ++ [e] } } (activeIsl s) 2))

/-- ACK_TIMEOUT: no acknowledgement within ACK_TO: the waiting entries commit without it, source 0x10 is raised, and the standby is out of sync (R377). -/
def execAckTimeout (s : State) : Out := nextOf s <|
  if s.bus.jWait.isEmpty then s
  else
    let s1 := { s with bus := { s.bus with ready := s.bus.ready ++ s.bus.jWait, jWait := [], jAir := [], jAck := [] } }
    pmStep (flush (bump (outOfSync (raiseD s1 0x10 none 0 (activeIsl s))) RZ_PAIR_STAT_ACK_TIMEOUTS))

/-- Two copies of the committed state agree: the same last value at every address. -/
def commitsAgree (a b : List (Nat × W64)) : Bool :=
  let x := lastCommits a
  let y := lastCommits b
  x.all (fun p => y.contains p) && y.all fun p => x.contains p

/-- STATE_DIGEST: the standby compares the digest with its own (R378). `corrupt`: its copy has been damaged otherwise than by a command. With no entry in flight the model's two copies
are compared as they stand; with one in flight they agree at the digest's SEQ. -/
def execStateDigest (corrupt : Bool) (s : State) : Out := nextOf s <|
  let quiet := s.bus.jAir.isEmpty && s.bus.jWait.isEmpty && s.bus.jAck.isEmpty && s.bus.ready.isEmpty
  if inSync s && answers s (activeIsl s) && answers s (standbyIsl s) && !(inTakeover s) && (corrupt || (quiet && !(commitsAgree s.bus.standby s.bus.commits))) then
    bump (outOfSync (raiseD s 0x11 none 0 (standbyIsl s))) RZ_PAIR_STAT_DIGEST_FAILS
  else s

/-- RESYNC_COMPLETE: the standby has copied a snapshot, replayed the entries after it, and the next comparison matched (R378). -/
def execResyncComplete (s : State) : Out := nextOf s <|
  if flag s RZ_PAIR_STAT_RESYNC && answers s (activeIsl s) && answers s (standbyIsl s) && !(inTakeover s) then
    let b := s.bus
    let s1 := { s with bus := { b with standby := b.jWait.foldl (fun l e => commitOp l e.op) b.commits, sbSeq := b.jSeq, ready := b.ready ++ b.jWait, jWait := [], jAir := [], jAck := [] } }
    pmStep (flush (fsetB (fsetB s1 RZ_PAIR_STAT_SYNC true) RZ_PAIR_STAT_RESYNC false))
  else s

/-! ### Probes that end without an answer (R29, R363) -/

def probeStale (s : State) : State :=
  match s.probe with
  | none => s
  | some _ => setReg (setReg (fsetB (fsetB { s with probe := none } RZ_ISLAND_PROBE_STALE true) RZ_ISLAND_PROBE_BUSY false) RZ_ISLAND_CYCLES 0) RZ_ISLAND_SEQ 0

def qProbeStale (s : State) : State :=
  match s.qProbe with
  | none => s
  | some _ => setReg (fsetB (fsetB { s with qProbe := none } MS_Q_SEL_STALE true) MS_Q_SEL_BUSY false) MS_Q_STAT 0

/-! ### The end of a takeover (R355, R379, R380) -/

/-- R355: the failed Rhizome's banks pass to the new active one. -/
def passBanks (s : State) : State :=
  let new := rzMaster s
  (List.range 32).foldl (fun t b => if ownerOf t b = 3 - new then setOwner t b new else t) s

/-- R27: what a frond core has not taken is sent again. -/
def resend (s : State) (f : Nat) : State := updFr s f fun x => { x with air := x.unacked.filter fun c => decide (x.exp ≤ c.seq) }

/-- TAKEOVER_COMPLETE (R155, R283, R355, R379, R380). -/
def execTakeoverComplete (s : State) : Out := nextOf s <|
  if inTakeover s && answers s (activeIsl s) then
    let s1 := passBanks (bump (fsetB s RZ_PAIR_STAT_TAKEOVER false) RZ_PAIR_STAT_TAKEOVERS)
    let c := s1.bud.copy
    let s2 := { s1 with flt := { s1.flt with takeTrig := false }, bus := { s1.bus with lost := [] }, bud := { s1.bud with lateTok := [], w := c.w, b := c.b, d := c.d } }
    let s3 := raiseD s2 0x14 (some (fget s RZ_PAIR_STAT_ACTIVE)) 0 (activeIsl s)
    let s4 := s.bus.lost.foldl (fun t x => respond t x .err 0) s3
    let s5 := s.bud.lateTok.foldl (fun t k => takeJob t k true) s4
    let s6 := qProbeStale (probeStale s5)
    let s7 := setIsl s6 (standbyIsl s) { isl s6 (standbyIsl s) with inReset := false, halted := true }
    let s8 := (List.range (nF s)).foldl resend (startResync s7)
    let s9 := (List.range (nF s)).foldl reissueIfMoved s8
    pmStep (flush (lifeBump s9 44))
  else s

/-! ### Restarts (R404, R405, Table 19-4) -/

/-- The committed values of an island's fields that a restart writes again, in the order of their last commits. -/
def committedOf (s : State) (i : Nat) : List (Nat × Nat × RegAt) :=
  (lastCommits s.bus.commits).filterMap fun p =>
    match regAt p.1 with
    | none => none
    | some r => if holder p.1 = some i ∧ r.row.rw ≠ 0 ∧ vidOwned r = false then some (p.1, p.2 &&& r.row.rw, r) else none

/-- They are written again; the flag tells that one was refused. -/
def rewrite (s : State) (i : Nat) : State × Bool :=
  (committedOf s i).foldl (fun (a : State × Bool) w => if regRefused a.1 w.2.2 w.2.1 then (a.1, true) else (applyReg a.1 w.1 w.2.2 w.2.1, a.2)) (s, false)

/-- The committed fields of a frond that its core accepts, checked in order against the state that those before leave. -/
def frondFields (s : State) (f : Nat) : List (Nat × Nat) × Bool :=
  let base := if inSpore s then s else fset s (FR_CORE_STAT_STATE f) 1
  let x := (committedOf s f).foldl (fun (a : State × List (Nat × Nat) × Bool) w =>
    if frCmdRefused a.1 f w.2.2.row.name w.2.2.i w.2.1 then (a.1, a.2.1, true)
    else (entryApply a.1 w.1 w.2.1, a.2.1 ++ [(w.1 % 0x10000, w.2.1)], a.2.2)) (base, [], false)
  x.2

/-- The frond's share of Table 19-4: the loop programs of the booted slot, and the committed fields, taken at one boundary. While the block itself is in Spore mode the frond stays in
Spore state and its fields are written as commands. -/
def restoreFrond (s : State) (f : Nat) : State × Bool :=
  let s0 := defaultSetpoint s f
  let s1 := if 7 ≤ fget s0 NV_BOOT_STAT_STEP ∧ fget s0 NV_BOOT_STAT_STEP ≠ 9 then applyPrograms s0 (imgRd s0 (slotBooted s0)) (· == f) else s0
  let w := frondFields s1 f
  let s2 := { s1 with th := { s1.th with sent := tdel s1.th.sent f } }
  let s2 := if tripHeld s2 f then sendUpd s2 f (.trip true) else s2
  (if inSpore s2 then w.1.foldl (fun t p => sendCmd t f (.write p.1 p.2) false) s2 else sendCmd s2 f (.sporeExit w.1) false, w.2)

/-- The VPM controller's share: the stage map, the group registers, and the VIDs from their writers. -/
def restoreVpm (s : State) : State × Bool :=
  let map := (List.range 48).map fun n => if flag s (VP_STAGE_IMG_EN n) then some (fget s (VP_STAGE_GROUP n)) else none
  let s1 := applyStageMap (stageNums.foldl (fun t n => fsetB t (VP_STAGE_IMG_EN n) false) s) map
  let w := rewrite (loadVrec s1) 0x43
  let s2 := takeVid w.1 0 (6400 + 20 * fget w.1 RZ_IBUS_STAT_TARGET)
  (if privCrcOk s2 then [1, 2, 3, 4, 5].foldl (fun t g => if privOk t g then takeVid t g (privVid t g (flag t RZ_PRIV_STAT_HOT)) else t) s2 else s2, w.2)

/-- Fiddlehead's share: the selected model is checked again in its slot as OP 2 would check it. -/
def restoreFh (s : State) : State × Bool :=
  let slot := fget s FH_MODEL_STAT_SLOT
  let wide := flag s FH_MODEL_STAT_WIDE
  let c := if slotOwned s slot wide then modelCode (slotRd s slot wide) (slotSize wide) else 6
  let s1 := if flag s FH_MODEL_STAT_LOADED then (if c = 0 then switchTo s slot wide else fsetB (fset s FH_MODEL_CMD_RESULT c) FH_MODEL_STAT_LOADED false) else s
  rewrite s1 0x42

/-- What Table 19-4 restores for an island. -/
def restore (s : State) (i : Nat) : State × Bool :=
  match i with
  | 0x40 | 0x41 => (startResync s, false)
  | 0x42 => restoreFh s
  | 0x45 =>
    let w := rewrite s 0x45
    (fsetB w.1 TH_STAT_TRIPPED (!(w.1.th.trips.isEmpty && w.1.th.remTrips.isEmpty)), w.2)
  | 0x43 => restoreVpm s
  | 0x4B =>
    let w := rewrite s 0x4B
    (((List.range (nF s)).filter fun f => railSt s f == 1).foldl (fun t f => toAdm t (.wake false f (fget t (FR_DEGRADE_CFG_WPRIO f)))) w.1, w.2)
  | _ => if i < 64 then restoreFrond s i else rewrite s i

/-- ISLAND_RESTART: a host write of RZ_ISLAND_RST with GO = 1 (R404). -/
def execIslandRestart (i : BitVec 8) (s : State) : Out := nextOf s <| hostWrite s RZ_ISLAND_RST (i.toNat + 2 ^ 12)

/-- RESTART_HEARTBEAT: the restarted island's heartbeat arrives: its loaded and committed values are restored (R404 steps 3 and 4, R405). -/
def execRestartHeartbeat (s : State) : Out := nextOf s <|
  match s.chip.restart with
  | none => s
  | some r =>
    let s1 := setIsl { s with chip := { s.chip with restart := none } } r.isl { isl s r.isl with beat := !(isl s r.isl).beat, halted := false, stopped := false, inReset := false }
    let w := restore s1 r.isl
    pmStep (flush (fsetB (fset w.1 RZ_ISLAND_RST_RESULT w.2.toNat) RZ_ISLAND_RST_BUSY false))

/-- RESTART_TIMEOUT: no heartbeat within 100 µs: the island is held in reset again (R404 step 2). -/
def execRestartTimeout (s : State) : Out := nextOf s <|
  match s.chip.restart with
  | none => s
  | some r =>
    let s1 := setIsl { s with chip := { s.chip with restart := none } } r.isl { isl s r.isl with halted := true, inReset := true }
    fsetB (fset s1 RZ_ISLAND_RST_RESULT 2) RZ_ISLAND_RST_BUSY false

/-! ### The fault collector (R333 to R347) -/

/-- FAULT_RAISE: a raise arrives in the collector (R333). -/
def execFaultRaise (src : BitVec 8) (unit : Option (BitVec 6)) (detail : BitVec 32) (s : State) : Out := nextOf s <|
  if answers s 0x47 then
    match pickRaise s src.toNat (unit.map BitVec.toNat) detail.toNat with
    | none => s
    | some (r, s1) => pmStep (flush (takeRaise s1 r))
  else s

/-- A signal of the collector, the thermal unit or the VPM controller arrives at a frond core and waits for its boundary. -/
def takeSignal (s : State) (f : Nat) (p : FMsg → Bool) : State :=
  if answers s f then
    match takeUpd p [] (fr s f).upd with
    | none => s
    | some (m, rest) => updFr s f fun x => { x with upd := rest, inbox := x.inbox ++ [(0, m)] }
  else s

def isCap3 (m : FMsg) : Bool := match m with | .cap3 _ => true | _ => false
def isChipSig (m : FMsg) : Bool := match m with | .chipDrain => true | .chipDark => true | _ => false
def isSagSig (m : FMsg) : Bool := match m with | .sag _ _ => true | _ => false
def isTripSig (m : FMsg) : Bool := match m with | .trip _ => true | _ => false

/-- LEVEL3_CAP_SIGNAL: a level-3 cap or its release arrives at a frond core (R339). -/
def execLevel3CapSignal (f : Nat) (s : State) : Out := nextOf s <| takeSignal s f isCap3
/-- CHIP_ACTION_SIGNAL: the drain or the DARK of the chip action arrives at a frond core (R340). -/
def execChipActionSignal (f : Nat) (s : State) : Out := nextOf s <| takeSignal s f isChipSig
/-- SAG_SIGNAL: the sag signal or its end arrives at a frond core (R186, R187). -/
def execSagSignal (f : Nat) (s : State) : Out := nextOf s <| takeSignal s f isSagSig
/-- TRIP_SIGNAL: a trip or its end arrives at a frond core (R251). -/
def execTripSignal (f : Nat) (s : State) : Out := nextOf s <| takeSignal s f isTripSig

/-- CHIP_DRAIN_EXPIRY: CHIP_DRAIN µs after the chip action every frond is signalled to take DARK (R340 step 3). -/
def execChipDrainExpiry (s : State) : Out := nextOf s <|
  if s.flt.chipDrain then broadcast { s with flt := { s.flt with chipDrain := false } } .chipDark else s

/-- FAULT_ACK: a committed acknowledgement arrives in the collector (R335). `edge`: it arrived in the expiry cycle of the level-2 window of a source that it acknowledges (R185, kind 1). -/
def execFaultAck (edge : Bool) (s : State) : Out := nextOf s <|
  if answers s 0x47 then
    match s.bus.fltAcks with
    | [] => s
    | (j, bits) :: rest =>
      let s1 := ackSources (nearMissIf (edge && s.flt.windows.any fun w => w.1 / 64 == j && bitOf bits (w.1 % 64)) { s with bus := { s.bus with fltAcks := rest } } 0x47 1) j bits
      let waits := match s1.bus.cur with | some (_, .island i) => i == 0x47 | _ => false
      pmStep (sendAck s1 0x47 true waits)
  else s

/-- FIRST_LATCH_CLEAR: a host write of 1 to RZ_FLT_FIRST.VALID (R336). -/
def execFirstLatchClear (s : State) : Out := nextOf s <| hostWrite s RZ_FLT_FIRST (2 ^ 8)

/-- LEVEL2_WINDOW_EXPIRY: the window of source i expires (R337). -/
def execLevel2WindowExpiry (i : BitVec 8) (s : State) : Out := nextOf s <|
  if answers s 0x47 then pmStep (flush (windowExpiry s i.toNat)) else s

/-- FAULT_FORCE: a host write of RZ_FLT_CFG_i with FORCE = 1 (R347). -/
def execFaultForce (i : BitVec 8) (data : W64) (s : State) : Out := nextOf s <| hostWrite s (RZ_FLT_CFG i.toNat) (data.toNat ||| 2 ^ 32)

/-- SELF_TEST_VERDICT: the test of a source on a unit ends (R343): 1 transient, 2 lasting, 3 external, 4 aborted. -/
def execSelfTestVerdict (src : BitVec 8) (unit : BitVec 6) (verdict : BitVec 3) (detail : BitVec 16) (s : State) : Out := nextOf s <|
  if answers s 0x47 && decide (1 ≤ verdict.toNat ∧ verdict.toNat ≤ 4) then pmStep (flush (testVerdict s src.toNat unit.toNat verdict.toNat detail.toNat)) else s

/-- ALIVE_TOGGLE: every 10 µs ALIVE makes an edge unless it is stopped (R342). -/
def execAliveToggle (s : State) : Out := nextOf s <|
  if s.flt.aliveStop || !(answers s 0x47) then s
  else fsetB { s with flt := { s.flt with alive := !s.flt.alive } } RZ_FLT_LIVE_ALIVE true

/-- ALIVE_RESTART: a host write of RZ_FLT_CTRL with ALIVE_RESTART = 1 (R342). -/
def execAliveRestart (data : W64) (s : State) : Out := nextOf s <| hostWrite s RZ_FLT_CTRL (data.toNat ||| 2 ^ 48)

/-- FAULT_NVM_CLEAR: a host write of RZ_FLT_NVM with CLEAR = 1 (R346). -/
def execFaultNvmClear (s : State) : Out := nextOf s <| hostWrite s RZ_FLT_NVM (2 ^ 24)

end Sys2Proof.Machine
end

