-- ==== Sys2Proof/Machine/Islands.lean ====
section
/-! DEFINITION. Machine/Islands.lean: islands, streams and queues (R16 to R29, R360 to R363), the commands and updates of the frond cores (R23, R78, R88), and Moss accesses (R348 to
R359). -/
namespace Sys2Proof.Machine

/-! ### REF_CLK, heartbeats and stops (R17, R18, R410) -/

/-- REF_CLK_ABSENT: 2 µs have passed without REF_CLK: the fault is raised and the Mat lanes drop (R17). -/
def execRefClkAbsent (s : State) : Out := nextOf s <|
  if s.chip.refAbsent then s
  else
    let s1 := raiseD { s with chip := { s.chip with refAbsent := true } } 0x00 none 0 0x47
    (List.range 4).foldl (fun t l => if laneSt t l = 0 then t else laneOff t l) s1

/-- REF_CLK_RETURN: REF_CLK returns; lanes acquire again and conversions are valid again (R17). -/
def execRefClkReturn (s : State) : Out := nextOf s <| { s with chip := { s.chip with refAbsent := false } }

/-- HEARTBEAT_TOGGLE: a toggle of island i arrives; an island that is not held in reset runs (R18). `edge`: it arrived in the expiry cycle (R185, kind 3). The heartbeat that ends a
restart is RESTART_HEARTBEAT. -/
def execHeartbeatToggle (i : BitVec 8) (edge : Bool) (s : State) : Out := nextOf s <|
  let k := i.toNat
  let restarting := match s.chip.restart with | some r => r.isl == k | none => false
  if hasIsl s k && !(isl s k).inReset && !restarting then
    nearMissIf (edge && answers s k) (setIsl s k { isl s k with beat := !(isl s k).beat, stopped := false, halted := false }) 0x47 3
  else s

/-- ISLAND_STOPPED: 10 µs have passed since the island's last toggle: it is declared stopped and its stop source is raised (R18, R410). -/
def execIslandStopped (i : BitVec 8) (s : State) : Out := nextOf s <|
  let k := i.toNat
  if hasIsl s k && k != 0x47 && !(isl s k).stopped && answers s 0x47 then
    let p := stopSource k
    raiseD (setIsl s k { isl s k with stopped := true, halted := true }) p.1 p.2 0 0x47
  else s

/-! ### Queues (R25, R27, R360 to R362) -/

/-- R362: a corrected queue word. -/
def queueCe (s : State) : State :=
  let n := s.moss.qCeMs + 1
  let s1 := { s with moss := { s.moss with qCeMs := n } }
  if fget s MS_CFG_Q_CE_THR < n ∧ s.moss.qOver = false then raiseD { s1 with moss := { s1.moss with qOver := true } } 0x1C none 0 0x48 else s1

/-- A stream whose records are commands (R27): those of a Rhizome, but for the input records to Fiddlehead (stream 2) and the records that it writes to Moss (streams 12 to 14). The spec
gives the Rhizome's other streams no numbers; which of them are command streams is the model's choice (DESIGN CHOICE, log entry 107). -/
def isCommandStream (i str : Nat) : Bool := (i == 0x40 || i == 0x41) && str != 2 && !(12 ≤ str && str ≤ 14)

/-- The words after which a consumer may start on a packet; 0 for a whole packet (Table 16-4). -/
def threshold (i : Nat) : Nat := if i = 0x44 then 4 else if i = 0x46 then 3 else 0

/-- R27: the number of a record against the expected one. -/
def checkSeq (s : State) (i str rx : Nat) (st : Strm) (seq : W32) : State × Strm :=
  if seq = st.expect then (s, { st with expect := seq + 1, refusing := false })
  else if isCommandStream i str then (s, { st with refusing := true })
  else (raiseD (setIsl s rx { isl s rx with gaps := min 0xFFFF ((isl s rx).gaps + 1) }) 0x0E none (32 * i + str) rx, { st with expect := seq + 1 })

/-- A good word of a packet (R361). -/
def takeWord (s : State) (i str rx tag : Nat) (word : W64) (st : Strm) : State × Strm :=
  if tag ≤ 1 then
    let c := checkSeq s i str rx st (BitVec.ofNat 32 word.toNat)
    (c.1, { c.2 with fill := tag, dropping := 0 })
  else if st.dropping ≠ 0 then (s, { st with dropping := if tag = 3 then 2 else st.dropping })
  else if tag = 3 then (s, { st with fill := 0 })
  else if st.fill = 0 then (s, st)
  else (s, { st with fill := if threshold i ≠ 0 ∧ threshold i ≤ st.fill + 1 then 0 else st.fill + 1 })

/-- QUEUE_WORD: a word of stream `str` of island `i` becomes readable in island `rx` with its frame tag (R360 to R362). The first word of a packet carries the record's number in its
low half (Table 1-2). -/
def execQueueWord (i : BitVec 8) (str : BitVec 5) (rx : BitVec 8) (tag : BitVec 2) (word : W64) (ecc : Ecc) (s : State) : Out := nextOf s <|
  let k := 32 * i.toNat + str.toNat
  let st := tget {} s.strms k
  let put := fun (p : State × Strm) => { p.1 with strms := tset p.1.strms k p.2 }
  match ecc with
  | .double => put (raiseD s 0x1B none k rx.toNat, { st with ue := min 0xFFFF (st.ue + 1), discards := min 0xFF (st.discards + 1), fill := 0, dropping := 1 })
  | .single =>
    if st.dropping = 1 then put (queueCe s, { st with ce := min 0xFFFFFF (st.ce + 1), dropping := if tag.toNat = 3 then 2 else 1 })
    else put (takeWord (queueCe s) i.toNat str.toNat rx.toNat tag.toNat word { st with ce := min 0xFFFFFF (st.ce + 1) })
  | .clean =>
    if st.dropping = 1 then put (s, { st with dropping := if tag.toNat = 3 then 2 else 1 })
    else put (takeWord s i.toNat str.toNat rx.toNat tag.toNat word st)

/-- Commands numbered from 0 on. -/
def numberFrom : Nat → List FCmd → List FCmd
  | _, [] => []
  | n, c :: cs => { c with seq := n } :: numberFrom (n + 1) cs

/-- The acknowledgements of frond f on their way answer commands of the stream before its reset. -/
def oldAcks (s : State) (f : Nat) : State := { s with bus := { s.bus with acks := s.bus.acks.map fun a => if a.isl = f then { a with old := true } else a } }

/-- The handshake of the active Rhizome's stream to Fiddlehead: what the stream still carries is lost, and input records are forwarded again (R257, R360). -/
def openInputs (s : State) (i str : Nat) : State :=
  if i = activeIsl s ∧ str = 2 then { s with fh := { s.fh with inAir := [] }, rz := { s.rz with fhShut := false } } else s

/-- STREAM_RESET_HANDSHAKE: the queue empties at both ends, and the receiver expects 0 (R25, R27, R360). The sender keeps the commands that have not been acknowledged, with numbers from
0 on. -/
def execStreamResetHandshake (x : StreamId) (s : State) : Out := nextOf s <|
  match x with
  | .frond f =>
    updFr (oldAcks s f) f fun y =>
      let keep := numberFrom 0 (y.unacked.filter fun c => decide (y.exp ≤ c.seq))
      { y with air := [], exp := 0, sent := keep.length, unacked := keep }
  | .queue i str =>
    let k := 32 * i.toNat + str.toNat
    openInputs { s with strms := tset s.strms k { tget {} s.strms k with sent := false, seqOut := 0, expect := 0, refusing := false, next := some 0, fill := 0, dropping := 0 } } i.toNat str.toNat

/-- COMMAND_RESEND: the sender resends from the expected number (R27). -/
def execCommandResend (x : StreamId) (s : State) : Out := nextOf s <|
  match x with
  | .frond f => resend s f
  | .queue i str => { s with strms := tset s.strms (32 * i.toNat + str.toNat) { tget {} s.strms (32 * i.toNat + str.toNat) with refusing := false } }

/-! ### Probes (R29, R363) -/

/-- ISLAND_PROBE: a host write of RZ_ISLAND_PROBE (R29). -/
def execIslandProbe (i : BitVec 8) (str : BitVec 5) (s : State) : Out := nextOf s <| hostWrite s RZ_ISLAND_PROBE (i.toNat + 256 * str.toNat)

/-- QUEUE_PROBE: a host write of MS_Q_SEL (R363). -/
def execQueueProbe (i : BitVec 8) (str : BitVec 5) (s : State) : Out := nextOf s <| hostWrite s MS_Q_SEL (i.toNat + 256 * str.toNat)

/-- The number of the last record of a stream, if one has left since its reset: stream 1 of the active Rhizome is its journal (log entry 107). -/
def lastSeq (s : State) (p : Probe) : Option Nat :=
  let st := tget {} s.strms (32 * p.isl + p.str)
  if p.isl = activeIsl s ∧ p.str = 1 then (if s.bus.jSeq = 0 then none else some ((s.bus.jSeq - 1) % 2 ^ 32))
  else if st.sent then some (st.seqOut - 1).toNat else none

/-- The snapshot of an island: `adv` cycles have passed in it since the model last looked (R16). -/
def snapshotIsl (s : State) (p : Probe) (adv : W64) : State :=
  let n := (isl s p.isl).cycles + adv
  let s1 := setReg (setIsl { s with probe := none } p.isl { isl s p.isl with cycles := n }) RZ_ISLAND_CYCLES n
  let s2 := fset (fset s1 RZ_ISLAND_SEQ_SEQ_OUT ((lastSeq s p).getD 0)) RZ_ISLAND_SEQ_SEQ_GAPS (isl s p.isl).gaps
  fsetB (fsetB (fsetB s2 RZ_ISLAND_SEQ_SENT (lastSeq s p).isSome) RZ_ISLAND_PROBE_STALE false) RZ_ISLAND_PROBE_BUSY false

/-- The snapshot of a queue. -/
def snapshotQueue (s : State) (p : Probe) : State :=
  let st := tget {} s.strms (32 * p.isl + p.str)
  let s1 := fset (fset { s with qProbe := none } MS_Q_STAT_FILL st.fill) MS_Q_STAT_CE st.ce
  fsetB (fsetB (fset (fset s1 MS_Q_STAT_UE st.ue) MS_Q_STAT_DISCARDS st.discards) MS_Q_SEL_STALE false) MS_Q_SEL_BUSY false

/-- PROBE_SNAPSHOT_ARRIVES: the snapshot of RZ_ISLAND_PROBE, or of MS_Q_SEL (`queue`), arrives; one that a takeover has overtaken ends with it (R29, R363). `edge`: in the expiry cycle (R185, kind 6). -/
def execProbeSnapshotArrives (queue : Bool) (adv : W64) (edge : Bool) (s : State) : Out := nextOf s <|
  if inTakeover s then s
  else match queue, s.probe, s.qProbe with
  | false, some p, _ => if answers s p.isl then nearMissIf edge (snapshotIsl s p adv) (activeIsl s) 6 else s
  | true, _, some p => nearMissIf edge (snapshotQueue s p) (activeIsl s) 6
  | _, _, _ => s

/-- PROBE_TIMEOUT: a probe has had no answer within 1 µs (R29, R363). -/
def execProbeTimeout (queue : Bool) (s : State) : Out := nextOf s <| if queue then qProbeStale s else probeStale s

/-! ### Frond cores: commands and updates (R23, R27, R78, R88) -/

/-- The frond core refuses a command with ERR. -/
def cmdRefused (s : State) (f : Nat) (m : FMsg) : Bool :=
  match m with
  | .write off v =>
    match regAt (0x100000 + 0x10000 * f + off) with
    | none => true
    | some r => frCmdRefused (afterInbox s f) f r.row.name r.i v
  | .setpoint v _ => frCmdRefused (afterInbox s f) f .FR_SETPOINT 0 v
  | _ => false

/-- A command that carries the expected number is checked, acknowledged and, if accepted, waits for the boundary; any other is refused until the sender resends (R27, R88). -/
def takeCommand (s : State) (f : Nat) (c : FCmd) : State :=
  if c.seq % 2 ^ 32 = (fr s f).exp % 2 ^ 32 then
    let ok := !(cmdRefused s f c.msg)
    let s1 := updFr s f fun x => { x with exp := x.exp + 1, inbox := if ok then x.inbox ++ [(c.seq, c.msg)] else x.inbox }
    sendOn { s1 with bus := { s1.bus with acks := s1.bus.acks ++ [{ isl := f, ok := ok, wait := c.wait, cmd := some c }] } } f 3
  else s

/-- FROND_COMMAND: the oldest command in flight arrives at frond core f (R88). `ecc`: what the check bits of its queue words show (R362). -/
def execFrondCommand (f : Nat) (ecc : Ecc) (s : State) : Out := nextOf s <|
  if hasF s f && answers s f then
    match (fr s f).air with
    | [] => s
    | c :: rest =>
      let s1 := updFr s f fun x => { x with air := rest }
      match ecc with
      | .clean => takeCommand s1 f c
      | .single => takeCommand (queueCe s1) f c
      | .double => raiseD s1 0x1B none f f
  else s

/-- The access that waited for island i is answered with the outcome; a refused write is withdrawn from the committed state. -/
def ackAnswer (s : State) (i : Nat) (ok : Bool) : State :=
  match s.bus.cur with
  | some (x, .island k) =>
    if k = i then
      let s1 := answerCur s (if ok then .ok else .err) 0
      if ok then s1 else journal s1 (.withdraw x.addr) false
    else s
  | _ => s

/-- The active Rhizome has the outcome of a frond's command and drops it; a refused set-point is none that is committed (R27, R79, R396). A target's answer to a push counts toward the
end of BUSY (Table 3-23). -/
def cmdAcked (s : State) (f : Nat) (c : FCmd) (ok old : Bool) : State :=
  let s1 := if old then s else updFr s f fun x => { x with unacked := x.unacked.filter fun d => d.seq != c.seq }
  match c.msg with
  | .sporeExit _ => sporeAcked s1 f
  | .scalar k _ => if 8 ≤ k then pushAcked s1 f else s1
  | .setpoint v e =>
    if ok then s1
    else
      let s2 := unsetCmd s1 f v e
      if c.wait then s2 else journal s2 (.withdraw (FR_SETPOINT f)) false
  | _ => s1

/-- COMMAND_ACK: the oldest acknowledgement of island i arrives, and a host write that waited for it is answered (R88, R396). `edge`: in the expiry cycle of that access (R185, kind 6). -/
def execCommandAck (i : BitVec 8) (edge : Bool) (s : State) : Out := nextOf s <|
  match takeFirst (fun a : Ack => a.isl == i.toNat) s.bus.acks with
  | none => s
  | some (a, rest) =>
    if answers s (activeIsl s) && !(inTakeover s) then
      let s1 := nearMissIf (edge && a.wait) { s with bus := { s.bus with acks := rest } } (activeIsl s) 6
      let s2 := match a.cmd with | some c => cmdAcked s1 a.isl c a.ok a.old | none => s1
      pmStep (flush (if a.wait then ackAnswer s2 a.isl a.ok else s2))
    else s

/-- A remote update that has no row of its own. -/
def isPlainUpd (m : FMsg) : Bool :=
  match m with
  | .grant _ | .sag _ _ | .trip _ | .cap3 _ | .chipDrain | .chipDark | .forecast _ _ _ _ | .bx _ _ => false
  | _ => true

/-- A scalar push or a cap word, which travel as commands (R79). -/
def isScalarCmd (m : FMsg) : Bool := match m with | .scalar _ _ | .capWord _ => true | _ => false

/-- REMOTE_UPDATE: an update arrives at frond core f and waits for its boundary: a band word or another of the updates, in the order of each sender (R22); where none is on its way, the
scalar or cap word at the front of the command stream (R23, R76). -/
def execRemoteUpdate (f : Nat) (s : State) : Out := nextOf s <|
  if hasF s f && answers s f then
    match takeUpd isPlainUpd [] (fr s f).upd, (fr s f).air with
    | some (m, rest), _ => updFr s f fun x => { x with upd := rest, inbox := x.inbox ++ [(0, m)] }
    | none, c :: rest => if isScalarCmd c.msg then takeCommand (updFr s f fun x => { x with air := rest }) f c else s
    | none, [] => s
  else s

def isBx (m : FMsg) : Bool := match m with | .bx _ _ => true | _ => false

/-- BX_RECORD: the leader's BX arrives at the follower; a gap in its numbers is counted (R27, R78). -/
def execBxRecord (f : Nat) (s : State) : Out := nextOf s <|
  if hasF s f && answers s f then
    match takeUpd isBx [] (fr s f).upd with
    | none => s
    | some (m, rest) =>
      let s1 := match m with | .bx prov _ => recvRec s f prov | _ => s
      updFr s1 f fun x => { x with upd := rest, inbox := x.inbox ++ [(0, m)] }
  else s

/-! ### Moss accesses (R348 to R359) -/

/-- An alias write by an internal master: its read may find an error (R352, R353). -/
def aliasAccess (s : State) (m kind off v : Nat) (ecc : Ecc) : State :=
  if awake s (bankOf off) && ownerOf s (bankOf off) == m then
    let s1 := readEcc s off ecc
    if ecc = .double then s1 else mossStore s1 kind off v
  else mossAccess s m kind off v

/-- A write of one aligned word by a master (Table 16-1); code 0 is no master. -/
def masterWrite (s : State) (m : BitVec 3) (kind : Nat) (off : BitVec 24) (data : W64) (ecc : Ecc) : State :=
  if m.toNat = 3 then hostAccess s true (BitVec.ofNat 26 ((kind + 1) * 0x1000000 + off.toNat)) data ecc
  else if m.toNat = 0 ∨ off.toNat % 8 ≠ 0 ∨ answers s 0x48 = false then s
  else if kind = 0 then mossAccess s m.toNat 0 off.toNat data.toNat
  else aliasAccess s m.toNat kind off.toNat data.toNat ecc

/-- MOSS_WRITE: a master writes a word (R348 to R351). -/
def execMossWrite (m : BitVec 3) (off : BitVec 24) (data : W64) (s : State) : Out := nextOf s <| masterWrite s m 0 off data .clean
/-- MOSS_BIT_SET: a write through the bit-set alias (R352, R353). -/
def execMossBitSet (m : BitVec 3) (off : BitVec 24) (data : W64) (ecc : Ecc) (s : State) : Out := nextOf s <| masterWrite s m 1 off data ecc
/-- MOSS_BIT_CLEAR: a write through the bit-clear alias (R352, R353). -/
def execMossBitClear (m : BitVec 3) (off : BitVec 24) (data : W64) (ecc : Ecc) (s : State) : Out := nextOf s <| masterWrite s m 2 off data ecc

/-- BANK_HANDOVER: a host write that changes MS_BANK_b OWNER and keeps RET (R354). -/
def execBankHandover (b : BitVec 5) (owner : BitVec 3) (s : State) : Out := nextOf s <|
  hostWrite s (MS_BANK b.toNat) (owner.toNat + (if flag s (MS_BANK_RET b.toNat) then 16 else 0))

/-- BANK_RETENTION: a host write of RET = 1 that keeps the owner (R359). -/
def execBankRetention (b : BitVec 5) (s : State) : Out := nextOf s <| hostWrite s (MS_BANK b.toNat) (ownerOf s b.toNat + 16)

/-- BANK_WAKE_COMPLETE: 2 µs after the access that woke it, the bank serves the accesses that wait, and one that has been told to retain again meanwhile does so (R359). `cycles`: the Moss cycles that each master has waited. -/
def execBankWakeComplete (b : BitVec 5) (cycles : List (BitVec 32)) (s : State) : Out := nextOf s <|
  if fget s (MS_BANK_RSTATE b.toNat) = 3 ∧ answers s 0x48 = true then
    let s1 := serveWaits s b.toNat fun m => (cycles.getD m 0).toNat
    let s2 := match s1.bus.cur with
      | some (x, .moss k) => if k = b.toNat then mossFinish { s1 with bus := { s1.bus with cur := none } } x else s1
      | _ => s1
    pmStep (flush (enterRetention s2 b.toNat))
  else s

end Sys2Proof.Machine
end

