-- ==== Sys2Proof/Machine/Rows.lean ====
section
/-! DEFINITION. Machine/Rows.lean: the commands that a host gives by a write to a register, each with the fields of that write, and the events of the active Rhizome that journal
commands of its own. A host write is checked, journalled, committed and answered as R376 and R396 say (Machine/Access.lean): the row's own effect follows the commit. -/
namespace Sys2Proof.Machine

/-- What an event releases in the active Rhizome is carried out. -/
def settle (s : State) : State := pmStep (flush s)

/-- An event of the active Rhizome's own; it happens while the Rhizome runs and no takeover is in progress (R379). -/
def rzEvent (s : State) (g : State → State) : State := if answers s (activeIsl s) && !(inTakeover s) then settle (g s) else s

/-! ### Frond cores (R65, R66, R71, R87, R89) -/

/-- GROUP_BIND: a write to FR_GROUP_n with EN = 1 (R65). -/
def execGroupBind (f : BitVec 6) (n : BitVec 3) (data : W64) (s : State) : Out := nextOf s <| hostWrite s (FR_GROUP f.toNat n.toNat) (data ||| 1).toNat

/-- GROUP_UNBIND: a write to FR_GROUP_n with EN = 0 (R66). -/
def execGroupUnbind (f : BitVec 6) (n : BitVec 3) (data : W64) (s : State) : Out := nextOf s <| hostWrite s (FR_GROUP f.toNat n.toNat) (putBits data.toNat 0 0 0)

/-- SAMPLE_PERIOD_WRITE: a write to FR_SAMPLE_CFG (R71). -/
def execSamplePeriodWrite (f : BitVec 6) (nper : BitVec 7) (s : State) : Out := nextOf s <| hostWrite s (FR_SAMPLE_CFG f.toNat) nper.toNat

/-- CORE_HALT: a write of FR_CORE_CTRL with RUN = 0 (R87). -/
def execCoreHalt (f : BitVec 6) (ovrLimit : BitVec 8) (s : State) : Out := nextOf s <| hostWrite s (FR_CORE_CTRL f.toNat) (256 * ovrLimit.toNat)

/-- CORE_RUN: a write of FR_CORE_CTRL with RUN = 1 (R87). -/
def execCoreRun (f : BitVec 6) (ovrLimit : BitVec 8) (s : State) : Out := nextOf s <| hostWrite s (FR_CORE_CTRL f.toNat) (1 + 256 * ovrLimit.toNat)

/-- CORE_STEP: a write of FR_CORE_CTRL with STEP = 1 and RUN as given (R87). -/
def execCoreStep (f : BitVec 6) (run : Bool) (ovrLimit : BitVec 8) (s : State) : Out := nextOf s <|
  hostWrite s (FR_CORE_CTRL f.toNat) (run.toNat + 2 + 256 * ovrLimit.toNat)

/-- IMEM_WRITE: a write to FR_IMEM_m: two instruction words (R89). -/
def execImemWrite (f : BitVec 6) (m : BitVec 11) (data : W64) (s : State) : Out := nextOf s <| hostWrite s (FR_IMEM f.toNat m.toNat) data.toNat

/-- PHASE_HEALTH_CLEAR: a write to FR_PHASE_HEALTH (R182). -/
def execPhaseHealthClear (f : BitVec 6) (data : W64) (s : State) : Out := nextOf s <| hostWrite s (FR_PHASE_HEALTH f.toNat) data.toNat

/-- INJECTION_GO: a write to FR_INJ_CFG with GO = 1 (R149). -/
def execInjectionGo (f : BitVec 6) (data : W64) (s : State) : Out := nextOf s <| hostWrite s (FR_INJ_CFG f.toNat) (data ||| 4).toNat

/-- INJECTION_STOP: a write to FR_INJ_CFG with STOP = 1 and GO = 0 (R148). -/
def execInjectionStop (f : BitVec 6) (data : W64) (s : State) : Out := nextOf s <| hostWrite s (FR_INJ_CFG f.toNat) (putBits data.toNat 3 2 2)

/-! ### Program loads and scalar pushes (R77, R83) -/

/-- SCALAR_PUSH: a write to FC_PUSH_CMD with GO = 1 (R77). -/
def execScalarPush (index : BitVec 6) (s : State) : Out := nextOf s <| hostWrite s FC_PUSH_CMD (index.toNat + 2 ^ 8)

/-- PROGRAM_LOAD: a write to FC_LOAD_CMD with GO = 1 (R83, R84). -/
def execProgramLoad (dst : BitVec 12) (len : BitVec 13) (s : State) : Out := nextOf s <| hostWrite s FC_LOAD_CMD (dst.toNat + 2 ^ 12 * len.toNat + 2 ^ 32)

/-- PROGRAM_LOAD_DONE: a load ends and RESULT is set (R83, Table 3-8). `ue`: the word of the source at which an uncorrectable error stopped it. -/
def execProgramLoadDone (ue : Option (BitVec 13)) (s : State) : Out := nextOf s <| loadDone s (ue.map fun k => k.toNat)

/-! ### Set-points, rails and bridges (R52, R53, R153 to R162) -/

/-- BRIDGE_CLOSE: a write to RZ_BRIDGE_CMD with OP = 1 (R52, R53). -/
def execBridgeClose (f : BitVec 6) (dir : Bool) (s : State) : Out := nextOf s <| hostWrite s RZ_BRIDGE_CMD (f.toNat + 256 * dir.toNat + 2 ^ 12)

/-- BRIDGE_OPEN: a write to RZ_BRIDGE_CMD with OP = 2 (R53). -/
def execBridgeOpen (f : BitVec 6) (dir : Bool) (s : State) : Out := nextOf s <| hostWrite s RZ_BRIDGE_CMD (f.toNat + 256 * dir.toNat + 2 ^ 13)

/-- SETPOINT_VOLTAGE: a voltage-form command (R153). -/
def execSetpointVoltage (f : BitVec 6) (vcode : BitVec 12) (s : State) : Out := nextOf s <| hostWrite s (FR_SETPOINT f.toNat) (voltWord vcode.toNat)

/-- SETPOINT_FREQUENCY: a frequency-form command (R155). -/
def execSetpointFrequency (f : BitVec 6) (freq : BitVec 8) (s : State) : Out := nextOf s <| hostWrite s (FR_SETPOINT f.toNat) (freqWord freq.toNat)

/-- ON: a write to FR_RAIL_CMD with OP = 1 (R162). -/
def execOn (f : BitVec 6) (s : State) : Out := nextOf s <| hostWrite s (FR_RAIL_CMD f.toNat) 1

/-- DARK: a write to FR_RAIL_CMD with OP = 2 (R162). -/
def execDark (f : BitVec 6) (s : State) : Out := nextOf s <| hostWrite s (FR_RAIL_CMD f.toNat) 2

/-- PERF_MODE_FREE: RZ_PERF_CTRL with MODE 0; `data` carries the other fields (R169). -/
def execPerfModeFree (data : W64) (s : State) : Out := nextOf s <| hostWrite s RZ_PERF_CTRL (putBits data.toNat 1 0 0)

/-- PERF_MODE_FIXED: RZ_PERF_CTRL with MODE 1 (R169). -/
def execPerfModeFixed (data : W64) (s : State) : Out := nextOf s <| hostWrite s RZ_PERF_CTRL (putBits data.toNat 1 0 1)

/-- PERF_MODE_BOUNDED: RZ_PERF_CTRL with MODE 2 (R171). -/
def execPerfModeBounded (data : W64) (s : State) : Out := nextOf s <| hostWrite s RZ_PERF_CTRL (putBits data.toNat 1 0 2)

/-! ### The VPM stage (R198, R212, R214) -/

/-- VID_WRITE: group g takes the VID that its writer has sent; a host write to VP_VID_0 to VP_VID_5 is answered OWN, and one to VP_VID_6 and VP_VID_7 is the writer's command
(R198, R397). -/
def execVidWrite (byHost : Bool) (g : BitVec 3) (vid : BitVec 14) (s : State) : Out := nextOf s <|
  if byHost then hostWrite s (VP_VID g.toNat) vid.toNat
  else if answers s 0x43 then
    match takeFirst (fun p : Nat × Nat => p.1 == g.toNat) s.vpm.vidAir with
    | none => s
    | some (p, rest) => pmStep (takeVid { s with vpm := { s.vpm with vidAir := rest } } p.1 p.2)
  else s

/-- STAGE_RESTART: a write to VP_STAGE_CMD with OP = 1 (R212). -/
def execStageRestart (n : BitVec 6) (s : State) : Out := nextOf s <| hostWrite s VP_STAGE_CMD (n.toNat + 2 ^ 8)

/-- STAGE_STOP: a write to VP_STAGE_CMD with OP = 2 (R212). -/
def execStageStop (n : BitVec 6) (s : State) : Out := nextOf s <| hostWrite s VP_STAGE_CMD (n.toNat + 2 ^ 9)

/-- LASTF_CLEAR: a write to VP_LASTF_STAT with CLEAR = 1 (R214). -/
def execLastfClear (s : State) : Out := nextOf s <| hostWrite s VP_LASTF_STAT (2 ^ 16)

/-! ### Converters and thermal sensors (R222, R229, R231, R236, R246, R248) -/

/-- SOFT_TRIGGER: a write to AD_CONV_TRIG_c with SOFT = 1; `data` carries the other fields (R222). -/
def execSoftTrigger (c : BitVec 3) (data : W64) (s : State) : Out := nextOf s <| hostWrite s (AD_CONV_TRIG c.toNat) (data ||| 0x8000000000000000).toNat

/-- DMA_ENABLE: a write to AD_DMA_CFG_d with EN = 1 (R229). -/
def execDmaEnable (d : BitVec 4) (data : W64) (s : State) : Out := nextOf s <| hostWrite s (AD_DMA_CFG d.toNat) (data ||| 1).toNat

/-- DMA_RD_WRITE: a write to AD_DMA_RD_d (R231). -/
def execDmaRdWrite (d : BitVec 4) (rd : W32) (s : State) : Out := nextOf s <| hostWrite s (AD_DMA_RD d.toNat) rd.toNat

/-- LCAL_CMD: a write to AD_LCAL_CMD with GO = 1 (R236). -/
def execLcalCmd (f : BitVec 6) (s : State) : Out := nextOf s <| hostWrite s AD_LCAL_CMD (f.toNat + 2 ^ 8)

/-- QUAR_CLEAR: a write of 1 to TH_SENS_n.QUAR (R246). -/
def execQuarClear (n : BitVec 8) (s : State) : Out := nextOf s <| hostWrite s (TH_SENS n.toNat) (2 ^ 35)

/-- BAND_REPORT: a frond's band, its guard and the chip's hottest band arrive at the active Rhizome, which applies R155 to a frond in frequency form when
the guard has changed (R248, R249). -/
def execBandReport (s : State) : Out := nextOf s <|
  rzEvent s fun s =>
    match s.th.air with
    | [] => s
    | m :: rest =>
      let s1 := { s with th := { s.th with air := rest }, rz := { s.rz with band := tset s.rz.band m.f m.band, gt := tset s.rz.gt m.f m.guard, hot := m.hot } }
      if rzGuard s m.f = m.guard then s1 else reissueFreq s1 m.f

/-! ### Fiddlehead (R254, R275) -/

/-- FH_ENABLE: a write of FH_CTRL.EN (R254). -/
def execFhEnable (en : Bool) (s : State) : Out := nextOf s <| hostWrite s FH_CTRL en.toNat

/-- MODEL_CHECK: a write to FH_MODEL_CMD with OP = 1 (R275). -/
def execModelCheck (slot wide : Bool) (s : State) : Out := nextOf s <| hostWrite s FH_MODEL_CMD (1 + 4 * slot.toNat + 8 * wide.toNat)

/-- MODEL_SWITCH: a write to FH_MODEL_CMD with OP = 2 (R275). -/
def execModelSwitch (slot wide : Bool) (s : State) : Out := nextOf s <| hostWrite s FH_MODEL_CMD (2 + 4 * slot.toNat + 8 * wide.toNat)

/-! ### The active Rhizome's own periods and arrivals (R35, R170, R183, R184, R288, R299, R384, R385) -/

/-- IBUS_OPT_PERIOD: a period of the optimiser; `duty`: the mean high-side duty of each frond, in 1/256 (R35 to R37). -/
def execIbusOptPeriod (duty : List (BitVec 8)) (s : State) : Out := nextOf s <| rzEvent s (ibusOptPeriod duty)

/-- NMIN_UPDATE: the active Rhizome writes NMIN of G0: it is committed to the standby, and sent at its commit (R201). -/
def execNminUpdate (n : BitVec 6) (s : State) : Out := nextOf s <| rzEvent s (nminUpdate n)

/-- PERF_RETURN: the return window has passed with headroom (R170). -/
def execPerfReturn (s : State) : Out := nextOf s <| rzEvent s perfReturn

/-- AUTO_BRIDGE_POLICY: a run of the policy of R183 for frond f. -/
def execAutoBridgePolicy (f : Nat) (s : State) : Out := nextOf s <| rzEvent s (autoBridgePolicy f)

/-- DRAIN_COMPLETE: the drain of frond f has ended (R184). `edge`: the current arrived in the expiry cycle (R185). -/
def execDrainComplete (f : Nat) (edge : Bool) (s : State) : Out := nextOf s <| rzEvent s (drainComplete f edge)

/-- JOB_BEGIN: a JOB_BEGIN token arrives at the active Rhizome (R299). -/
def execJobBegin (s : State) : Out := nextOf s <| settle (jobBegin s)

/-- JOB_END: a JOB_END token arrives at the active Rhizome (R299). -/
def execJobEnd (s : State) : Out := nextOf s <| settle (jobEnd s)

/-- BUDGET_PERIOD: every 100 µs (R288). -/
def execBudgetPeriod (s : State) : Out := nextOf s <| rzEvent s budgetPeriod

/-- REPLAN: a re-plan falls due by power-on time (R385). -/
def execReplan (s : State) : Out := nextOf s <| rzEvent s replanDue

/-- CANARY_MEASUREMENT: the measurement of frond f completes; `vals`: eight values for each point (R382, R383). -/
def execCanaryMeasurement (f : Nat) (vals : List (BitVec 16)) (s : State) : Out := nextOf s <| rzEvent s (canaryMeasured f vals)

/-- MEASURE_RETRY: every second, the deferred fronds are tried again, and one that has waited for an hour is skipped (R384). -/
def execMeasureRetry (s : State) : Out := nextOf s <| rzEvent s measureRetry

/-! ### Retention domains, top-k scans, keys (R129, R301, R319) -/

/-- DOMAIN_ENABLE: a write to AD_RET_DOM_n with EN = 1 (R301). -/
def execDomainEnable (n : BitVec 11) (cls : BitVec 4) (s : State) : Out := nextOf s <| hostWrite s (AD_RET_DOM n.toNat) (1 + 2 * cls.toNat)

/-- TOPK_SCAN: a write to RZ_TOPK_CTRL with GO = 1 (R129). -/
def execTopkScan (metric : BitVec 4) (dir excl : Bool) (s : State) : Out := nextOf s <|
  hostWrite s RZ_TOPK_CTRL (metric.toNat + 16 * dir.toNat + 32 * excl.toNat + 2 ^ 8)

/-- KEY_LOAD: a write to MT_KEY_CMD with GO = 1 (R319). -/
def execKeyLoad (slot : BitVec 8) (gen : Bool) (s : State) : Out := nextOf s <| hostWrite s MT_KEY_CMD (slot.toNat + 256 * gen.toNat + 2 ^ 9)

/-! ### Mat frames that reach the register file (R306, R327) -/

/-- Remote accesses that a frame has queued take their places as any access that arrives then (R327, R380, R409). -/
def admitMat (s t : State) : State :=
  let n := s.bus.queue.length
  (t.bus.queue.drop n).foldl submit { t with bus := { t.bus with queue := t.bus.queue.take n } }

/-- CODEWORD_RECEIVED: the 544 symbols of a codeword arrive on lane l, with or without errors: it is decoded, and its frames are taken (R305, R306, R309). -/
def execCodewordReceived (l : BitVec 2) (cnt : BitVec 10) (lane : BitVec 2) (ffo : BitVec 8) (data parity : List (BitVec 10)) (s : State) : Out := nextOf s <|
  settle (admitMat s (codeword l.toNat (cwSymbols cnt lane ffo data parity) s))

/-- REG_RD: a REG_RD frame is served as a host read, or answered DENIED (R327). -/
def execRegRd (lane : BitVec 2) (b : List Byte) (s : State) : Out := nextOf s <| settle (admitMat s (frameOf 10 lane b s))

/-- REG_WR: a REG_WR frame is served as a host write, or answered DENIED (R327). -/
def execRegWr (lane : BitVec 2) (b : List Byte) (s : State) : Out := nextOf s <| settle (admitMat s (frameOf 11 lane b s))

/-! ### Image update, ageing and records (R381, R385, R388, R391, R394) -/

/-- IMAGE_PROGRAM: a write to NV_UPD_CMD with OP = 1 (R381). -/
def execImageProgram (slot : Bool) (len : BitVec 22) (s : State) : Out := nextOf s <| hostWrite s NV_UPD_CMD (1 + 8 * slot.toNat + 16 * len.toNat)

/-- IMAGE_VERIFY: a write to NV_UPD_CMD with OP = 2 (R381). -/
def execImageVerify (slot : Bool) (s : State) : Out := nextOf s <| hostWrite s NV_UPD_CMD (2 + 8 * slot.toNat)

/-- IMAGE_ACTIVATE: a write to NV_UPD_CMD with OP = 3 (R381). -/
def execImageActivate (slot : Bool) (s : State) : Out := nextOf s <| hostWrite s NV_UPD_CMD (3 + 8 * slot.toNat)

/-- IMAGE_CONFIRM: a write to NV_UPD_CMD with OP = 4 (R381). -/
def execImageConfirm (slot : Bool) (s : State) : Out := nextOf s <| hostWrite s NV_UPD_CMD (4 + 8 * slot.toNat)

/-- SVN_COMMIT: a write to NV_UPD_CMD with OP = 5 (R381). -/
def execSvnCommit (slot : Bool) (s : State) : Out := nextOf s <| hostWrite s NV_UPD_CMD (5 + 8 * slot.toNat)

/-- REPLAN_CMD: a write to NV_AGE_CMD with OP = 1 (R385). -/
def execReplanCmd (s : State) : Out := nextOf s <| hostWrite s NV_AGE_CMD 1

/-- MEASURE_ONLY: a write to NV_AGE_CMD with OP = 2 (R385). -/
def execMeasureOnly (s : State) : Out := nextOf s <| hostWrite s NV_AGE_CMD 2

/-- REBUILD_BASELINE: a write to NV_AGE_CMD with OP = 3 (R388). -/
def execRebuildBaseline (s : State) : Out := nextOf s <| hostWrite s NV_AGE_CMD 3

/-- LIFETIME_FLUSH: a write to NV_LIFE_STAT with FLUSH = 1 (R391). -/
def execLifetimeFlush (s : State) : Out := nextOf s <| hostWrite s NV_LIFE_STAT (2 ^ 35)

/-- RECORD_READ: a write to NV_READ_CMD with GO = 1 (R394). -/
def execRecordRead (area : BitVec 2) (pos : BitVec 8) (moff : BitVec 24) (s : State) : Out := nextOf s <|
  hostWrite s NV_READ_CMD (area.toNat + 4 * pos.toNat + 2 ^ 16 * moff.toNat + 2 ^ 40)

end Sys2Proof.Machine
end

