-- ==== Sys2Proof/Machine/Pmbus.lean ====
section
/-! DEFINITION. Machine/Pmbus.lean: the PMBus target (R415, R416) and the IEEE 1149.1 test access port (R417 to R419). -/
namespace Sys2Proof.Machine

/-! ### PMBus (R415, R416, Table 20-4) -/

/-- The target takes a transaction: its island runs, RST_N is high, and no earlier access of the target waits, since the target stretches PM_SCL until it is answered (R415). -/
def pmFree (s : State) : Bool :=
  answers s 0x4A && !s.chip.rst && !((waiting s).any fun x => match x.src with | .pmbus _ => true | _ => false)

/-- A transaction that the target takes. -/
def pmTake (s : State) (g : State → State) : State := if pmFree s then pmStep (g s) else s

/-- A read that is served as a host read of its source (R415). -/
def pmRead (s : State) (code addr : Nat) : State := pmTake s fun s => submit s { src := .pmbus code, we := false, addr := addr, data := 0 }

/-- A block answer of characters. -/
def pmText (s : State) (code : Nat) (l : List Nat) : State := pmTake s fun s => pmBlock s code l

/-- The PEC of a write, where the host has sent one, is that of its address byte, command code and data (R12, R416). -/
def pecOk (s : State) (code : Nat) (data : List Nat) (pec : Option (BitVec 8)) : Bool :=
  match pec with | none => true | some p => p.toNat == pec8 (2 * (0x58 + s.pm.addr) :: code :: data)

/-- A write in LINEAR11: a PEC mismatch discards it, and a value that is negative or above `m` is refused; the rest is a host write of the field (R415, R416). -/
def pmWrite (s : State) (code addr m : Nat) (w : BitVec 16) (pec : Option (BitVec 8)) : State :=
  pmTake s fun s =>
    if !(pecOk s code (leBytes 2 w.toNat) pec) then pmCml s 5
    else match linear11Unit w.toNat m with
      | none => pmCml s 6
      | some v => submit s { src := .pmbus code, we := true, addr := addr, data := v }

/-- CLEAR_FAULTS: clears STATUS_CML and releases PM_ALERT_N; it acknowledges no fault source. -/
def execClearFaults (pec : Option (BitVec 8)) (s : State) : Out := nextOf s <|
  pmTake s fun s => if pecOk s 0x03 [] pec then { s with pm := { s.pm with cml := 0, alert := false } } else pmCml s 5

/-- CAPABILITY: PEC, 1 MHz, alert. -/
def execCapability (s : State) : Out := nextOf s <| pmTake s fun s => pmSay s 0x19 [0xD0]

/-- STATUS_BYTE: STATUS_WORD[7:0]. -/
def execStatusByte (s : State) : Out := nextOf s <| pmTake s fun s => pmSay s 0x78 [pmWord s % 256]

/-- STATUS_WORD: the bits of Table 20-4. -/
def execStatusWord (s : State) : Out := nextOf s <| pmTake s fun s => pmSay s 0x79 (leBytes 2 (pmWord s))

/-- STATUS_CML: the communication status (R416). -/
def execStatusCml (s : State) : Out := nextOf s <| pmTake s fun s => pmSay s 0x7E [s.pm.cml]

/-- READ_VIN: VP_VIN_STAT.VIN in V. -/
def execReadVin (s : State) : Out := nextOf s <| pmRead s 0x88 VP_VIN_STAT

/-- READ_IIN: the input current of R281, from P_meas and the input voltage. -/
def execReadIin (s : State) : Out := nextOf s <| pmRead s 0x89 BG_POWER

/-- READ_TEMPERATURE_1: TH_STAT.HOT_READ. -/
def execReadTemperature1 (s : State) : Out := nextOf s <| pmRead s 0x8D TH_STAT

/-- READ_POUT: P_meas. -/
def execReadPout (s : State) : Out := nextOf s <| pmRead s 0x96 BG_POWER

/-- READ_PIN: P_meas / 0.92. -/
def execReadPin (s : State) : Out := nextOf s <| pmRead s 0x97 BG_POWER

/-- PMBUS_REVISION. -/
def execPmbusRevision (s : State) : Out := nextOf s <| pmTake s fun s => pmSay s 0x98 [0x33]

/-- MFR_ID: "COLSEL". -/
def execMfrId (s : State) : Out := nextOf s <| pmText s 0x99 [0x43, 0x4F, 0x4C, 0x53, 0x45, 0x4C]

/-- MFR_MODEL: "FAZON NX64". -/
def execMfrModel (s : State) : Out := nextOf s <| pmText s 0x9A [0x46, 0x41, 0x5A, 0x4F, 0x4E, 0x20, 0x4E, 0x58, 0x36, 0x34]

/-- MFR_REVISION: RZ_ID.STEPPING. -/
def execMfrRevision (s : State) : Out := nextOf s <| pmRead s 0x9B RZ_ID

/-- MFR_SUPPLY_LIMIT: reads BG_CAP.SUPPLY, or writes it with `w`. -/
def execMfrSupplyLimit (w : Option (BitVec 16)) (pec : Option (BitVec 8)) (s : State) : Out := nextOf s <|
  match w with
  | none => pmRead s 0xD0 BG_CAP
  | some v => pmWrite s 0xD0 BG_CAP 1048575 v pec

/-- MFR_SITE_CEILING: reads MT_SITE.CEIL, or writes it with `w` and sets or clears VALID. -/
def execMfrSiteCeiling (w : Option (BitVec 16)) (pec : Option (BitVec 8)) (s : State) : Out := nextOf s <|
  match w with
  | none => pmRead s 0xD1 MT_SITE
  | some v => pmWrite s 0xD1 MT_SITE (fmax MT_SITE_CEIL) v pec

/-- MFR_READ_ENERGY: BG_ENERGY, 8 bytes. -/
def execMfrReadEnergy (s : State) : Out := nextOf s <| pmRead s 0xD2 BG_ENERGY

/-- MFR_FAULT_FIRST: RZ_FLT_FIRST[15:0]. -/
def execMfrFaultFirst (s : State) : Out := nextOf s <| pmRead s 0xD3 RZ_FLT_FIRST

/-- The codes of Table 20-4. -/
def pmCodes : List Nat := [0x03, 0x19, 0x78, 0x79, 0x7E, 0x88, 0x89, 0x8D, 0x96, 0x97, 0x98, 0x99, 0x9A, 0x9B, 0xD0, 0xD1, 0xD2, 0xD3]

/-- PMBUS_UNSUPPORTED: an unsupported code sets STATUS_CML bit 7, and its data bytes are discarded. A code of Table 20-4 is another row's. -/
def execPmbusUnsupported (code : BitVec 8) (s : State) : Out := nextOf s <| if pmCodes.contains code.toNat then s else pmTake s fun s => pmCml s 7

/-- ALERT_RESPONSE: while PM_ALERT_N is low, a read of the Alert Response Address returns the target's address, 0x58 + PM_ADDR, in bits 7 to 1, with the PEC, and releases PM_ALERT_N. -/
def execAlertResponse (s : State) : Out := nextOf s <|
  pmTake s fun s =>
    if s.pm.alert then
      let b := 2 * (0x58 + s.pm.addr)
      pmOut { s with pm := { s.pm with alert := false } } [b, pec8 [0x19, b]]
    else s

/-! ### IEEE 1149.1 (R417 to R419, Table 20-5) -/

/-- The IDCODE word of a manufacturer code. -/
def idcodeWord (mfr : BitVec 11) : Nat := 0x1465A000 ||| mfr.toNat * 2 ||| 1

/-- A list of sampled bits as the boundary register holds it, the first cell in bit 0. -/
def cellsNat (l : List Bool) : Nat := l.foldr (fun b n => b.toNat + 2 * n) 0

/-- TAP_RESET: Test-Logic-Reset selects IDCODE and resets nothing outside the TAP. -/
def execTapReset (s : State) : Out := nextOf s <| { s with tap := { s.tap with ir := 1, drives := false } }

/-- IDCODE: the identification register is selected and loaded; `mfr` is JTAG_MFR. -/
def execIdcode (mfr : BitVec 11) (s : State) : Out := nextOf s <| { s with tap := { s.tap with ir := 1, dr := idcodeWord mfr, drives := false } }

/-- BYPASS: the bypass register is selected by its own opcode or by one that Table 20-5 does not list. -/
def execBypass (op : BitVec 8) (s : State) : Out := nextOf s <|
  if [0x00, 0x01, 0x02, 0xC0].contains op.toNat then s else { s with tap := { s.tap with ir := op.toNat, dr := 0, drives := false } }

/-- EXTEST: the boundary register samples the pins, takes what is shifted in at Update-DR, and drives the pins while RST_N is low. -/
def execExtest (sampled : List Bool) (shifted : Option (List Bool)) (s : State) : Out := nextOf s <|
  { s with tap := { s.tap with ir := 0, dr := cellsNat sampled, cells := shifted.getD s.tap.cells, drives := s.chip.rst } }

/-- SAMPLE_PRELOAD: the boundary register samples the pins and takes what is shifted in. -/
def execSamplePreload (sampled : List Bool) (shifted : Option (List Bool)) (s : State) : Out := nextOf s <|
  { s with tap := { s.tap with ir := 2, dr := cellsNat sampled, cells := shifted.getD s.tap.cells, drives := false } }

/-- The 93-bit register: ADDR, DATA, STATUS, DONE. -/
def dbgWord (addr : Nat) (x : Option (Nat × Nat)) : Nat :=
  match x with
  | none => addr % 2 ^ 26
  | some p => addr % 2 ^ 26 + p.2 % 2 ^ 64 * 2 ^ 26 + p.1 % 4 * 2 ^ 90 + 2 ^ 92

/-- DBG_RD: Update-DR with an address starts a host read that takes its place after the accesses already accepted; Capture-DR loads DATA, STATUS and DONE. -/
def execDbgRd (addr : Option (BitVec 26)) (s : State) : Out := nextOf s <|
  match addr with
  | none => { s with tap := { s.tap with ir := 0xC0, dr := dbgWord s.tap.dbgAddr s.tap.dbg, drives := false } }
  | some a =>
    let s1 := { s with tap := { s.tap with ir := 0xC0, dbgAddr := a.toNat, dbg := none, drives := false } }
    if s.chip.rst || !(answers s 0x49) then s1 else pmStep (submit s1 { src := .tap, we := false, addr := a.toNat, data := 0 })

end Sys2Proof.Machine
end

