-- ==== Sys2Proof/Machine/Dispatch.lean ====
section
/-! DEFINITION. Machine/Dispatch.lean: one arm per command, each a direct call of its meaning. -/
namespace Sys2Proof.Machine

/-- The effect of a command on everything but the queue of waiting commands. -/
def exec (i : Instr) (s : State) : Host.Outcome State Fault Refusal :=
  match i with
  | .resetAssert => Sys2Proof.Machine.execResetAssert s
  | .resetRelease r1 r2 r3 pmAddr => Sys2Proof.Machine.execResetRelease r1 r2 r3 pmAddr s
  | .frondOnBroadcast => Sys2Proof.Machine.execFrondOnBroadcast s
  | .imageRead fail ue => Sys2Proof.Machine.execImageRead fail ue s
  | .imageApply ue => Sys2Proof.Machine.execImageApply ue s
  | .sporeExit => Sys2Proof.Machine.execSporeExit s
  | .refClkAbsent => Sys2Proof.Machine.execRefClkAbsent s
  | .refClkReturn => Sys2Proof.Machine.execRefClkReturn s
  | .heartbeatToggle k edge => Sys2Proof.Machine.execHeartbeatToggle k edge s
  | .islandStopped k => Sys2Proof.Machine.execIslandStopped k s
  | .phaseHighImpedance f n => Sys2Proof.Machine.execPhaseHighImpedance f n s
  | .streamResetHandshake x => Sys2Proof.Machine.execStreamResetHandshake x s
  | .commandResend x => Sys2Proof.Machine.execCommandResend x s
  | .queueWord k str rx tag word ecc => Sys2Proof.Machine.execQueueWord k str rx tag word ecc s
  | .islandProbe k str => Sys2Proof.Machine.execIslandProbe k str s
  | .probeSnapshotArrives queue adv edge => Sys2Proof.Machine.execProbeSnapshotArrives queue adv edge s
  | .probeTimeout queue => Sys2Proof.Machine.execProbeTimeout queue s
  | .queueProbe k str => Sys2Proof.Machine.execQueueProbe k str s
  | .slotBoundary f => Sys2Proof.Machine.execSlotBoundary f s
  | .slotOverrun f => Sys2Proof.Machine.execSlotOverrun f s
  | .groupDispatch f fetch => Sys2Proof.Machine.execGroupDispatch f fetch s
  | .resultWriteLands f => Sys2Proof.Machine.execResultWriteLands f s
  | .nop f word => Sys2Proof.Machine.execNop f word s
  | .add f w => Sys2Proof.Machine.execAdd f w s
  | .sub f w => Sys2Proof.Machine.execSub f w s
  | .sbs f w => Sys2Proof.Machine.execSbs f w s
  | .adf f w => Sys2Proof.Machine.execAdf f w s
  | .intg f w => Sys2Proof.Machine.execIntg f w s
  | .intgf f w => Sys2Proof.Machine.execIntgf f w s
  | .min f w => Sys2Proof.Machine.execMin f w s
  | .max f w => Sys2Proof.Machine.execMax f w s
  | .and f w => Sys2Proof.Machine.execAnd f w s
  | .or f w => Sys2Proof.Machine.execOr f w s
  | .xor f w => Sys2Proof.Machine.execXor f w s
  | .andn f w => Sys2Proof.Machine.execAndn f w s
  | .sll f w => Sys2Proof.Machine.execSll f w s
  | .srl f w => Sys2Proof.Machine.execSrl f w s
  | .sra f w => Sys2Proof.Machine.execSra f w s
  | .cmp f w => Sys2Proof.Machine.execCmp f w s
  | .sel f w => Sys2Proof.Machine.execSel f w s
  | .bnd f w => Sys2Proof.Machine.execBnd f w s
  | .bfy f w => Sys2Proof.Machine.execBfy f w s
  | .imul f w => Sys2Proof.Machine.execImul f w s
  | .qmul f w => Sys2Proof.Machine.execQmul f w s
  | .qmac f w => Sys2Proof.Machine.execQmac f w s
  | .addi f w => Sys2Proof.Machine.execAddi f w s
  | .movi f w => Sys2Proof.Machine.execMovi f w s
  | .tst f w => Sys2Proof.Machine.execTst f w s
  | .seli f w => Sys2Proof.Machine.execSeli f w s
  | .ext f w => Sys2Proof.Machine.execExt f w s
  | .badd f w => Sys2Proof.Machine.execBadd f w s
  | .bsub f w => Sys2Proof.Machine.execBsub f w s
  | .bmul f w => Sys2Proof.Machine.execBmul f w s
  | .bmac f w => Sys2Proof.Machine.execBmac f w s
  | .bcvt f w => Sys2Proof.Machine.execBcvt f w s
  | .bcvi f w => Sys2Proof.Machine.execBcvi f w s
  | .stg f w => Sys2Proof.Machine.execStg f w s
  | .nrm f w => Sys2Proof.Machine.execNrm f w s
  | .xsh f w => Sys2Proof.Machine.execXsh f w s
  | .rsh f w => Sys2Proof.Machine.execRsh f w s
  | .bcl f w => Sys2Proof.Machine.execBcl f w s
  | .red f w => Sys2Proof.Machine.execRed f w s
  | .msk f w => Sys2Proof.Machine.execMsk f w s
  | .mand f w => Sys2Proof.Machine.execMand f w s
  | .mnot f w => Sys2Proof.Machine.execMnot f w s
  | .mall f w => Sys2Proof.Machine.execMall f w s
  | .brs f w => Sys2Proof.Machine.execBrs f w s
  | .brc f w => Sys2Proof.Machine.execBrc f w s
  | .brz f w => Sys2Proof.Machine.execBrz f w s
  | .drv f w => Sys2Proof.Machine.execDrv f w s
  | .tel f w => Sys2Proof.Machine.execTel f w s
  | .bxw f w => Sys2Proof.Machine.execBxw f w s
  | .frondCommand f ecc => Sys2Proof.Machine.execFrondCommand f ecc s
  | .commandAck k edge => Sys2Proof.Machine.execCommandAck k edge s
  | .remoteUpdate f => Sys2Proof.Machine.execRemoteUpdate f s
  | .bxRecord f => Sys2Proof.Machine.execBxRecord f s
  | .groupBind f n data => Sys2Proof.Machine.execGroupBind f n data s
  | .groupUnbind f n data => Sys2Proof.Machine.execGroupUnbind f n data s
  | .samplePeriodWrite f nper => Sys2Proof.Machine.execSamplePeriodWrite f nper s
  | .scalarPush index => Sys2Proof.Machine.execScalarPush index s
  | .programLoad dst len => Sys2Proof.Machine.execProgramLoad dst len s
  | .programLoadDone ue => Sys2Proof.Machine.execProgramLoadDone ue s
  | .coreHalt f ovrLimit => Sys2Proof.Machine.execCoreHalt f ovrLimit s
  | .coreRun f ovrLimit => Sys2Proof.Machine.execCoreRun f ovrLimit s
  | .coreStep f run ovrLimit => Sys2Proof.Machine.execCoreStep f run ovrLimit s
  | .imemWrite f m data => Sys2Proof.Machine.execImemWrite f m data s
  | .ibusOptPeriod duty => Sys2Proof.Machine.execIbusOptPeriod duty s
  | .guardTripPositive f n => Sys2Proof.Machine.execGuardTripPositive f n s
  | .guardRelease f n => Sys2Proof.Machine.execGuardRelease f n s
  | .guardTripNegative f n => Sys2Proof.Machine.execGuardTripNegative f n s
  | .negativeCurrentReturn f n => Sys2Proof.Machine.execNegativeCurrentReturn f n s
  | .phaseOvercurrentRun f n => Sys2Proof.Machine.execPhaseOvercurrentRun f n s
  | .zcdCutoff f n => Sys2Proof.Machine.execZcdCutoff f n s
  | .railOvervoltage f => Sys2Proof.Machine.execRailOvervoltage f s
  | .railOvRelease f => Sys2Proof.Machine.execRailOvRelease f s
  | .bridgeClose f dir => Sys2Proof.Machine.execBridgeClose f dir s
  | .bridgeOpen f dir => Sys2Proof.Machine.execBridgeOpen f dir s
  | .bridgeClosed f dir hw cause => Sys2Proof.Machine.execBridgeClosed f dir hw cause s
  | .bridgeCloseAbort f dir => Sys2Proof.Machine.execBridgeCloseAbort f dir s
  | .bridgeHwOpen f dir cause => Sys2Proof.Machine.execBridgeHwOpen f dir cause s
  | .bridgeFwOpen f dir cause => Sys2Proof.Machine.execBridgeFwOpen f dir cause s
  | .saturationTrip f => Sys2Proof.Machine.execSaturationTrip f s
  | .injectionGo f data => Sys2Proof.Machine.execInjectionGo f data s
  | .injectionStop f data => Sys2Proof.Machine.execInjectionStop f data s
  | .injectionEnd f => Sys2Proof.Machine.execInjectionEnd f s
  | .setpointVoltage f vcode => Sys2Proof.Machine.execSetpointVoltage f vcode s
  | .setpointFrequency f freq => Sys2Proof.Machine.execSetpointFrequency f freq s
  | .profileTick f => Sys2Proof.Machine.execProfileTick f s
  | .on f => Sys2Proof.Machine.execOn f s
  | .dark f => Sys2Proof.Machine.execDark f s
  | .darkWaitExpiry f => Sys2Proof.Machine.execDarkWaitExpiry f s
  | .softStartGrant f => Sys2Proof.Machine.execSoftStartGrant f s
  | .softStartComplete f => Sys2Proof.Machine.execSoftStartComplete f s
  | .retryWaitExpiry f => Sys2Proof.Machine.execRetryWaitExpiry f s
  | .perfModeFree data => Sys2Proof.Machine.execPerfModeFree data s
  | .perfModeFixed data => Sys2Proof.Machine.execPerfModeFixed data s
  | .perfModeBounded data => Sys2Proof.Machine.execPerfModeBounded data s
  | .perfFallback thermal => Sys2Proof.Machine.execPerfFallback thermal s
  | .perfReturn => Sys2Proof.Machine.execPerfReturn s
  | .wakeRequest f => Sys2Proof.Machine.execWakeRequest f s
  | .admissionEvaluation => Sys2Proof.Machine.execAdmissionEvaluation s
  | .wakeComplete f => Sys2Proof.Machine.execWakeComplete f s
  | .wakeRelease f => Sys2Proof.Machine.execWakeRelease f s
  | .slopeReservationRelease f => Sys2Proof.Machine.execSlopeReservationRelease f s
  | .chargeExpiry => Sys2Proof.Machine.execChargeExpiry s
  | .neighbourCurrent f edge => Sys2Proof.Machine.execNeighbourCurrent f edge s
  | .deferralExpiry f => Sys2Proof.Machine.execDeferralExpiry f s
  | .phaseOpen f n => Sys2Proof.Machine.execPhaseOpen f n s
  | .leafSenseFail f n => Sys2Proof.Machine.execLeafSenseFail f n s
  | .phaseHealthClear f data => Sys2Proof.Machine.execPhaseHealthClear f data s
  | .autoBridgePolicy f => Sys2Proof.Machine.execAutoBridgePolicy f s
  | .drainStart f => Sys2Proof.Machine.execDrainStart f s
  | .drainComplete f edge => Sys2Proof.Machine.execDrainComplete f edge s
  | .sagDetect deep => Sys2Proof.Machine.execSagDetect deep s
  | .sagSignal f => Sys2Proof.Machine.execSagSignal f s
  | .sagEnd toSag => Sys2Proof.Machine.execSagEnd toSag s
  | .estMeasDisagree d => Sys2Proof.Machine.execEstMeasDisagree d s
  | .groupPeriodStart ev v cur => Sys2Proof.Machine.execGroupPeriodStart ev v cur s
  | .syncInEdge edge => Sys2Proof.Machine.execSyncInEdge edge s
  | .syncLock => Sys2Proof.Machine.execSyncLock s
  | .syncLoss => Sys2Proof.Machine.execSyncLoss s
  | .vrefSlewTick means => Sys2Proof.Machine.execVrefSlewTick means s
  | .vidWrite byHost g vid => Sys2Proof.Machine.execVidWrite byHost g vid s
  | .powerGoodRise g => Sys2Proof.Machine.execPowerGoodRise g s
  | .powerGoodLoss g => Sys2Proof.Machine.execPowerGoodLoss g s
  | .stageCheck n sw rail => Sys2Proof.Machine.execStageCheck n sw rail s
  | .shedEvaluation g ig => Sys2Proof.Machine.execShedEvaluation g ig s
  | .nminUpdate n => Sys2Proof.Machine.execNminUpdate n s
  | .zeroCurrentTrip ev => Sys2Proof.Machine.execZeroCurrentTrip ev s
  | .allStageFiring cross => Sys2Proof.Machine.execAllStageFiring cross s
  | .firingEnd ev recovered => Sys2Proof.Machine.execFiringEnd ev recovered s
  | .afHoldExpiry g => Sys2Proof.Machine.execAfHoldExpiry g s
  | .shortCircuitTrip trip => Sys2Proof.Machine.execShortCircuitTrip trip s
  | .hiccupOffExpiry n => Sys2Proof.Machine.execHiccupOffExpiry n s
  | .overloadFilterTick cur => Sys2Proof.Machine.execOverloadFilterTick cur s
  | .stageFaultLine now low => Sys2Proof.Machine.execStageFaultLine now low s
  | .inputUndervoltage => Sys2Proof.Machine.execInputUndervoltage s
  | .inputOvervoltage => Sys2Proof.Machine.execInputOvervoltage s
  | .inputRestart => Sys2Proof.Machine.execInputRestart s
  | .stageRestart n => Sys2Proof.Machine.execStageRestart n s
  | .stageStop n => Sys2Proof.Machine.execStageStop n s
  | .vpmRecordWrite temp => Sys2Proof.Machine.execVpmRecordWrite temp s
  | .lastfClear => Sys2Proof.Machine.execLastfClear s
  | .leafSample f raw volt ibr => Sys2Proof.Machine.execLeafSample f raw volt ibr s
  | .activityStrobe f a0 rest => Sys2Proof.Machine.execActivityStrobe f a0 rest s
  | .activityTimeout f => Sys2Proof.Machine.execActivityTimeout f s
  | .converged c => Sys2Proof.Machine.execConverged c s
  | .timerTrigger c => Sys2Proof.Machine.execTimerTrigger c s
  | .pwmEvent edge sel => Sys2Proof.Machine.execPwmEvent edge sel s
  | .pwmCancel edge sel => Sys2Proof.Machine.execPwmCancel edge sel s
  | .skipEvent edge sel => Sys2Proof.Machine.execSkipEvent edge sel s
  | .softTrigger c data => Sys2Proof.Machine.execSoftTrigger c data s
  | .windowTrigger w => Sys2Proof.Machine.execWindowTrigger w s
  | .converterSample c code => Sys2Proof.Machine.execConverterSample c code s
  | .burstComplete c => Sys2Proof.Machine.execBurstComplete c s
  | .dmaWordLands d => Sys2Proof.Machine.execDmaWordLands d s
  | .dmaEnable d data => Sys2Proof.Machine.execDmaEnable d data s
  | .dmaRdWrite d rd => Sys2Proof.Machine.execDmaRdWrite d rd s
  | .lcalItem => Sys2Proof.Machine.execLcalItem s
  | .lcalWindow sumRaw nRaw sumCode nCode bad => Sys2Proof.Machine.execLcalWindow sumRaw nRaw sumCode nCode bad s
  | .lcalFit => Sys2Proof.Machine.execLcalFit s
  | .lcalSweepWait => Sys2Proof.Machine.execLcalSweepWait s
  | .lcalCmd f => Sys2Proof.Machine.execLcalCmd f s
  | .thermalSample f codes => Sys2Proof.Machine.execThermalSample f codes s
  | .remoteSample m v dv => Sys2Proof.Machine.execRemoteSample m v dv s
  | .quarClear n => Sys2Proof.Machine.execQuarClear n s
  | .bandReport => Sys2Proof.Machine.execBandReport s
  | .tripSignal f => Sys2Proof.Machine.execTripSignal f s
  | .refreshFallHold k => Sys2Proof.Machine.execRefreshFallHold k s
  | .fhEnable en => Sys2Proof.Machine.execFhEnable en s
  | .forecastCycle => Sys2Proof.Machine.execForecastCycle s
  | .forecastRecordsSent reads => Sys2Proof.Machine.execForecastRecordsSent reads s
  | .forecastRecord d f edge => Sys2Proof.Machine.execForecastRecord d f edge s
  | .fhInputRecord f => Sys2Proof.Machine.execFhInputRecord f s
  | .hintToken src w => Sys2Proof.Machine.execHintToken src w s
  | .jobBegin => Sys2Proof.Machine.execJobBegin s
  | .jobEnd => Sys2Proof.Machine.execJobEnd s
  | .modelCheck slot wide => Sys2Proof.Machine.execModelCheck slot wide s
  | .modelSwitch slot wide => Sys2Proof.Machine.execModelSwitch slot wide s
  | .modelCheckDone reads => Sys2Proof.Machine.execModelCheckDone reads s
  | .telemetryRecord f => Sys2Proof.Machine.execTelemetryRecord f s
  | .budgetPeriod => Sys2Proof.Machine.execBudgetPeriod s
  | .currentReport => Sys2Proof.Machine.execCurrentReport s
  | .cutRequest k => Sys2Proof.Machine.execCutRequest k s
  | .energyRecord k => Sys2Proof.Machine.execEnergyRecord k s
  | .cutTimeout => Sys2Proof.Machine.execCutTimeout s
  | .domainEnable n cls => Sys2Proof.Machine.execDomainEnable n cls s
  | .retentionRequest n prio => Sys2Proof.Machine.execRetentionRequest n prio s
  | .retentionWithdraw n => Sys2Proof.Machine.execRetentionWithdraw n s
  | .domainActive n => Sys2Proof.Machine.execDomainActive n s
  | .topkScan metric dir excl => Sys2Proof.Machine.execTopkScan metric dir excl s
  | .topkScanDone => Sys2Proof.Machine.execTopkScanDone s
  | .codewordReceived l cnt lane ffo data parity => Sys2Proof.Machine.execCodewordReceived l cnt lane ffo data parity s
  | .laneReacquire l => Sys2Proof.Machine.execLaneReacquire l s
  | .beaconSend => Sys2Proof.Machine.execBeaconSend s
  | .beacon lane b => Sys2Proof.Machine.execBeacon lane b s
  | .beaconTimeout l => Sys2Proof.Machine.execBeaconTimeout l s
  | .oeFault => Sys2Proof.Machine.execOeFault s
  | .oeFaultClear => Sys2Proof.Machine.execOeFaultClear s
  | .oePresentChange present => Sys2Proof.Machine.execOePresentChange present s
  | .joinSend => Sys2Proof.Machine.execJoinSend s
  | .join lane b => Sys2Proof.Machine.execJoin lane b s
  | .assign lane b => Sys2Proof.Machine.execAssign lane b s
  | .joinTimeout => Sys2Proof.Machine.execJoinTimeout s
  | .fullRetryExpiry => Sys2Proof.Machine.execFullRetryExpiry s
  | .renewSend => Sys2Proof.Machine.execRenewSend s
  | .renew lane b => Sys2Proof.Machine.execRenew lane b s
  | .idLeaseExpiry id => Sys2Proof.Machine.execIdLeaseExpiry id s
  | .routeAdvertise => Sys2Proof.Machine.execRouteAdvertise s
  | .route lane b => Sys2Proof.Machine.execRoute lane b s
  | .routeExpiry block id => Sys2Proof.Machine.execRouteExpiry block id s
  | .leasePeriod n => Sys2Proof.Machine.execLeasePeriod n s
  | .candidate lane b => Sys2Proof.Machine.execCandidate lane b s
  | .report lane b => Sys2Proof.Machine.execReport lane b s
  | .grant lane b edge => Sys2Proof.Machine.execGrant lane b edge s
  | .ceiling lane b => Sys2Proof.Machine.execCeiling lane b s
  | .leaseExpiry n => Sys2Proof.Machine.execLeaseExpiry n s
  | .leaseFallTick n => Sys2Proof.Machine.execLeaseFallTick n s
  | .regRd lane b => Sys2Proof.Machine.execRegRd lane b s
  | .regWr lane b => Sys2Proof.Machine.execRegWr lane b s
  | .regRsp lane b => Sys2Proof.Machine.execRegRsp lane b s
  | .capture lane b => Sys2Proof.Machine.execCapture lane b s
  | .keyLoad slot gen => Sys2Proof.Machine.execKeyLoad slot gen s
  | .faultRaise src unit detail => Sys2Proof.Machine.execFaultRaise src unit detail s
  | .level3CapSignal f => Sys2Proof.Machine.execLevel3CapSignal f s
  | .chipActionSignal f => Sys2Proof.Machine.execChipActionSignal f s
  | .chipDrainExpiry => Sys2Proof.Machine.execChipDrainExpiry s
  | .faultAck edge => Sys2Proof.Machine.execFaultAck edge s
  | .firstLatchClear => Sys2Proof.Machine.execFirstLatchClear s
  | .level2WindowExpiry k => Sys2Proof.Machine.execLevel2WindowExpiry k s
  | .faultForce k data => Sys2Proof.Machine.execFaultForce k data s
  | .selfTestVerdict src unit verdict detail => Sys2Proof.Machine.execSelfTestVerdict src unit verdict detail s
  | .aliveToggle => Sys2Proof.Machine.execAliveToggle s
  | .aliveRestart data => Sys2Proof.Machine.execAliveRestart data s
  | .faultRecordNvmWrite => Sys2Proof.Machine.execFaultRecordNvmWrite s
  | .faultNvmClear => Sys2Proof.Machine.execFaultNvmClear s
  | .takeoverComplete => Sys2Proof.Machine.execTakeoverComplete s
  | .journalEntry => Sys2Proof.Machine.execJournalEntry s
  | .journalAck edge => Sys2Proof.Machine.execJournalAck edge s
  | .ackTimeout => Sys2Proof.Machine.execAckTimeout s
  | .stateDigest corrupt => Sys2Proof.Machine.execStateDigest corrupt s
  | .resyncComplete => Sys2Proof.Machine.execResyncComplete s
  | .mossWrite m off data => Sys2Proof.Machine.execMossWrite m off data s
  | .mossBitSet m off data ecc => Sys2Proof.Machine.execMossBitSet m off data ecc s
  | .mossBitClear m off data ecc => Sys2Proof.Machine.execMossBitClear m off data ecc s
  | .bankHandover b owner => Sys2Proof.Machine.execBankHandover b owner s
  | .bankRetention b => Sys2Proof.Machine.execBankRetention b s
  | .bankWakeComplete b cycles => Sys2Proof.Machine.execBankWakeComplete b cycles s
  | .scrub ecc waits => Sys2Proof.Machine.execScrub ecc waits s
  | .imageProgram slot len => Sys2Proof.Machine.execImageProgram slot len s
  | .imageVerify slot => Sys2Proof.Machine.execImageVerify slot s
  | .imageActivate slot => Sys2Proof.Machine.execImageActivate slot s
  | .imageConfirm slot => Sys2Proof.Machine.execImageConfirm slot s
  | .svnCommit slot => Sys2Proof.Machine.execSvnCommit slot s
  | .flashOpComplete bad => Sys2Proof.Machine.execFlashOpComplete bad s
  | .replan => Sys2Proof.Machine.execReplan s
  | .replanCmd => Sys2Proof.Machine.execReplanCmd s
  | .measureOnly => Sys2Proof.Machine.execMeasureOnly s
  | .rebuildBaseline => Sys2Proof.Machine.execRebuildBaseline s
  | .canaryMeasurement f vals => Sys2Proof.Machine.execCanaryMeasurement f vals s
  | .measureRetry => Sys2Proof.Machine.execMeasureRetry s
  | .lifetimeTick => Sys2Proof.Machine.execLifetimeTick s
  | .lifetimeFlush => Sys2Proof.Machine.execLifetimeFlush s
  | .recordRead area pos moff => Sys2Proof.Machine.execRecordRead area pos moff s
  | .hostRequest we addr data path => Sys2Proof.Machine.execHostRequest we addr data path s
  | .registerWrite addr data => Sys2Proof.Machine.execRegisterWrite addr data s
  | .hostAccessTimeout => Sys2Proof.Machine.execHostAccessTimeout s
  | .hostResponseTaken => Sys2Proof.Machine.execHostResponseTaken s
  | .islandRestart k => Sys2Proof.Machine.execIslandRestart k s
  | .restartHeartbeat => Sys2Proof.Machine.execRestartHeartbeat s
  | .restartTimeout => Sys2Proof.Machine.execRestartTimeout s
  | .clearFaults pec => Sys2Proof.Machine.execClearFaults pec s
  | .capability => Sys2Proof.Machine.execCapability s
  | .statusByte => Sys2Proof.Machine.execStatusByte s
  | .statusWord => Sys2Proof.Machine.execStatusWord s
  | .statusCml => Sys2Proof.Machine.execStatusCml s
  | .readVin => Sys2Proof.Machine.execReadVin s
  | .readIin => Sys2Proof.Machine.execReadIin s
  | .readTemperature1 => Sys2Proof.Machine.execReadTemperature1 s
  | .readPout => Sys2Proof.Machine.execReadPout s
  | .readPin => Sys2Proof.Machine.execReadPin s
  | .pmbusRevision => Sys2Proof.Machine.execPmbusRevision s
  | .mfrId => Sys2Proof.Machine.execMfrId s
  | .mfrModel => Sys2Proof.Machine.execMfrModel s
  | .mfrRevision => Sys2Proof.Machine.execMfrRevision s
  | .mfrSupplyLimit w pec => Sys2Proof.Machine.execMfrSupplyLimit w pec s
  | .mfrSiteCeiling w pec => Sys2Proof.Machine.execMfrSiteCeiling w pec s
  | .mfrReadEnergy => Sys2Proof.Machine.execMfrReadEnergy s
  | .mfrFaultFirst => Sys2Proof.Machine.execMfrFaultFirst s
  | .pmbusUnsupported code => Sys2Proof.Machine.execPmbusUnsupported code s
  | .alertResponse => Sys2Proof.Machine.execAlertResponse s
  | .tapReset => Sys2Proof.Machine.execTapReset s
  | .idcode mfr => Sys2Proof.Machine.execIdcode mfr s
  | .bypass op => Sys2Proof.Machine.execBypass op s
  | .extest sampled shifted => Sys2Proof.Machine.execExtest sampled shifted s
  | .samplePreload sampled shifted => Sys2Proof.Machine.execSamplePreload sampled shifted s
  | .dbgRd addr => Sys2Proof.Machine.execDbgRd addr s
  | .lossOfSignal l high => Sys2Proof.Machine.execLossOfSignal l high s
  | .flashAccessTimeout => Sys2Proof.Machine.execFlashAccessTimeout s

end Sys2Proof.Machine
end

