-- ==== Sys2Proof/WellFormed.lean ====
section
/-! DEFINITION. WellFormed.lean: the ranges of the operands that their types do not bound: frond and phase numbers (R1), instruction-memory words (Table 3-10), streams (R25)
and the lengths of sampled vectors. A meaning is total: outside these ranges it does nothing, or takes 0 for a missing sample. -/
namespace Sys2Proof

/-- A frond number of the largest member (R1). -/
def frondNo (f : Nat) : Bool := decide (f < 64)

/-- A phase number of the largest member (R1). -/
def phaseNo (n : Nat) : Bool := decide (n < 32)

/-- A sampled vector has one value for each of its n sources. -/
def sizeIs {α : Type} (n : Nat) (l : List α) : Bool := l.length == n

/-- A stream exists (R25). -/
def streamNo : StreamId → Bool
  | .frond f => frondNo f
  | .queue _ _ => true

/-- Fetched words are words of the instruction memory (R82). -/
def fetchNo (l : List (Nat × Ecc)) : Bool := l.all fun p => decide (p.1 < 4096)

/-- A command whose operands the block can carry. -/
def Instr.wf (i : Instr) : Bool :=
  match i with
  | .resetAssert => true
  | .resetRelease _ _ _ _ => true
  | .frondOnBroadcast => true
  | .imageRead _ _ => true
  | .imageApply _ => true
  | .sporeExit => true
  | .refClkAbsent => true
  | .refClkReturn => true
  | .heartbeatToggle _ _ => true
  | .islandStopped _ => true
  | .phaseHighImpedance f n => frondNo f && phaseNo n
  | .streamResetHandshake x => streamNo x
  | .commandResend x => streamNo x
  | .queueWord _ _ _ _ _ _ => true
  | .islandProbe _ _ => true
  | .probeSnapshotArrives _ _ _ => true
  | .probeTimeout _ => true
  | .queueProbe _ _ => true
  | .slotBoundary f => frondNo f
  | .slotOverrun f => frondNo f
  | .groupDispatch f l => frondNo f && fetchNo l
  | .resultWriteLands f => frondNo f
  | .nop f _ => frondNo f
  | .add f _ => frondNo f
  | .sub f _ => frondNo f
  | .sbs f _ => frondNo f
  | .adf f _ => frondNo f
  | .intg f _ => frondNo f
  | .intgf f _ => frondNo f
  | .min f _ => frondNo f
  | .max f _ => frondNo f
  | .and f _ => frondNo f
  | .or f _ => frondNo f
  | .xor f _ => frondNo f
  | .andn f _ => frondNo f
  | .sll f _ => frondNo f
  | .srl f _ => frondNo f
  | .sra f _ => frondNo f
  | .cmp f _ => frondNo f
  | .sel f _ => frondNo f
  | .bnd f _ => frondNo f
  | .bfy f _ => frondNo f
  | .imul f _ => frondNo f
  | .qmul f _ => frondNo f
  | .qmac f _ => frondNo f
  | .addi f _ => frondNo f
  | .movi f _ => frondNo f
  | .tst f _ => frondNo f
  | .seli f _ => frondNo f
  | .ext f _ => frondNo f
  | .badd f _ => frondNo f
  | .bsub f _ => frondNo f
  | .bmul f _ => frondNo f
  | .bmac f _ => frondNo f
  | .bcvt f _ => frondNo f
  | .bcvi f _ => frondNo f
  | .stg f _ => frondNo f
  | .nrm f _ => frondNo f
  | .xsh f _ => frondNo f
  | .rsh f _ => frondNo f
  | .bcl f _ => frondNo f
  | .red f _ => frondNo f
  | .msk f _ => frondNo f
  | .mand f _ => frondNo f
  | .mnot f _ => frondNo f
  | .mall f _ => frondNo f
  | .brs f _ => frondNo f
  | .brc f _ => frondNo f
  | .brz f _ => frondNo f
  | .drv f _ => frondNo f
  | .tel f _ => frondNo f
  | .bxw f _ => frondNo f
  | .frondCommand f _ => frondNo f
  | .commandAck _ _ => true
  | .remoteUpdate f => frondNo f
  | .bxRecord f => frondNo f
  | .groupBind _ _ _ => true
  | .groupUnbind _ _ _ => true
  | .samplePeriodWrite _ _ => true
  | .scalarPush _ => true
  | .programLoad _ _ => true
  | .programLoadDone _ => true
  | .coreHalt _ _ => true
  | .coreRun _ _ => true
  | .coreStep _ _ _ => true
  | .imemWrite _ _ _ => true
  | .ibusOptPeriod duty => sizeIs 64 duty
  | .guardTripPositive f n => frondNo f && phaseNo n
  | .guardRelease f n => frondNo f && phaseNo n
  | .guardTripNegative f n => frondNo f && phaseNo n
  | .negativeCurrentReturn f n => frondNo f && phaseNo n
  | .phaseOvercurrentRun f n => frondNo f && phaseNo n
  | .zcdCutoff f n => frondNo f && phaseNo n
  | .railOvervoltage f => frondNo f
  | .railOvRelease f => frondNo f
  | .bridgeClose _ _ => true
  | .bridgeOpen _ _ => true
  | .bridgeClosed f _ _ _ => frondNo f
  | .bridgeCloseAbort f _ => frondNo f
  | .bridgeHwOpen f _ _ => frondNo f
  | .bridgeFwOpen f _ _ => frondNo f
  | .saturationTrip f => frondNo f
  | .injectionGo _ _ => true
  | .injectionStop _ _ => true
  | .injectionEnd f => frondNo f
  | .setpointVoltage _ _ => true
  | .setpointFrequency _ _ => true
  | .profileTick f => frondNo f
  | .on _ => true
  | .dark _ => true
  | .darkWaitExpiry f => frondNo f
  | .softStartGrant f => frondNo f
  | .softStartComplete f => frondNo f
  | .retryWaitExpiry f => frondNo f
  | .perfModeFree _ => true
  | .perfModeFixed _ => true
  | .perfModeBounded _ => true
  | .perfFallback _ => true
  | .perfReturn => true
  | .wakeRequest f => frondNo f
  | .admissionEvaluation => true
  | .wakeComplete f => frondNo f
  | .wakeRelease f => frondNo f
  | .slopeReservationRelease f => frondNo f
  | .chargeExpiry => true
  | .neighbourCurrent f _ => frondNo f
  | .deferralExpiry f => frondNo f
  | .phaseOpen f n => frondNo f && phaseNo n
  | .leafSenseFail f n => frondNo f && phaseNo n
  | .phaseHealthClear _ _ => true
  | .autoBridgePolicy f => frondNo f
  | .drainStart f => frondNo f
  | .drainComplete f _ => frondNo f
  | .sagDetect _ => true
  | .sagSignal f => frondNo f
  | .sagEnd _ => true
  | .estMeasDisagree _ => true
  | .groupPeriodStart _ _ cur => sizeIs 48 cur
  | .syncInEdge e => sizeIs 8 e.offs
  | .syncLock => true
  | .syncLoss => true
  | .vrefSlewTick m => sizeIs 8 m.rails
  | .vidWrite _ _ _ => true
  | .powerGoodRise _ => true
  | .powerGoodLoss _ => true
  | .stageCheck _ _ _ => true
  | .shedEvaluation _ _ => true
  | .nminUpdate _ => true
  | .zeroCurrentTrip _ => true
  | .allStageFiring _ => true
  | .firingEnd _ _ => true
  | .afHoldExpiry _ => true
  | .shortCircuitTrip _ => true
  | .hiccupOffExpiry _ => true
  | .overloadFilterTick cur => sizeIs 48 cur
  | .stageFaultLine _ _ => true
  | .inputUndervoltage => true
  | .inputOvervoltage => true
  | .inputRestart => true
  | .stageRestart _ => true
  | .stageStop _ => true
  | .vpmRecordWrite _ => true
  | .lastfClear => true
  | .leafSample f raw volt _ => frondNo f && sizeIs 32 raw && sizeIs 4 volt
  | .activityStrobe f _ _ => frondNo f
  | .activityTimeout f => frondNo f
  | .converged _ => true
  | .timerTrigger _ => true
  | .pwmEvent _ _ => true
  | .pwmCancel _ _ => true
  | .skipEvent _ _ => true
  | .softTrigger _ _ => true
  | .windowTrigger _ => true
  | .converterSample _ _ => true
  | .burstComplete _ => true
  | .dmaWordLands _ => true
  | .dmaEnable _ _ => true
  | .dmaRdWrite _ _ => true
  | .lcalItem => true
  | .lcalWindow _ _ _ _ _ => true
  | .lcalFit => true
  | .lcalSweepWait => true
  | .lcalCmd _ => true
  | .thermalSample f codes => frondNo f && sizeIs 4 codes
  | .remoteSample _ _ _ => true
  | .quarClear _ => true
  | .bandReport => true
  | .tripSignal f => frondNo f
  | .refreshFallHold _ => true
  | .fhEnable _ => true
  | .forecastCycle => true
  | .forecastRecordsSent _ => true
  | .forecastRecord _ f _ => frondNo f
  | .fhInputRecord f => frondNo f
  | .hintToken _ _ => true
  | .jobBegin => true
  | .jobEnd => true
  | .modelCheck _ _ => true
  | .modelSwitch _ _ => true
  | .modelCheckDone _ => true
  | .telemetryRecord f => frondNo f
  | .budgetPeriod => true
  | .currentReport => true
  | .cutRequest _ => true
  | .energyRecord _ => true
  | .cutTimeout => true
  | .domainEnable _ _ => true
  | .retentionRequest _ _ => true
  | .retentionWithdraw _ => true
  | .domainActive _ => true
  | .topkScan _ _ _ => true
  | .topkScanDone => true
  | .codewordReceived _ _ _ _ data parity => sizeIs 512 data && sizeIs 30 parity
  | .laneReacquire _ => true
  | .beaconSend => true
  | .beacon _ _ => true
  | .beaconTimeout _ => true
  | .oeFault => true
  | .oeFaultClear => true
  | .oePresentChange _ => true
  | .joinSend => true
  | .join _ _ => true
  | .assign _ _ => true
  | .joinTimeout => true
  | .fullRetryExpiry => true
  | .renewSend => true
  | .renew _ _ => true
  | .idLeaseExpiry _ => true
  | .routeAdvertise => true
  | .route _ _ => true
  | .routeExpiry _ _ => true
  | .leasePeriod _ => true
  | .candidate _ _ => true
  | .report _ _ => true
  | .grant _ _ _ => true
  | .ceiling _ _ => true
  | .leaseExpiry _ => true
  | .leaseFallTick _ => true
  | .regRd _ _ => true
  | .regWr _ _ => true
  | .regRsp _ _ => true
  | .capture _ _ => true
  | .keyLoad _ _ => true
  | .faultRaise _ _ _ => true
  | .level3CapSignal f => frondNo f
  | .chipActionSignal f => frondNo f
  | .chipDrainExpiry => true
  | .faultAck _ => true
  | .firstLatchClear => true
  | .level2WindowExpiry _ => true
  | .faultForce _ _ => true
  | .selfTestVerdict _ _ _ _ => true
  | .aliveToggle => true
  | .aliveRestart _ => true
  | .faultRecordNvmWrite => true
  | .faultNvmClear => true
  | .takeoverComplete => true
  | .journalEntry => true
  | .journalAck _ => true
  | .ackTimeout => true
  | .stateDigest _ => true
  | .resyncComplete => true
  | .mossWrite _ _ _ => true
  | .mossBitSet _ _ _ _ => true
  | .mossBitClear _ _ _ _ => true
  | .bankHandover _ _ => true
  | .bankRetention _ => true
  | .bankWakeComplete _ _ => true
  | .scrub _ _ => true
  | .imageProgram _ _ => true
  | .imageVerify _ => true
  | .imageActivate _ => true
  | .imageConfirm _ => true
  | .svnCommit _ => true
  | .flashOpComplete _ => true
  | .replan => true
  | .replanCmd => true
  | .measureOnly => true
  | .rebuildBaseline => true
  | .canaryMeasurement f _ => frondNo f
  | .measureRetry => true
  | .lifetimeTick => true
  | .lifetimeFlush => true
  | .recordRead _ _ _ => true
  | .hostRequest _ _ _ _ => true
  | .registerWrite _ _ => true
  | .hostAccessTimeout => true
  | .hostResponseTaken => true
  | .islandRestart _ => true
  | .restartHeartbeat => true
  | .restartTimeout => true
  | .clearFaults _ => true
  | .capability => true
  | .statusByte => true
  | .statusWord => true
  | .statusCml => true
  | .readVin => true
  | .readIin => true
  | .readTemperature1 => true
  | .readPout => true
  | .readPin => true
  | .pmbusRevision => true
  | .mfrId => true
  | .mfrModel => true
  | .mfrRevision => true
  | .mfrSupplyLimit _ _ => true
  | .mfrSiteCeiling _ _ => true
  | .mfrReadEnergy => true
  | .mfrFaultFirst => true
  | .pmbusUnsupported _ => true
  | .alertResponse => true
  | .tapReset => true
  | .idcode _ => true
  | .bypass _ => true
  | .extest _ _ => true
  | .samplePreload _ _ => true
  | .dbgRd _ => true
  | .lossOfSignal _ _ => true
  | .flashAccessTimeout => true

end Sys2Proof
end

