-- ==== Sys2Proof/Safety.lean ====
section
/-! DEFINITION. Safety.lean: what a safe run is, and the invariant that every step keeps. -/
namespace Sys2Proof.Machine

/-- A step neither faults nor is refused. -/
def StepsOn (s : State) : Prop := ∃ t, step s = .next t

/-- n steps from s run without a fault or a refusal. -/
def SafeRun : Nat → State → Prop
  | 0, _ => True
  | n + 1, s => ∃ t, step s = .next t ∧ SafeRun n t

/-- R1, R2: the members of the family: 1 to 64 fronds on a grid of at most eight columns, 8, 16 or 32 phases. -/
def Member.legal (m : Member) : Bool := decide (1 ≤ m.fronds ∧ m.fronds ≤ 64) && decide (gridW m.fronds ≤ 8) && (m.phases == 8 || m.phases == 16 || m.phases == 32)

/-- The state of a member of the family. -/
def Inv (s : State) : Prop := s.member.legal = true ∧ reg s RZ_ID = BitVec.ofNat 64 (idWord s.member)

end Sys2Proof.Machine
end

