-- ==== Sys2Proof/Certificates/Slice0/Obligations.lean ====
section
/-! DEFINITION. Certificates/Slice0/Obligations.lean: the statements for the provers. -/
open Sys2Proof Sys2Proof.Machine

/-! ### Words that the statements share -/

/-- The command answers a next state, and that state satisfies P. -/
def Sys2Proof.Claims.Gives (i : Instr) (s : State) (P : State → Prop) : Prop := ∃ t, exec i s = .next t ∧ P t

/-- Nothing but frond f's page of the register map, its core and the raises in flight has changed. -/
def Sys2Proof.Claims.InFrond (f : Nat) (s t : State) : Prop :=
  t = { s with regs := t.regs, fronds := t.fronds, flt := t.flt } ∧ (∀ g, g ≠ f → fr t g = fr s g) ∧ ∀ a, a / 0x10000 ≠ 0x10 + f → reg t a = reg s a

/-- A raise of source c has left for the fault collector, and no other. -/
def Sys2Proof.Claims.Raised (c : Nat) (u : Option Nat) (d i : Nat) (s t : State) : Prop := t.flt = { s.flt with raises := s.flt.raises ++ [⟨c, u, d, i, false⟩] }

open Sys2Proof.Claims

/-! ### Phase cells and rails (spec/02_power_path.md, spec/06_hysteretic_regulation.md, spec/08_hard_cases.md) -/

/-- R42 to R44, R19, R75, R179 to R181: what the guard comparators, the zero-current comparator, the strobe watch and the detection of lost phases do to phase n of frond f, and that nothing outside
frond f changes. A failed leaf sense is declared at the frond's next boundary.
The model's choices and readings in it: log entries 3 and 35. -/
def Obligations.PhaseCellEvents : Prop := ∀ (s : State) (f n : Nat), hasPhase s f n = true → n < 32 →
  (Gives (.guardTripPositive f n) s fun t =>
    (phaseOf (fr t f) n).st = 2 ∧ (phaseOf (fr t f) n).posHold = true ∧ bitOf (fget t (FR_GUARD_STAT_TRIPPED f)) n = true ∧ InFrond f s t ∧ t.flt = s.flt) ∧
  ((phaseOf (fr s f) n).posHold = true → Gives (.guardRelease f n) s fun t =>
    (phaseOf (fr t f) n).posHold = false ∧ (phaseOf (fr t f) n).st = (phaseOf (fr s f) n).st ∧ InFrond f s t ∧ t.regs = s.regs ∧ t.flt = s.flt) ∧
  (Gives (.guardTripNegative f n) s fun t =>
    (phaseOf (fr t f) n).st = 0 ∧ (phaseOf (fr t f) n).negHold = true ∧ bitOf (fget t (FR_GUARD_STAT_TRIPPED f)) n = true ∧ InFrond f s t ∧ t.flt = s.flt) ∧
  ((phaseOf (fr s f) n).negHold = true → Gives (.negativeCurrentReturn f n) s fun t =>
    (phaseOf (fr t f) n).negHold = false ∧ (phaseOf (fr t f) n).st = (phaseOf (fr s f) n).st ∧ InFrond f s t ∧ t.regs = s.regs ∧ t.flt = s.flt) ∧
  ((phaseOf (fr s f) n).st = 2 → flag s (FR_LAW_STAT_DE f) = true ∨ bitOf (phaseOf (fr s f) n).latched 6 = true → Gives (.zcdCutoff f n) s fun t =>
    (phaseOf (fr t f) n).st = 0 ∧ InFrond f s t ∧ t.regs = s.regs ∧ t.flt = s.flt) ∧
  (Gives (.phaseHighImpedance f n) s fun t =>
    (phaseOf (fr t f) n).hiz = true ∧ (phaseOf (fr t f) n).st = 0 ∧ InFrond f s t ∧ t.regs = s.regs ∧ t.flt = s.flt) ∧
  ((phaseOf (fr s f) n).ocDue = true → Gives (.phaseOvercurrentRun f n) s fun t =>
    (phaseOf (fr t f) n).ocDue = false ∧ Raised 0x28 (some f) n f s t ∧ InFrond f s t ∧ t.regs = s.regs) ∧
  (fget s (FR_DEGRADE_CFG_OPEN_RUN f) ≤ (phaseOf (fr s f) n).openRun → bitOf (fget s (FR_PHASE_HEALTH_OPEN f)) n = false →
    Gives (.phaseOpen f n) s fun t => bitOf (fget t (FR_PHASE_HEALTH_OPEN f)) n = true ∧
      (∀ m, m ≠ n → m < 32 → bitOf (fget t (FR_PHASE_HEALTH_OPEN f)) m = bitOf (fget s (FR_PHASE_HEALTH_OPEN f)) m) ∧ Raised 0x2C (some f) n f s t ∧ InFrond f s t) ∧
  (fget s (FR_DEGRADE_CFG_SENSE_RUN f) ≤ (phaseOf (fr s f) n).stuck → bitOf (fget s (FR_PHASE_HEALTH_SENSE_FAIL f)) n = false →
    Gives (.leafSenseFail f n) s fun t => bitOf (fr t f).senseDue n = true ∧ (∀ m, m ≠ n → bitOf (fr t f).senseDue m = bitOf (fr s f).senseDue m) ∧ InFrond f s t ∧ t.regs = s.regs ∧ t.flt = s.flt) ∧
  ((fr s f).senseDue = 2 ^ n → bitOf (fget s (FR_PHASE_HEALTH_SENSE_FAIL f)) n = false →
    bitOf (fget (bndSense s f) (FR_PHASE_HEALTH_SENSE_FAIL f)) n = true ∧ (fr (bndSense s f) f).senseDue = 0 ∧ Raised 0x38 (some f) n f s (bndSense s f))

/-- R45, R72, R140, R164, R412: what a frond core does on an activity strobe or its absence, on a slot overrun, on a saturation trip outside and inside Soft start, and on an overvoltage crossing and
its release: a crossing turns the high sides of the partner of a bridge off too.
The model's choices and readings in it: log entries 3 and 112. -/
def Obligations.FrondCoreEvents : Prop := ∀ (s : State) (f : Nat), hasF s f = true →
  (∀ (a0 : BitVec 7) (rest : List (BitVec 8)), answers s f = true → Gives (.activityStrobe f a0 rest) s fun t =>
    (fr t f).gov.a0Sum = (fr s f).gov.a0Sum + min a0.toNat 64 ∧ (fr t f).gov.a0N = (fr s f).gov.a0N + 1 ∧ InFrond f s t ∧ t.regs = s.regs ∧ t.flt = s.flt) ∧
  (answers s f = true → Gives (.activityTimeout f) s fun t =>
    (fr t f).gov.a0Sum = (fr s f).gov.a0Sum ∧ (fr t f).gov.a0N = (fr s f).gov.a0N + 1 ∧ InFrond f s t ∧ t.regs = s.regs ∧ t.flt = s.flt) ∧
  ((fr s f).ovrDue = true → Gives (.slotOverrun f) s fun t =>
    (fr t f).ovrDue = false ∧ Raised 0x30 (some f) (fget s (FR_CORE_STAT_LAST_CUT f)) f s t ∧ InFrond f s t ∧ t.regs = s.regs) ∧
  ((fr s f).law.satDue = true → railSt s f ≠ 2 → Gives (.saturationTrip f) s fun t =>
    (fr t f).law.satDue = false ∧ Raised 0x2A (some f) 0 f s t ∧ InFrond f s t) ∧
  ((fr s f).law.satDue = true → railSt s f = 2 → Gives (.saturationTrip f) s fun t =>
    (fr t f).rail.abortDue = true ∧ InFrond f s t ∧ t.flt = s.flt) ∧
  ((fr s f).ovOwn = false → Gives (.railOvervoltage f) s fun t =>
    (fr t f).ovOwn = true ∧ (fr t f).ovDue = true ∧ (∀ g ∈ pairOf s f, ∀ n, n < nP s → (phaseOf (fr t g) n).st ≠ 1) ∧ (∀ g, g ∉ pairOf s f → fr t g = fr s g) ∧
    t = { s with fronds := t.fronds }) ∧
  ((fr s f).ovOwn = true → Gives (.railOvRelease f) s fun t => (fr t f).ovOwn = false ∧ InFrond f s t ∧ t.regs = s.regs ∧ t.flt = s.flt)

/-! ### Frond cores: commands, signals, rails (spec/03_frond_core.md, spec/07_setpoints_profiles.md) -/

/-- No access and no committed entry waits, the active Rhizome runs with its standby in sync, and no takeover is in progress. -/
def Sys2Proof.Claims.Quiet (s : State) : Prop :=
  s.bus.ready = [] ∧ s.bus.queue = [] ∧ s.bus.cur = none ∧ s.bus.lost = [] ∧ answers s (activeIsl s) = true ∧ inTakeover s = false ∧ inSync s = true ∧ s.chip.rst = false

/-- The journal entry of an operation has left for the standby and waits for its acknowledgement; no operation has acted. -/
def Sys2Proof.Claims.Journalled (op : JOp) (wait : Bool) (s t : State) : Prop :=
  t.bus.jSeq = s.bus.jSeq + 1 ∧ t.bus.jAir = s.bus.jAir ++ [entryOf s op wait] ∧ t.bus.jWait = s.bus.jWait ++ [entryOf s op wait] ∧ t.bus.ready = []

/-- R22, R23, R186, R251, R339, R340, R78: an update or signal that arrives at frond core f, the first of its kind that no earlier one of its sender precedes, waits for the frond's next boundary behind
those that have arrived before, and nothing else changes.
The model's choices and readings in it: log entry 36. -/
def Obligations.SignalsWaitForTheBoundary : Prop := ∀ (s : State) (f : Nat) (m : FMsg) (rest : List FMsg), hasF s f = true → answers s f = true →
  let arrives := fun (i : Instr) => Gives i s fun t => (fr t f).inbox = (fr s f).inbox ++ [(0, m)] ∧ (fr t f).upd = rest ∧ InFrond f s t ∧ t.regs = s.regs ∧ t.flt = s.flt
  (takeUpd isCap3 [] (fr s f).upd = some (m, rest) → arrives (.level3CapSignal f)) ∧
  (takeUpd isChipSig [] (fr s f).upd = some (m, rest) → arrives (.chipActionSignal f)) ∧
  (takeUpd isSagSig [] (fr s f).upd = some (m, rest) → arrives (.sagSignal f)) ∧
  (takeUpd isTripSig [] (fr s f).upd = some (m, rest) → arrives (.tripSignal f)) ∧
  (takeUpd isPlainUpd [] (fr s f).upd = some (m, rest) → arrives (.remoteUpdate f)) ∧
  (takeUpd isBx [] (fr s f).upd = some (m, rest) → Gives (.bxRecord f) s fun t =>
    (fr t f).inbox = (fr s f).inbox ++ [(0, m)] ∧ (fr t f).upd = rest ∧ (∀ g, g ≠ f → fr t g = fr s g) ∧ t.regs = s.regs ∧ t.bus = s.bus)

/-- R27, R77, R79, R88: the command that carries the expected number is checked and acknowledged with its outcome, and waits for the boundary only if it is accepted; a command out of sequence is
dropped unanswered; a scalar push or cap word travels as a command too, and arrives as a remote update.
The model's choices and readings in it: log entries 23 and 36. -/
def Obligations.FrondCommandInOrder : Prop := ∀ (s : State) (f : Nat) (c : FCmd) (rest : List FCmd), hasF s f = true → answers s f = true → (fr s f).air = c :: rest →
  let s1 := updFr s f fun x => { x with air := rest }
  let ack := fun ok : Bool => ({ isl := f, ok := ok, wait := c.wait, cmd := some c } : Ack)
  let due := c.seq % 2 ^ 32 = (fr s f).exp % 2 ^ 32
  (due → cmdRefused s1 f c.msg = false → Gives (.frondCommand f .clean) s fun t =>
    (fr t f).inbox = (fr s f).inbox ++ [(c.seq, c.msg)] ∧ (fr t f).exp = (fr s f).exp + 1 ∧ t.bus.acks = s.bus.acks ++ [ack true] ∧ t.regs = s.regs ∧ t.flt = s.flt) ∧
  (due → cmdRefused s1 f c.msg = true → Gives (.frondCommand f .clean) s fun t =>
    (fr t f).inbox = (fr s f).inbox ∧ (fr t f).exp = (fr s f).exp + 1 ∧ t.bus.acks = s.bus.acks ++ [ack false] ∧ t.regs = s.regs ∧ t.flt = s.flt) ∧
  (¬ due → Gives (.frondCommand f .clean) s fun t =>
    (fr t f).air = rest ∧ (fr t f).inbox = (fr s f).inbox ∧ (fr t f).exp = (fr s f).exp ∧ InFrond f s t ∧ t.regs = s.regs ∧ t.flt = s.flt) ∧
  (due → isScalarCmd c.msg = true → takeUpd isPlainUpd [] (fr s f).upd = none → Gives (.remoteUpdate f) s fun t =>
    (fr t f).air = rest ∧ (fr t f).inbox = (fr s f).inbox ++ [(c.seq, c.msg)] ∧ (fr t f).exp = (fr s f).exp + 1 ∧ t.bus.acks = s.bus.acks ++ [ack true] ∧ t.regs = s.regs ∧ t.flt = s.flt)

/-- R67, R73, R127, R159, R165, R292: what a boundary publishes is what the profile and the governor hold; a leaf sample adds one to the slot's sample counts; a profile tick forms the next code
or lets one tick of the FDROP_WAIT pass; an injection ends with the lowest cause.
The model's choices and readings in it: log entries 3, 5 and 101. -/
def Obligations.FrondSlots : Prop := ∀ (s : State) (f : Nat), hasF s f = true →
  (answers s f = true → Gives (.slotBoundary f) s fun t =>
    fget t (FR_RAIL_STAT_POINT f) = pointP t f ∧ flag t (FR_RAIL_STAT_HOLD f) = (fr t f).gov.hold ∧ (fr t f).gov.a0Sum = 0 ∧ (fr t f).gov.a0N = 0) ∧
  (∀ (raw : List (BitVec 8)) (volt : List (BitVec 10)) (ibr : BitVec 17), answers s f = true → Gives (.leafSample f raw volt ibr) s fun t =>
    (fr t f).intake.n = (fr s f).intake.n + 1 ∧ (fr t f).law.iN = (fr s f).law.iN + 1 ∧ InFrond f s t ∧ t.flt = s.flt) ∧
  (∀ p, (fr s f).rail.plan = some p → (fr s f).rail.ending = false → p.wait = 0 → Gives (.profileTick f) s fun t =>
    (fr t f).rail.code = some (planCode p (p.tick + 1)) ∧ (fr t f).rail.ending = planDone p (p.tick + 1) ∧ InFrond f s t ∧ t.regs = s.regs ∧ t.flt = s.flt) ∧
  (∀ p, (fr s f).rail.plan = some p → (fr s f).rail.ending = false → 0 < p.wait → Gives (.profileTick f) s fun t =>
    (fr t f).rail.plan = some { p with wait := p.wait - 1 } ∧ (fr t f).rail.code = (fr s f).rail.code ∧ InFrond f s t ∧ t.regs = s.regs ∧ t.flt = s.flt) ∧
  (∀ c, lowestCode (fr s f).inj.causes = some c → flag s (FR_INJ_STAT_ACTIVE f) = true → Gives (.injectionEnd f) s fun t =>
    flag t (FR_INJ_STAT_ACTIVE f) = false ∧ fget t (FR_INJ_STAT_END_CAUSE f) = c % 2 ^ ((FR_INJ_STAT_END_CAUSE f).hi + 1 - (FR_INJ_STAT_END_CAUSE f).lo) ∧
    (fr t f).inj.d = 0 ∧ (fr t f).inj.causes = [] ∧ InFrond f s t ∧ t.flt = s.flt)

/-- R162 to R164: the rail state machine outside the boundary: the end of a DARK wait, a grant, the completion of a soft start and the end of a retry wait.
The model's choices and readings in it: log entries 3 and 101. -/
def Obligations.RailStates : Prop := ∀ (s : State) (f : Nat), hasF s f = true →
  ((fr s f).rail.darkWait = true → Gives (.darkWaitExpiry f) s fun t =>
    railSt t f = 0 ∧ pointP t f = 0 ∧ fget t (FR_RAIL_STAT_TRIES f) = 0 ∧ (fr t f).rail.plan = none ∧ (fr t f).rail.pend = none ∧ (fr t f).rail.darkWait = false ∧ (fr t f).gov.draining = false ∧
    t.adm.air = s.adm.air ++ (if railSt s f = 2 ∨ railSt s f = 3 then [.release f] else []) ∧ (∀ g, g ≠ f → fr t g = fr s g) ∧ (∀ a, a / 0x10000 ≠ 0x10 + f → reg t a = reg s a) ∧ t.flt = s.flt) ∧
  (∀ m rest, takeFirst isGrant (fr s f).upd = some (m, rest) → railSt s f = 1 → (fr s f).rail.darkWait = false → Gives (.softStartGrant f) s fun t =>
    railSt t f = 2 ∧ fget t (FR_SAT_CFG_REF f) = 0 ∧ scal t f 1 = 0 ∧ (fr t f).rail.wakeReq = false ∧ (fr t f).upd = rest ∧ InFrond f s t ∧ t.flt = s.flt) ∧
  (∀ m rest, takeFirst isGrant (fr s f).upd = some (m, rest) → railSt s f ≠ 1 ∨ (fr s f).rail.darkWait = true → Gives (.softStartGrant f) s fun t =>
    railSt t f = railSt s f ∧ t.adm.air = s.adm.air ++ [.release f] ∧ (fr t f).upd = rest ∧ t.regs = s.regs ∧ t.flt = s.flt) ∧
  ((fr s f).rail.doneDue = true → railSt s f = 2 → s.flt.grpCap = [] → Gives (.softStartComplete f) s fun t =>
    railSt t f = 3 ∧ t.adm.air = s.adm.air ++ [.complete f] ∧ (∀ g, g ≠ f → fr t g = fr s g) ∧ t.flt = s.flt) ∧
  (railSt s f = 4 → (fr s f).rail.retry = true → Gives (.retryWaitExpiry f) s fun t =>
    railSt t f = 1 ∧ t.adm.air = s.adm.air ++ [.wake false f (fget s (FR_DEGRADE_CFG_WPRIO f))] ∧ (fr t f).rail.wakeReq = true ∧ (∀ g, g ≠ f → fr t g = fr s g) ∧ t.flt = s.flt)

/-- R54, R56: a bridge closes once its four segments are closed, its follower has its role and no open command waits; a close whose means have stayed apart for 64 samples with no segment closed is
aborted at the leader's next boundary; a hardware cause, also one in the slot of the last close step, opens the bridge at once and takes every open command that waits with it; a firmware cause sends the opening to the leader's next boundary
without touching a register.
The model's choices and readings in it: log entries 3 and 37. -/
def Obligations.BridgeEvents : Prop := ∀ (s : State) (f g : Nat) (dir : Bool), hasF s f = true → acrossOf s f dir.toNat = some g → g ≠ f →
  (brState s f dir.toNat = 1 → answers s f = true → (fr s f).closing.seg = 4 → fget s (FR_BRIDGE_STAT_ROLE g) = 2 → (∀ q c, (q, .bridgeOpen dir.toNat c) ∉ (fr s f).inbox) → ∀ c, Gives (.bridgeClosed f dir false c) s fun t =>
    brState t f dir.toNat = 2 ∧ fget t (FR_BRIDGE_STAT_ROLE f) = fget s (FR_BRIDGE_STAT_ROLE f) ∧ fget t (FR_BRIDGE_STAT_ROLE g) = 2 ∧ 4 ∈ (fr t f).inj.causes ∧ (∀ h, h ≠ f → fr t h = fr s h) ∧
    t.flt = s.flt ∧ t.bus = s.bus) ∧
  (brState s f dir.toNat = 1 → 64 ≤ (fr s f).closing.far → (fr s f).closing.seg = 0 → Gives (.bridgeCloseAbort f dir) s fun t =>
    (fr t f).inbox = (fr s f).inbox ++ [(0, .bridgeOpen dir.toNat 7)] ∧ InFrond f s t ∧ t.regs = s.regs ∧ t.flt = s.flt) ∧
  (∀ (c : BitVec 2) (i : Instr), i = .bridgeHwOpen f dir c ∨ i = .bridgeClosed f dir true c → brState s f dir.toNat ≠ 0 → c ≠ 0 → Gives i s fun t =>
    brState t f dir.toNat = 0 ∧ fget t (FR_BRIDGE_STAT_ROLE f) = 0 ∧ fget t (FR_BRIDGE_STAT_OPEN_CAUSE f) = c.toNat + 2 ∧ fget t (FR_BRIDGE_STAT_OPEN_CAUSE g) = c.toNat + 2 ∧ scal t f 5 = 0 ∧
    (∀ q d, (q, .bridgeOpen dir.toNat d) ∉ (fr t f).inbox) ∧ .bridgeLeft (c.toNat + 2) ∈ (fr t g).upd ∧ t.flt = s.flt) ∧
  (∀ c : BitVec 4, inTakeover s = false →
    (c = 2 ∧ brState s f dir.toNat ≠ 0 ∧ (healthy s f && healthy s g) = false ∨ c = 9 ∧ brState s f dir.toNat ≠ 0 ∧ brEnabled s f dir.toNat = false → Gives (.bridgeFwOpen f dir c) s fun t =>
      (fr t f).upd = (fr s f).upd ++ [.bridgeOpen dir.toNat c.toNat] ∧ InFrond f s t ∧ t.regs = s.regs ∧ t.flt = s.flt) ∧
    (c = 6 → brState s f dir.toNat = 2 → Gives (.bridgeFwOpen f dir c) s fun t =>
      (fr t f).inbox = (fr s f).inbox ++ [(0, .bridgeOpen dir.toNat 6)] ∧ InFrond f s t ∧ t.regs = s.regs ∧ t.flt = s.flt))

/-- R183, R184: the policy of a frond with lost phases journals a close of the bridge to the chosen neighbour; a drain is requested once and ends with a journalled DARK and source 0x2D.
The model's choices and readings in it: log entries 25, 37 and 63. -/
def Obligations.LostPhasePolicy : Prop := ∀ (s : State) (f : Nat), hasF s f = true →
  (∀ n, Quiet s → takeFirst (fun p : Nat × Nat => p.1 == f) s.rz.policyReq = none → 4 < lostOf s f → lostOf s f ≤ 8 → inBridge s f = false → policyPick s f = some n →
    Gives (.autoBridgePolicy f) s fun t => Journalled (.bridge (sharedBridge s f n).1 (sharedBridge s f n).2 1 1) false s t ∧ t.regs = s.regs ∧ t.fronds = s.fronds ∧ t.flt = s.flt) ∧
  (s.rz.drains.contains f = false → railSt s f ≠ 0 → 8 < lostOf s f → Gives (.drainStart f) s fun t =>
    f ∈ t.rz.drains ∧ .drain true ∈ (fr t f).upd ∧ t.regs = s.regs ∧ t.flt = s.flt) ∧
  (Quiet s → s.rz.drains.contains f = true → Gives (.drainComplete f false) s fun t =>
    f ∉ t.rz.drains ∧ Journalled (.darkFrond f) false s t ∧ Raised 0x2D (some f) 0 (activeIsl s) s t ∧ t.fronds = s.fronds)

/-- R36, R155, R170, R186, R187, R248: the periods and arrivals of the active Rhizome that concern performance: an optimiser step records the best duty, fixed frequency falls back and returns, a band
report is kept, and a sag is signalled to every frond with the level and the issue limit, and its end with level 0.
The model's choices and readings in it: log entries 10, 17 and 25. -/
def Obligations.PerformanceAndSag : Prop := ∀ s : State,
  (∀ (duty : List (BitVec 8)) (f d : Nat), Quiet s → s.rz.opt = none → flag s RZ_IBUS_OPT_EN = true → inSpore s = false → bestDuty s (fun k => (duty.getD k 0).toNat) = some (f, d) →
    Gives (.ibusOptPeriod duty) s fun t => fget t RZ_IBUS_STAT_DHI = d % 256 ∧ fget t RZ_IBUS_STAT_DHI_FROND = f % 64 ∧ t.fronds = s.fronds ∧ t.flt = s.flt) ∧
  (∀ thermal : Bool, fget s RZ_PERF_STAT_STATE = 1 → (if thermal then s.rz.hot == 7 else (serviceFronds s).any (capped s)) = true → Gives (.perfFallback thermal) s fun t =>
    fget t RZ_PERF_STAT_STATE = 2 ∧ fget t RZ_PERF_STAT_CAUSE = (if thermal then 2 else 1) ∧ t = { s with regs := t.regs } ∧ ∀ a, a ≠ RZ_PERF_STAT → reg t a = reg s a) ∧
  (Quiet s → fget s RZ_PERF_STAT_STATE = 2 → s.rz.hot ≠ 7 → (∀ f ∈ serviceFronds s, fixedPower s f ≤ 95 / 100 * tget 0 s.bud.share f) → Gives .perfReturn s fun t => fget t RZ_PERF_STAT_STATE = 1 ∧ flag t RZ_PERF_STAT_SHORT = false ∧ t.fronds = s.fronds ∧ t.flt = s.flt) ∧
  (∀ m rest, Quiet s → s.th.air = m :: rest → Gives .bandReport s fun t =>
    t.th.air = rest ∧ tget 0 t.rz.band m.f = m.band ∧ t.rz.hot = m.hot ∧ t.regs = s.regs ∧ t.fronds = s.fronds ∧ t.flt = s.flt) ∧
  (∀ deep : Bool, fget s RZ_HARD_STAT_SAG < (if deep then 2 else 1) → Gives (.sagDetect deep) s fun t =>
    fget t RZ_HARD_STAT_SAG = (if deep then 2 else 1) ∧ (∀ f, f < nF s → .sag (if deep then 2 else 1) (fget s RZ_SAG_CFG_SAG_ISSUE) ∈ (fr t f).upd) ∧ Raised 0xAA none 0 0x43 s t) ∧
  (fget s RZ_HARD_STAT_SAG ≠ 0 → Gives (.sagEnd false) s fun t => fget t RZ_HARD_STAT_SAG = 0 ∧ (∀ f, f < nF s → .sag 0 64 ∈ (fr t f).upd) ∧ t.flt = s.flt)

/-! ### Loop programs (spec/04_loop_programs.md, spec/05_arithmetic.md) -/

/-- The running group r of frond f has `word` as its next instruction, fetched without an error, nothing pending and a cycle of the slot left, and the program goes on after the word or ends with its E bit. -/
def Sys2Proof.Claims.Issuing (s : State) (f word : Nat) (e : Bool) (r : Run) : Prop :=
  hasF s f = true ∧ runsGroups s f = true ∧ (fr s f).slot.run = some r ∧ imem s f r.pc = word ∧ tget Ecc.clean r.fetch r.pc = .clean ∧ (fr s f).slot.infl = [] ∧ r.sxAt ≤ (fr s f).slot.cyc ∧ (fr s f).slot.cyc < slotC s f ∧
  (e = true ∨ r.pc + 1 < (binding s f r.grp).entry + hdrLen (header s f (binding s f r.grp)))

/-- The instruction has issued in the present cycle: its results become the pending writes, landing `lat` cycles later, the run goes on as r' or has ended with the E bit, and nothing else of
frond f, no other frond and no unit outside changes. -/
def Sys2Proof.Claims.Issued (f lat : Nat) (e : Bool) (r r' : Run) (ws : List (Dest × Nat)) (s t : State) : Prop :=
  let x := (fr s f).slot
  fr t f = { fr s f with slot := { x with
    infl := ws.map fun w => ⟨x.cyc + lat, r.grp, w.1, w.2⟩, cyc := x.cyc + 1, used := max x.used (x.cyc + 1), run := if e then none else some r' } } ∧
  (∀ g, g ≠ f → fr t g = fr s g) ∧ t = { s with regs := t.regs, fronds := t.fronds, flt := t.flt }

/-- No register and no raise: the instruction has met no fault. -/
def Sys2Proof.Claims.Clean (s t : State) : Prop := t.flt = s.flt ∧ ∀ a, reg t a = reg s a

/-- An arithmetic or range fault of the run has been recorded, and raises source 0x33 if its enable is set (R106 to R108). -/
def Sys2Proof.Claims.ArithFault (f : Nat) (bit en : Fld) (pc : Nat) (s t : State) : Prop :=
  fget t bit = 1 ∧ (∀ a, a ≠ FR_PROG_STAT f → reg t a = reg s a) ∧ t.flt = if flag s en then { s.flt with raises := s.flt.raises ++ [⟨0x33, some f, pc, f, false⟩] } else s.flt

/-- The operands of a form-R row of A, B and D: no reserved source, a destination of the group, and MOD bits that the row names. -/
def Sys2Proof.Claims.LegalR (s : State) (f : Nat) (r : Run) (w : RForm) (named : Nat) : Prop :=
  writable (binding s f r.grp) w.d.toNat = true ∧ reservedCode w.a.toNat = false ∧ reservedCode w.b.toNat = false ∧ w.m.toNat &&& named = w.m.toNat

/-- A row whose result in lane n is fn of MOD and of the values of A, B and D in that lane. -/
def Sys2Proof.Claims.AluRow (i : Nat → RForm → Instr) (opc named lat : Nat) (fn : Nat → Nat → Nat → Nat → Nat) : Prop := ∀ (s : State) (f : Nat) (w : RForm) (r : Run),
  Issuing s f (encR opc w) w.e r → LegalR s f r w named → Gives (i f w) s fun t => Clean s t ∧
    Issued f lat w.e r { r with pc := r.pc + 1 } ((bitList 32 r.m).map fun n =>
      (.reg w.d.toNat n, fn w.m.toNat (operand s f w.a.toNat n) (operand s f w.b.toNat n) (operand s f w.d.toNat n))) s t

/-- R99: the rows that compute one 32-bit result per lane in M, which lands in D after the row's latency (Table 4-3, R95); a shift has B of 0. -/
def Obligations.LaneArithmetic : Prop :=
  AluRow .add 0x01 0x1F 1 (fun m a b _ => if m / 16 % 2 = 1 then sat32 (s32 a + s32 b / 2 ^ (m % 16)) else wrap32 (s32 a + s32 b / 2 ^ (m % 16))) ∧
  AluRow .sub 0x02 0x1F 1 (fun m a b _ => if m / 16 % 2 = 1 then sat32 (s32 a - s32 b / 2 ^ (m % 16)) else wrap32 (s32 a - s32 b / 2 ^ (m % 16))) ∧
  AluRow .sbs 0x03 0x1F 1 (fun m a b _ => wrap32 ((s32 a - s32 b) / 2 ^ m)) ∧
  AluRow .adf 0x04 0x10 1 (fun m a b d => if m = 0 then wrap32 (s32 d + s32 a - s32 b) else sat32 (s32 d + s32 a - s32 b)) ∧
  AluRow .intg 0x05 0 1 (fun _ a b d => sat32 (s32 d + s32 a / 2 ^ (b % 32))) ∧
  AluRow .min 0x07 0 1 (fun _ a b _ => if s32 b < s32 a then b else a) ∧
  AluRow .max 0x08 0 1 (fun _ a b _ => if s32 a < s32 b then b else a) ∧
  AluRow .and 0x09 0 1 (fun _ a b _ => a &&& b) ∧
  AluRow .or 0x0A 0 1 (fun _ a b _ => a ||| b) ∧
  AluRow .xor 0x0B 0 1 (fun _ a b _ => a ^^^ b) ∧
  AluRow .andn 0x0C 0 1 (fun _ a b _ => a - (a &&& b)) ∧
  AluRow .cmp 0x10 7 1 (fun m a b _ => if cmpHolds m a b then 2 ^ 32 - 1 else 0) ∧
  AluRow .imul 0x14 1 2 (fun m a b _ => if m = 1 then (a % 2 ^ 16) * (b % 2 ^ 16) else wrap32 (signedOf 16 a * signedOf 16 b)) ∧
  (let row := fun (i : Nat → RForm → Instr) (opc : Nat) (fn : Nat → Nat → Nat) => ∀ (s : State) (f : Nat) (w : RForm) (r : Run),
    Issuing s f (encR opc w) w.e r → LegalR s f r w 0x1F → w.b = 0 → Gives (i f w) s fun t => Clean s t ∧
      Issued f 1 w.e r { r with pc := r.pc + 1 } ((bitList 32 r.m).map fun n => (.reg w.d.toNat n, fn w.m.toNat (operand s f w.a.toNat n))) s t
  row .sll 0x0D (fun m a => a * 2 ^ m % 2 ^ 32) ∧ row .srl 0x0E (fun m a => a / 2 ^ m) ∧ row .sra 0x0F (fun m a => wrap32 (s32 a / 2 ^ m)))

/-- R99: ADDI, MOVI, TST and SELI. MOVI has A of 0. -/
def Obligations.LaneImmediates : Prop := ∀ (s : State) (f : Nat) (w : IForm) (r : Run), writable (binding s f r.grp) w.d.toNat = true → reservedCode w.a.toNat = false →
  let d := w.d.toNat
  let A := fun n => operand s f w.a.toNat n
  let gives := fun (i : Instr) (ws : List (Nat × Nat)) => Gives i s fun t => Clean s t ∧ Issued f 1 w.e r { r with pc := r.pc + 1 } (ws.map fun p => (.reg d p.1, p.2)) s t
  (Issuing s f (encI 0x18 w) w.e r → gives (.addi f w) ((bitList 32 r.m).map fun n => (n, wrap32 (s32 (A n) + w.imm.toInt)))) ∧
  (Issuing s f (encI 0x19 w) w.e r → w.a = 0 → gives (.movi f w) ((bitList 32 r.m).map fun n => (n, wrap32 w.imm.toInt))) ∧
  (Issuing s f (encI 0x1A w) w.e r → gives (.tst f w) ((bitList 32 r.m).map fun n => (n, if A n &&& w.imm.toNat = 0 then 0 else 2 ^ 32 - 1))) ∧
  (Issuing s f (encI 0x1B w) w.e r → gives (.seli f w) (((bitList 32 r.m).filter fun n => A n != 0).map fun n => (n, wrap32 w.imm.toInt)))

/-- R109, Table 4-7: EXT writes to D, in every lane in M, the field of LEN bits from bit POS of the selected word, A itself or with HI the high word of a scalar; sign-extended with SGN, else
zero-extended. A field that leaves the word, or HI with an A that is no scalar, is a program fault of code 4: it is recorded and raised, and the instruction does nothing else. -/
def Obligations.ExtractField : Prop := ∀ (s : State) (f : Nat) (w : IForm) (r : Run), Issuing s f (encI 0x1C w) w.e r → writable (binding s f r.grp) w.d.toNat = true → reservedCode w.a.toNat = false →
  let pos := w.imm.toNat % 32
  let len := w.imm.toNat / 32 % 32 + 1
  let sgn := w.imm.getLsbD 10
  let hi := w.imm.getLsbD 11
  let word := fun n => if hi then operandHi s f w.a.toNat else operand s f w.a.toNat n
  let part := fun n => word n / 2 ^ pos % 2 ^ len
  (pos + len ≤ 32 → (hi = true → 0x40 ≤ w.a.toNat) → Gives (.ext f w) s fun t => Clean s t ∧
    Issued f 1 w.e r { r with pc := r.pc + 1 } ((bitList 32 r.m).map fun n => (.reg w.d.toNat n, if sgn ∧ 2 ^ (len - 1) ≤ part n then part n + (2 ^ 32 - 2 ^ len) else part n)) s t) ∧
  (32 < pos + len ∨ hi = true ∧ w.a.toNat < 0x40 → Gives (.ext f w) s fun t => fget t (FR_PROG_STAT_PROG f) = 1 ∧ Raised 0x32 (some f) r.pc f s t ∧
    Issued f 1 w.e r { r with pc := r.pc + 1 } [] s t)

/-- R99, R100, R133: INTGF and SEL leave D in the lanes that their condition shuts out; BND writes the band state and BFY the difference and the sum. -/
def Obligations.LaneConditional : Prop := ∀ (s : State) (f : Nat) (w : RForm) (r : Run), LegalR s f r w 0 →
  let A := fun n => operand s f w.a.toNat n
  let B := fun n => operand s f w.b.toNat n
  let gives := fun (i : Instr) (ws : List (Dest × Nat)) => Gives i s fun t => Clean s t ∧ Issued f 1 w.e r { r with pc := r.pc + 1 } ws s t
  let inc := fun n => s32 (A n) / (2 : Int) ^ (B n % 32)
  let sat := (fr s f).law.sat
  (Issuing s f (encR 0x06 w) w.e r → gives (.intgf f w)
    (((bitList 32 r.m).filter fun n => decide ¬ (0 < sat * inc n)).map fun n => (.reg w.d.toNat n, sat32 (s32 (operand s f w.d.toNat n) + inc n)))) ∧
  (Issuing s f (encR 0x11 w) w.e r → gives (.sel f w) (((bitList 32 r.m).filter fun n => A n != 0).map fun n => (.reg w.d.toNat n, B n))) ∧
  (Issuing s f (encR 0x12 w) w.e r → 0x40 ≤ w.b.toNat → gives (.bnd f w) ((bitList 32 r.m).map fun n =>
    (.reg w.d.toNat n, bandState (A n) (B n) (operandHi s f w.b.toNat)))) ∧
  (Issuing s f (encR 0x12 w) w.e r → w.b.toNat < 0x30 → w.b.toNat ≠ 0x0F → w.b.toNat ≠ 0x2F → gives (.bnd f w) ((bitList 32 r.m).map fun n =>
    (.reg w.d.toNat n, bandState (A n) (B n) (operand s f (w.b.toNat + 1) n)))) ∧
  (Issuing s f (encR 0x13 w) w.e r → w.d.toNat ≠ 0x0F → w.d.toNat ≠ 0x2F → writable (binding s f r.grp) (w.d.toNat + 1) = true → gives (.bfy f w)
    (((bitList 32 r.m).map fun n => (.reg w.d.toNat n, wrap32 (s32 (A n) - s32 (B n)))) ++ (bitList 32 r.m).map fun n => (.reg (w.d.toNat + 1) n, wrap32 (s32 (A n) + s32 (B n)))))

/-- R99, R106, R116: the Q-format products round to nearest even and saturate; a lane that saturates is an arithmetic fault, the others are clean. -/
def Obligations.LaneQFormat : Prop := ∀ (s : State) (f : Nat) (w : RForm) (r : Run), LegalR s f r w 1 →
  let A := fun n => operand s f w.a.toNat n
  let B := fun n => operand s f w.b.toNat n
  let wide := w.m = 1
  let prod := fun n => if wide then rne (s32 (A n) * s32 (B n)) (2 ^ 30) else rne (signedOf 16 (A n) * signedOf 16 (B n)) (2 ^ 15)
  let res := fun n => if wide then clampInt (-2147483648) 2147483647 (prod n) else clampInt (-32768) 32767 (prod n)
  let acc := fun n => s32 (operand s f w.d.toNat n) + if wide then prod n else signedOf 16 (A n) * signedOf 16 (B n)
  let gives := fun (i : Instr) (raw res : Nat → Int) => Gives i s fun t =>
    Issued f 3 w.e r { r with pc := r.pc + 1 } ((bitList 32 r.m).map fun n => (.reg w.d.toNat n, wrap32 (res n))) s t ∧
    ((∀ n ∈ bitList 32 r.m, raw n = res n) → Clean s t) ∧ ((∃ n ∈ bitList 32 r.m, raw n ≠ res n) → ArithFault f (FR_PROG_STAT_ARITH f) (FR_PROG_CTRL_ARITH_EN f) r.pc s t)
  (Issuing s f (encR 0x15 w) w.e r → gives (.qmul f w) prod res) ∧
  (Issuing s f (encR 0x16 w) w.e r → gives (.qmac f w) acc fun n => clampInt (-2147483648) 2147483647 (acc n))

/-- x is the least stage exponent from `start` upward at which every value fits width w; 127 bounds it (R97, R98). -/
def Sys2Proof.Claims.LeastExp (w : Nat) (vs : List BVal) (start x : Int) : Prop :=
  start ≤ x ∧ x ≤ 127 ∧ (x = 127 ∨ ∀ v ∈ vs, fitsAt w v x = true) ∧ ∀ y, start ≤ y → y < x → ∃ v ∈ vs, fitsAt w v y = false

/-- A BFP row has issued: SX has risen to the least exponent x at which every lane's value fits, each lane's value rounded and clamped at x becomes pending, and a range fault is recorded only if a
lane has saturated. -/
def Sys2Proof.Claims.BfpIssued (f lat d : Nat) (e : Bool) (r : Run) (start : Int) (ls : List Nat) (v : Nat → BVal) (s t : State) : Prop :=
  ∃ x, LeastExp (sfWidth r.sf) (ls.map v) start x ∧
    Issued f lat e r { r with pc := r.pc + 1, sx := x, sxAt := (fr s f).slot.cyc + lat } (ls.map fun n => (.reg d n, bfpElem (expressAt (sfWidth r.sf) (v n) x).1 r.sf x)) s t ∧
    ((∃ n ∈ ls, (expressAt (sfWidth r.sf) (v n) x).2 = true) → ArithFault f (FR_PROG_STAT_RANGE f) (FR_PROG_CTRL_RANGE_EN f) r.pc s t) ∧
    ((∀ n ∈ ls, (expressAt (sfWidth r.sf) (v n) x).2 = false) → Clean s t)

/-- R97, R99, R113 to R115, R117: BADD, BSUB, BMUL, BMAC, BCVT, BCVI and NRM where no addend is out of the alignment range of R115.
The model's choices and readings in it: log entry 32. -/
def Obligations.LaneBfp : Prop := ∀ (s : State) (f : Nat) (w : RForm) (r : Run), writable (binding s f r.grp) w.d.toNat = true → -128 ≤ r.sx → r.sx ≤ 127 →
  let ls := bitList 32 r.m
  let A := fun n => bfpVal (operand s f w.a.toNat n)
  let B := fun n => bfpVal (operand s f w.b.toNat n)
  let D := fun n => bfpVal (operand s f w.d.toNat n)
  let near := fun (u v : Nat → BVal) => ∀ n ∈ ls, (alignTo r.sx (u n)).2 = false ∧ (alignTo r.sx (v n)).2 = false
  let legal := bfpCode w.a.toNat = true ∧ bfpCode w.b.toNat = true ∧ w.m = 0
  (legal → Issuing s f (encR 0x20 w) w.e r → near A B → Gives (.badd f w) s (BfpIssued f 2 w.d.toNat w.e r r.sx ls (fun n => addV (A n) (B n)) s)) ∧
  (legal → Issuing s f (encR 0x21 w) w.e r → near A B → Gives (.bsub f w) s (BfpIssued f 2 w.d.toNat w.e r r.sx ls (fun n => addV (A n) (negV (B n))) s)) ∧
  (legal → Issuing s f (encR 0x22 w) w.e r → Gives (.bmul f w) s (BfpIssued f 3 w.d.toNat w.e r r.sx ls (fun n => mulV (A n) (B n)) s)) ∧
  (legal → Issuing s f (encR 0x23 w) w.e r → near D (fun n => mulV (A n) (B n)) → Gives (.bmac f w) s (BfpIssued f 3 w.d.toNat w.e r r.sx ls (fun n => addV (D n) (mulV (A n) (B n))) s)) ∧
  (Issuing s f (encR 0x24 w) w.e r → reservedCode w.a.toNat = false → w.b = 0 → w.m.toNat < 6 →
    Gives (.bcvt f w) s (BfpIssued f 2 w.d.toNat w.e r r.sx ls (fun n => cvtSource w.m.toNat (operand s f w.a.toNat n)) s)) ∧
  (Issuing s f (encR 0x27 w) w.e r → bfpCode w.a.toNat = true → w.b = 0 → w.m = 0 → r.m ≠ 0 → Gives (.nrm f w) s (BfpIssued f 2 w.d.toNat w.e r (-128) ls A s)) ∧
  (Issuing s f (encR 0x25 w) w.e r → reservedCode w.a.toNat = false → w.b = 0 → w.m.toNat < 6 → (∀ n ∈ ls, (cvtTarget w.m.toNat (A n)).2 = false) → Gives (.bcvi f w) s fun t => Clean s t ∧
    Issued f 2 w.e r { r with pc := r.pc + 1, sxAt := (fr s f).slot.cyc + 2 } (ls.map fun n => (.reg w.d.toNat n, (cvtTarget w.m.toNat (A n)).1)) s t)

/-- R101, R114: STG starts a stage: the format is MOD[1:0]; SX is the exponent of A in the lowest lane of LANES, or with AUTO the least exponent at which A fits in every lane in M, and with M empty unchanged.
STG writes no register. -/
def Obligations.LaneStage : Prop := ∀ (s : State) (f : Nat) (w : RForm) (r : Run), Issuing s f (encR 0x26 w) w.e r → reservedCode w.a.toNat = false → w.d = 0 → w.b = 0 →
  let next := fun (sf : Nat) (x : Int) => { r with pc := r.pc + 1, sf := sf, sx := x, sxAt := (fr s f).slot.cyc + 1 }
  (w.m.toNat < 3 → r.m ≠ 0 → Gives (.stg f w) s fun t => Clean s t ∧ Issued f 1 w.e r (next w.m.toNat (signedOf 8 (operand s f w.a.toNat (lowLane (binding s f r.grp))))) [] s t) ∧
  (4 ≤ w.m.toNat → w.m.toNat < 7 → r.m ≠ 0 → r.m < 2 ^ 32 → Gives (.stg f w) s fun t => Clean s t ∧
    ∃ x, LeastExp (sfWidth (w.m.toNat - 4)) ((bitList 32 r.m).map fun n => bfpVal (operand s f w.a.toNat n)) (-128) x ∧ Issued f 1 w.e r (next (w.m.toNat - 4) x) [] s t) ∧
  (w.m.toNat < 7 → w.m.toNat ≠ 3 → r.m = 0 → Gives (.stg f w) s fun t => Clean s t ∧ Issued f 1 w.e r (next (w.m.toNat % 4) r.sx) [] s t)

/-- R102, R103: XSH, RSH and BCL read another lane, with 0 from a lane that does not exist (and with FILL from one not in M); RED writes the sum, mean, maximum, minimum, count or OR of the lanes in
M to each of them.
The model's choices and readings in it: log entry 32. -/
def Obligations.LaneExchange : Prop := ∀ (s : State) (f : Nat) (w : RForm) (r : Run), writable (binding s f r.grp) w.d.toNat = true → reservedCode w.a.toNat = false → w.b = 0 →
  let A := fun n => operand s f w.a.toNat n
  let ls := bitList 32 r.m
  let on := ls.filter fun n => decide (w.m.toNat < 16) || bitOf (effMask s f) n
  let xs := on.map fun n => s32 (A n)
  let gives := fun (i : Instr) (lat : Nat) (ws : List (Nat × Nat)) => Gives i s fun t => Clean s t ∧ Issued f lat w.e r { r with pc := r.pc + 1 } (ws.map fun p => (.reg w.d.toNat p.1, p.2)) s t
  let all := fun (v : Int) => on.map fun n => (n, wrap32 v)
  (Issuing s f (encR 0x28 w) w.e r → w.m.toNat < 5 → gives (.xsh f w) 2 (ls.map fun n => (n, if n ^^^ 2 ^ w.m.toNat < nP s then A (n ^^^ 2 ^ w.m.toNat) else 0))) ∧
  (Issuing s f (encR 0x28 w) w.e r → 8 ≤ w.m.toNat → w.m.toNat < 13 → gives (.xsh f w) 2 (ls.map fun n =>
    (n, if n ^^^ 2 ^ (w.m.toNat - 8) < nP s ∧ bitOf r.m (n ^^^ 2 ^ (w.m.toNat - 8)) = true then A (n ^^^ 2 ^ (w.m.toNat - 8)) else 0))) ∧
  (Issuing s f (encR 0x29 w) w.e r → gives (.rsh f w) 2 (ls.map fun n => (n, A ((n + w.m.toNat) % nP s)))) ∧
  (Issuing s f (encR 0x2A w) w.e r → gives (.bcl f w) 2 (ls.map fun n => (n, if w.m.toNat < nP s then A w.m.toNat else 0))) ∧
  (Issuing s f (encR 0x2B w) w.e r → (w.m = 0 ∨ w.m = 16) → -2147483648 ≤ xs.sum → xs.sum ≤ 2147483647 → gives (.red f w) 3 (all xs.sum)) ∧
  (Issuing s f (encR 0x2B w) w.e r → (w.m = 0 ∨ w.m = 16) → xs.sum < -2147483648 ∨ 2147483647 < xs.sum → Gives (.red f w) s fun t =>
    ArithFault f (FR_PROG_STAT_ARITH f) (FR_PROG_CTRL_ARITH_EN f) r.pc s t ∧
    Issued f 3 w.e r { r with pc := r.pc + 1 } ((all (clampInt (-2147483648) 2147483647 xs.sum)).map fun p => (.reg w.d.toNat p.1, p.2)) s t) ∧
  (Issuing s f (encR 0x2B w) w.e r → (w.m = 1 ∨ w.m = 17) → gives (.red f w) 3 (all (rne xs.sum xs.length))) ∧
  (Issuing s f (encR 0x2B w) w.e r → (w.m = 5 ∨ w.m = 21) → gives (.red f w) 3 (on.map fun n => (n, (on.map A).foldl (· ||| ·) 0))) ∧
  (∀ op, Issuing s f (encR 0x2B w) w.e r → -128 ≤ r.sx → r.sx ≤ 127 → op < 4 → w.m.toNat % 16 = 8 + op → on ≠ [] → (∀ b ∈ (redBfp op r.sx (on.map A)).2, b = false) →
    Gives (.red f w) s (BfpIssued f 3 w.d.toNat w.e r r.sx on (fun _ => (redBfp op r.sx (on.map A)).1) s)) ∧
  (Issuing s f (encR 0x2B w) w.e r → (w.m = 4 ∨ w.m = 20) → gives (.red f w) 3 (all ((xs.filter fun x => x != 0).length : Nat))) ∧
  (Issuing s f (encR 0x2B w) w.e r → (w.m = 2 ∨ w.m = 18) → ∀ x ∈ xs, (∀ y ∈ xs, y ≤ x) → gives (.red f w) 3 (all x)) ∧
  (Issuing s f (encR 0x2B w) w.e r → (w.m = 3 ∨ w.m = 19) → ∀ x ∈ xs, (∀ y ∈ xs, x ≤ y) → gives (.red f w) 3 (all x))

/-- R99, R104: the rows that change the lane mask, and the forward branches: taken, the run goes on at pc + OFF; not taken, at the next word. -/
def Obligations.MasksAndBranches : Prop := ∀ (s : State) (f : Nat) (r : Run),
  let bd := binding s f r.grp
  let mask := fun (e : Bool) (i : Instr) (m : Nat) => Gives i s fun t => Clean s t ∧ Issued f 1 e r { r with pc := r.pc + 1, m := m } [] s t
  let goes := fun (i : Instr) (e : Bool) (pc : Nat) => Gives i s fun t => Clean s t ∧ Issued f 1 e r { r with pc := pc } [] s t
  let keeps := fun (a : BitVec 7) (l : List Nat) => ofBits (l.filter fun n => operand s f a.toNat n != 0)
  (∀ w : RForm, w.d = 0 → w.b = 0 → w.m = 0 → reservedCode w.a.toNat = false →
    (Issuing s f (encR 0x30 w) w.e r → mask w.e (.msk f w) (keeps w.a (bitList 32 r.e))) ∧
    (Issuing s f (encR 0x31 w) w.e r → mask w.e (.mand f w) (keeps w.a (bitList 32 r.m))) ∧
    (Issuing s f (encR 0x32 w) w.e r → w.a = 0 → mask w.e (.mnot f w) (r.e - (r.e &&& r.m))) ∧
    (Issuing s f (encR 0x33 w) w.e r → w.a = 0 → mask w.e (.mall f w) r.e)) ∧
  (∀ w : BForm, w.off ≠ 0 → r.pc + w.off.toNat < bd.entry + hdrLen (header s f bd) → reservedCode w.a.toNat = false →
    let bits := operand s f w.a.toNat (lowLane bd)
    (Issuing s f (encB 0x38 w) w.e r → goes (.brs f w) w.e (if ∀ k < 8, bitOf w.mask.toNat k = true → bitOf bits k = true then r.pc + w.off.toNat else r.pc + 1)) ∧
    (Issuing s f (encB 0x39 w) w.e r → goes (.brc f w) w.e (if ∀ k < 8, bitOf w.mask.toNat k = true → bitOf bits k = false then r.pc + w.off.toNat else r.pc + 1)) ∧
    (Issuing s f (encB 0x3A w) w.e r → w.a = 0 → w.mask = 0 → goes (.brz f w) w.e (if r.m = 0 then r.pc + w.off.toNat else r.pc + 1)))

/-- R90, R105: DRV writes the drive element of each lane in M in a phase group; TEL and BXW write both halves from lane 0 in an auxiliary group, if lane 0 is in M; NOP only takes its cycle. -/
def Obligations.LaneOutputs : Prop := ∀ (s : State) (f : Nat) (r : Run),
  let gives := fun (i : Instr) (e : Bool) (ws : List (Dest × Nat)) => Gives i s fun t => Clean s t ∧ Issued f 1 e r { r with pc := r.pc + 1 } ws s t
  (∀ w : RForm, w.d = 0 → reservedCode w.a.toNat = false → reservedCode w.b.toNat = false →
    let pair := operand s f w.b.toNat 0 * 2 ^ 32 + operand s f w.a.toNat 0
    (Issuing s f (encR 0x3C w) w.e r → (binding s f r.grp).aux = false → w.m = 0 → gives (.drv f w) w.e ((bitList 32 r.m).map fun n =>
      (.drv n, (operand s f w.a.toNat n ||| operand s f w.b.toNat n) % 128))) ∧
    (Issuing s f (encR 0x3D w) w.e r → (binding s f r.grp).aux = true → w.m.toNat < 8 → gives (.tel f w) w.e (if bitOf r.m 0 then [(.tm w.m.toNat, pair)] else [])) ∧
    (Issuing s f (encR 0x3E w) w.e r → (binding s f r.grp).aux = true → w.m = 0 → gives (.bxw f w) w.e (if bitOf r.m 0 then [(.bx, pair)] else []))) ∧
  (∀ e : Bool, let word : W32 := if e then 0x02000000 else 0
    Issuing s f word.toNat e r → gives (.nop f word) e [])

/-- R106, R107: a word whose OPC Table 4-3 does not list is a program fault of code 1: the first fault is recorded with its group, code, address and lane 0, source 0x32 is raised with the address, and
the word does nothing else. -/
def Obligations.ReservedOpcode : Prop := ∀ (s : State) (f : Nat) (word : W32) (r : Run), Issuing s f word.toNat (word.getLsbD 25) r → legalOpc (word.toNat / 2 ^ 26) = false →
  Gives (.nop f word) s fun t => fget t (FR_PROG_STAT_PROG f) = 1 ∧ Raised 0x32 (some f) r.pc f s t ∧ Issued f 1 (word.getLsbD 25) r { r with pc := r.pc + 1 } [] s t ∧
    (∀ a, a ≠ FR_PROG_STAT f → reg t a = reg s a) ∧
    (fget s (FR_PROG_STAT_PROG f) = 0 → fget s (FR_PROG_STAT_ARITH f) = 0 → fget s (FR_PROG_STAT_RANGE f) = 0 → fget t (FR_PROG_STAT_FCODE f) = 1 ∧
      fget t (FR_PROG_STAT_FGROUP f) = r.grp % 2 ^ ((FR_PROG_STAT_FGROUP f).hi + 1 - (FR_PROG_STAT_FGROUP f).lo) ∧ fget t (FR_PROG_STAT_FLANE f) = 0 ∧
      fget t (FR_PROG_STAT_FADDR f) = r.pc % 2 ^ ((FR_PROG_STAT_FADDR f).hi + 1 - (FR_PROG_STAT_FADDR f).lo))

/-- R69, R70, R72, R95: an instruction whose source is pending waits until the write has landed and reads the landed value; each cycle of the wait is a stall cycle. A wait past the slot's last cycle
cuts the group.
The model's choices and readings in it: log entry 96. -/
def Obligations.ScoreboardStalls : Prop := ∀ (s : State) (f n v c g : Nat) (w : RForm) (r : Run), hasF s f = true → runsGroups s f = true → (fr s f).slot.run = some r → imem s f r.pc = encR 0x07 w → tget Ecc.clean r.fetch r.pc = .clean →
  LegalR s f r w 0 → (fr s f).slot.infl = [⟨c, g, .reg w.a.toNat n, v⟩] → (fr s f).slot.cyc < c → bitOf r.m n = true → n < 32 → w.a ≠ w.b →
  (c < slotC s f → w.a.toNat < 0x35 → w.e = true → Gives (.min f w) s fun t =>
    (fr t f).slot.cyc = c + 1 ∧ (fr t f).slot.run = none ∧ t.flt = s.flt ∧ tget 0 (fr t f).lanes (w.a.toNat * 32 + n) = BitVec.ofNat 32 v ∧
    (⟨c + 1, r.grp, .reg w.d.toNat n, if s32 (operand s f w.b.toNat n) < s32 (v % 2 ^ 32) then operand s f w.b.toNat n else v % 2 ^ 32⟩ ∈ (fr t f).slot.infl) ∧
    fget t (FR_SCHED_STAT_STALLS f) = min (fget s (FR_SCHED_STAT_STALLS f) + (c - (fr s f).slot.cyc)) (fmax (FR_SCHED_STAT_STALLS f))) ∧
  ((fr s f).slot.cyc < slotC s f → slotC s f ≤ c → Gives (.min f w) s fun t =>
    (fr t f).slot.run = none ∧ (fr t f).slot.cut = (fr s f).slot.cut ++ [r.grp] ∧ (fr t f).lanes = (fr s f).lanes ∧ (fr t f).slot.infl = (fr s f).slot.infl ∧ InFrond f s t)

/-- R63, R69, R70, R82, R94, R95: the next due group starts with M = E = its enable, SX and SF 0 and takes one cycle; a word fetched with an uncorrectable error cuts its group, counts and raises 0x31
with the word, and one with a corrected error counts and issues; the oldest pending write lands in its register, at a cycle not yet reached only while no group runs or is due.
The model's choices and readings in it: log entry 30. -/
def Obligations.DispatchAndLanding : Prop := ∀ (s : State) (f : Nat), hasF s f = true →
  (∀ (g : Nat) (rest : List Nat) (fetch : List (Nat × Ecc)), (fr s f).slot.run = none → (fr s f).slot.due = g :: rest → (fr s f).slot.cyc < slotC s f → Gives (.groupDispatch f fetch) s fun t =>
    (∃ r, (fr t f).slot.run = some r ∧ r.grp = g ∧ r.pc = (binding s f g).entry ∧ r.m = r.e ∧ r.e = runEnable s f (binding s f g) ∧ r.sx = 0 ∧ r.sf = 0 ∧ r.fetch = fetch) ∧
    (fr t f).slot.due = rest ∧ (fr t f).slot.cyc = (fr s f).slot.cyc + 1 ∧ InFrond f s t ∧ t.regs = s.regs ∧ t.flt = s.flt) ∧
  (∀ (r : Run) (word : W32), runsGroups s f = true → (fr s f).slot.run = some r → imem s f r.pc = word.toNat → (fr s f).slot.cyc < slotC s f →
    (tget Ecc.clean r.fetch r.pc = .double → Gives (.nop f word) s fun t =>
      (fr t f).slot.run = none ∧ (fr t f).slot.cut = (fr s f).slot.cut ++ [r.grp] ∧ Raised 0x31 (some f) r.pc f s t ∧ InFrond f s t ∧ ∀ a, a ≠ FR_CORE_STAT f → reg t a = reg s a) ∧
    (tget Ecc.clean r.fetch r.pc = .single → word = 0 → (fr s f).slot.infl = [] → r.pc + 1 < (binding s f r.grp).entry + hdrLen (header s f (binding s f r.grp)) → Gives (.nop f word) s fun t =>
      (fr t f).slot.cyc = (fr s f).slot.cyc + 1 ∧ fget t (FR_CORE_STAT_ECC_CORR f) = min (fget s (FR_CORE_STAT_ECC_CORR f) + 1) (fmax (FR_CORE_STAT_ECC_CORR f)) ∧ InFrond f s t ∧ t.flt = s.flt)) ∧
  (∀ c g k n v, (fr s f).slot.infl = [⟨c, g, .reg k n, v⟩] → c ≤ (fr s f).slot.cyc ∨ (fr s f).slot.run = none ∧ (fr s f).slot.due = [] ∧ c ≤ slotC s f → Gives (.resultWriteLands f) s fun t =>
    (fr t f).slot.cyc = max (fr s f).slot.cyc c ∧ tget 0 (fr t f).lanes (k * 32 + n) = BitVec.ofNat 32 v ∧ (fr t f).slot.infl = [] ∧ (∀ q, q ≠ k * 32 + n → tget 0 (fr t f).lanes q = tget 0 (fr s f).lanes q) ∧
    (fr t f).drv = (fr s f).drv ∧ (fr t f).tm = (fr s f).tm ∧ InFrond f s t ∧ t.regs = s.regs ∧ t.flt = s.flt)

/-! ### Host accesses and the journal (spec/17_startup_image.md, spec/19_register_map.md, spec/20_ports_electrical.md) -/

/-- No access or entry waits, the host port takes a request, and the active Rhizome runs outside a takeover. -/
def Sys2Proof.Claims.Ready (s : State) : Prop :=
  s.bus.ready = [] ∧ s.bus.queue = [] ∧ s.bus.cur = none ∧ s.bus.lost = [] ∧ s.bus.resp.length < 32 ∧ s.chip.rst = false ∧ answers s 0x49 = true ∧ answers s (activeIsl s) = true ∧ inTakeover s = false

/-- The register address and word of a row that is a journalled host write (R376); set-points, bridge commands and the VIDs that the host does not own apart. -/
def Sys2Proof.Claims.written (s : State) (i : Instr) : Option (Nat × Nat) :=
  match i with
  | .groupBind f n d => some (FR_GROUP f.toNat n.toNat, d.toNat ||| 1)
  | .groupUnbind f n d => some (FR_GROUP f.toNat n.toNat, putBits d.toNat 0 0 0)
  | .samplePeriodWrite f n => some (FR_SAMPLE_CFG f.toNat, n.toNat)
  | .coreHalt f o => some (FR_CORE_CTRL f.toNat, 256 * o.toNat)
  | .coreRun f o => some (FR_CORE_CTRL f.toNat, 1 + 256 * o.toNat)
  | .coreStep f r o => some (FR_CORE_CTRL f.toNat, r.toNat + 2 + 256 * o.toNat)
  | .phaseHealthClear f d => some (FR_PHASE_HEALTH f.toNat, d.toNat)
  | .injectionGo f d => some (FR_INJ_CFG f.toNat, d.toNat ||| 4)
  | .injectionStop f d => some (FR_INJ_CFG f.toNat, putBits d.toNat 3 2 2)
  | .on f => some (FR_RAIL_CMD f.toNat, 1)
  | .dark f => some (FR_RAIL_CMD f.toNat, 2)
  | .scalarPush k => some (FC_PUSH_CMD, k.toNat + 2 ^ 8)
  | .programLoad d l => some (FC_LOAD_CMD, d.toNat + 2 ^ 12 * l.toNat + 2 ^ 32)
  | .perfModeFree d => some (RZ_PERF_CTRL, putBits d.toNat 1 0 0)
  | .perfModeFixed d => some (RZ_PERF_CTRL, putBits d.toNat 1 0 1)
  | .perfModeBounded d => some (RZ_PERF_CTRL, putBits d.toNat 1 0 2)
  | .vidWrite true g v => if 6 ≤ g.toNat then some (VP_VID g.toNat, v.toNat) else none
  | .stageRestart n => some (VP_STAGE_CMD, n.toNat + 2 ^ 8)
  | .stageStop n => some (VP_STAGE_CMD, n.toNat + 2 ^ 9)
  | .lastfClear => some (VP_LASTF_STAT, 2 ^ 16)
  | .quarClear n => some (TH_SENS n.toNat, 2 ^ 35)
  | .fhEnable e => some (FH_CTRL, e.toNat)
  | .modelCheck a w => some (FH_MODEL_CMD, 1 + 4 * a.toNat + 8 * w.toNat)
  | .modelSwitch a w => some (FH_MODEL_CMD, 2 + 4 * a.toNat + 8 * w.toNat)
  | .domainEnable n c => some (AD_RET_DOM n.toNat, 1 + 2 * c.toNat)
  | .keyLoad k g => some (MT_KEY_CMD, k.toNat + 256 * g.toNat + 2 ^ 9)
  | .aliveRestart d => some (RZ_FLT_CTRL, d.toNat ||| 2 ^ 48)
  | .faultForce n d => some (RZ_FLT_CFG n.toNat, d.toNat ||| 2 ^ 32)
  | .bankHandover b o => some (MS_BANK b.toNat, o.toNat + (if flag s (MS_BANK_RET b.toNat) then 16 else 0))
  | .bankRetention b => some (MS_BANK b.toNat, ownerOf s b.toNat + 16)
  | .imageProgram k l => some (NV_UPD_CMD, 1 + 8 * k.toNat + 16 * l.toNat)
  | .imageVerify k => some (NV_UPD_CMD, 2 + 8 * k.toNat)
  | .imageActivate k => some (NV_UPD_CMD, 3 + 8 * k.toNat)
  | .imageConfirm k => some (NV_UPD_CMD, 4 + 8 * k.toNat)
  | .svnCommit k => some (NV_UPD_CMD, 5 + 8 * k.toNat)
  | .replanCmd => some (NV_AGE_CMD, 1)
  | .measureOnly => some (NV_AGE_CMD, 2)
  | .rebuildBaseline => some (NV_AGE_CMD, 3)
  | .lifetimeFlush => some (NV_LIFE_STAT, 2 ^ 35)
  | .islandRestart k => some (RZ_ISLAND_RST, k.toNat + 2 ^ 12)
  | _ => none

/-- The write of v at a is of a register of the member, and no rule refuses it. -/
def Sys2Proof.Claims.Allowed (s : State) (a v : Nat) : Prop :=
  (a < 0x100000 ∨ a < 0x100000 + 0x10000 * nF s) ∧ ∃ r, regAt a = some r ∧ regRefused s r v = false

/-- A host write of v at a. -/
def Sys2Proof.Claims.wr (a v : Nat) : Access := { src := .host, we := true, addr := a, data := v }

/-- R376, R395, R396, R409: each row that is a journalled write, when no rule refuses it, sends its entry to the standby and waits for the commit; nothing else changes before that. One that a rule refuses
is answered ERR and changes nothing.
The model's choices and readings in it: log entry 24. -/
def Obligations.JournalledRows : Prop := ∀ (s : State) (i : Instr) (a v : Nat), Ready s → written s i = some (a, v) →
  (inSync s = true → Allowed s a v → Gives i s fun t =>
    Journalled (.write a v) true s t ∧ t.bus.cur = some (wr a v, .commit s.bus.jSeq) ∧ t.bus.queue = [] ∧ t.bus.resp = s.bus.resp ∧ t = { s with bus := t.bus, pm := t.pm }) ∧
  (∀ r : RegAt, (a < 0x100000 ∨ a < 0x100000 + 0x10000 * nF s) → regAt a = some r → regRefused s r v = true → Gives i s fun t =>
    t.bus = { s.bus with resp := s.bus.resp ++ [⟨.host, .err, 0⟩] } ∧ t = { s with bus := t.bus, pm := t.pm })

/-- R53, R153, R155, R376: a set-point row journals its command with the endpoint derived for it; a bridge row sets BUSY and journals its write.
The model's choices and readings in it: log entry 24. -/
def Obligations.SetpointAndBridgeRows : Prop := ∀ (s : State) (f : BitVec 6), Ready s → inSync s = true → f.toNat < nF s →
  let sp := fun (i : Instr) (v : Nat) => frCmdRefused s f.toNat .FR_SETPOINT 0 v = false → Gives i s fun t =>
    Journalled (.setpoint f.toNat v (setpointE s f.toNat v)) true s t ∧ t.bus.cur = some (wr (FR_SETPOINT f.toNat) v, .commit s.bus.jSeq) ∧ t = { s with bus := t.bus, pm := t.pm }
  let br := fun (i : Instr) (v : Nat) => flag s RZ_BRIDGE_CMD_BUSY = false → Gives i s fun t =>
    Journalled (.write RZ_BRIDGE_CMD v) true s t ∧ flag t RZ_BRIDGE_CMD_BUSY = true ∧ (∀ a, a ≠ RZ_BRIDGE_CMD → reg t a = reg s a) ∧ t = { s with regs := t.regs, bus := t.bus, pm := t.pm }
  (∀ c : BitVec 12, sp (.setpointVoltage f c) (c.toNat * 16)) ∧ (∀ q : BitVec 8, sp (.setpointFrequency f q) (1 + q.toNat * 2 ^ 16)) ∧
  (∀ d : Bool, br (.bridgeClose f d) (f.toNat + 256 * d.toNat + 2 ^ 12) ∧ br (.bridgeOpen f d) (f.toNat + 256 * d.toNat + 2 ^ 13))

/-- A journalled write while the standby is out of sync: it commits at once and acts (R377). -/
def Sys2Proof.Claims.AtOnce (s : State) (i : Instr) : Prop := Ready s ∧ inSync s = false ∧ ∃ a v, written s i = some (a, v) ∧ Allowed s a v ∧ ∀ k, holder a = some k → answers s k = true

/-- The island that holds the register has acknowledged the write, which waits for that; a write of domain S is answered OK. -/
def Sys2Proof.Claims.Answered (island : Option Nat) (s t : State) : Prop :=
  match island with
  | none => t.bus.resp = s.bus.resp ++ [⟨.host, .ok, 0⟩] ∧ t.bus.cur = none
  | some k => t.bus.acks = s.bus.acks ++ [{ isl := k, ok := true, wait := true }] ∧ t.bus.resp = s.bus.resp ∧ ∃ x, t.bus.cur = some (x, .island k)

/-- R27, R88, R376, R377: a committed command of a frond core leaves on its command stream with the next number, and the access waits for the core's acknowledgement; nothing else of the frond
changes before its boundary.
The model's choices and readings in it: log entry 24. -/
def Obligations.FrondCommandLeaves : Prop := ∀ (s : State) (i : Instr) (a v : Nat), AtOnce s i → written s i = some (a, v) → 0x100000 ≤ a →
  Gives i s fun t =>
    let f := (a - 0x100000) / 0x10000
    let c : FCmd := ⟨(fr s f).sent, .write (a % 0x10000) v, true⟩
    fr t f = { fr s f with air := (fr s f).air ++ [c], unacked := (fr s f).unacked ++ [c], sent := (fr s f).sent + 1 } ∧ (∀ g, g ≠ f → fr t g = fr s g) ∧
    t.bus.cur = some (wr a v, .island f) ∧ t.bus.resp = s.bus.resp ∧ t.bus.jAir = s.bus.jAir ∧ t.bus.commits = commitOp s.bus.commits (.write a v) ∧
    t = { s with fronds := t.fronds, bus := t.bus, pm := t.pm }

/-- R77, R83, R169, R171, R198, R212, R214, R246: what a committed host command does at the active Rhizome, the VPM controller and the thermal unit.
The model's choices and readings in it: log entries 4 and 24. -/
def Obligations.CommittedCommands : Prop := ∀ s : State,
  (∀ k : BitVec 6, AtOnce s (.scalarPush k) → Gives (.scalarPush k) s fun t => flag t FC_PUSH_CMD_BUSY = true ∧ t.pushWait = targets s (fget s FC_TARGET_FRONDS) ∧ Answered none s t ∧
    ∀ f ∈ targets s (fget s FC_TARGET_FRONDS), ∃ c ∈ (fr t f).air, c.msg = .scalar k.toNat (reg s FC_PUSH_DATA).toNat ∧ c.seq = (fr s f).sent) ∧
  (∀ (d : BitVec 12) (l : BitVec 13), AtOnce s (.programLoad d l) → Gives (.programLoad d l) s fun t => Answered none s t ∧ t.fronds = s.fronds ∧
    (let src := fget s FC_LOAD_SRC_ADDR
     let ts := targets s (fget s FC_TARGET_FRONDS)
     let fits := d.toNat + l.toNat ≤ 0xE00 ∧ l ≠ 0 ∧ src % 4 = 0
     (¬ fits → t.load = s.load ∧ fget t FC_LOAD_CMD_RESULT = 1) ∧
     (fits → (∀ f ∈ ts, (fr s f).inbox = []) → (∃ f ∈ ts, groupHolds s f d.toNat (d.toNat + l.toNat) = true) → t.load = s.load ∧ fget t FC_LOAD_CMD_RESULT = 2) ∧
     (fits → (∀ f ∈ ts, (fr s f).inbox = [] ∧ groupHolds s f d.toNat (d.toNat + l.toNat) = false ∧ coreSt s f ≠ 0) → bankOf src = (src + 4 * l.toNat - 1) / 0x80000 → ownerOf s (bankOf src) = 7 →
       t.load = some ⟨d.toNat, l.toNat, src, fget s FC_TARGET_FRONDS⟩ ∧ flag t FC_LOAD_CMD_BUSY = true))) ∧
  (∀ d : W64, AtOnce s (.perfModeFree d) → Gives (.perfModeFree d) s fun t => fget t RZ_PERF_STAT_STATE = 0 ∧ fget t RZ_PERF_CTRL_MODE = 0 ∧ Answered none s t ∧ t.fronds = s.fronds) ∧
  (∀ d : W64, AtOnce s (.perfModeFixed d) → Gives (.perfModeFixed d) s fun t => fget t RZ_PERF_STAT_STATE = 1 ∧ fget t RZ_PERF_CTRL_MODE = 1 ∧ Answered none s t) ∧
  (∀ d : W64, AtOnce s (.perfModeBounded d) → Gives (.perfModeBounded d) s fun t => fget t RZ_PERF_STAT_STATE = 3 ∧ fget t RZ_PERF_CTRL_MODE = 2 ∧ Answered none s t ∧ t.fronds = s.fronds) ∧
  (∀ (g : BitVec 3) (v : BitVec 14), 6 ≤ g.toNat → AtOnce s (.vidWrite true g v) → Gives (.vidWrite true g v) s fun t => fget t (VP_VID_VID g.toNat) = v.toNat ∧ Answered (some 0x43) s t) ∧
  (∀ (g : BitVec 3) (v : BitVec 14), g.toNat < 6 → Ready s → answers s 0x43 = true → Gives (.vidWrite true g v) s fun t =>
    t.bus = { s.bus with resp := s.bus.resp ++ [⟨.host, .own, 0⟩] } ∧ t = { s with bus := t.bus, pm := t.pm }) ∧
  (∀ (g : BitVec 3) (v : BitVec 14) (w : Nat) (rest : List (Nat × Nat)), answers s 0x43 = true → takeFirst (fun p : Nat × Nat => p.1 == g.toNat) s.vpm.vidAir = some ((g.toNat, w), rest) →
    Gives (.vidWrite false g v) s fun t => fget t (VP_VID_VID g.toNat) = w % 2 ^ 14 ∧ t.vpm.vidAir = rest ∧ t.fronds = s.fronds) ∧
  (∀ n : BitVec 6, AtOnce s (.stageRestart n) → n.toNat < 48 → stSt s n.toNat = 5 → (stg s n.toNat).flt = false → inputOk s = true → (grp s (fget s (VP_STAGE_GROUP n.toNat))).started = true →
    Gives (.stageRestart n) s fun t => stSt t n.toNat = 1 ∧ flag t VP_STAGE_CMD_BUSY = true ∧ (stg t n.toNat).restart = true ∧ Answered (some 0x43) s t) ∧
  (∀ n : BitVec 6, AtOnce s (.stageStop n) → n.toNat < 48 → 1 ≤ stSt s n.toNat → stSt s n.toNat ≤ 3 →
    Gives (.stageStop n) s fun t => stSt t n.toNat = 5 ∧ fget t (VP_STAGE_CAUSE n.toNat) = 12 ∧ fget t VP_STAGE_CMD_RESULT = 0 ∧ Answered (some 0x43) s t) ∧
  (AtOnce s .lastfClear → Gives .lastfClear s fun t => flag t VP_LASTF_STAT_VALID = false ∧ flag t VP_LASTF_STAT_PENDING = flag s VP_LASTF_STAT_PENDING ∧ t.flash.vpm0 = none ∧ t.flash.vpm1 = none ∧ Answered (some 0x43) s t) ∧
  (∀ n : BitVec 8, AtOnce s (.quarClear n) → Gives (.quarClear n) s fun t => flag t (TH_SENS_QUAR n.toNat) = false ∧ fget t (TH_SENS_DEV_RUN n.toNat) = 0 ∧ Answered (some 0x45) s t ∧ t.fronds = s.fronds)

/-- R254, R275, R301, R304, R319, R335, R342, R347, R354, R359, R381, R385, R391, R404: what a committed host command does at Fiddlehead, the Mat engine, the fault collector, Moss and the flash
controller, and as an ageing command, a lifetime flush or a restart.
The model's choices and readings in it: log entries 24, 68 and 69. -/
def Obligations.CommittedSupervisorCommands : Prop := ∀ s : State,
  (∀ e : Bool, AtOnce s (.fhEnable e) → inSpore s = false → Gives (.fhEnable e) s fun t => flag t FH_CTRL_EN = e ∧ Answered (some 0x42) s t ∧ t.fronds = s.fronds) ∧
  (∀ k w : Bool, AtOnce s (.modelCheck k w) → modelRefusal s 1 k.toNat w = 0 → Gives (.modelCheck k w) s fun t => t.fh.check = some (1, k.toNat, w) ∧ flag t FH_MODEL_CMD_BUSY = true ∧ Answered (some 0x42) s t) ∧
  (∀ k w : Bool, AtOnce s (.modelSwitch k w) → modelRefusal s 2 k.toNat w = 0 → Gives (.modelSwitch k w) s fun t => t.fh.check = some (2, k.toNat, w) ∧ flag t FH_MODEL_CMD_BUSY = true ∧ Answered (some 0x42) s t) ∧
  (∀ (n : BitVec 11) (c : BitVec 4), AtOnce s (.domainEnable n c) → Gives (.domainEnable n c) s fun t =>
    t.bud.pend = s.bud.pend ++ [(AD_RET_DOM n.toNat, 1 + 2 * c.toNat)] ∧ Answered none s t ∧ t.regs = s.regs) ∧
  (∀ (k : BitVec 8) (g : Bool), AtOnce s (.keyLoad k g) → Gives (.keyLoad k g) s fun t =>
    (if g then (mg t k.toNat).key1 else (mg t k.toNat).key0) = some ((reg s MT_KEY_LO).toNat + (reg s MT_KEY_HI).toNat * 2 ^ 64) ∧ reg t MT_KEY_LO = 0 ∧ reg t MT_KEY_HI = 0 ∧ Answered (some 0x46) s t) ∧
  (∀ d : W64, AtOnce s (.aliveRestart d) → Gives (.aliveRestart d) s fun t => t.flt.aliveStop = false ∧ Answered (some 0x47) s t ∧ t.fronds = s.fronds) ∧
  (∀ (n : BitVec 8) (d : W64), AtOnce s (.faultForce n d) → Gives (.faultForce n d) s fun t => isSet t n.toNat = true ∧ ∃ x, t.bus.cur = some (x, .island 0x47)) ∧
  (∀ (b : BitVec 5) (o : BitVec 3), AtOnce s (.bankHandover b o) → Gives (.bankHandover b o) s fun t => ownerOf t b.toNat = o.toNat ∧ flag t (MS_BANK_RET b.toNat) = flag s (MS_BANK_RET b.toNat) ∧
    Answered (some 0x48) s t ∧ t.moss = s.moss) ∧
  (∀ b : BitVec 5, AtOnce s (.bankRetention b) → Gives (.bankRetention b) s fun t => flag t (MS_BANK_RET b.toNat) = true ∧ ownerOf t b.toNat = ownerOf s b.toNat ∧
    (awake s b.toNat = true → fget t (MS_BANK_RSTATE b.toNat) = 2) ∧ Answered (some 0x48) s t ∧ t.moss = s.moss) ∧
  (∀ (i : Instr) (op slot len : Nat),
    ((∃ k l, i = .imageProgram k l ∧ op = 1 ∧ slot = k.toNat ∧ len = l.toNat) ∨ len = 0 ∧ ∃ k, (i = .imageVerify k ∧ op = 2 ∨ i = .imageActivate k ∧ op = 3 ∨ i = .imageConfirm k ∧ op = 4 ∨ i = .svnCommit k ∧ op = 5) ∧ slot = k.toNat) →
    AtOnce s i → updRefusal s op slot len (fget s NV_UPD_ADDR_FOFF) (fget s NV_UPD_ADDR_MOFF) = 0 →
    Gives i s fun t => t.nv.ops = s.nv.ops ++ [.upd op slot len (fget s NV_UPD_ADDR_FOFF) (fget s NV_UPD_ADDR_MOFF)] ∧ flag t NV_UPD_CMD_BUSY = true ∧ t.flash = s.flash ∧ (op = 1 → verOk t slot = false)) ∧
  (∀ (i : Instr) (op : Nat), (i = .replanCmd ∧ op = 1 ∨ i = .measureOnly ∧ op = 2 ∨ i = .rebuildBaseline ∧ op = 3) → AtOnce s i → inSpore s = false → 0 < nF s → s.age.run = none →
    Gives i s fun t => flag t NV_AGE_CMD_BUSY = true ∧ (∃ r, t.age.run = some r ∧ r.kind = op) ∧ t.age.cmd = none) ∧
  (AtOnce s .lifetimeFlush → Gives .lifetimeFlush s fun t => t.nv.ops = s.nv.ops ++ [.life] ∧ flag t NV_LIFE_STAT_PENDING = true ∧ t.flash = s.flash) ∧
  (∀ k : BitVec 8, AtOnce s (.islandRestart k) → Gives (.islandRestart k) s fun t =>
    flag t RZ_ISLAND_RST_BUSY = true ∧ t.chip.restart = some ⟨k.toNat, true⟩ ∧ answers t k.toNat = false ∧ (∀ j, j ≠ k.toNat → isl t j = isl s j) ∧ Answered none s t)

/-- The write of v at a is one that no rule refuses, the island that holds a answers, and no journal entry is needed. -/
def Sys2Proof.Claims.Direct (s : State) (a v : Nat) : Prop := Ready s ∧ Allowed s a v ∧ ∀ k, holder a = some k → answers s k = true

/-- The write has been answered OK, and nothing else of the path of accesses has changed. -/
def Sys2Proof.Claims.Ok (s t : State) : Prop := t.bus = { s.bus with resp := s.bus.resp ++ [⟨.host, .ok, 0⟩] }

/-- R29, R89, R129, R222, R229, R231, R236, R336, R346, R363, R394, R396: the rows that are writes without a journal entry act and are answered OK at once.
The model's choices and readings in it: log entries 24 and 76. -/
def Obligations.DirectWrites : Prop := ∀ s : State,
  (∀ (k : BitVec 8) (n : BitVec 5), Direct s RZ_ISLAND_PROBE (k.toNat + 256 * n.toNat) → Gives (.islandProbe k n) s fun t => t.probe = some ⟨k.toNat, n.toNat⟩ ∧ flag t RZ_ISLAND_PROBE_BUSY = true ∧ Ok s t) ∧
  (∀ (k : BitVec 8) (n : BitVec 5), Direct s MS_Q_SEL (k.toNat + 256 * n.toNat) → Gives (.queueProbe k n) s fun t => t.qProbe = some ⟨k.toNat, n.toNat⟩ ∧ flag t MS_Q_SEL_BUSY = true ∧ Ok s t) ∧
  (∀ (f : BitVec 6) (m : BitVec 11) (d : W64), Direct s (FR_IMEM f.toNat m.toNat) d.toNat → Gives (.imemWrite f m d) s fun t => reg t (FR_IMEM f.toNat m.toNat) = d ∧
    imem t f.toNat (2 * m.toNat) = d.toNat % 2 ^ 32 ∧ imem t f.toNat (2 * m.toNat + 1) = d.toNat / 2 ^ 32 ∧ (∀ a, a ≠ FR_IMEM f.toNat m.toNat → reg t a = reg s a) ∧ Ok s t ∧ t.fronds = s.fronds) ∧
  (∀ (c : BitVec 3) (d : W64), Direct s (AD_CONV_TRIG c.toNat) (d ||| 0x8000000000000000).toNat → flag s (AD_CONV_CFG_EN c.toNat) = true → oddOfPair s c.toNat = false → (cv s c.toNat).run = none →
    Gives (.softTrigger c d) s fun t => flag t (AD_CONV_STAT_BUSY c.toNat) = true ∧ (∃ b, (cv t c.toNat).run = some b ∧ b.src = 0 ∧ b.taken = 0 ∧ b.len = fget s (AD_CONV_CFG_LEN c.toNat) + 1) ∧ Ok s t) ∧
  (∀ (k : BitVec 4) (d : W64), Direct s (AD_DMA_CFG k.toNat) (d ||| 1).toNat → Gives (.dmaEnable k d) s fun t =>
    flag t (AD_DMA_CFG_EN k.toNat) = true ∧ reg t (AD_DMA_WR k.toNat) = 0 ∧ fget t (AD_DMA_RD_RD k.toNat) = 0 ∧ dm t k.toNat = {} ∧ Ok s t) ∧
  (∀ (k : BitVec 4) (d : W32), Direct s (AD_DMA_RD k.toNat) d.toNat → Gives (.dmaRdWrite k d) s fun t => fget t (AD_DMA_RD_RD k.toNat) = d.toNat ∧ t.conv = s.conv ∧ Ok s t) ∧
  (∀ f : BitVec 6, Direct s AD_LCAL_CMD (f.toNat + 2 ^ 8) → Gives (.lcalCmd f) s fun t => t.conv.lcal.cmd = some (f.toNat, 0) ∧ flag t AD_LCAL_CMD_BUSY = true ∧ Ok s t) ∧
  (∀ (m : BitVec 4) (d e : Bool), Direct s RZ_TOPK_CTRL (m.toNat + 16 * d.toNat + 32 * e.toNat + 2 ^ 8) → Gives (.topkScan m d e) s fun t =>
    t.chip.topk = some (topkScan s m.toNat d e) ∧ flag t RZ_TOPK_CTRL_BUSY = true ∧ flag t RZ_TOPK_CTRL_ABORTED = false ∧ Ok s t) ∧
  (Direct s RZ_FLT_FIRST (2 ^ 8) → Gives .firstLatchClear s fun t => flag t RZ_FLT_FIRST_VALID = false ∧ flag t RZ_FLT_FIRST_OVF = false ∧ Ok s t ∧ t.flt = s.flt) ∧
  (Direct s RZ_FLT_NVM (2 ^ 24) → Gives .faultNvmClear s fun t => t.flash.fslots = [] ∧ t.flash.pinned = none ∧ fget t RZ_FLT_NVM_USED = 0 ∧ flag t RZ_FLT_NVM_PINNED = false ∧ Ok s t) ∧
  (∀ (a : BitVec 2) (p : BitVec 8) (m : BitVec 24), Direct s NV_READ_CMD (a.toNat + 4 * p.toNat + 2 ^ 16 * m.toNat + 2 ^ 40) → readRefused s a.toNat p.toNat m.toNat = false →
    Gives (.recordRead a p m) s fun t => t.nv.ops = s.nv.ops ++ [.read a.toNat p.toNat m.toNat] ∧ flag t NV_READ_CMD_BUSY = true ∧ Ok s t ∧ t.flash = s.flash) ∧
  (∀ (a : Nat) (d : W64) (r : RegAt), (a = RZ_DEGRADE ∨ a = RZ_SAG_CFG ∨ a = RZ_PAIR_CFG ∨ a = FC_LOAD_SRC) → Direct s a d.toNat → inSync s = false → regAt a = some r →
    Gives (.registerWrite (BitVec.ofNat 26 a) d) s fun t => reg t a = (reg s a &&& ~~~(BitVec.ofNat 64 r.row.rw)) ||| (d &&& BitVec.ofNat 64 r.row.rw) ∧ (∀ b, b ≠ a → reg t b = reg s b) ∧ Answered none s t)

/-- R396, R408: a read of a register that its domain answers returns its word with the WO bits 0, and a read of a Moss word its bytes; the response of the oldest access is taken first.
The model's choices and readings in it: log entries 20 and 26. -/
def Obligations.HostReads : Prop := ∀ s : State,
  (∀ (a : BitVec 26) (d : W64) (e : Ecc) (r : RegAt), Ready s → a.toNat % 8 = 0 → a.toNat < 0x1000000 → (a.toNat < 0x100000 ∨ a.toNat < 0x100000 + 0x10000 * nF s) → regAt a.toNat = some r → r.row.rc = 0 →
    (∀ k, holder a.toNat = some k → answers s k = true) → ∀ edge, Gives (.hostRequest false a d ⟨e, edge⟩) s fun t =>
      t.bus = { s.bus with resp := s.bus.resp ++ [⟨.host, .ok, regRead s a.toNat r⟩] } ∧ ((edge = true → ∀ k, holder a.toNat = some k → 64 ≤ k) → t = { s with bus := t.bus, pm := t.pm })) ∧
  (∀ (a : BitVec 26) (d : W64), Ready s → a.toNat % 8 = 0 → 0x1000000 ≤ a.toNat → answers s 0x48 = true → awake s (bankOf (a.toNat % 0x1000000)) = true → ∀ edge, Gives (.hostRequest false a d ⟨.clean, edge⟩) s fun t =>
    t.bus = { s.bus with resp := s.bus.resp ++ [⟨.host, .ok, mossWord s (a.toNat % 0x1000000)⟩] } ∧ t = { s with bus := t.bus, pm := t.pm }) ∧
  (∀ (a : BitVec 26) (d : W64) (p : ReadPath) (we : Bool), Ready s → a.toNat % 8 ≠ 0 → Gives (.hostRequest we a d p) s fun t =>
    t.bus = { s.bus with resp := s.bus.resp ++ [⟨.host, .err, 0⟩] } ∧ t = { s with bus := t.bus, pm := t.pm }) ∧
  (∀ (x : Resp) (rest : List Resp), s.bus.resp = x :: rest → Gives .hostResponseTaken s fun t => t = { s with bus := { s.bus with resp := rest } }) ∧
  (∀ (x : Access) (k : Nat), s.bus.ready = [] → s.bus.queue = [] → s.bus.cur = some (x, .island k) → answerComing s k = false → x.we = false → x.src = .host → Gives .hostAccessTimeout s fun t =>
    t.bus = { s.bus with cur := none, resp := s.bus.resp ++ [⟨.host, .err, 0⟩] } ∧ t = { s with bus := t.bus, pm := t.pm })

/-! ### Steps, reset and start-up (spec/17_startup_image.md, spec/19_register_map.md, spec/20_ports_electrical.md) -/

/-- n steps lead from s to t, and none of them stops. -/
def Sys2Proof.Claims.Reaches : Nat → State → State → Prop
  | 0, s, t => t = s
  | n + 1, s, t => ∃ u, step s = .next u ∧ Reaches n u t

/-- A step runs the command at the front of the queue on the state with the queue's rest; on an empty queue the block idles (the model's choice, log entry 1). -/
def Obligations.StepTakesFront : Prop := ∀ (s : State) (c : Instr) (rest : List Instr),
  step { s with pending := c :: rest } = exec c { s with pending := rest } ∧ (s.pending = [] → step s = .next s)

/-- R403: RZ_ID is constant for the member: whatever commands wait, resets and register writes included, the steps that run them never stop, leave the queue empty, and RZ_ID reads the same after them. -/
def Obligations.IdentityIsConstant : Prop := ∀ s : State, ∃ t, Reaches s.pending.length s t ∧ t.pending = [] ∧ t.member = s.member ∧ reg t RZ_ID = reg s RZ_ID

/-- Every step keeps the invariant of a legal member (R1, R2, R403), and adds no command to the queue. -/
def Obligations.InvariantKept : Prop := ∀ s t : State, Inv s → step s = .next t → Inv t ∧ t.pending = s.pending.tail ∧ t.member = s.member

/-- The invariant holds after reset. -/
def Obligations.InvariantAtReset : Prop := Inv State.reset ∧ State.reset.pending = []

/-- R76, R153, R164, R398, R399, R401, R420: while RST_N is low every register but RZ_ID holds its reset value, every word of Moss reads 0, and nothing is in progress; the OTP, the flash, the straps and
the levels of the surroundings stay. No request is taken at the host port. Right after reset the block is in Spore mode and every frond is Dark with its core off.
The model's choices and readings in it: log entries 18, 19, 92 and 93. -/
def Obligations.ResetState : Prop :=
  (∀ s : State, Gives .resetAssert s fun t =>
    (∀ a, a ≠ RZ_ID → reg t a = BitVec.ofNat 64 (memberReset s.member a)) ∧ (∀ f k, f < 64 → k < 64 → scal t f k = 0) ∧ (∀ off, mossWord t off = 0) ∧ (∀ f, fr t f = {}) ∧ t.bus = {} ∧
    t.otp = s.otp ∧ t.flash = s.flash ∧ t.pm.addr = s.pm.addr ∧ t.adm.lines = s.adm.lines ∧ hostReady t = false ∧ ∀ n, n < 48 → (stg t n).flt = (stg s n).flt) ∧
  let s := State.reset
  inSpore s = true ∧ fget s NV_BOOT_STAT_STEP = 0 ∧ inTakeover s = false ∧ (∀ f, f < 64 → railSt s f = 0 ∧ coreSt s f = 0 ∧ ∀ k, k < 64 → scal s f k = 0) ∧
  (∀ b, b < 32 → ownerOf s b = bankOwnerReset b) ∧ mossWord s 0 = 0 ∧ s.pending = [] ∧ maxLvl s = 0

/-- R364, R365, R368, R398: the values after reset, and the start-up up to the boot record: the OTP is the bitwise majority of three reads, MT_UID carries its identity, and the boot record selects the
slot.
The model's choices and readings in it: log entries 15 and 55. -/
def Obligations.ResetRelease : Prop := ∀ (s : State) (a b c : BitVec 512) (p : BitVec 3), fget s NV_BOOT_STAT_STEP = 0 → Gives (.resetRelease a b c p) s fun t =>
  t.otp = ((s.otp ||| a) &&& (s.otp ||| b)) ||| ((s.otp ||| a) &&& (s.otp ||| c)) ||| ((s.otp ||| b) &&& (s.otp ||| c)) ∧
  fget t NV_BOOT_STAT_STEP = 2 ∧ (reg t MT_UID).toNat = otpUid t ∧ t.chip.rst = false ∧ t.pm.addr = p.toNat ∧
  (flag t NV_BOOT_STAT_OTP_MAJ = false → flag s NV_BOOT_STAT_OTP_MAJ = false → s.otp ||| a = s.otp ||| b ∧ s.otp ||| b = s.otp ||| c) ∧
  ((bootRec s).state = 0 → fget t NV_BOOT_STAT_SLOT = (bootRec s).slot % 2 ∧ t.flash = s.flash) ∧
  ((bootRec s).state = 1 → flag t NV_BOOT_STAT_TRIAL = true ∧ fget t NV_BOOT_STAT_SLOT = (bootRec s).slot % 2) ∧
  ((bootRec s).state = 2 → fget t NV_BOOT_STAT_SLOT = (bootRec s).prev % 2)

/-- R370 to R375: once group 0 has power good ON goes to every frond; an image that verifies takes the start-up to step 6, with the other slot's after a failure, and two that fail end it at step 9; its
application ends at step 7, and the Spore exit sends each frond its held entries and the S4 of R291.
The model's choices and readings in it: log entries 71, 72, 73, 75 and 106. -/
def Obligations.StartUp : Prop := ∀ s : State, answers s (activeIsl s) = true → inTakeover s = false →
  (inSpore s = true → flag s (VP_GRP_STAT_PG 0) = true → 1 ≤ fget s NV_BOOT_STAT_STEP → Gives .frondOnBroadcast s fun t => ∀ f, f < nF s →
    (fr t f).air = (fr s f).air ++ [⟨(fr s f).sent, .write 0x88 1, false⟩] ∧ (fr t f).sent = (fr s f).sent + 1) ∧
  (∀ fail ue : BitVec 2, let a := fget s NV_BOOT_STAT_SLOT
    let x := trySlot s a (bitOf fail.toNat a) (bitOf ue.toNat a)
    let y := trySlot x.1 (1 - a) (bitOf fail.toNat (1 - a)) (bitOf ue.toNat (1 - a))
    let res := fun (k : Nat) => if k = 0 then NV_BOOT_STAT_RES0 else NV_BOOT_STAT_RES1
    inSpore s = true → fget s NV_BOOT_STAT_STEP = 2 → answers s 0x4A = true → Gives (.imageRead fail ue) s fun t =>
      (fget t NV_BOOT_STAT_STEP = if x.2 = 0 ∨ y.2 = 0 then 6 else 9) ∧ (fget t NV_BOOT_STAT_SLOT = if x.2 ≠ 0 ∧ y.2 = 0 then 1 - a else a) ∧ fget t (res a) = x.2 % 16 ∧
      (x.2 ≠ 0 → fget t (res (1 - a)) = y.2 % 16)) ∧
  (inSpore s = true → fget s NV_BOOT_STAT_STEP = 2 → answers s 0x4A = true → Gives (.imageRead 3 0) s fun t =>
    fget t NV_BOOT_STAT_STEP = 9 ∧ fget t NV_BOOT_STAT_RES0 = 8 ∧ fget t NV_BOOT_STAT_RES1 = 8 ∧ ∀ b ∈ stageBanks, ownerOf t b = bankOwnerReset b) ∧
  (∀ ue : Bool, fget s NV_BOOT_STAT_STEP = 6 → s.bus.ready = [] → s.bus.queue = [] → (∀ p ∈ regEntries (stagedRd s), entryHeld p = true) → Gives (.imageApply ue) s fun t =>
    fget t NV_BOOT_STAT_STEP = 7 ∧ fget t NV_IMAGE_ID_IMAGE_ID = imgU (stagedRd s) 20 4 ∧ t.nv.held = regEntries (stagedRd s)) ∧
  (fget s NV_BOOT_STAT_STEP = 7 → (∀ f, f < nF s → railSt s f ≠ 1 ∧ railSt s f ≠ 2 ∧ railSt s f ≠ 4) → waiting s = [] → s.chip.exitWait = [] → Gives .sporeExit s fun t =>
    t.chip.exitWait = List.range (nF s) ∧ inSpore t = inSpore s ∧ ∀ f, f < nF s → 
      (fr t f).air = (fr s f).air ++ [⟨(fr s f).sent, .sporeExit ((s.nv.held.filter (heldFor f)).map fun p => (p.1 % 0x10000, p.2)), false⟩, ⟨(fr s f).sent + 1, .capWord (idleWordOf s f), false⟩])

/-! ### Islands, streams, queues and the Lichen pair (spec/01_architecture.md, spec/16_moss_and_queues.md, spec/17_startup_image.md) -/

/-- R17, R18, R410: REF_CLK that has gone drops every Mat lane and is raised; a heartbeat shows its island running, and a silent island is declared stopped with its stop source.
The model's choices and readings in it: log entry 3. -/
def Obligations.ClocksAndHeartbeats : Prop := ∀ s : State,
  (s.chip.refAbsent = false → Gives .refClkAbsent s fun t =>
    t.chip.refAbsent = true ∧ (∀ l, l < 4 → laneSt t l = 0) ∧ ⟨0, none, 0, 0x47, false⟩ ∈ t.flt.raises ∧ t.fronds = s.fronds ∧ t.bus = s.bus) ∧
  (Gives .refClkReturn s fun t => t = { s with chip := { s.chip with refAbsent := false } }) ∧
  (∀ i : BitVec 8, hasIsl s i.toNat = true → (isl s i.toNat).inReset = false → s.chip.restart = none → Gives (.heartbeatToggle i false) s fun t =>
    answers t i.toNat = true ∧ (isl t i.toNat).beat = !(isl s i.toNat).beat ∧ (∀ j, j ≠ i.toNat → isl t j = isl s j) ∧ t = { s with isls := t.isls }) ∧
  (∀ i : BitVec 8, hasIsl s i.toNat = true → i.toNat ≠ 0x47 → (isl s i.toNat).stopped = false → answers s 0x47 = true → Gives (.islandStopped i) s fun t =>
    answers t i.toNat = false ∧ (∀ j, j ≠ i.toNat → isl t j = isl s j) ∧ t = { s with isls := t.isls, flt := t.flt } ∧
    (∀ f, i.toNat = f → f < 64 → Raised 0x01 (some f) 0 0x47 s t) ∧ (∀ k, k < 7 → i.toNat = 0x40 + k → Raised (2 + k) none 0 0x47 s t) ∧ (∀ k, k < 5 → i.toNat = 0x48 + k → Raised (9 + k) none 0 0x47 s t))

/-- R25, R27, R361, R362: the first word of a packet carries the record's number: the expected one is taken; another one is a gap of a data stream, counted and raised, and makes a command stream refuse
until a resend. An uncorrectable word discards its packet.
The model's choices and readings in it: log entries 28 and 94. -/
def Obligations.QueueWords : Prop := ∀ (s : State) (i : BitVec 8) (n : BitVec 5) (rx : BitVec 8) (w : W64),
  let k := 32 * i.toNat + n.toNat
  let st := tget {} s.strms k
  let only := fun (t : State) => ∀ j, j ≠ k → tget {} t.strms j = tget {} s.strms j
  (∀ tag : BitVec 2, tag.toNat ≤ 1 → st.dropping ≠ 1 → BitVec.ofNat 32 w.toNat = st.expect → Gives (.queueWord i n rx tag w .clean) s fun t =>
    tget {} t.strms k = { st with expect := st.expect + 1, refusing := false, fill := tag.toNat, dropping := 0 } ∧ only t ∧ t = { s with strms := t.strms }) ∧
  (∀ tag : BitVec 2, tag.toNat ≤ 1 → st.dropping ≠ 1 → BitVec.ofNat 32 w.toNat ≠ st.expect → isCommandStream i.toNat n.toNat = false → Gives (.queueWord i n rx tag w .clean) s fun t =>
    (tget {} t.strms k).expect = BitVec.ofNat 32 w.toNat + 1 ∧ (isl t rx.toNat).gaps = min 0xFFFF ((isl s rx.toNat).gaps + 1) ∧ Raised 0x0E none k rx.toNat s t ∧ only t ∧ t.regs = s.regs) ∧
  (∀ tag : BitVec 2, tag.toNat ≤ 1 → st.dropping ≠ 1 → BitVec.ofNat 32 w.toNat ≠ st.expect → isCommandStream i.toNat n.toNat = true → Gives (.queueWord i n rx tag w .clean) s fun t =>
    (tget {} t.strms k).expect = st.expect ∧ (tget {} t.strms k).refusing = true ∧ only t ∧ t = { s with strms := t.strms }) ∧
  (∀ tag : BitVec 2, Gives (.queueWord i n rx tag w .double) s fun t =>
    tget {} t.strms k = { st with ue := min 0xFFFF (st.ue + 1), discards := min 0xFF (st.discards + 1), fill := 0, dropping := 1 } ∧ Raised 0x1B none k rx.toNat s t ∧ only t ∧ t.regs = s.regs)

/-- R25, R27, R29, R257, R360, R363: a stream reset empties the queue at both ends, makes what answers the stream before it void, and lets the active Rhizome forward input records again; a resend sends again what the receiver still expects; a snapshot that arrives fills its registers, and one that does not ends
stale with its registers 0.
The model's choices and readings in it: log entries 29 and 107. -/
def Obligations.ResetsAndProbes : Prop := ∀ s : State,
  (∀ (i : BitVec 8) (n : BitVec 5), Gives (.streamResetHandshake (.queue i n)) s fun t => let k := 32 * i.toNat + n.toNat
    tget {} t.strms k = { tget {} s.strms k with sent := false, seqOut := 0, expect := 0, refusing := false, next := some 0, fill := 0, dropping := 0 } ∧
    (∀ j, j ≠ k → tget {} t.strms j = tget {} s.strms j) ∧ (i.toNat = activeIsl s → n = 2 → t.rz.fhShut = false ∧ t.fh.inAir = []) ∧
    (i.toNat ≠ activeIsl s ∨ n ≠ 2 → t = { s with strms := t.strms })) ∧
  (∀ f : Nat, Gives (.streamResetHandshake (.frond f)) s fun t => (fr t f).air = [] ∧ (fr t f).exp = 0 ∧ (fr t f).sent = (fr t f).unacked.length ∧
    (fr t f).unacked.map (fun c => c.seq) = List.range (fr t f).unacked.length ∧ (fr t f).unacked.map (fun c => c.msg) = ((fr s f).unacked.filter fun c => decide ((fr s f).exp ≤ c.seq)).map (fun c => c.msg) ∧
    (fr t f).inbox = (fr s f).inbox ∧ (∀ g, g ≠ f → fr t g = fr s g) ∧ t.bus.acks = s.bus.acks.map (fun a => if a.isl = f then { a with old := true } else a) ∧
    t = { s with fronds := t.fronds, bus := { s.bus with acks := t.bus.acks } }) ∧
  (∀ f : Nat, Gives (.commandResend (.frond f)) s fun t => fr t f = { fr s f with air := (fr s f).unacked.filter fun c => decide ((fr s f).exp ≤ c.seq) } ∧ InFrond f s t ∧ t.regs = s.regs) ∧
  (∀ (i : BitVec 8) (n : BitVec 5), Gives (.commandResend (.queue i n)) s fun t => let k := 32 * i.toNat + n.toNat
    tget {} t.strms k = { tget {} s.strms k with refusing := false } ∧ (∀ j, j ≠ k → tget {} t.strms j = tget {} s.strms j) ∧ t = { s with strms := t.strms }) ∧
  (∀ (p : Probe) (adv : W64), s.probe = some p → inTakeover s = false → answers s p.isl = true → Gives (.probeSnapshotArrives false adv false) s fun t =>
    reg t RZ_ISLAND_CYCLES = (isl s p.isl).cycles + adv ∧ 
    (p.isl ≠ activeIsl s ∨ p.str ≠ 1 → flag t RZ_ISLAND_SEQ_SENT = (tget {} s.strms (32 * p.isl + p.str)).sent ∧
      ((tget {} s.strms (32 * p.isl + p.str)).sent = true → fget t RZ_ISLAND_SEQ_SEQ_OUT = ((tget {} s.strms (32 * p.isl + p.str)).seqOut - 1).toNat)) ∧
    (p.isl = activeIsl s → p.str = 1 → 0 < s.bus.jSeq → flag t RZ_ISLAND_SEQ_SENT = true ∧ fget t RZ_ISLAND_SEQ_SEQ_OUT = (s.bus.jSeq - 1) % 2 ^ 32) ∧
    flag t RZ_ISLAND_PROBE_BUSY = false ∧ flag t RZ_ISLAND_PROBE_STALE = false ∧ t.probe = none) ∧
  (∀ (p : Probe) (adv : W64), s.qProbe = some p → inTakeover s = false → Gives (.probeSnapshotArrives true adv false) s fun t => let st := tget {} s.strms (32 * p.isl + p.str)
    fget t MS_Q_STAT_FILL = st.fill % 2 ^ ((MS_Q_STAT_FILL).hi + 1 - (MS_Q_STAT_FILL).lo) ∧ fget t MS_Q_STAT_UE = st.ue % 2 ^ ((MS_Q_STAT_UE).hi + 1 - (MS_Q_STAT_UE).lo) ∧
    flag t MS_Q_SEL_BUSY = false ∧ flag t MS_Q_SEL_STALE = false ∧ t.qProbe = none) ∧
  (∀ p, s.probe = some p → Gives (.probeTimeout false) s fun t =>
    reg t RZ_ISLAND_CYCLES = 0 ∧ reg t RZ_ISLAND_SEQ = 0 ∧ flag t RZ_ISLAND_PROBE_STALE = true ∧ flag t RZ_ISLAND_PROBE_BUSY = false ∧ t = { s with regs := t.regs, probe := none }) ∧
  (∀ p, s.qProbe = some p → Gives (.probeTimeout true) s fun t =>
    reg t MS_Q_STAT = 0 ∧ flag t MS_Q_SEL_STALE = true ∧ flag t MS_Q_SEL_BUSY = false ∧ t = { s with regs := t.regs, qProbe := none })

/-- R27, R376, R378: the standby applies and acknowledges the entry with the expected number and takes no other; a digest that differs takes it out of sync; a completed resynchronisation gives it what has committed.
The model's choices and readings in it: log entries 27 and 95. -/
def Obligations.JournalPair : Prop := ∀ s : State,
  (∀ (e : JEntry) (rest : List JEntry), s.bus.jAir = e :: rest → answers s (standbyIsl s) = true →
    (e.seq % 2 ^ 32 = s.bus.sbSeq % 2 ^ 32 → Gives .journalEntry s fun t =>
      t.bus = { s.bus with jAir := rest, standby := commitOp s.bus.standby e.op, sbSeq := e.seq + 1, jAck := s.bus.jAck ++ [e.seq] } ∧ t = { s with bus := t.bus }) ∧
    (e.seq % 2 ^ 32 ≠ s.bus.sbSeq % 2 ^ 32 → exec .journalEntry s = .next s)) ∧
  (∀ (e : JEntry) (n : Nat) (rest : List Nat), s.bus.jAck = n :: rest → s.bus.ready = [] → s.bus.queue = [] → s.bus.jWait = [e] → e.seq = n → e.op = .write RZ_PAIR_CFG 0x114 → e.wait = false → Gives (.journalAck false) s fun t =>
    t.bus.jAck = rest ∧ t.bus.jWait = [] ∧ t.bus.ready = [] ∧ t.bus.commits = commitOp s.bus.commits e.op ∧ fget t RZ_PAIR_CFG_ACK_TO = 0x14 ∧ flag t RZ_PAIR_CFG_RESYNC_EN = true) ∧
  (inSync s = true → answers s (activeIsl s) = true → answers s (standbyIsl s) = true → inTakeover s = false → Gives (.stateDigest true) s fun t =>
    inSync t = false ∧ flag t RZ_PAIR_STAT_RESYNC = flag s RZ_PAIR_CFG_RESYNC_EN ∧ Raised 0x11 none 0 (standbyIsl s) s t ∧
    fget t RZ_PAIR_STAT_DIGEST_FAILS = min (fget s RZ_PAIR_STAT_DIGEST_FAILS + 1) (fmax RZ_PAIR_STAT_DIGEST_FAILS) ∧ t = { s with regs := t.regs, flt := t.flt }) ∧
  (flag s RZ_PAIR_STAT_RESYNC = true → answers s (activeIsl s) = true → answers s (standbyIsl s) = true → inTakeover s = false → s.bus.ready = [] → s.bus.jWait = [] → s.bus.queue = [] →
    Gives .resyncComplete s fun t => inSync t = true ∧ flag t RZ_PAIR_STAT_RESYNC = false ∧ t.bus = { s.bus with standby := s.bus.commits, sbSeq := s.bus.jSeq, jAir := [], jAck := [] } ∧ t.fronds = s.fronds)

/-- R377: if no acknowledgement arrives in time, the waiting entries commit without it (here one write of RZ_SAG_CFG that an access waits for) and source 0x10 is raised; the standby is then out of sync,
and a later entry commits without waiting. An acknowledgement that arrives in the expiry cycle wins, and counts as a near miss (R185).
The model's choices and readings in it: log entry 17. -/
def Obligations.AcknowledgementTimeout : Prop := ∀ (s : State) (x : Access) (n v prov : Nat), s.bus.ready = [] → s.bus.queue = [] → x.src = .host → x.we = true → s.bus.cur = some (x, .commit n) →
  s.bus.jWait = [⟨n, .write RZ_SAG_CFG v, true, prov⟩] →
  (Gives .ackTimeout s fun t => Raised 0x10 none 0 (activeIsl s) s t ∧ inSync t = false ∧ t.bus.jWait = [] ∧ t.bus.jAir = [] ∧ t.bus.commits = commitOp s.bus.commits (.write RZ_SAG_CFG v) ∧
    t.bus.resp = s.bus.resp ++ [⟨.host, .ok, 0⟩] ∧ fget t RZ_SAG_CFG_V_SAG = v % 256 ∧
    fget t RZ_PAIR_STAT_ACK_TIMEOUTS = min (fget s RZ_PAIR_STAT_ACK_TIMEOUTS + 1) (fmax RZ_PAIR_STAT_ACK_TIMEOUTS) ∧
    ∀ (op : JOp) (w : Bool), (journal t op w).bus.ready = [entryOf t op w] ∧ (journal t op w).bus.jWait = []) ∧
  (∀ rest, s.bus.jAck = n :: rest → Gives (.journalAck true) s fun t => t.bus.jWait = [] ∧ t.bus.jAck = rest ∧ inSync t = inSync s ∧ t.flt = s.flt ∧ t.bus.resp = s.bus.resp ++ [⟨.host, .ok, 0⟩] ∧
    fget t RZ_SAG_CFG_V_SAG = v % 256 ∧ fget t RZ_NEAR_MISS_COUNT = min (fget s RZ_NEAR_MISS_COUNT + 1) (fmax RZ_NEAR_MISS_COUNT) ∧ fget t RZ_NEAR_MISS_LAST_KIND = 2)

/-- R88, R355, R379, R380, R404: an acknowledgement answers the access that waited for it and takes the command that it names from those that are kept; a takeover that completes answers what it cut off with ERR and passes the failed Rhizome's banks; a
restarted island whose heartbeat comes runs again, and one that stays silent is held in reset with RESULT 2.
The model's choices and readings in it: log entries 22, 23 and 75. -/
def Obligations.TakeoverAndRestart : Prop := ∀ s : State,
  (∀ (f : BitVec 8) (ok old : Bool) (x : Access) (c : FCmd) (rest : List Ack), f.toNat < 64 → takeFirst (fun a : Ack => a.isl == f.toNat) s.bus.acks = some (⟨f.toNat, ok, true, some c, old⟩, rest) →
    answers s (activeIsl s) = true → inTakeover s = false → s.bus.ready = [] → s.bus.queue = [] → s.bus.cur = some (x, .island f.toNat) → x.src = .host → x.we = true →
    (∀ l, c.msg ≠ .sporeExit l) → isScalarCmd c.msg = false → inSync s = true → Gives (.commandAck f false) s fun t =>
      t.bus.resp = s.bus.resp ++ [⟨.host, if ok then .ok else .err, 0⟩] ∧ t.bus.acks = rest ∧ t.bus.cur = none ∧ (fr t f.toNat).unacked = (if old then (fr s f.toNat).unacked else (fr s f.toNat).unacked.filter fun d => d.seq != c.seq) ∧ t.regs = s.regs ∧
      (ok = false → c.wait = true → t.bus.jAir = s.bus.jAir ++ [entryOf s (.withdraw x.addr) false]) ∧ (ok = true → t.bus.jAir = s.bus.jAir)) ∧
  (∀ x : Access, inTakeover s = true → answers s (activeIsl s) = true → s.bus.ready = [] → s.bus.queue = [] → s.bus.cur = none → s.bus.lost = [x] → x.src = .host → s.bud.lateTok = [] → s.rz.cmd = [] →
    Gives .takeoverComplete s fun t => inTakeover t = false ∧ t.bus.resp = s.bus.resp ++ [⟨.host, .err, 0⟩] ∧ t.bus.lost = [] ∧ ⟨0x14, some (fget s RZ_PAIR_STAT_ACTIVE), 0, activeIsl s, false⟩ ∈ t.flt.raises ∧
      (∀ b, b < 32 → ownerOf t b = if ownerOf s b = 3 - rzMaster s then rzMaster s else ownerOf s b) ∧
      fget t RZ_PAIR_STAT_TAKEOVERS = min (fget s RZ_PAIR_STAT_TAKEOVERS + 1) (fmax RZ_PAIR_STAT_TAKEOVERS) ∧ answers t (standbyIsl s) = false) ∧
  (∀ r : Restart, s.chip.restart = some r → 0x44 ≤ r.isl → r.isl ≤ 0x46 → s.bus.ready = [] → s.bus.queue = [] → s.bus.commits = [] → Gives .restartHeartbeat s fun t =>
    t.chip.restart = none ∧ answers t r.isl = true ∧ fget t RZ_ISLAND_RST_RESULT = 0 ∧ flag t RZ_ISLAND_RST_BUSY = false ∧ t.fronds = s.fronds ∧ t.bus = s.bus) ∧
  (∀ r : Restart, s.chip.restart = some r → Gives .restartTimeout s fun t => t.chip.restart = none ∧ answers t r.isl = false ∧ (isl t r.isl).inReset = true ∧ fget t RZ_ISLAND_RST_RESULT = 2 ∧
    flag t RZ_ISLAND_RST_BUSY = false ∧ (∀ j, j ≠ r.isl → isl t j = isl s j) ∧ (∀ a, a ≠ RZ_ISLAND_RST → reg t a = reg s a) ∧ t.fronds = s.fronds)


/-! ### Fault collector (spec/15_faults.md) -/

/-- R334, with the reading of log entry 66 for L_c: a raise sets its source, ORs its unit in, counts, and takes its level: with escalation enabled for its class the greater of SEV and one above L_c, at most 4; the
level of a set source never falls. No other source changes, and the outputs follow the level. FAULT_RAISE takes the raise that is in flight so. -/
def Obligations.FaultRaises : Prop := ∀ s : State,
  (∀ (r : Raise) (row : Nat × Nat × Nat), fltRow r.src = some row →
    let i := r.src
    let t := takeRaise s r
    let sev := fget s (RZ_FLT_CFG_SEV i)
    let lc := classLvl s row.1
    let new := if bitOf (fget s RZ_FLT_CTRL_ESC_EN) row.1 = true ∧ 1 ≤ lc then min 4 (max sev (lc + 1)) else sev
    let lvl := if isSet s i = true then max (lvlOf s i) new else new
    isSet t i = true ∧ lvlOf t i = lvl ∧ unitsOf t i = (unitsOf s i ||| match raiseUnit r with | some u => 2 ^ (u % 64) | none => 0) ∧
    fget t (RZ_FLT_CFG_COUNT i) = min (fget s (RZ_FLT_CFG_COUNT i) + 1) (fmax (RZ_FLT_CFG_COUNT i)) ∧
    (∀ j, j < 256 → j ≠ i → isSet t j = isSet s j ∧ lvlOf t j = lvlOf s j ∧ unitsOf t j = unitsOf s j) ∧
    (fget s RZ_FLT_CTRL_F0_THR ≤ lvl → flag t RZ_FLT_LIVE_FAULT0 = true) ∧ (fget s RZ_FLT_CTRL_F1_THR ≤ lvl → flag t RZ_FLT_LIVE_FAULT1 = true) ∧
    (fget s RZ_FLT_CTRL_ALIVE_THR ≤ lvl → t.flt.aliveStop = true) ∧ (lvl = 4 → i ∉ [2, 3, 0x12, 0x13] → flag t RZ_FLT_LIVE_CHIP_DOWN = true)) ∧
  (∀ (c : BitVec 8) (u : Option (BitVec 6)) (d : BitVec 32) (r : Raise) (s1 : State), answers s 0x47 = true → pickRaise s c.toNat (u.map BitVec.toNat) d.toNat = some (r, s1) →
    s.bus.ready = [] → s.bus.queue = [] → s.bus.jWait = [] → Gives (.faultRaise c u d) s fun t => t = { takeRaise s1 r with pm := t.pm, member := s.member, pending := s.pending })

/-- R336: the first raise that finds RZ_FLT_FIRST.VALID at 0 latches its index and record SEQ there and sets VALID; each later raise, of any source, sets OVF and increments OVF_CNT (up to 0xFFFF), and leaves what
is latched. Writing 1 to VALID clears SRC, VALID and OVF, so that the latch is open again, and acknowledges no source: every other register and the collector stay as they are. -/
def Obligations.FirstFaultLatch : Prop := ∀ s : State,
  (∀ (c : BitVec 8) (u : Option (BitVec 6)) (d : BitVec 32) (r : Raise) (s1 : State), answers s 0x47 = true → pickRaise s c.toNat (u.map BitVec.toNat) d.toNat = some (r, s1) → (fltRow r.src).isSome = true →
    s.bus.ready = [] → s.bus.queue = [] → s.bus.jWait = [] → Gives (.faultRaise c u d) s fun t =>
      (flag s RZ_FLT_FIRST_VALID = false → fget t RZ_FLT_FIRST_SRC = r.src ∧ fget t RZ_FLT_FIRST_SEQ = s.flt.seq % 2 ^ 32 ∧ flag t RZ_FLT_FIRST_VALID = true ∧
        flag t RZ_FLT_FIRST_OVF = flag s RZ_FLT_FIRST_OVF ∧ fget t RZ_FLT_FIRST_OVF_CNT = fget s RZ_FLT_FIRST_OVF_CNT) ∧
      (flag s RZ_FLT_FIRST_VALID = true → flag t RZ_FLT_FIRST_VALID = true ∧ fget t RZ_FLT_FIRST_SRC = fget s RZ_FLT_FIRST_SRC ∧ fget t RZ_FLT_FIRST_SEQ = fget s RZ_FLT_FIRST_SEQ ∧
        flag t RZ_FLT_FIRST_OVF = true ∧ fget t RZ_FLT_FIRST_OVF_CNT = min (fget s RZ_FLT_FIRST_OVF_CNT + 1) 0xFFFF)) ∧
  (Direct s RZ_FLT_FIRST (2 ^ 8) → Gives .firstLatchClear s fun t => fget t RZ_FLT_FIRST_SRC = 0 ∧ flag t RZ_FLT_FIRST_VALID = false ∧ flag t RZ_FLT_FIRST_OVF = false ∧
    (∀ a, a ≠ RZ_FLT_FIRST → reg t a = reg s a) ∧ t.flt = s.flt)

/-- R335, R337, R340, R342, R343, R346: an acknowledgement clears its sources and no other; a window that expires at level 2 gives level 3 and its record; a verdict ends its test and is recorded; ALIVE
makes an edge unless it is stopped; the end of the drain takes every frond DARK; the oldest record goes to its fault slot, and the first one since the last clear is pinned.
The model's choices and readings in it: log entries 7 and 68. -/
def Obligations.FaultCollector : Prop := ∀ s : State, answers s 0x47 = true → s.bus.ready = [] → s.bus.queue = [] →
  (∀ (j bits : Nat) (rest : List (Nat × Nat)), s.bus.fltAcks = (j, bits) :: rest → j < 4 → Gives (.faultAck false) s fun t => t.bus.fltAcks = rest ∧
    (∀ i, i / 64 = j → bitOf bits (i % 64) = true → isSet s i = true → isSet t i = false ∧ lvlOf t i = 0 ∧ unitsOf t i = 0 ∧ tget? t.flt.windows i = none ∧ ∀ f, (f, i) ∉ t.flt.caps) ∧
    (∀ i, i < 256 → ¬ (i / 64 = j ∧ bitOf bits (i % 64) = true ∧ isSet s i = true) → isSet t i = isSet s i ∧ lvlOf t i = lvlOf s i ∧ unitsOf t i = unitsOf s i ∧ tget? t.flt.windows i = tget? s.flt.windows i)) ∧
  (∀ (j bits : Nat) (rest : List (Nat × Nat)), s.bus.fltAcks = (j, bits) :: rest → j < 4 → Gives (.faultAck true) s fun t =>
    fget t RZ_NEAR_MISS_LAST_KIND = 1 ∧ fget t RZ_NEAR_MISS_COUNT = min (fget s RZ_NEAR_MISS_COUNT + 1) (fmax RZ_NEAR_MISS_COUNT)) ∧
  (∀ (i : BitVec 8) (q : Nat), (fltRow i.toNat).isSome = true → tget? s.flt.windows i.toNat = some q → isSet s i.toNat = true → lvlOf s i.toNat = 2 → Gives (.level2WindowExpiry i) s fun t =>
    lvlOf t i.toNat = 3 ∧ isSet t i.toNat = true ∧ tget? t.flt.windows i.toNat = none ∧ (∃ r, t.flt.last = some r ∧ r.kind = 2 ∧ r.src = i.toNat ∧ r.lvl = 3 ∧ r.rseq = q) ∧
    (fget s RZ_FLT_CTRL_F1_THR ≤ 3 → flag t RZ_FLT_LIVE_FAULT1 = true) ∧ ∀ k, k < 256 → k ≠ i.toNat → lvlOf t k = lvlOf s k ∧ isSet t k = isSet s k) ∧
  (∀ (i : BitVec 8) (q : Nat), tget? s.flt.windows i.toNat = some q → (isSet s i.toNat = false ∨ lvlOf s i.toNat ≠ 2) → Gives (.level2WindowExpiry i) s fun t =>
    t = { s with flt := { s.flt with windows := t.flt.windows }, pm := t.pm } ∧ tget? t.flt.windows i.toNat = none) ∧
  (∀ (c : BitVec 8) (u : BitVec 6) (v : BitVec 3) (d : BitVec 16) (x : TestRun) (rest : List TestRun), 1 ≤ v.toNat → v.toNat ≤ 4 →
    takeFirst (fun y : TestRun => y.src == c.toNat && y.unit == u.toNat) s.flt.tests = some (x, rest) → Gives (.selfTestVerdict c u v d) s fun t =>
      t.flt.tests = rest ∧ (∃ r, t.flt.last = some r ∧ r.kind = 3 ∧ r.src = c.toNat ∧ r.verdict = v.toNat ∧ r.test = x.test ∧ r.rseq = x.seq ∧ r.tdetail = d.toNat) ∧
      (x.test = 1 → v.toNat = 2 → hasF s x.unit = true → bitOf (fget t (FR_PHASE_HEALTH_OPEN x.unit)) (x.detail % 32) = true) ∧ ∀ k, k < 256 → isSet t k = isSet s k ∧ lvlOf t k = lvlOf s k) ∧
  (s.flt.aliveStop = false → Gives .aliveToggle s fun t => t.flt.alive = !s.flt.alive ∧ t.flt.aliveStop = false ∧ t.fronds = s.fronds) ∧ (s.flt.aliveStop = true → Gives .aliveToggle s fun t => t = s) ∧
  (s.flt.chipDrain = true → Gives .chipDrainExpiry s fun t => t.flt = { s.flt with chipDrain := false } ∧ t.regs = s.regs ∧ ∀ f, f < nF s → fr t f = { fr s f with upd := (fr s f).upd ++ [.chipDark] }) ∧
  (∀ (r : FRec) (rest : List FRec), s.flt.nvmQ = r :: rest → answers s (activeIsl s) = true → answers s 0x4A = true → inTakeover s = false → Gives .faultRecordNvmWrite s fun t =>
    t.flt = { s.flt with nvmQ := rest } ∧ tget? t.flash.fslots (faultSlot s) = some { r with pinned := s.flash.pinned.isNone } ∧ t.flash.pinned = some (s.flash.pinned.getD (faultSlot s)) ∧
    (∀ n, n ≠ faultSlot s → tget? t.flash.fslots n = tget? s.flash.fslots n) ∧ flag t RZ_FLT_NVM_PENDING = !rest.isEmpty ∧ flag t RZ_FLT_NVM_PINNED = true)

/-! ### Moss (spec/16_moss_and_queues.md) -/

/-- R348, R349, R352, R356, R357, R359: a write by the bank's owner stores its word, through an alias the bits set or cleared, and leaves every other byte; a write by another master stores nothing and is
raised; a bank that has woken serves what waited; the scrubber steps through every awake bank.
The model's choices and readings in it: log entries 58, 93 and 94. -/
def Obligations.MossWords : Prop := ∀ s : State, answers s 0x48 = true →
  (∀ (m : BitVec 3) (off : BitVec 24) (d : W64), m.toNat ≠ 0 → m.toNat ≠ 3 → off.toNat % 8 = 0 → awake s (bankOf off.toNat) = true →
    let old := mossWord s off.toNat
    let stored := fun (t : State) (v : Nat) => mossWord t off.toNat = v ∧ (∀ a, (a < off.toNat ∨ off.toNat + 8 ≤ a) → mread 0 t.moss.mem a = mread 0 s.moss.mem a) ∧ t = { s with moss := { s.moss with mem := t.moss.mem } }
    (ownerOf s (bankOf off.toNat) = m.toNat → Gives (.mossWrite m off d) s (fun t => stored t d.toNat) ∧ Gives (.mossBitSet m off d .clean) s (fun t => stored t (old ||| d.toNat)) ∧
      Gives (.mossBitClear m off d .clean) s (fun t => stored t (old - (old &&& d.toNat))) ∧
      Gives (.mossBitSet m off d .double) s fun t => t.moss = s.moss ∧ fget t MS_STAT_LAST_UE = off.toNat ∧ Raised 0x18 none off.toNat 0x48 s t) ∧
    (ownerOf s (bankOf off.toNat) ≠ m.toNat → ∀ i ∈ [Instr.mossWrite m off d, .mossBitSet m off d .clean, .mossBitClear m off d .clean], Gives i s fun t =>
      Raised 0x19 none (off.toNat + m.toNat * 2 ^ 24) 0x48 s t ∧ t = { s with flt := t.flt })) ∧
  (∀ (m : BitVec 3) (off : BitVec 24) (d : W64), m.toNat ≠ 0 → m.toNat ≠ 3 → off.toNat % 8 = 0 → awake s (bankOf off.toNat) = false → Gives (.mossWrite m off d) s fun t =>
    t.moss = { s.moss with waits := s.moss.waits ++ [⟨bankOf off.toNat, m.toNat, 0, off.toNat, d.toNat⟩] } ∧
    fget t (MS_BANK_RSTATE (bankOf off.toNat)) = 3) ∧
  (∀ (off : BitVec 24) (d : W64), Ready s → off.toNat % 8 = 0 → awake s (bankOf off.toNat) = true → ownerOf s (bankOf off.toNat) = 3 → Gives (.mossWrite 3 off d) s fun t =>
    mossWord t off.toNat = d.toNat ∧ Ok s t ∧ t.regs = s.regs ∧ t.flt = s.flt) ∧
  (∀ (b : BitVec 5) (w : MossAcc), fget s (MS_BANK_RSTATE b.toNat) = 3 → s.moss.waits = [w] → w.bank = b.toNat → bankOf w.off = b.toNat → w.kind = 0 → w.data < 2 ^ 64 → ownerOf s b.toNat = w.master →
    s.bus.ready = [] → s.bus.queue = [] → s.bus.cur = none → Gives (.bankWakeComplete b []) s fun t =>
      awake t b.toNat = true ∧ mossWord t w.off = w.data ∧ t.moss.waits = [] ∧ (∀ a, (a < w.off ∨ w.off + 8 ≤ a) → mread 0 t.moss.mem a = mread 0 s.moss.mem a) ∧ t.bus = s.bus ∧ t.flt = s.flt) ∧
  (flag s MS_CFG_SCRUB_EN = true → Gives (.scrub [] []) s fun t => (∀ b, b < 32 → tget 0 t.moss.scrub b = if awake s b then (tget 0 s.moss.scrub b + 1) % 65536 else tget 0 s.moss.scrub b) ∧
    t.moss.mem = s.moss.mem ∧ t.fronds = s.fronds ∧ t.flt = s.flt)

/-! ### The VPM stage (spec/09_vpm_stage.md) -/

/-- R194 to R196, R198 to R203, R211: period starts with their duty and edges, SYNC_IN, the slew of VREF, power-good, shedding, NMIN, diode emulation and all-stage firing of a supply group.
The model's choices and readings in it: log entries 8, 54 and 56. -/
def Obligations.VpmGroups : Prop := ∀ (s : State) (g : BitVec 3), let k := g.toNat
  (∀ (tt : BitVec 16) (v : BitVec 14) (cur : List (BitVec 32)), (grp s k).started = true → startDue s k tt.toNat = true → vinMv s ≠ 0 → Gives (.groupPeriodStart ⟨g, tt⟩ v cur) s fun t =>
    let e : Int := ((grp s k).vref / 256 : Nat) - (v.toNat : Int)
    let dmax : Int := (256 * fget s (VP_GRP_LOOP_DMAX k) : Nat)
    fget t (VP_GRP_STAT_V k) = v.toNat ∧ (grp t k).inForce = [] ∧ (∀ n ∈ stagesOf s k, (stg t n).cur = (cur.getD n 0).toInt) ∧
    (∀ n ∈ stagesOf s k, (stSt s n = 1 ∧ (stg s n).ready = true ∧ (stg s n).flt = false ∨ stSt s n = 2 → stSt t n = 2) ∧ (stSt s n ∈ [0, 4, 5, 6] → stSt t n = stSt s n)) ∧
    (grp t k).acc = (if ¬ (dmax ≤ (grp s k).dPrev ∧ 0 < e) ∧ ¬ ((grp s k).dPrev ≤ 0 ∧ e < 0) then (grp s k).acc + fget s (VP_GRP_LOOP_KI k) * e else (grp s k).acc) ∧
    (grp t k).dPrev = clampInt 0 dmax (((grp s k).vref / 256 * 16384 / vinMv s : Nat) + fget s (VP_GRP_LOOP_KP k) * e + (grp t k).acc) ∧
    (fget s (VP_GRP_PWM_SYNC_EN k) = 0 → (grp t k).period = fget s (VP_GRP_PWM_PERIOD k)) ∧
    (∀ j, j < (actOf t k).length → let x := stg t ((actOf t k).getD j 0)
      x.rise = j * (grp t k).period / (actOf t k).length ∧ x.width = (rne (x.duty * (grp t k).period : Nat) 65536).toNat) ∧
    (∀ h, h ≠ k → grp t h = grp s h) ∧ t.fronds = s.fronds) ∧
  (syncOn s k = false → ∀ tt, startDue s k tt = decide (if (grp s k).first = true then phaseDelay s k ≤ tt else (grp s k).period ≤ tt)) ∧
  ((grp s k).started = false → ∀ tt v cur, Gives (.groupPeriodStart ⟨g, tt⟩ v cur) s fun t => t = s) ∧
  (∀ (p : BitVec 16) (offs : List (BitVec 16)), let y := s.vpm.sync
    (flag s VP_SYNC_STAT_LOCK = true → 100 * ((p.toNat : Int) - y.last).natAbs ≤ 5 * y.last → Gives (.syncInEdge ⟨p, offs⟩) s fun t => fget t VP_SYNC_STAT_PERIOD = p.toNat ∧
      flag t VP_SYNC_STAT_LOCK = true ∧ t.vpm.sync = { y with last := p.toNat, count := y.count + 1 } ∧
      ((y.count + 1) % 2 ^ gcfg s k 0 (VP_GRP_PWM_SDIV k) = 0 → (grp t k).due = true) ∧ t.flt = s.flt) ∧
    (flag s VP_SYNC_STAT_LOCK = true → 5 * y.last < 100 * ((p.toNat : Int) - y.last).natAbs → Gives (.syncInEdge ⟨p, offs⟩) s fun t => fget t VP_SYNC_STAT_PERIOD = p.toNat ∧
      flag t VP_SYNC_STAT_LOCK = false ∧ Raised 0x95 none 0 0x43 s t ∧ fget t VP_SYNC_STAT_LOSSES = min (fget s VP_SYNC_STAT_LOSSES + 1) (fmax VP_SYNC_STAT_LOSSES)) ∧
    (flag s VP_SYNC_STAT_LOCK = false → Gives (.syncInEdge ⟨p, offs⟩) s fun t => fget t VP_SYNC_STAT_PERIOD = p.toNat ∧ flag t VP_SYNC_STAT_LOCK = false ∧ t.vpm.sync.last = p.toNat ∧ t.vpm.sync.offs = offs.map (·.toInt) ∧ t.flt = s.flt ∧
      (2500 ≤ p.toNat → p.toNat ≤ 20000 → 0 < y.run → 100 * (max y.maxP p.toNat - min y.minP p.toNat) < min y.minP p.toNat → t.vpm.sync.run = y.run + 1) ∧
      (p.toNat < 2500 ∨ 20000 < p.toNat → t.vpm.sync.run = 0))) ∧
  (flag s VP_SYNC_STAT_LOCK = false → 16 ≤ s.vpm.sync.run → Gives .syncLock s fun t => flag t VP_SYNC_STAT_LOCK = true ∧ t.vpm.sync.count = 0 ∧
    (grp t k).off = s.vpm.sync.offs.getD k 0 ∧ t.fronds = s.fronds) ∧
  (flag s VP_SYNC_STAT_LOCK = true → Gives .syncLoss s fun t => flag t VP_SYNC_STAT_LOCK = false ∧ (∀ h, h < 8 → flag t (VP_GRP_STAT_SYNC h) = false) ∧
    fget t VP_SYNC_STAT_LOSSES = min (fget s VP_SYNC_STAT_LOSSES + 1) (fmax VP_SYNC_STAT_LOSSES) ∧ Raised 0x95 none 0 0x43 s t ∧ ∃ r, t.vpm.rec_ = some r ∧ r.cause = 9) ∧
  (∀ (vin : BitVec 16) (rails : List (BitVec 14)), Gives (.vrefSlewTick ⟨vin, rails⟩) s fun t => fget t VP_VIN_STAT_VIN = vin.toNat ∧ fget t VP_VIN_STAT_VIN_MIN = min (fget s VP_VIN_STAT_VIN_MIN) vin.toNat ∧
    ((grp s k).started = false → fget t (VP_GRP_STAT_V k) = (rails.getD k 0).toNat) ∧
    (let tgt := 256 * fget s (VP_VID_VID k); let step := (rne (256 * gcfg s k 1 (VP_GRP_LOOP_SLEW k) : Nat) 5).toNat
      (grp t k).vref = (if (grp s k).vref < tgt then min tgt ((grp s k).vref + step) else max tgt ((grp s k).vref - step)) ∧ ((grp t k).vref = 0 → tgt = 0 → (grp t k).started = false))) ∧
  ((grp s k).started = true → fget s (VP_VID_VID k) ≠ 0 → (grp s k).vref = 256 * fget s (VP_VID_VID k) → Gives (.powerGoodRise g) s fun t =>
    flag t (VP_GRP_STAT_PG k) = true ∧ (∀ a, a ≠ VP_GRP_STAT k → reg t a = reg s a) ∧ t = { s with regs := t.regs, pm := t.pm }) ∧
  (flag s (VP_GRP_STAT_PG k) = true → Gives (.powerGoodLoss g) s fun t =>
    flag t (VP_GRP_STAT_PG k) = false ∧ Raised (0x98 + k) (some k) 0 0x43 s t ∧ (∃ r, t.vpm.rec_ = some r ∧ r.cause = 10 ∧ r.grp = k ∧ r.stage = 0xFF) ∧ flag t VP_LASTF_STAT_PENDING = true) ∧
  (∀ ig : BitVec 32, (grp s k).started = true → gcfg s k 3 (VP_GRP_LL_SHED_EN k) ≠ 0 → Gives (.shedEvaluation g ig) s fun t =>
    (grp t k).tgt = shedTarget s k ig.toInt 1 ∧ (grp t k).cur = ig.toInt ∧
    (shedTarget s k ig.toInt 1 < (actOf s k).length → stSt t ((actOf s k).getLastD 0) = 3 ∧ ∀ n, n < 48 → n ≠ (actOf s k).getLastD 0 → stSt t n = stSt s n) ∧
    ((actOf s k).length ≤ shedTarget s k ig.toInt 1 → t.regs = s.regs)) ∧
  (∀ n : BitVec 6, (Quiet s → Gives (.nminUpdate n) s fun t => Journalled (.nmin n.toNat) false s t ∧ t.regs = s.regs ∧ t.fronds = s.fronds) ∧
    fget (takeNmin s n.toNat) (VP_GRP_STAT_NMIN 0) = n.toNat) ∧
  (∀ (rose : Bool) (tt : Nat), (grp s k).started = true → gcfg s k 3 (VP_GRP_LL_AF_EN k) = 1 → (grp s k).firing = false → (grp s k).armed = true → (grp s k).rose = true ∨ rose = true → Gives (.allStageFiring ⟨g, rose⟩) s fun t =>
    flag t (VP_GRP_STAT_AF k) = true ∧ fget t (VP_GRP_STAT_AF_COUNT k) = min (fget s (VP_GRP_STAT_AF_COUNT k) + 1) (fmax (VP_GRP_STAT_AF_COUNT k)) ∧
    (∀ n ∈ servOf s k, (stg s n).flt = false → (stg s n).held ≠ some (stagePeriod s n tt) → stageLines t n tt = (true, .high)) ∧ ∀ n, stSt t n = stSt s n) ∧
  (∀ (tt : BitVec 16) (rec : Bool), (grp s k).firing = true → Gives (.firingEnd ⟨g, tt⟩ rec) s fun t => (grp t k).firing = false ∧ (grp t k).afHold = true ∧ (grp t k).rose = rec ∧ t.regs = s.regs ∧
    (∀ n ∈ servOf s k, (stg s n).flt = false → stageLines t n tt.toNat = (true, .low))) ∧
  ((grp s k).afHold = true → Gives (.afHoldExpiry g) s fun t => (grp t k).afHold = false ∧ flag t (VP_GRP_STAT_AF k) = (grp s k).firing ∧ ∀ n, stSt t n = stSt s n)

/-- R200, R204 to R208, R213, R214, R296: the check of a stage, its short-circuit trips and hiccups, its overload filter, its fault line, the input, and the capture of a record in the flash.
The model's choices and readings in it: log entries 54 and 104. -/
def Obligations.VpmStages : Prop := ∀ (s : State) (n : BitVec 6), n.toNat < 48 → let k := n.toNat; let g := fget s (VP_STAGE_GROUP k); let x := stg s k
  (∀ (sw : BitVec 16) (rail : BitVec 14), stSt s k = 1 → x.ready = false → inputOk s = true →
    (4 * sw.toNat ≤ rail.toNat + 4 * 20 * gcfg s g 2 (VP_GRP_LIM_HSS_V g) → Gives (.stageCheck n sw rail) s fun t =>
      (stg t k).ready = true ∧ stSt t k = 1 ∧ (x.restart = false → t.regs = s.regs) ∧ (x.restart = true → fget t VP_STAGE_CMD_RESULT = 0 ∧ flag t VP_STAGE_CMD_BUSY = false)) ∧
    (rail.toNat + 4 * 20 * gcfg s g 2 (VP_GRP_LIM_HSS_V g) < 4 * sw.toNat → Gives (.stageCheck n sw rail) s fun t =>
      stSt t k = 5 ∧ fget t (VP_STAGE_CAUSE k) = 5 ∧ ⟨0x90, some k, 0, 0x43, false⟩ ∈ t.flt.raises ∧ ∀ m, m < 48 → m ≠ k → stSt t m = stSt s m)) ∧
  (∀ tt : BitVec 16, stSt s k = 2 → flag s (VP_GRP_STAT_DE g) = true → schedHigh s k tt.toNat = false → Gives (.zeroCurrentTrip ⟨n, tt⟩) s fun t => (stg t k).deCut = some (stagePeriod s k tt.toNat) ∧
    (∀ m, m ≠ k → stg t m = stg s m) ∧ t = { s with vpm := { s.vpm with stages := t.vpm.stages } }) ∧
  (∀ (tt : BitVec 16) (i : BitVec 32), let p := stagePeriod s k tt.toNat
    (stSt s k = 2 → x.tripIn.any (fun j => j + 1 == p) = false → Gives (.shortCircuitTrip ⟨n, tt, i⟩) s fun t =>
      stSt t k = 2 ∧ (stg t k).held = some p ∧ (stg t k).tripIn = some p ∧ fget t (VP_STAGE_SC_TRIPS k) = min (fget s (VP_STAGE_SC_TRIPS k) + 1) (fmax (VP_STAGE_SC_TRIPS k)) ∧ t.flt = s.flt ∧
      (x.flt = false → stageLines t k tt.toNat = (true, .low))) ∧
    (∀ j, stSt s k = 2 → x.tripIn = some j → j + 1 = p → x.hic < gcfg s g 2 (VP_GRP_LIM_HIC_MAX g) → Gives (.shortCircuitTrip ⟨n, tt, i⟩) s fun t =>
      stSt t k = 4 ∧ (stg t k).hic = x.hic + 1 ∧ (stg t k).tripIn = none ∧ fget t (VP_STAGE_HICCUPS k) = min (fget s (VP_STAGE_HICCUPS k) + 1) (fmax (VP_STAGE_HICCUPS k)) ∧ ⟨0x91, some k, 0, 0x43, false⟩ ∈ t.flt.raises) ∧
    (∀ j, stSt s k = 2 → x.tripIn = some j → j + 1 = p → gcfg s g 2 (VP_GRP_LIM_HIC_MAX g) ≤ x.hic → Gives (.shortCircuitTrip ⟨n, tt, i⟩) s fun t =>
      stSt t k = 5 ∧ fget t (VP_STAGE_CAUSE k) = 2 ∧ ⟨0x92, some k, 0, 0x43, false⟩ ∈ t.flt.raises) ∧
    (stSt s k = 3 → Gives (.shortCircuitTrip ⟨n, tt, i⟩) s fun t => stSt t k = 3 ∧ (stg t k).held = some p ∧ fget t (VP_STAGE_SC_TRIPS k) = min (fget s (VP_STAGE_SC_TRIPS k) + 1) (fmax (VP_STAGE_SC_TRIPS k)) ∧ t.flt = s.flt)) ∧
  (stSt s k = 4 → Gives (.hiccupOffExpiry n) s fun t => (stSt t k = if inputOk s = true ∧ x.flt = false then 1 else 6) ∧ ∀ m, m < 48 → m ≠ k → stSt t m = stSt s m) ∧
  (∀ cur : List (BitVec 32), 0 < x.ifDen → Gives (.overloadFilterTick cur) s fun t =>
    let tau := max 1 (gcfg s g 2 (VP_GRP_LIM_TAU g))
    let f : Rat := (x.ifNum : Rat) / x.ifDen * (1 - 1 / (10 * tau)) + (cur.getD k 0).toInt / (10 * tau)
    (∀ h, h < 8 → tget 0 t.bud.gTot h = tget 0 s.bud.gTot h + fget s (VP_GRP_STAT_V h) * (stagesOf s h).foldl (fun a m => a + (cur.getD m 0).toInt) 0) ∧
    (stSt s k = 2 → ((stg t k).ifNum : Rat) / (stg t k).ifDen = f) ∧
    (stSt s k = 2 → f ≤ 250 * gcfg s g 2 (VP_GRP_LIM_IOL g) → (stg t k).ovl = false ∧ stSt t k = 2 ∧ fget t (VP_STAGE_TRIM k) = fget s (VP_STAGE_TRIM k)) ∧
    (stSt s k = 2 → 250 * gcfg s g 2 (VP_GRP_LIM_IOL g) < f → (stg t k).ovl = true ∧ fget t (VP_STAGE_TRIM k) = patOf 16 (-(gcfg s g 1 (VP_GRP_LOOP_TRIM_MAX g) * 128 : Nat)) ∧
      (x.overTicks < 20 * tau → stSt t k = 2) ∧ (20 * tau ≤ x.overTicks → stSt t k = 5 ∧ fget t (VP_STAGE_CAUSE k) = 4))) ∧
  (∀ i : BitVec 32, x.flt = false → stSt s k ≠ 0 → Gives (.stageFaultLine ⟨n, i⟩ true) s fun t =>
    (stg t k).flt = true ∧ stSt t k = 5 ∧ fget t (VP_STAGE_CAUSE k) = 6 ∧ ⟨0x94, some k, 0, 0x43, false⟩ ∈ t.flt.raises ∧ ∀ tt, stageLines t k tt = (false, .mid)) ∧
  (∀ i : BitVec 32, x.flt = false ∨ stSt s k ≠ 6 ∨ (grp s g).started = false → Gives (.stageFaultLine ⟨n, i⟩ false) s fun t => (stg t k).flt = false ∧ t = { s with vpm := { s.vpm with stages := t.vpm.stages } }) ∧
  (∀ i : BitVec 32, x.flt = true → stSt s k = 6 → (grp s g).started = true → Gives (.stageFaultLine ⟨n, i⟩ false) s fun t => (stg t k).flt = false ∧ (stSt t k = if inputOk s then 1 else 6) ∧ t.flt = s.flt) ∧
  (fget s VP_VIN_STAT_STATE ≠ 1 → Gives .inputUndervoltage s fun t => fget t VP_VIN_STAT_STATE = 1 ∧ ⟨0xA8, none, 0, 0x43, false⟩ ∈ t.flt.raises ∧ (grp t g).started = false ∧
    fget t VP_VIN_STAT_UV_EVENTS = min (fget s VP_VIN_STAT_UV_EVENTS + 1) (fmax VP_VIN_STAT_UV_EVENTS) ∧ (flag s (VP_STAGE_IMG_EN k) = true → stSt t k = if stSt s k = 5 then 5 else 6)) ∧
  (fget s VP_VIN_STAT_STATE ≠ 2 → Gives .inputOvervoltage s fun t => fget t VP_VIN_STAT_STATE = 2 ∧ ⟨0xA9, none, 0, 0x43, false⟩ ∈ t.flt.raises ∧ (grp t g).started = false ∧
    fget t VP_VIN_STAT_OV_EVENTS = min (fget s VP_VIN_STAT_OV_EVENTS + 1) (fmax VP_VIN_STAT_OV_EVENTS) ∧ (flag s (VP_STAGE_IMG_EN k) = true → stSt t k = if stSt s k = 5 then 5 else 6)) ∧
  (fget s VP_VIN_STAT_STATE ≠ 0 → Gives .inputRestart s fun t => fget t VP_VIN_STAT_STATE = 0 ∧
    (fget s (VP_VID_VID g) ≠ 0 → (grp s g).started = false → flag s (VP_STAGE_IMG_EN k) = true → (grp t g).started = true ∧ (grp t g).vref = 256 * fget s (VP_GRP_STAT_V g) ∧
      stSt t k = if stSt s k = 5 then 5 else if x.flt then 6 else 1)) ∧
  (∀ (r : VRec) (temp : BitVec 16), s.vpm.rec_ = some r → flag s VP_LASTF_STAT_PENDING = true → answers s (activeIsl s) = true → answers s 0x4A = true → inTakeover s = false → s.flash.vpm0 = none → Gives (.vpmRecordWrite temp) s fun t =>
    flag t VP_LASTF_STAT_PENDING = false ∧ t.flash = { s.flash with vpm0 := some { r with temp := if r.stage = 0xFF then 0x8000 else temp.toNat } } ∧ t.vpm = s.vpm)

/-! ### Converters and leaf calibration (spec/10_sensing.md) -/

/-- R219, R222 to R225, R229, R234 to R237: triggers and cancels, samples, comparators, words that land in a ring, and the calibration sequencer.
The model's choices and readings in it: log entries 59, 60, 62 and 121. -/
def Obligations.ConvertersAndCalibration : Prop := ∀ (s : State) (c : BitVec 3), let k := c.toNat
  let ready := fun (j : Nat) => flag s (AD_CONV_CFG_EN j) = true ∧ oddOfPair s j = false ∧ answers s 0x44 = true
  let begun := fun (t : State) (j src : Nat) => flag t (AD_CONV_STAT_BUSY j) = true ∧ ∃ b, (cv t j).run = some b ∧ b.src = src ∧ b.taken = 0 ∧ b.ch = fget s (AD_CONV_CFG_CH j) ∧ b.len = fget s (AD_CONV_CFG_LEN j) + 1
  ((cv s k).timer = true → ready k → (cv s k).run = none → Gives (.timerTrigger c) s fun t => begun t k 1 ∧ t.fronds = s.fronds) ∧
  ((cv s k).timer = true → ready k → (cv s k).run.isSome = true → Gives (.timerTrigger c) s fun t =>
    fget t (AD_CONV_STAT_BUSY_DROPS k) = min (fget s (AD_CONV_STAT_BUSY_DROPS k) + 1) (fmax (AD_CONV_STAT_BUSY_DROPS k)) ∧ t.conv = s.conv) ∧
  (∀ (e : BitVec 2) (sel : BitVec 6), Gives (.pwmEvent e sel) s fun t =>
    (pwmFor s e.toNat sel.toNat k = true → ready k → (cv s k).run = none → begun t k 2) ∧ (pwmFor s e.toNat sel.toNat k = false → cv t k = cv s k)) ∧
  (∀ (e : BitVec 2) (sel : BitVec 6), Gives (.pwmCancel e sel) s fun t =>
    (∀ b, (cv s k).run = some b → b.ofEvent e.toNat sel.toNat = true → b.taken = 0 → b.stale = false → (cv t k).run = none ∧ flag t (AD_CONV_STAT_BUSY k) = false ∧
      fget t (AD_CONV_STAT_CANCELLED k) = min (fget s (AD_CONV_STAT_CANCELLED k) + 1) (fmax (AD_CONV_STAT_CANCELLED k))) ∧
    (∀ b, (cv s k).run = some b → (0 < b.taken ∨ b.stale = true ∨ b.ofEvent e.toNat sel.toNat = false) → cv t k = cv s k)) ∧
  (∀ (e : BitVec 2) (sel : BitVec 6), Gives (.skipEvent e sel) s fun t => t.conv = s.conv ∧
    fget t (AD_CONV_STAT_SKIPPED k) = if pwmFor s e.toNat sel.toNat k then min (fget s (AD_CONV_STAT_SKIPPED k) + 1) (fmax (AD_CONV_STAT_SKIPPED k)) else fget s (AD_CONV_STAT_SKIPPED k)) ∧
  (∀ (w : BitVec 6) (rest : List Nat), takeFirst (fun x : Nat => x == w.toNat) s.conv.trigs = some (w.toNat, rest) → Gives (.windowTrigger w) s fun t => t.conv.trigs = rest ∧
    (fget s (AD_CONV_TRIG_SRC k) = 3 → fget s (AD_CONV_TRIG_SEL k) = w.toNat → ready k → (cv s k).run = none → begun t k 3)) ∧
  (answers s 0x44 = true → Gives (.converged c) s fun t => flag t (AD_CONV_STAT_CONVERGED k) = true ∧ t.conv = s.conv ∧ ∀ a, a ≠ AD_CONV_STAT k → reg t a = reg s a) ∧
  (∀ (v : BitVec 12) (b : Burst), (cv s k).run = some b → b.pair = false → flag s (AD_CONV_CFG_EN k) = true → b.cont = false → b.taken < b.len → channelOf s k = none → Gives (.converterSample c v) s fun t =>
    (∃ l, (cv t k).run = some { b with taken := b.taken + 1, lost := l }) ∧
    (flag s (AD_CONV_STAT_CONVERGED k) = true → s.chip.refAbsent = false → badChannel s b.ch = false → ∀ w ∈ winsFor s k b.ch false,
      let r := winNext (tget 0 s.conv.wins w) (fget s (AD_WIN_CFG_LO w)) (fget s (AD_WIN_CFG_HI w)) (fget s (AD_WIN_CFG_HYS w)) v.toNat
      tget 0 t.conv.wins w = r.1 ∧ bitOf (fget t AD_WIN_OUT_OUT) w = decide (r.1 ≠ 0) ∧ (r.2 = true → bitOf (fget t AD_WIN_EVT_EVT) w = true ∧ w ∈ t.conv.trigs)) ∧
    (flag s (AD_CONV_STAT_CONVERGED k) = false → t.conv.wins = s.conv.wins ∧ t.flt = s.flt)) ∧
  (∀ b : Burst, (cv s k).run = some b → b.cont = false → b.len ≤ b.taken → Gives (.burstComplete c) s fun t => (cv t k).run = none ∧ flag t (AD_CONV_STAT_BUSY k) = false ∧ ∀ j, j ≠ k → cv t j = cv s j) ∧
  (∀ (d : BitVec 4) (w n : Nat) (last : Bool) (rest : List (Nat × Nat × Bool)), flag s (AD_DMA_CFG_EN d.toNat) = true → flag s (AD_DMA_CFG_DEST d.toNat) = false → (dm s d.toNat).words = (w, n, last) :: rest →
    let off := fget s (AD_DMA_CFG_BASE d.toNat) + fget s (AD_DMA_WR_WR d.toNat) % ringSize s d.toNat
    awake s (bankOf off) = true →
      (ownerOf s (bankOf off) = 4 → Gives (.dmaWordLands d) s fun t => mossWord t off = w % 2 ^ 64 ∧ (∀ a, (a < off ∨ off + 8 ≤ a) → mread 0 t.moss.mem a = mread 0 s.moss.mem a) ∧
        fget t (AD_DMA_WR_WR d.toNat) = (fget s (AD_DMA_WR_WR d.toNat) + 8) % 2 ^ 32 ∧ (dm t d.toNat).words = rest ∧ (∀ e, e ≠ d.toNat → dm t e = dm s e)) ∧
      (ownerOf s (bankOf off) ≠ 4 → Gives (.dmaWordLands d) s fun t => t.moss = s.moss ∧ flag t (AD_DMA_CFG_EN d.toNat) = false ∧ flag t (AD_DMA_STAT_OWNERR d.toNat) = true ∧
        ⟨0x3B, none, d.toNat, 0x44, false⟩ ∈ t.flt.raises)) ∧
  (flag s AD_LCAL_CFG_EN = true → inSpore s = false → answers s 0x44 = true → s.conv.lcal.item = none → s.conv.lcal.cmd = none → s.conv.lcal.test = none → s.conv.lcal.tests = [] → s.conv.lcal.wait = false →
    (∀ p, ((List.range (36 * nF s)).find? fun p => decide (s.conv.lcal.pos ≤ p) && lcalItemOk s p) = some p → Gives .lcalItem s fun t => t.conv.lcal.item = some (p / 36, p % 36) ∧ t.conv.lcal.pairs = []) ∧
    (((List.range (36 * nF s)).find? fun p => decide (s.conv.lcal.pos ≤ p) && lcalItemOk s p) = none → Gives .lcalItem s fun t => t.conv.lcal.item = none ∧ t.conv.lcal.wait = true ∧ t.conv.lcal.pos = 0)) ∧
  (Gives .lcalSweepWait s fun t => t = { s with conv := { s.conv with lcal := { s.conv.lcal with wait := false } } }) ∧
  (∀ (a b x y : BitVec 32) (q : Nat × Nat), s.conv.lcal.item = some q → b ≠ 0 → y ≠ 0 → flag s (AD_CONV_STAT_CONVERGED (fget s AD_LCAL_CFG_CONV)) = true → s.chip.refAbsent = false →
    s.conv.lcal.pairs.length < 2 ^ fget s AD_LCAL_CFG_W_LOG →
    (scal s q.1 0 = s.conv.lcal.s0 → Gives (.lcalWindow a b x y false) s fun t => t.conv.lcal.pairs.length = s.conv.lcal.pairs.length + 1 ∧ t.regs = s.regs) ∧
    (∀ bad, bad = true ∨ scal s q.1 0 ≠ s.conv.lcal.s0 → Gives (.lcalWindow a b x y bad) s fun t => t = { s with conv := { s.conv with lcal := { s.conv.lcal with s0 := scal s q.1 0 } } })) ∧
  (∀ f i : Nat, s.conv.lcal.item = some (f, i) → i < 32 → 2 ^ fget s AD_LCAL_CFG_W_LOG ≤ s.conv.lcal.pairs.length →
    let fit := lcalFit (s.conv.lcal.pairs.map pairRat) 16384 (fget s AD_LCAL_CFG_SPREAD) (fget s (FR_LEAF_CAL_GAIN f i))
    (∀ r, fit = some r → fitOk true (fget s AD_LCAL_CFG_RES_MAX) r = true → Gives .lcalFit s fun t => t.conv.lcal.item = none ∧ (fr t f).upd = (fr s f).upd ++ [.write (0x600 + 8 * i) (patOf 16 r.1 + 2 ^ 16 * patOf 16 r.2.1)] ∧
      fget t (FR_LEAF_CAL_FITS f i) = min (fget s (FR_LEAF_CAL_FITS f i) + 1) (fmax (FR_LEAF_CAL_FITS f i)) ∧ t.flt = s.flt) ∧
    ((fit = none ∨ ∃ r, fit = some r ∧ fitOk true (fget s AD_LCAL_CFG_RES_MAX) r = false) → Gives .lcalFit s fun t => t.conv.lcal.item = none ∧ bitOf (fr t f).senseDue i = true ∧ t.flt = s.flt ∧
      fget t AD_LCAL_STAT_REJECTS = min (fget s AD_LCAL_STAT_REJECTS + 1) (fmax AD_LCAL_STAT_REJECTS)))

/-! ### Thermal unit (spec/11_thermal.md) -/

/-- R239, R242, R247, R250, R251: the samples of a frond's sensors and of a remote channel, the band that follows them, a trip, and the fall of a stack's refresh indication.
The model's choices and readings in it: log entry 64. -/
def Obligations.ThermalSamples : Prop := ∀ s : State, answers s 0x45 = true →
  (∀ (f : Nat) (codes : List (BitVec 16)), hasF s f = true → f < 64 → Gives (.thermalSample f codes) s fun t => ∀ q, q < 4 → let n := 4 * f + q
    fget t (TH_SENS_RAW n) = patOf 16 (thermalRaw s n (codes.getD q 0).toNat) ∧ fget t (TH_SENS_BAND n) = bandNext s (fget s (TH_SENS_BAND n)) (cmpRead t n) ∧
    (flag t (TH_SENS_QUAR n) = false → fget t (TH_SENS_READ n) = fget t (TH_SENS_RAW n)) ∧
    (tripT s ≤ cmpRead t n → n ∈ t.th.trips) ∧ (tripT s ≤ cmpRead t n → n ∉ s.th.trips → flag t TH_STAT_TRIPPED = true ∧ ⟨0xB3, none, n, 0x45, false⟩ ∈ t.flt.raises)) ∧
  (∀ (m : BitVec 4) (v : BitVec 21) (dv : BitVec 28), flag s (TH_REM_CFG_EN m.toNat) = true → Gives (.remoteSample m v dv) s fun t =>
    flag t (TH_REM_STAT_INVALID m.toNat) = remInvalid (fget s (TH_REM_CFG_TYPE m.toNat) == 0) v.toNat ∧
    (remInvalid (fget s (TH_REM_CFG_TYPE m.toNat) == 0) v.toNat = true → fget t (TH_REM_STAT_READ m.toNat) = fget s (TH_REM_STAT_READ m.toNat) ∧
      (flag s (TH_REM_STAT_INVALID m.toNat) = false → ⟨0xB0, none, m.toNat, 0x45, false⟩ ∈ t.flt.raises)) ∧
    (remInvalid true v.toNat = false → fget s (TH_REM_CFG_TYPE m.toNat) = 0 → fget t (TH_REM_STAT_READ m.toNat) =
      patOf 16 (clampInt (-32768) 32767 (diodeTemp dv.toNat (bitsOf (fget s (TH_REM_CFG_ETA_R0 m.toNat)) 13 0) (bitsOf (fget s (TH_REM_CFG_RS_BETA m.toNat)) 7 0)))) ∧
    (remInvalid (fget s (TH_REM_CFG_TYPE m.toNat) == 0) v.toNat = false → fget t (TH_REM_STAT_BAND m.toNat) = bandNext s (fget s (TH_REM_STAT_BAND m.toNat)) (s16 (fget t (TH_REM_STAT_READ m.toNat))))) ∧
  (∀ k : BitVec 3, refreshOf s k.toNat < tget 0 s.th.ref k.toNat → Gives (.refreshFallHold k) s fun t => tget 0 t.th.ref k.toNat = refreshOf s k.toNat ∧ (∀ j, j ≠ k.toNat → tget 0 t.th.ref j = tget 0 s.th.ref j) ∧
    t = { s with th := { s.th with ref := t.th.ref } }) ∧
  (∀ k : BitVec 3, tget 0 s.th.ref k.toNat ≤ refreshOf s k.toNat → Gives (.refreshFallHold k) s fun t => t = s)

/-! ### Fiddlehead (spec/12_fiddlehead.md) -/

/-- R27, R254, R255, R256, R257, R259, R260, R263, R272, R275: a cycle that is due while another runs is skipped, and none runs from banks that Fiddlehead does not own; a cycle leaves one record of every
frond; the records are sent, VALID 0 in an abandoned cycle, and reach their three receivers, which count a gap in their numbers; inputs, tokens and checks arrive.
The model's choices and readings in it: log entries 14, 53, 114 and 116. -/
def Obligations.ForecastCycles : Prop := ∀ s : State, s.member.fronds ≤ 64 → answers s 0x42 = true →
  let own := slotOwned s (fget s FH_MODEL_STAT_SLOT) (flag s FH_MODEL_STAT_WIDE)
  let runs := flag s FH_CTRL_EN = true ∧ flag s FH_MODEL_STAT_LOADED = true ∧ inSpore s = false
  (runs → s.fh.run.isSome = true → Gives .forecastCycle s fun t =>
    t.fh = s.fh ∧ fget t FH_STAT_SKIPS = min (fget s FH_STAT_SKIPS + 1) (fmax FH_STAT_SKIPS) ∧ Raised 0xC0 none 0 0x42 s t) ∧
  (runs → s.fh.run = none → s.fh.switch = none → own = true → Gives .forecastCycle s fun t =>
    t.fh.seq = (s.fh.seq + 1) % 2 ^ 32 ∧ t.fh.queue = [] ∧ t.fronds = s.fronds ∧ t.moss = s.moss ∧
    ∃ r, t.fh.run = some r ∧ r.seq = s.fh.seq ∧ (r.recs.map fun p => p.1) = List.range (nF s) ∧ ∀ p ∈ r.recs, provSeq p.2.prov = s.fh.seq % 2 ^ 32) ∧
  (s.fh.run = none → s.fh.switch = none → own = false → exec .forecastCycle s = .next s) ∧
  (∀ (r : FhRun) (reads : List (BitVec 24 × Ecc)), s.fh.run = some r →
    let sent := fun (t : State) (l : List (Nat × FcRec)) =>
      let on := fun (k : Nat) => l.map fun p => (p.1, { p.2 with prov := provWord (provSeq p.2.prov) 0x42 k })
      t.fh.run = none ∧ fget t FH_STAT_CYCLE = r.seq % 2 ^ 32 ∧ t.fh.adAir = s.fh.adAir ++ on 1 ∧ t.rz.fcAir = s.rz.fcAir ++ on 2 ∧
      ∀ f, (fr t f).upd = (fr s f).upd ++ (l.filter fun p => p.1 == f).map fun p => .forecast p.2.prov p.2.w1 p.2.w2 p.2.w3
    (firstUe reads = none → Gives (.forecastRecordsSent reads) s fun t => sent t r.recs ∧ (reads = [] → t.flt = s.flt)) ∧
    (∀ off, firstUe reads = some off → Gives (.forecastRecordsSent reads) s fun t => sent t (r.recs.map fun p => (p.1, voidRec p.2)) ∧ ⟨0xC1, none, off, 0x42, false⟩ ∈ t.flt.raises ∧
      ∀ p ∈ r.recs, bitOf (voidRec p.2).w1 22 = false)) ∧
  (∀ (f p a b c : Nat) (rest : List FMsg), (fr s f).upd = .forecast p a b c :: rest → answers s f = true → let next := (tget {} s.strms (fcKey 0 f)).next
    Gives (.forecastRecord .core f false) s fun t =>
      fr t f = { fr s f with upd := rest, inbox := (fr s f).inbox ++ [(0, .forecast p a b c)] } ∧ (∀ g, g ≠ f → fr t g = fr s g) ∧ t.regs = s.regs ∧
      (next = none ∨ next = some (BitVec.ofNat 32 (provSeq p)) → t.flt = s.flt) ∧
      (next ≠ none → next ≠ some (BitVec.ofNat 32 (provSeq p)) → Raised 0x0E none (32 * 0x42) f s t ∧ (isl t f).gaps = min 0xFFFF ((isl s f).gaps + 1))) ∧
  (∀ (f : Nat) (x : FcRec) (rest : List (Nat × FcRec)), s.fh.adAir = (f, x) :: rest → Gives (.forecastRecord .admission f false) s fun t =>
    t.fh.adAir = rest ∧ (tget none t.adm.fc f).isSome = bitOf x.w1 22 ∧ (∀ g, g ≠ f → tget none t.adm.fc g = tget none s.adm.fc g) ∧ t.fronds = s.fronds ∧ t.regs = s.regs) ∧
  (∀ (f : Nat) (x : FcRec) (rest : List (Nat × FcRec)), s.rz.fcAir = (f, x) :: rest → Gives (.forecastRecord .rhizome f false) s fun t => tget? t.rz.fc f = some x ∧ t.rz.fcAir = rest ∧ t.fronds = s.fronds ∧ t.regs = s.regs) ∧
  (∀ (f : Nat) (x : FIn) (rest : List (Nat × FIn)), s.fh.inAir = (f, x) :: rest → Gives (.fhInputRecord f) s fun t =>
    fhF t f = { fhF s f with got := some x, hist := (x.cur :: (fhF s f).hist).take 8 } ∧ (∀ g, g ≠ f → fhF t g = fhF s g) ∧ t.fh.inAir = rest ∧ t.regs = s.regs) ∧
  (∀ (c : BitVec 4) (w : W64), answers s 0x4C = true → let k := putBits w.toNat 7 4 c.toNat
    let onward := fun t : State => t.bud.tokAir = s.bud.tokAir ++ [(nextProv s 0x4C 1, k)]
    (tokenOk k = false → Gives (.hintToken c w) s fun t => fget t FH_HINT_STAT_BAD = min (fget s FH_HINT_STAT_BAD + 1) (fmax FH_HINT_STAT_BAD) ∧ t.fh = s.fh ∧ t.bud = s.bud) ∧
    (tokenOk k = true → bitsOf k 3 0 ≠ 0 → s.fh.queue.length < 256 → Gives (.hintToken c w) s fun t =>
      t.fh = { s.fh with queue := s.fh.queue ++ [(nextProv s 0x4C 0, k)] } ∧ fget t FH_HINT_STAT_TOKENS = min (fget s FH_HINT_STAT_TOKENS + 1) (fmax FH_HINT_STAT_TOKENS) ∧ onward t) ∧
    (tokenOk k = true → bitsOf k 3 0 ≠ 0 → 256 ≤ s.fh.queue.length → Gives (.hintToken c w) s fun t =>
      t.fh = s.fh ∧ fget t FH_HINT_STAT_DROPS = min (fget s FH_HINT_STAT_DROPS + 1) (fmax FH_HINT_STAT_DROPS) ∧ onward t)) ∧
  (∀ (op slot : Nat) (wide : Bool) (reads : List (BitVec 24 × Ecc)), s.fh.check = some (op, slot, wide) → Gives (.modelCheckDone reads) s fun t =>
    let c := if slotOwned s slot wide = false then 6 else if (firstUe reads).isSome then 7 else modelCode (slotRd s slot wide) (slotSize wide)
    t.fh.check = none ∧ flag t FH_MODEL_CMD_BUSY = false ∧ fget t FH_MODEL_CMD_RESULT = c % 16 ∧
    (c = 0 → op = 2 → flag s FH_CTRL_EN = true → t.fh.switch = some (slot, wide)) ∧ (c ≠ 0 ∨ op ≠ 2 → t.fh.switch = s.fh.switch ∧ (reads = [] → t.moss = s.moss)))

/-! ### Budget, energy and jobs (spec/13_budget_capping.md) -/

/-- R190, R257, R285, R288, R294, R297, R299: telemetry, the period, reports, cuts and jobs at the active Rhizome.
The model's choices and readings in it: log entries 40, 46 and 48. -/
def Obligations.BudgetAndEnergy : Prop := ∀ s : State, answers s (activeIsl s) = true → inTakeover s = false → s.bus.ready = [] → s.bus.queue = [] →
  (∀ (f : Nat) (x : TelRec) (rest : List TelRec), takeFirst (fun y : TelRec => y.f == f) s.telAir = some (x, rest) → Gives (.telemetryRecord f) s fun t =>
    t.telAir = rest ∧ tget? t.rz.tel f = some x ∧ t.adm.air = s.adm.air ++ [.current f (max 0 x.iMean).toNat] ∧ t.fronds = s.fronds ∧ (s.rz.fhShut = true → t.fh = s.fh) ∧
    (s.rz.fhShut = false → ∃ y : FIn, t.fh.inAir = s.fh.inAir ++ [(f, y)] ∧ y.cur = x.iMean ∧ y.act = x.act ∧ y.h = x.h ∧ y.rail = x.rail ∧ y.s0 = pointP s f ∧ y.bridge = x.bridged)) ∧
  (∀ (d n : Nat) (est meas floor : Rat), (domOf s d).mode = 0 →
    (domOf (domRecord s d n est meas floor) d).bad = if max meas floor / 4 < (if est < meas then meas - est else est - meas) then (domOf s d).bad + 1 else 0) ∧
  (∀ d : BitVec 7, (d.toNat = 64 ∨ hasF s d.toNat = true) → (domOf s d.toNat).mode = 0 → (if d.toNat = 64 then 1000 * nF s else 1000) ≤ (domOf s d.toNat).bad → Gives (.estMeasDisagree d) s fun t =>
    (domOf t d.toNat).mode = 1 ∧ (∀ k, k ≠ d.toNat → domOf t k = domOf s k) ∧ ∃ x, t.flt.tests = s.flt.tests ++ [x] ∧ x.src = (if d.toNat = 64 then 0x3A else 0x39) ∧ x.test = if d.toNat = 64 then 3 else 2) ∧
  (s.bud.pend = [] → inSync s = true → Gives .budgetPeriod s fun t =>
    (∃ l e, t.bus.jAir = s.bus.jAir ++ l ++ [e] ∧ e.op = .estimator ⟨t.bud.w, t.bud.b, t.bud.d⟩ ∧ e.wait = false) ∧
    (((8000 + 20 * fget s BG_CAP_V_FOLLOW : Nat) : Int) ≤ vinMv s → t.bud.cap = min (bindTerm (capTerms s 0)).2 (s.bud.cap + fget s BG_CTRL_CAP_UP) ∧ fget t BG_STAT_SRC = (bindTerm (capTerms s 0)).1 % 8) ∧
    (inSpore s = false → flag s BG_CTRL_EN = false → ∀ f, f < nF s → ∃ l c, (fr t f).air = (fr s f).air ++ l ++ [c] ∧ ∃ w, c.msg = .capWord w)) ∧
  (flag s BG_REP_CFG_EN = true → Gives .currentReport s fun t => t.bud.repSum = [] ∧ t.bud.repN = [] ∧ t.bud.cutNo = s.bud.cutNo + 1 ∧
    t.bud.reqAir = s.bud.reqAir ++ ((List.range (nF s)).map fun f => (s.bud.cutNo, f)) ++ [(s.bud.cutNo, 0x43)] ∧ ∃ b, t.bud.cuts = s.bud.cuts ++ [{ num := s.bud.cutNo, wait := List.range (nF s), vpm := true, part := false, sat := false, body := some b, job := none }]) ∧
  (∀ (i : BitVec 8) (n : Nat) (rest : List (Nat × Nat)), takeFirst (fun p : Nat × Nat => p.2 == i.toNat) s.bud.reqAir = some ((n, i.toNat), rest) → answers s i.toNat = true → Gives (.cutRequest i) s fun t =>
    t.bud.reqAir = rest ∧ t.regs = s.regs ∧ t.fronds = s.fronds ∧ 
    let e := if i.toNat = 0x43 then (List.range 8).map (grpE s) else [frondE s i.toNat]
    t.bud.ansAir = s.bud.ansAir ++ [⟨nextProv s i.toNat 1, n, i.toNat, e.any (· == 2 ^ 64 - 1), e⟩]) ∧
  (∀ (i : BitVec 8) (x : EnRec) (rest : List EnRec) (c : Cut),
    takeFirst (fun p : EnRec => p.isl == i.toNat) s.bud.ansAir = some (x, rest) → i.toNat ≠ 0x43 → s.bud.cuts = [c] → c.num = x.cut → c.vpm = true → Gives (.energyRecord i) s fun t =>
      tget 0 t.bud.eF i.toNat = x.e.getD 0 0 ∧ t.bud.cuts = [{ c with wait := c.wait.filter (· != i.toNat), sat := c.sat || x.sat, fronds := tset c.fronds i.toNat (lastF t i.toNat) }] ∧
      t.bud.ansAir = rest ∧ t.regs = s.regs) ∧
  (∀ (c : Cut), s.bud.cuts = [c] → c.body = none → c.job = none → Gives .cutTimeout s fun t =>
    t.bud.cuts = [] ∧ reg t BG_ENERGY = BitVec.ofNat 64 (eChip s c) ∧ ∃ d, tget? t.bud.done c.num = some d ∧ d.part = true ∧ d.e = eChip s c) ∧
  (∀ (pre : List (Nat × Nat)) (q k : Nat) (rest : List (Nat × Nat)), s.bud.tokAir = pre ++ (q, k) :: rest → (∀ p ∈ pre, isToken 4 p.2 = false ∧ isToken 5 p.2 = false) → isToken 4 k = true → s.bud.jobs.length < 64 → inSync s = true → Gives .jobBegin s fun t =>
    t.bud.tokAir = rest ∧ t.bud.cutNo = s.bud.cutNo + 1 ∧ fget t BG_STAT_OPEN_JOBS = s.bud.jobs.length + 1 ∧
    ∃ j, t.bud.jobs = s.bud.jobs ++ [j] ∧ j.id = bitsOf k 43 20 ∧ j.src = bitsOf k 7 4 ∧ j.cut = s.bud.cutNo ∧ t.bus.jAir = s.bus.jAir ++ [entryOf s (.budget 1 j.id j.epoch) false]) ∧
  (∀ (pre : List (Nat × Nat)) (q k : Nat) (j : Job) (rest : List (Nat × Nat)), s.bud.tokAir = pre ++ (q, k) :: rest → (∀ p ∈ pre, isToken 4 p.2 = false ∧ isToken 5 p.2 = false) → isToken 5 k = true →
    s.bud.jobs = [j] → j.id = bitsOf k 43 20 → inSync s = true → Gives .jobEnd s fun t =>
    t.bud.tokAir = rest ∧ t.bud.jobs = [] ∧ fget t BG_STAT_OPEN_JOBS = 0 ∧ t.bus.jAir = s.bus.jAir ++ [entryOf s (.budget 0 j.id j.epoch) false] ∧
    ∃ c, t.bud.cuts = s.bud.cuts ++ [c] ∧ c.job = some (j, bitsOf k 7 4, false) ∧ c.num = s.bud.cutNo)

/-! ### Admission and retention domains (spec/08_hard_cases.md, spec/13_budget_capping.md) -/

/-- R162, R172, R173, R175, R177, R178, R301, R302: the queue and the reservations of the admission controller, one grant of an evaluation, and the state of a retention domain.
The model's choices and readings in it: log entries 38 and 39. -/
def Obligations.AdmissionEvents : Prop := ∀ (s : State) (f : Nat),
  (∀ (p : Nat) (s1 : State), takeAdm s f (fun m => match m with | .wake _ _ _ => true | _ => false) = some (.wake false f p, s1) → Gives (.wakeRequest f) s fun t =>
    t.adm.queue = enqueue ⟨false, f, p, false, false, false⟩ (unqueue false f s.adm.queue) ∧ fget t AD_STAT_QUEUED = t.adm.queue.length % 2 ^ 11 ∧ t.fronds = s.fronds ∧ t.flt = s.flt) ∧
  (answers s 0x4B = true → fget s RZ_HARD_STAT_SAG ≠ 0 → Gives .admissionEvaluation s fun t => t.adm = { s.adm with queue := s.adm.queue.map (deferNow s) } ∧ t.fronds = s.fronds) ∧
  (∀ r : AReq, answers s 0x4B = true → fget s RZ_HARD_STAT_SAG = 0 → s.adm.queue.map (deferNow s) = [r] → r.dom = false → verdictOf s r = 0 → Gives .admissionEvaluation s fun t =>
    t.adm.queue = [] ∧ t.adm.busyF = s.adm.busyF ++ [r.n] ∧ tget 0 t.adm.slopeF r.n = fget s AD_CFG_F_SLOPE ∧ t.adm.charges = s.adm.charges ++ [fget s AD_CFG_F_CHARGE] ∧
    (fr t r.n).upd = (fr s r.n).upd ++ [.grant r.marked] ∧ (∀ g, g ≠ r.n → fr t g = fr s g)) ∧
  (∀ r : AReq, answers s 0x4B = true → fget s RZ_HARD_STAT_SAG = 0 → s.adm.queue.map (deferNow s) = [r] → r.dom = true → r.n < 1536 → verdictOf s r = 0 → Gives .admissionEvaluation s fun t =>
    t.adm.queue = [] ∧ fget t (AD_RET_DOM_STATE r.n) = 3 ∧ tget 0 t.adm.slopeD r.n = fget s AD_CFG_D_SLOPE ∧ t.adm.charges = s.adm.charges ++ [fget s AD_CFG_D_CHARGE] ∧ t.fronds = s.fronds) ∧
  (∀ r : AReq, answers s 0x4B = true → fget s RZ_HARD_STAT_SAG = 0 → s.adm.queue.map (deferNow s) = [r] → verdictOf s r ≠ 0 → Gives .admissionEvaluation s fun t => t.adm = { s.adm with queue := [r] } ∧ t.fronds = s.fronds) ∧
  (∀ rest : List AMsg, takeFirst (fun m : AMsg => m.frond == some f) s.adm.air = some (.complete f, rest) → Gives (.wakeComplete f) s fun t =>
    t.adm = { s.adm with air := rest, busyF := s.adm.busyF.filter (· != f) } ∧ t.fronds = s.fronds) ∧
  (∀ rest : List AMsg, takeFirst (fun m : AMsg => m.frond == some f) s.adm.air = some (.release f, rest) → Gives (.wakeRelease f) s fun t =>
    t.adm = { s.adm with air := rest, slopeF := t.adm.slopeF, busyF := s.adm.busyF.filter (· != f) } ∧ tget? t.adm.slopeF f = none ∧ t.fronds = s.fronds) ∧
  (∀ rest : List AMsg, takeFirst (fun m : AMsg => m.frond == some f) s.adm.air = some (.withdraw f, rest) → Gives (.wakeRelease f) s fun t =>
    t.adm = { s.adm with air := rest, queue := unqueue false f s.adm.queue } ∧ t.fronds = s.fronds) ∧
  (s.adm.busyF.contains f = false → Gives (.slopeReservationRelease f) s fun t => tget? t.adm.slopeF f = none ∧ (∀ g, g ≠ f → tget? t.adm.slopeF g = tget? s.adm.slopeF g) ∧ t.adm = { s.adm with slopeF := t.adm.slopeF }) ∧
  (Gives .chargeExpiry s fun t => t.adm = { s.adm with charges := s.adm.charges.drop 1 } ∧ t.fronds = s.fronds) ∧
  (∀ (i : Nat) (rest : List AMsg), s.adm.air = .current f i :: rest → Gives (.neighbourCurrent f false) s fun t =>
    tget 0 t.adm.cur f = i ∧ (∀ g, g ≠ f → tget 0 t.adm.cur g = tget 0 s.adm.cur g) ∧ t = { s with adm := { s.adm with air := rest, cur := t.adm.cur } }) ∧
  (Gives (.deferralExpiry f) s fun t => (∀ r ∈ t.adm.queue, r.dom = false → r.n = f → r.deferring = false) ∧
    ∀ q ∈ s.adm.queue, (if q.dom = false ∧ q.n = f ∧ q.deferring = true then { q with deferring := false, marked := true } else q) ∈ t.adm.queue) ∧
  (∀ (n : BitVec 11) (p : BitVec 2), n.toNat < 1536 → lineHigh s n.toNat = false → flag s (AD_RET_DOM_EN n.toNat) = true → fget s (AD_RET_DOM_STATE n.toNat) = 2 → Gives (.retentionRequest n p) s fun t =>
    lineHigh t n.toNat = true ∧ t.adm.queue = enqueue ⟨true, n.toNat, p.toNat, false, false, false⟩ s.adm.queue) ∧
  (∀ n : BitVec 11, n.toNat < 1536 → flag s (AD_RET_DOM_EN n.toNat) = true → Gives (.retentionWithdraw n) s fun t =>
    lineHigh t n.toNat = false ∧ t.adm.queue = unqueue true n.toNat s.adm.queue ∧ (fget t (AD_RET_DOM_STATE n.toNat) = if fget s (AD_RET_DOM_STATE n.toNat) = 1 then 2 else fget s (AD_RET_DOM_STATE n.toNat))) ∧
  (∀ n : BitVec 11, n.toNat < 1536 → (tget? s.adm.slopeD n.toNat).isSome = true → flag s (AD_RET_DOM_EN n.toNat) = true → fget s (AD_RET_DOM_STATE n.toNat) = 3 → Gives (.domainActive n) s fun t =>
    (fget t (AD_RET_DOM_STATE n.toNat) = if lineHigh s n.toNat then 1 else 2) ∧ tget? t.adm.slopeD n.toNat = none ∧ t.adm.queue = s.adm.queue)

/-! ### Mat lanes, device IDs, routes and leases (spec/14_mat_fabric.md) -/

/-- R12, R305, R306, R307: a codeword that does not decode is counted and does nothing else until too many have, one that does moves its lane on, and each is answered by the lane's next codeword; loss of signal, beacons and the optical engine move a lane between Off, Acquire, Linked and Up.
The model's choices and readings in it: log entries 90, 120 and 124. -/
def Obligations.MatLanes : Prop := ∀ (s : State) (l : BitVec 2),
  let L := l.toNat
  let only := fun (t : State) => (∀ k, k < 4 → k ≠ L → laneSt t k = laneSt s k) ∧ t.fronds = s.fronds ∧ t.mat.tx = s.mat.tx
  let idle := answers s 0x46 = true ∧ s.bus.ready = [] ∧ s.bus.queue = []
  let downs := fun (t : State) => fget t (MT_LANE_STAT_DOWNS L) = min (fget s (MT_LANE_STAT_DOWNS L) + 1) (fmax (MT_LANE_STAT_DOWNS L))
  (∀ cnt lane ffo data par, idle → rsDecode (cwSymbols cnt lane ffo data par) = none →
    (laneSt s L = 1 → Gives (.codewordReceived l cnt lane ffo data par) s fun t =>
      laneSt t L = 1 ∧ (ml t L).good = 0 ∧ fget t (MT_LANE_FEC_UNC L) = min (fget s (MT_LANE_FEC_UNC L) + 1) (fmax (MT_LANE_FEC_UNC L)) ∧ only t ∧ t.flt = s.flt) ∧
    (2 ≤ laneSt s L → (ml s L).unc < 3 → (ml s L).uncMs < fget s (MT_LANE_CFG_UNC_MAX L) → Gives (.codewordReceived l cnt lane ffo data par) s fun t =>
      laneSt t L = laneSt s L ∧ (ml t L).unc = (ml s L).unc + 1 ∧ only t ∧ t.flt = s.flt) ∧
    (2 ≤ laneSt s L → 3 ≤ (ml s L).unc ∨ fget s (MT_LANE_CFG_UNC_MAX L) ≤ (ml s L).uncMs → Gives (.codewordReceived l cnt lane ffo data par) s fun t =>
      laneSt t L = 0 ∧ downs t ∧ only t ∧ if laneSt s L = 3 then Raised 0xC8 (some L) 0 0x46 s t else t.flt = s.flt)) ∧
  (∀ cnt lane ffo data par (c : Nat) (w : List Nat), idle → rsDecode (cwSymbols cnt lane ffo data par) = some (c, w) → laneSt s L = 1 →
    let x := ml s L
    let run := x.good ≠ 0 ∧ cwCount w = (x.cnt + 1) % 1024 ∧ cwLane w = x.lane
    let fits := fun (st good : Nat) => Gives (.codewordReceived l cnt lane ffo data par) s fun t => laneSt t L = st ∧ (ml t L).good = good ∧ (ml t L).next = (x.next + 1) % 1024 ∧
      fget t (MT_LANE_FEC_CORR L) = min (fget s (MT_LANE_FEC_CORR L) + c) (fmax (MT_LANE_FEC_CORR L)) ∧ only t ∧ t.flt = s.flt
    (run → x.good = 7 → fits 2 0) ∧ (run → x.good < 7 → fits 1 (x.good + 1)) ∧ (¬ run → fits 1 1)) ∧
  (∀ cnt lane ffo data par (c : Nat) (w : List Nat), idle → rsDecode (cwSymbols cnt lane ffo data par) = some (c, w) → 2 ≤ laneSt s L → (ml s L).sync = false → 80 ≤ cwFfo w →
    Gives (.codewordReceived l cnt lane ffo data par) s fun t => laneSt t L = laneSt s L ∧ (ml t L).unc = 0 ∧ only t ∧ t.flt = s.flt) ∧
  (laneSt s L = 0 → laneMay s L = true → Gives (.laneReacquire l) s fun t => laneSt t L = 1 ∧ t.mat.oeReset = false ∧ (ml t L).good = 0 ∧ only t ∧ t.flt = s.flt) ∧
  (laneSt s L ≠ 0 → Gives (.lossOfSignal l true) s fun t => laneSt t L = 0 ∧ flag t (MT_LANE_STAT_LOS L) = true ∧ (2 ≤ laneSt s L → downs t) ∧ only t) ∧
  (Gives (.lossOfSignal l false) s fun t => flag t (MT_LANE_STAT_LOS L) = false ∧ laneSt t L = laneSt s L ∧ only t ∧ t.flt = s.flt ∧ t.mat = s.mat) ∧
  (laneSt s L = 3 → Gives (.beaconTimeout l) s fun t => laneSt t L = 2 ∧ fget t (MT_LANE_STAT_PARTNER L) = 0 ∧ (ml t L).uid = none ∧ Raised 0xC8 (some L) 0 0x46 s t ∧ only t ∧
    ∀ r ∈ t.mat.dev, r.2.lane ≠ L) ∧
  (answers s 0x46 = true → Gives .beaconSend s fun t => (∀ k, k < 4 → laneSt t k = laneSt s k) ∧ t.regs = s.regs ∧ t.mat.bad = 0 ∧ ∃ m, t.mat.tx = s.mat.tx ++ m ∧
    m.map (fun p => p.1) = (List.range 4).filter (fun k => decide (2 ≤ laneSt s k)) ∧
    ∀ p ∈ m, lenOk p.2 = true ∧ fb p.2 0 1 = 1 ∧ fb p.2 4 2 = 0xFFFE ∧ fb p.2 24 8 = ownUid s ∧ fb p.2 32 2 = ownId s ∧ fb p.2 34 1 = p.1) ∧
  (s.mat.oeFault = false → Gives .oeFault s fun t => t.mat.oeFault = true ∧ (∀ k, k < 4 → laneSt t k = 0 ∧ laneMay t k = false) ∧ ⟨0xC9, none, 0, 0x46, false⟩ ∈ t.flt.raises ∧ t.fronds = s.fronds) ∧
  (Gives .oeFaultClear s fun t => t.mat.oeFault = false ∧ (∀ k, k < 4 → (ml t k).wait = max (ml s k).wait 10) ∧ t.regs = s.regs ∧ t.fronds = s.fronds ∧ t.flt = s.flt) ∧
  (Gives (.oePresentChange false) s fun t => t.mat.oeAbsent = true ∧ (∀ k, k < 4 → laneSt t k = 0 ∧ laneMay t k = false) ∧ t.fronds = s.fronds) ∧
  (Gives (.oePresentChange true) s fun t => t = { s with mat := { s.mat with oeAbsent := false } })

/-- R311, R312, R315, R321, R324: what the device does on its own: it joins through its lowest Up lane with a fresh nonce, renews its ID, advertises and withdraws routes, takes a manager each lease
period, and lets an expired lease fall to LFLOOR.
The model's choices and readings in it: log entries 2, 86 and 87. -/
def Obligations.MatOwnEvents : Prop := ∀ s : State,
  let out := fun (t : State) (l type dst : Nat) (P : List Nat → Prop) => ∃ b, t.mat.tx = s.mat.tx ++ [(l, b)] ∧ fb b 0 1 = type ∧ fb b 4 2 = dst ∧ P b
  let sends := numbered s = true ∧ inSpore s = false ∧ (keyOf s 0 (fget s (MT_GRP_CFG_GEN 0))).isSome = true ∧ (mg s 0).sq < 0xFFFFFF
  (∀ l, (upLanes s).find? (fun k => (ml s k).pnum) = some l → (keyOf s 0 (fget s (MT_GRP_CFG_GEN 0))).isSome = true → fget s MT_ID_STAT_STATE = 0 → inSpore s = false → answers s 0x46 = true →
    Gives .joinSend s fun t => let nonce := (Config.freeValue s.draws).toNat
      fget t MT_ID_STAT_STATE = 1 ∧ fget t MT_ID_STAT_JOINS = min (fget s MT_ID_STAT_JOINS + 1) (fmax MT_ID_STAT_JOINS) ∧ t.mat.join = some (nonce, l) ∧
      out t l 2 0xFFFE fun b => fb b 24 8 = ownUid s ∧ fb b 32 8 = nonce ∧ fb b 6 2 = 0) ∧
  (fget s MT_ID_STAT_STATE = 1 → Gives .joinTimeout s fun t => fget t MT_ID_STAT_STATE = 0 ∧ t.mat = { s.mat with join := none } ∧ (∀ a, a ≠ MT_ID_STAT → reg t a = reg s a)) ∧
  (fget s MT_ID_STAT_STATE = 3 → Gives .fullRetryExpiry s fun t => fget t MT_ID_STAT_STATE = 0 ∧ t.mat = s.mat ∧ (∀ a, a ≠ MT_ID_STAT → reg t a = reg s a)) ∧
  (∀ l, sends → registrarOf s ≠ 0 → registrarOf s ≠ ownId s → registrarOf s < 0xFFF0 → routeLane s (registrarOf s) = some l → Gives .renewSend s fun t =>
    (out t l 4 (registrarOf s) fun b => fb b 24 8 = ownUid s ∧ fb b 32 2 = ownId s ∧ fb b 6 2 = ownId s) ∧ t.regs = s.regs) ∧
  (∀ i : BitVec 16, flag s MT_ID_STAT_REGISTRAR = true → Gives (.idLeaseExpiry i) s fun t => tget? t.mat.ids i.toNat = none ∧ (∀ j, j ≠ i.toNat → tget? t.mat.ids j = tget? s.mat.ids j) ∧ t.regs = s.regs) ∧
  (∀ l, sends → answers s 0x46 = true → upLanes s = [l] → (routeEntries s l).length ≤ 244 → Gives .routeAdvertise s fun t =>
    (out t l 5 0xFFFE fun b => fb b 24 1 = (routeEntries s l).length ∧ (b.drop 32).take (4 * (routeEntries s l).length) = (routeEntries s l).flatten) ∧
    (∀ k, k < 4 → (ml t k).joins = 0) ∧ t.regs = s.regs ∧ t.mat.dev = s.mat.dev ∧ t.mat.blk = s.mat.blk) ∧
  (∀ (b : Bool) (i : BitVec 16), (tget? (if b then s.mat.blk else s.mat.dev) i.toNat).isSome = true → Gives (.routeExpiry b i) s fun t =>
    (if b then tget? t.mat.blk i.toNat = none ∧ t.mat.dev = s.mat.dev else tget? t.mat.dev i.toNat = none ∧ t.mat.blk = s.mat.blk) ∧
    (∀ j, j ≠ i.toNat → tget? (if b then t.mat.blk else t.mat.dev) j = tget? (if b then s.mat.blk else s.mat.dev) j) ∧ ∀ r, tget? (if b then s.mat.blk else s.mat.dev) i.toNat = some r → (i.toNat, b.toNat, r.lane, 3) ∈ t.mat.gone) ∧
  (∀ n : BitVec 8, grpEn s n.toNat = true → numbered s = true → inSpore s = false → answers s 0x46 = true → Gives (.leasePeriod n) s fun t =>
    (mg t n.toNat).age = min 255 ((mg s n.toNat).age + 1) ∧ fget t (MT_GRP_STAT_MGR n.toNat) = managerOf t n.toNat % 2 ^ 16 ∧ t.fronds = s.fronds) ∧
  (∀ n : BitVec 8, grpEn s n.toNat = true → fget s (MT_GRP_STAT_LEASE n.toNat) = 1 → Gives (.leaseExpiry n) s fun t => Raised 0xCD none 0 0x46 s t ∧
    (fget t (MT_GRP_STAT_LEASE n.toNat) = if fget s (MT_GRP_STAT_GRANT n.toNat) ≤ lfloor s n.toNat then 3 else 2) ∧ fget t (MT_GRP_STAT_GRANT n.toNat) = fget s (MT_GRP_STAT_GRANT n.toNat)) ∧
  (∀ n : BitVec 8, grpEn s n.toNat = true → fget s (MT_GRP_STAT_LEASE n.toNat) = 2 → Gives (.leaseFallTick n) s fun t =>
    let v := max (lfloor s n.toNat) (fget s (MT_GRP_STAT_GRANT n.toNat) - fget s (MT_GRP_MEM_FALL n.toNat))
    fget t (MT_GRP_STAT_GRANT n.toNat) = v ∧ (fget t (MT_GRP_STAT_LEASE n.toNat) = if v = lfloor s n.toNat then 3 else 2) ∧ t.flt = s.flt ∧ t.mat = s.mat)

/-- Frame l has been checked up to its tag on lane L, which is Up: its TYPE and LEN are legal, it is addressed to this device, which is Numbered, and slot n has its group's key. -/
def Sys2Proof.Claims.Addressed (s : State) (L : Nat) (l : List Nat) (type n key : Nat) : Prop :=
  laneSt s L = 3 ∧ inSpore s = false ∧ answers s 0x46 = true ∧ fb l 0 1 = type ∧ type ≠ 1 ∧ lenOk l = true ∧ numbered s = true ∧ (fb l 4 2 = 0xFFFE ∨ fb l 4 2 = ownId s ∧ 0 < ownId s ∧ ownId s < 0xFFF0) ∧
    slotOf s (fb l 8 2) = some n ∧ keyOf s n (fb l 10 1) = some key

/-- Frame l has passed R319 and R320, which left the device in s1. -/
def Sys2Proof.Claims.Taken (s : State) (L : Nat) (l : List Nat) (type n : Nat) (s1 : State) : Prop :=
  (∃ key, Addressed s L l type n key ∧ frameTag key (l.take (l.length - 8)) = l.drop (l.length - 8)) ∧ if fb l 6 2 = 0 then s1 = s else replayCheck s n l = some s1

/-- R306, R310 to R312, R314 to R316, R319 to R322, R324, R326, R327: what a frame that has arrived does: a second BEACON of one partner brings the lane Up; a frame whose tag or number is wrong is
counted and does nothing; the others act by their TYPE.
The model's choices and readings in it: log entries 84, 85, 86 and 87. -/
def Obligations.MatFrames : Prop := ∀ (s : State) (lane : BitVec 2) (b : List Byte) (n : Nat) (s1 : State),
  let L := lane.toNat
  let l := b.map (·.toNat)
  let src := fb l 6 2
  (answers s 0x46 = true → laneSt s L = 2 → fb l 0 1 = 1 → lenOk l = true → Gives (.beacon lane b) s fun t =>
    laneSt t L = (if (ml s L).uid = some (fb l 24 8) then 3 else 2) ∧ (ml t L).uid = some (fb l 24 8) ∧ fget t (MT_LANE_STAT_PARTNER L) = fb l 32 2 ∧ (∀ k, k < 4 → k ≠ L → laneSt t k = laneSt s k) ∧ t.flt = s.flt) ∧
  (∀ key, Addressed s L l 8 n key → frameTag key (l.take (l.length - 8)) ≠ l.drop (l.length - 8) → Gives (.grant lane b false) s fun t =>
    fget t MT_SEC_STAT_AUTH_FAIL = min (fget s MT_SEC_STAT_AUTH_FAIL + 1) (fmax MT_SEC_STAT_AUTH_FAIL) ∧ (∀ a, a ≠ MT_SEC_STAT → reg t a = reg s a) ∧ t.mat = { s.mat with bad := s.mat.bad + 1 }) ∧
  (∀ key, Addressed s L l 8 n key → frameTag key (l.take (l.length - 8)) = l.drop (l.length - 8) → src ≠ 0 → replayCheck s n l = none → Gives (.grant lane b false) s fun t =>
    fget t MT_SEC_STAT_REPLAY = min (fget s MT_SEC_STAT_REPLAY + 1) (fmax MT_SEC_STAT_REPLAY) ∧ (∀ a, a ≠ MT_SEC_STAT → reg t a = reg s a) ∧ t.mat = { s.mat with bad := s.mat.bad + 1 }) ∧
  (∀ i, Taken s L l 2 n s → src = 0 → fb l 4 2 = 0xFFFE → registrarOf s = ownId s → 0 < ownId s → flag s MT_ID_STAT_REGISTRAR = true → (ml s L).joins = 0 → s.mat.regLeft = 0 → s.mat.ids = [(i, fb l 24 8)] →
    (keyOf s 0 (fget s (MT_GRP_CFG_GEN 0))).isSome = true → (mg s 0).sq < 0xFFFFFF → Gives (.join lane b) s fun t => (ml t L).joins = 1 ∧ t.regs = s.regs ∧
      ∃ a, t.mat.tx = s.mat.tx ++ [(L, a)] ∧ fb a 0 1 = 3 ∧ fb a 4 2 = 0xFFFE ∧ fb a 24 8 = fb l 24 8 ∧ fb a 32 8 = fb l 32 8 ∧ fb a 40 2 = i % 65536 ∧ fb a 42 1 = 0) ∧
  (∀ (key lj : Nat), laneSt s L = 3 → inSpore s = false → answers s 0x46 = true → fb l 0 1 = 3 → lenOk l = true → fb l 4 2 = 0xFFFE → fget s MT_ID_STAT_STATE = 1 → fb l 24 8 = ownUid s →
    s.mat.join = some (fb l 32 8, lj) → slotOf s (fb l 8 2) = some n → keyOf s n (fb l 10 1) = some key → frameTag key (l.take (l.length - 8)) = l.drop (l.length - 8) →
    (fb l 42 1 = 0 → Gives (.assign lane b) s fun t => fget t MT_ID_STAT_STATE = 2 ∧ ownId t = fb l 40 2 ∧ fget t MT_ID_STAT_LAST = 0 ∧ t.mat = { s.mat with join := none } ∧ t.flt = s.flt) ∧
    (fb l 42 1 = 1 → Gives (.assign lane b) s fun t => fget t MT_ID_STAT_STATE = 3 ∧ fget t MT_ID_STAT_LAST = 1 ∧ t.mat = { s.mat with join := none } ∧ Raised 0xCA none 0 0x46 s t) ∧
    (fb l 42 1 = 3 → Gives (.assign lane b) s fun t => fget t MT_ID_STAT_STATE = 1 ∧ fget t MT_ID_STAT_LAST = 3 ∧ t.mat = s.mat ∧ t.flt = s.flt)) ∧
  (Taken s L l 4 n s1 → flag s1 MT_ID_STAT_REGISTRAR = true → (tget? s1.mat.ids (fb l 32 2) = some (fb l 24 8) ∨ tget? s1.mat.ids (fb l 32 2) = none ∧ fb l 32 2 ≠ ownId s1) → Gives (.renew lane b) s fun t =>
    tget? t.mat.ids (fb l 32 2) = some (fb l 24 8) ∧ (∀ j, j ≠ fb l 32 2 → tget? t.mat.ids j = tget? s1.mat.ids j) ∧ t.regs = s1.regs) ∧
  (Taken s L l 5 n s1 → fb l 24 1 = 1 → fb l 34 1 = 0 → let id := fb l 32 2
    (fb l 35 1 < 32 → tget? s1.mat.dev id = none → s1.mat.dev.length < 1024 → Gives (.route lane b) s fun t => tget? t.mat.dev id = some ⟨L, fb l 35 1 + 1⟩ ∧
      (∀ j, j ≠ id → tget? t.mat.dev j = tget? s1.mat.dev j) ∧ t.mat.blk = s1.mat.blk ∧ fget t MT_ROUTE_STAT_DIRECT = t.mat.dev.length % 2 ^ 11) ∧
    (∀ m, 32 ≤ fb l 35 1 → tget? s1.mat.dev id = some ⟨L, m⟩ → Gives (.route lane b) s fun t => tget? t.mat.dev id = none ∧ (id, 0, L, 3) ∈ t.mat.gone ∧ ∀ j, j ≠ id → tget? t.mat.dev j = tget? s1.mat.dev j)) ∧
  (Taken s L l 6 n s1 → Gives (.candidate lane b) s fun t => ⟨src, fb l 36 1, fb l 32 4, 0⟩ ∈ (mg t n).cands ∧ fget t (MT_GRP_STAT_MGR n) = managerOf t n % 2 ^ 16) ∧
  (Taken s L l 7 n s1 → Gives (.report lane b) s fun t => (∃ m ∈ (mg t n).membs, m.id = src ∧ m.demand = fb l 24 4 ∧ m.floor = fb l 28 4 ∧ m.step = fb l 36 4 ∧ m.age = 0) ∧ t.regs = s1.regs) ∧
  (∀ edge : Bool, Taken s L l 8 n s1 → grpEn s1 n = true → n < 256 → Gives (.grant lane b edge) s fun t => fget t (MT_GRP_STAT_LEASE n) = 1 ∧
    fget t (MT_GRP_STAT_GRANT n) = min (fget s1 (MT_GRP_MEM_GCEIL n)) (max (lfloor s1 n) (fb l 24 4)) ∧ (edge = true → fget s1 (MT_GRP_STAT_LEASE n) = 1 → fget t RZ_NEAR_MISS_LAST_KIND = 5)) ∧
  (Taken s L l 9 n s1 → fget s1 (MT_GRP_STAT_ROLE n) = 2 → Gives (.ceiling lane b) s fun t => (src, fb l 24 4, 0) ∈ (mg t n).sites ∧ t.regs = s1.regs) ∧
  (∀ x : Access × Phase3, Taken s L l 10 n s1 ∨ Taken s L l 11 n s1 → s1.bus = s.bus → s.bus.ready = [] → s.bus.queue = [] → s.bus.cur = some x → inTakeover s1 = false → flag s1 (MT_GRP_CFG_RA_EN n) = true →
    fget s1 MT_RA_CFG_RA_LO ≤ fb l 24 4 / 0x10000 → fb l 24 4 / 0x10000 ≤ fget s1 MT_RA_CFG_RA_HI → fb l 24 4 / 0x10000 ≠ 7 → tget 0 s1.mat.reqs src < fget s1 MT_RA_CFG_RATE →
    (fb l 0 1 = 10 → Gives (.regRd lane b) s fun t => t.bus = { s.bus with queue := [{ src := .mat src (fb l 16 3 + n * 2 ^ 24), we := false, addr := fb l 24 4, data := 0 }] } ∧ t.regs = s1.regs) ∧
    (fb l 0 1 = 11 → Gives (.regWr lane b) s fun t => t.bus = { s.bus with queue := [{ src := .mat src (fb l 16 3 + n * 2 ^ 24), we := true, addr := fb l 24 4, data := fb l 32 8 }] } ∧ t.regs = s1.regs)) ∧
  (Taken s L l 12 n s1 → Gives (.regRsp lane b) s fun t => t.mat.answers = s1.mat.answers ++ [(fb l 24 3, fb l 27 1, fb l 28 4, fb l 32 8)] ∧ t.regs = s1.regs ∧ t.bus = s1.bus) ∧
  (Taken s L l 13 n s1 → Gives (.capture lane b) s fun t => t = s1)

/-! ### Flash operations, ageing and scans (spec/03_frond_core.md, spec/05_arithmetic.md, spec/17_startup_image.md, spec/18_lifetime_ageing.md) -/

/-- R83, R129, R366, R381, R388, R393, R394: a copy brings the record's bytes into Moss, a table record and an image are programmed and read back, an operation that does not complete fails under its
RESULT; a program load writes its words into every target, and a scan's eight results appear together.
The model's choices and readings in it: log entries 4, 69 and 74. -/
def Obligations.FlashAndLoads : Prop := ∀ s : State,
  (∀ area pos moff, answers s 0x4A = true → s.nv.ops = [.read area pos moff] → Gives (.flashOpComplete false) s fun t =>
    mossBytes t moff (readBytes s area pos).length = (readBytes s area pos).map (fun x => x % 256) ∧ (∀ a, (a < moff ∨ moff + (readBytes s area pos).length ≤ a) → mread 0 t.moss.mem a = mread 0 s.moss.mem a) ∧
    fget t NV_READ_CMD_RESULT = 0 ∧ flag t NV_READ_CMD_BUSY = false ∧ t.nv.ops = [] ∧ t.flash = s.flash) ∧
  (∀ r : TabRec, answers s 0x4A = true → s.nv.ops = [.table r] → Gives (.flashOpComplete false) s fun t => tget? t.flash.tabs (r.seq % 16) = some r ∧
    (∀ n, n ≠ r.seq % 16 → tget? t.flash.tabs n = tget? s.flash.tabs n) ∧ t.flt = s.flt) ∧
  (∀ slot len foff moff, answers s 0x4A = true → s.nv.ops = [.upd 1 slot len foff moff] →
    (Gives (.flashOpComplete false) s fun t => mreads 0xFF (imgMem t slot) foff len = mossBytes s moff len ∧ fget t NV_UPD_CMD_RESULT = 0 ∧ flag t NV_UPD_CMD_BUSY = false ∧ t.moss = s.moss ∧ t.flt = s.flt) ∧
    (Gives (.flashOpComplete true) s fun t => fget t NV_UPD_CMD_RESULT = 6 ∧ flag t NV_UPD_CMD_BUSY = false ∧ Raised 0x23 none foff 0x4A s t) ∧
    (Gives .flashAccessTimeout s fun t => fget t NV_UPD_CMD_RESULT = 6 ∧ flag t NV_UPD_CMD_BUSY = false ∧ Raised 0x25 none 0 0x4A s t ∧ t.nv.ops = [] ∧
      (∀ a, (a < (erased len foff).1 ∨ (erased len foff).2 ≤ a) → mread 0xFF (imgMem t slot) a = mread 0xFF (imgMem s slot) a) ∧ t.flash = { s.flash with img0 := t.flash.img0, img1 := t.flash.img1 })) ∧
  (∀ slot len foff moff, answers s 0x4A = true → s.nv.ops = [.upd 2 slot len foff moff] → Gives (.flashOpComplete false) s fun t => let c := verifyImage s (imgRd s slot) false false
    fget t NV_UPD_CMD_VRES = c % 2 ^ ((NV_UPD_CMD_VRES).hi + 1 - (NV_UPD_CMD_VRES).lo) ∧ (fget t NV_UPD_CMD_RESULT = if c = 0 then 0 else 8) ∧ verOk t slot = (c == 0) ∧ flag t NV_UPD_CMD_BUSY = false ∧ t.flash = s.flash) ∧
  (∀ area pos moff, answers s 0x4A = true → s.nv.ops = [.read area pos moff] → Gives .flashAccessTimeout s fun t =>
    fget t NV_READ_CMD_RESULT = 2 ∧ flag t NV_READ_CMD_BUSY = false ∧ t.nv.ops = [] ∧ Raised 0x25 none 0 0x4A s t ∧ t.moss = s.moss ∧ t.flash = s.flash) ∧
  (∀ l : Load, s.load = some l → l.dst + l.len ≤ 4096 → (∀ f ∈ targets s l.targets, answers s f = true) → Gives (.programLoadDone none) s fun t => t.load = none ∧ fget t FC_LOAD_CMD_RESULT = 0 ∧
    flag t FC_LOAD_CMD_BUSY = false ∧ t.fronds = s.fronds ∧ (∀ f ∈ targets s l.targets, ∀ k, k < l.len → imem t f (l.dst + k) = mossHalf s (l.src + 4 * k)) ∧
    (∀ f, f < nF s → ∀ w, w < 4096 → (f ∉ targets s l.targets ∨ w < l.dst ∨ l.dst + l.len ≤ w) → imem t f w = imem s f w)) ∧
  (∀ (l : Load) (k : BitVec 13), s.load = some l → l.dst + l.len ≤ 4096 → k.toNat < l.len → (∀ f ∈ targets s l.targets, answers s f = true) → Gives (.programLoadDone (some k)) s fun t => t.load = none ∧
    fget t FC_LOAD_CMD_RESULT = 5 ∧ flag t FC_LOAD_CMD_BUSY = false ∧ (∀ f ∈ targets s l.targets, ∀ j, j < k.toNat → imem t f (l.dst + j) = mossHalf s (l.src + 4 * j)) ∧
    ∀ f ∈ targets s l.targets, imem t f (l.dst + k.toNat) = imem s f (l.dst + k.toNat)) ∧
  (∀ l, s.chip.topk = some l → Gives .topkScanDone s fun t => t.chip.topk = none ∧ flag t RZ_TOPK_CTRL_BUSY = false ∧ t.fronds = s.fronds ∧
    ∀ n, n < 8 → reg t (RZ_TOPK_RES n) = match l[n]? with | some x => BitVec.ofNat 64 (x.2 + x.1 * 2 ^ 32 + 2 ^ 63) | none => 0)

/-- R383 to R387, R389, R391: a re-plan starts when it falls due; a canary measurement leaves the frond's slacks, or skips a frond whose four lines are faulty; a deferred frond is tried again each second
and skipped after 3,600; each second counts one power-on second.
The model's choices and readings in it: log entries 82 and 83. -/
def Obligations.AgeingAndLifetime : Prop := ∀ s : State, answers s (activeIsl s) = true → inTakeover s = false → s.bus.ready = [] → s.bus.queue = [] →
  (s.member.fronds ≤ 64 → ownerOf s 1 = rzMaster s → awake s 1 = true → Gives .lifetimeTick s fun t => lifeSeconds t = (lifeSeconds s + 1) % 2 ^ 64 ∧ t.fronds = s.fronds ∧
    if (lifeSeconds s + 1) % 3840 = 0 then t.nv.ops = s.nv.ops ++ [.life] ∧ flag t NV_LIFE_STAT_PENDING = true else t.nv.ops = s.nv.ops) ∧
  (s.age.run = none → s.age.cmd = none → s.age.due = false → inSpore s = false →
    (flag s NV_AGE_CFG_EN = true → dueAt s ≤ lifeSeconds s → Gives .replan s fun t => t.age.due = false ∧ t.fronds = s.fronds ∧ ∃ r, t.age.run = some r ∧ r.kind = 0 ∧ r.todo = List.range (nF s) ∧
      ∀ f, f < nF s → (tget? r.defer f).isNone = mayMeasure s f) ∧
    (flag s NV_AGE_CFG_EN = false ∨ lifeSeconds s < dueAt s → Gives .replan s fun t => t.age = s.age ∧ t.fronds = s.fronds)) ∧
  (∀ (f g : Nat) (vals : List (BitVec 16)) (r : Replan), hasF s f = true → s.age.run = some r → f ∈ r.todo → g ∈ r.todo → g ≠ f → tget? r.defer f = none → mayMeasure s f = true →
    let pts := (List.range 8).filter fun i => (rzPoint s f i).2 != 0
    let bad := badLines vals pts
    (bad.length ≠ 4 → Gives (.canaryMeasurement f vals) s fun t => fget t (FR_AGE_STAT_BAD_LINES f) = ofBits bad ∧ t.flt = s.flt ∧ ∃ q, t.age.run = some q ∧ q.todo = r.todo.filter (· != f) ∧ q.bad = r.bad ∧
      tget? q.res f = some ((List.range 8).map fun i => if i ∈ pts then some (slackOf vals ((List.range 4).filter fun k => !(bad.contains k)) i (rzPoint s f i).2) else none)) ∧
    (bad.length = 4 → Gives (.canaryMeasurement f vals) s fun t => fget t (FR_AGE_STAT_BAD_LINES f) = 15 ∧ fget t (FR_AGE_STAT_CAUSE f) = 5 ∧
      fget t NV_AGE_STAT_SKIPS = min (fget s NV_AGE_STAT_SKIPS + 1) (fmax NV_AGE_STAT_SKIPS) ∧ Raised 0xBA (some f) 0x50 (activeIsl s) s t ∧ ∃ q, t.age.run = some q ∧ q.todo = r.todo.filter (· != f) ∧ q.bad = true)) ∧
  (∀ (f g k : Nat) (r : Replan), s.age.run = some r → r.defer = [(f, k)] → f ∈ r.todo → g ∈ r.todo → g ≠ f →
    (mayMeasure s f = true → Gives .measureRetry s fun t => t.fronds = s.fronds ∧ ∃ q, t.age.run = some q ∧ q.todo = r.todo ∧ tget? q.defer f = none) ∧
    (mayMeasure s f = false → k + 1 < 3600 → Gives .measureRetry s fun t => t.fronds = s.fronds ∧ ∃ q, t.age.run = some q ∧ q.todo = r.todo ∧ tget? q.defer f = some (k + 1)) ∧
    (mayMeasure s f = false → 3600 ≤ k + 1 → Gives .measureRetry s fun t => (fget t (FR_AGE_STAT_CAUSE f) = if railSt s f = 3 ∨ railSt s f = 0 then 3 else 4) ∧
      ∃ q, t.age.run = some q ∧ q.todo = r.todo.filter (· != f) ∧ q.bad = true))

/-! ### PMBus and the test access port (spec/20_ports_electrical.md) -/

/-- R12, R415, R416, Table 20-4: what the PMBus target answers, each answer with its PEC: constants, status, and the reads of registers in LINEAR11 or as blocks; a written limit is a host write of its field; what it does not take sets a
STATUS_CML bit.
The model's choices and readings in it: log entries 78, 79 and 81. -/
def Obligations.PmbusCommands : Prop := ∀ s : State, pmFree s = true →
  let addr := 2 * (0x58 + s.pm.addr)
  let tells := fun (i : Instr) (code : Nat) (l : List Nat) => Gives i s fun t => t.pm.ans = s.pm.ans ++ [l ++ [pec8 ([addr, code, addr + 1] ++ l)]] ∧ t.pm.cml = s.pm.cml ∧ t = { s with pm := t.pm }
  let reads := fun (i : Instr) (code a : Nat) (ans : Option (List Nat)) => Ready s → (∀ k, holder a = some k → answers s k = true) → ∀ l, ans = some l → tells i code l
  let lin := fun (q : Rat) => (linear11 q).map (leBytes 2)
  let cml := fun (i : Instr) (b : Nat) => Gives i s fun t => t.pm.cml = s.pm.cml ||| 2 ^ b ∧ t.pm.ans = s.pm.ans ∧ t = { s with pm := t.pm }
  let good := fun (code : Nat) (data : List Nat) (pec : Option (BitVec 8)) => ∀ p, pec = some p → p.toNat = pec8 (addr :: code :: data)
  tells .capability 0x19 [0xD0] ∧ tells .pmbusRevision 0x98 [0x33] ∧ tells .mfrId 0x99 [6, 0x43, 0x4F, 0x4C, 0x53, 0x45, 0x4C] ∧
  tells .mfrModel 0x9A [10, 0x46, 0x41, 0x5A, 0x4F, 0x4E, 0x20, 0x4E, 0x58, 0x36, 0x34] ∧
  tells .statusByte 0x78 [pmWord s % 256] ∧ tells .statusWord 0x79 (leBytes 2 (pmWord s)) ∧ tells .statusCml 0x7E [s.pm.cml] ∧
  reads .readVin 0x88 VP_VIN_STAT (lin ((fget s VP_VIN_STAT_VIN : Rat) / 1000)) ∧
  (vinMv s ≠ 0 → reads .readIin 0x89 BG_POWER (lin ((fget s BG_POWER_P_MEAS : Rat) / (92 / 100 * (vinMv s : Rat))))) ∧
  reads .readTemperature1 0x8D TH_STAT (lin ((signedOf 16 (fget s TH_STAT_HOT_READ) : Rat) / 16)) ∧
  reads .readPout 0x96 BG_POWER (lin ((fget s BG_POWER_P_MEAS : Rat) / 1000)) ∧ reads .readPin 0x97 BG_POWER (lin ((fget s BG_POWER_P_MEAS : Rat) / 920)) ∧
  reads .mfrRevision 0x9B RZ_ID (some [1, fget s RZ_ID_STEPPING]) ∧ reads .mfrReadEnergy 0xD2 BG_ENERGY (some (8 :: leBytes 8 (reg s BG_ENERGY).toNat)) ∧
  reads .mfrFaultFirst 0xD3 RZ_FLT_FIRST (some (leBytes 2 (reg s RZ_FLT_FIRST).toNat)) ∧
  (∀ pec : Option (BitVec 8), reads (.mfrSupplyLimit none pec) 0xD0 BG_CAP (lin (fget s BG_CAP_SUPPLY : Rat)) ∧ reads (.mfrSiteCeiling none pec) 0xD1 MT_SITE (lin (fget s MT_SITE_CEIL : Rat))) ∧
  (∀ (w : BitVec 16) (pec : Option (BitVec 8)),
    (∀ (v : Nat) (r : RegAt), Ready s → inSync s = true → s.bud.pend = [] → good 0xD0 (leBytes 2 w.toNat) pec → linear11Unit w.toNat 1048575 = some v → regAt BG_CAP = some r →
      let d := putBits (reg s BG_CAP).toNat BG_CAP_SUPPLY.hi BG_CAP_SUPPLY.lo v
      regRefused s r d = false → Gives (.mfrSupplyLimit (some w) pec) s fun t => Journalled (.write BG_CAP d) true s t ∧ t = { s with bus := t.bus, pm := t.pm }) ∧
    (∀ (v : Nat) (r : RegAt), Ready s → inSync s = true → good 0xD1 (leBytes 2 w.toNat) pec → linear11Unit w.toNat (fmax MT_SITE_CEIL) = some v → regAt MT_SITE = some r →
      let d := putBits (putBits (reg s MT_SITE).toNat MT_SITE_CEIL.hi MT_SITE_CEIL.lo v) MT_SITE_VALID.hi MT_SITE_VALID.lo (if v = 0 then 0 else 1)
      regRefused s r d = false → Gives (.mfrSiteCeiling (some w) pec) s fun t => Journalled (.write MT_SITE d) true s t ∧ t = { s with bus := t.bus, pm := t.pm }) ∧
    (¬ good 0xD0 (leBytes 2 w.toNat) pec → cml (.mfrSupplyLimit (some w) pec) 5) ∧ (¬ good 0xD1 (leBytes 2 w.toNat) pec → cml (.mfrSiteCeiling (some w) pec) 5) ∧
    (good 0xD0 (leBytes 2 w.toNat) pec → linear11Unit w.toNat 1048575 = none → cml (.mfrSupplyLimit (some w) pec) 6) ∧
    (good 0xD1 (leBytes 2 w.toNat) pec → linear11Unit w.toNat (fmax MT_SITE_CEIL) = none → cml (.mfrSiteCeiling (some w) pec) 6)) ∧
  (∀ c : BitVec 8, c.toNat ∉ pmCodes → cml (.pmbusUnsupported c) 7) ∧ (∀ pec, ¬ good 0x03 [] pec → cml (.clearFaults pec) 5) ∧
  (s.pm.word = pmWord s →
    (∀ pec, good 0x03 [] pec → Gives (.clearFaults pec) s fun t => t.pm.cml = 0 ∧ t.pm.alert = false ∧ t = { s with pm := t.pm }) ∧
    (s.pm.alert = true → Gives .alertResponse s fun t => t.pm.alert = false ∧ t.pm.ans = s.pm.ans ++ [[addr, pec8 [0x19, addr]]] ∧ t = { s with pm := t.pm })) ∧
  (s.pm.alert = false → Gives .alertResponse s fun t => t.pm.ans = s.pm.ans ∧ t = { s with pm := t.pm })

/-- R417 to R419, Table 20-5: the TAP's instructions select and load their registers and touch nothing else, but for DBG_RD, which reads a register as the host does.
The model's choices and readings in it: log entry 80. -/
def Obligations.TestAccessPort : Prop := ∀ s : State,
  (Gives .tapReset s fun t => t.tap = { s.tap with ir := 1, drives := false } ∧ t = { s with tap := t.tap }) ∧
  (∀ m : BitVec 11, Gives (.idcode m) s fun t => t = { s with tap := t.tap } ∧ t.tap.ir = 1 ∧ bitsOf t.tap.dr 0 0 = 1 ∧ bitsOf t.tap.dr 11 1 = m.toNat ∧ bitsOf t.tap.dr 27 12 = 0x465A ∧ bitsOf t.tap.dr 31 28 = 1) ∧
  (∀ op : BitVec 8, op.toNat ∉ [0x00, 0x01, 0x02, 0xC0] → Gives (.bypass op) s fun t => t.tap = { s.tap with ir := op.toNat, dr := 0, drives := false } ∧ t = { s with tap := t.tap }) ∧
  (∀ (pins : List Bool) (shifted : Option (List Bool)),
    (Gives (.extest pins shifted) s fun t => t = { s with tap := t.tap } ∧ t.tap.ir = 0 ∧ t.tap.drives = s.chip.rst ∧ t.tap.cells = shifted.getD s.tap.cells ∧ ∀ k, bitOf t.tap.dr k = pins.getD k false) ∧
    (Gives (.samplePreload pins shifted) s fun t => t = { s with tap := t.tap } ∧ t.tap.ir = 2 ∧ t.tap.drives = false ∧ t.tap.cells = shifted.getD s.tap.cells ∧ ∀ k, bitOf t.tap.dr k = pins.getD k false)) ∧
  (∀ (a : BitVec 26) (r : RegAt), Ready s → a.toNat % 8 = 0 → a.toNat < 0x1000000 → (a.toNat < 0x100000 ∨ a.toNat < 0x100000 + 0x10000 * nF s) → regAt a.toNat = some r → r.row.rc = 0 →
    (∀ k, holder a.toNat = some k → answers s k = true) → Gives (.dbgRd (some a)) s fun t => t.tap.ir = 0xC0 ∧ t.tap.dbgAddr = a.toNat ∧ t.tap.dbg = some (0, regRead s a.toNat r) ∧ t = { s with tap := t.tap, pm := t.pm }) ∧
  (Gives (.dbgRd none) s fun t => t = { s with tap := t.tap } ∧ t.tap.ir = 0xC0 ∧ (s.tap.dbg = none → bitOf t.tap.dr 92 = false) ∧
    (∀ st d, s.tap.dbg = some (st, d) → bitsOf t.tap.dr 25 0 = s.tap.dbgAddr % 2 ^ 26 ∧ bitsOf t.tap.dr 89 26 = d % 2 ^ 64 ∧ bitsOf t.tap.dr 91 90 = st % 4 ∧ bitOf t.tap.dr 92 = true))
end

