-- ==== Sys2Proof/Laws/State.lean ====
section
/-! SUPPORT. Laws/State.lean: what each update of the state leaves alone: one lemma per field and update. -/
namespace Sys2Proof.Machine

/-! ### setReg -/

@[simp] theorem setReg_member (s : State) (a : Nat) (v : W64) : (setReg s a v).member = s.member := rfl
@[simp] theorem setReg_fronds (s : State) (a : Nat) (v : W64) : (setReg s a v).fronds = s.fronds := rfl
@[simp] theorem setReg_bus (s : State) (a : Nat) (v : W64) : (setReg s a v).bus = s.bus := rfl
@[simp] theorem setReg_isls (s : State) (a : Nat) (v : W64) : (setReg s a v).isls = s.isls := rfl
@[simp] theorem setReg_strms (s : State) (a : Nat) (v : W64) : (setReg s a v).strms = s.strms := rfl
@[simp] theorem setReg_probe (s : State) (a : Nat) (v : W64) : (setReg s a v).probe = s.probe := rfl
@[simp] theorem setReg_qProbe (s : State) (a : Nat) (v : W64) : (setReg s a v).qProbe = s.qProbe := rfl
@[simp] theorem setReg_flt (s : State) (a : Nat) (v : W64) : (setReg s a v).flt = s.flt := rfl
@[simp] theorem setReg_pushWait (s : State) (a : Nat) (v : W64) : (setReg s a v).pushWait = s.pushWait := rfl
@[simp] theorem setReg_load (s : State) (a : Nat) (v : W64) : (setReg s a v).load = s.load := rfl
@[simp] theorem setReg_adm (s : State) (a : Nat) (v : W64) : (setReg s a v).adm = s.adm := rfl
@[simp] theorem setReg_telAir (s : State) (a : Nat) (v : W64) : (setReg s a v).telAir = s.telAir := rfl
@[simp] theorem setReg_vpm (s : State) (a : Nat) (v : W64) : (setReg s a v).vpm = s.vpm := rfl
@[simp] theorem setReg_flash (s : State) (a : Nat) (v : W64) : (setReg s a v).flash = s.flash := rfl
@[simp] theorem setReg_otp (s : State) (a : Nat) (v : W64) : (setReg s a v).otp = s.otp := rfl
@[simp] theorem setReg_nv (s : State) (a : Nat) (v : W64) : (setReg s a v).nv = s.nv := rfl
@[simp] theorem setReg_moss (s : State) (a : Nat) (v : W64) : (setReg s a v).moss = s.moss := rfl
@[simp] theorem setReg_th (s : State) (a : Nat) (v : W64) : (setReg s a v).th = s.th := rfl
@[simp] theorem setReg_rz (s : State) (a : Nat) (v : W64) : (setReg s a v).rz = s.rz := rfl
@[simp] theorem setReg_bud (s : State) (a : Nat) (v : W64) : (setReg s a v).bud = s.bud := rfl
@[simp] theorem setReg_conv (s : State) (a : Nat) (v : W64) : (setReg s a v).conv = s.conv := rfl
@[simp] theorem setReg_fh (s : State) (a : Nat) (v : W64) : (setReg s a v).fh = s.fh := rfl
@[simp] theorem setReg_mat (s : State) (a : Nat) (v : W64) : (setReg s a v).mat = s.mat := rfl
@[simp] theorem setReg_age (s : State) (a : Nat) (v : W64) : (setReg s a v).age = s.age := rfl
@[simp] theorem setReg_pm (s : State) (a : Nat) (v : W64) : (setReg s a v).pm = s.pm := rfl
@[simp] theorem setReg_tap (s : State) (a : Nat) (v : W64) : (setReg s a v).tap = s.tap := rfl
@[simp] theorem setReg_chip (s : State) (a : Nat) (v : W64) : (setReg s a v).chip = s.chip := rfl
@[simp] theorem setReg_draws (s : State) (a : Nat) (v : W64) : (setReg s a v).draws = s.draws := rfl
@[simp] theorem setReg_pending (s : State) (a : Nat) (v : W64) : (setReg s a v).pending = s.pending := rfl

/-! ### setFr -/

@[simp] theorem setFr_member (s : State) (f : Nat) (x : Frond) : (setFr s f x).member = s.member := rfl
@[simp] theorem setFr_regs (s : State) (f : Nat) (x : Frond) : (setFr s f x).regs = s.regs := rfl
@[simp] theorem setFr_bus (s : State) (f : Nat) (x : Frond) : (setFr s f x).bus = s.bus := rfl
@[simp] theorem setFr_isls (s : State) (f : Nat) (x : Frond) : (setFr s f x).isls = s.isls := rfl
@[simp] theorem setFr_strms (s : State) (f : Nat) (x : Frond) : (setFr s f x).strms = s.strms := rfl
@[simp] theorem setFr_probe (s : State) (f : Nat) (x : Frond) : (setFr s f x).probe = s.probe := rfl
@[simp] theorem setFr_qProbe (s : State) (f : Nat) (x : Frond) : (setFr s f x).qProbe = s.qProbe := rfl
@[simp] theorem setFr_flt (s : State) (f : Nat) (x : Frond) : (setFr s f x).flt = s.flt := rfl
@[simp] theorem setFr_pushWait (s : State) (f : Nat) (x : Frond) : (setFr s f x).pushWait = s.pushWait := rfl
@[simp] theorem setFr_load (s : State) (f : Nat) (x : Frond) : (setFr s f x).load = s.load := rfl
@[simp] theorem setFr_adm (s : State) (f : Nat) (x : Frond) : (setFr s f x).adm = s.adm := rfl
@[simp] theorem setFr_telAir (s : State) (f : Nat) (x : Frond) : (setFr s f x).telAir = s.telAir := rfl
@[simp] theorem setFr_vpm (s : State) (f : Nat) (x : Frond) : (setFr s f x).vpm = s.vpm := rfl
@[simp] theorem setFr_flash (s : State) (f : Nat) (x : Frond) : (setFr s f x).flash = s.flash := rfl
@[simp] theorem setFr_otp (s : State) (f : Nat) (x : Frond) : (setFr s f x).otp = s.otp := rfl
@[simp] theorem setFr_nv (s : State) (f : Nat) (x : Frond) : (setFr s f x).nv = s.nv := rfl
@[simp] theorem setFr_moss (s : State) (f : Nat) (x : Frond) : (setFr s f x).moss = s.moss := rfl
@[simp] theorem setFr_th (s : State) (f : Nat) (x : Frond) : (setFr s f x).th = s.th := rfl
@[simp] theorem setFr_rz (s : State) (f : Nat) (x : Frond) : (setFr s f x).rz = s.rz := rfl
@[simp] theorem setFr_bud (s : State) (f : Nat) (x : Frond) : (setFr s f x).bud = s.bud := rfl
@[simp] theorem setFr_conv (s : State) (f : Nat) (x : Frond) : (setFr s f x).conv = s.conv := rfl
@[simp] theorem setFr_fh (s : State) (f : Nat) (x : Frond) : (setFr s f x).fh = s.fh := rfl
@[simp] theorem setFr_mat (s : State) (f : Nat) (x : Frond) : (setFr s f x).mat = s.mat := rfl
@[simp] theorem setFr_age (s : State) (f : Nat) (x : Frond) : (setFr s f x).age = s.age := rfl
@[simp] theorem setFr_pm (s : State) (f : Nat) (x : Frond) : (setFr s f x).pm = s.pm := rfl
@[simp] theorem setFr_tap (s : State) (f : Nat) (x : Frond) : (setFr s f x).tap = s.tap := rfl
@[simp] theorem setFr_chip (s : State) (f : Nat) (x : Frond) : (setFr s f x).chip = s.chip := rfl
@[simp] theorem setFr_draws (s : State) (f : Nat) (x : Frond) : (setFr s f x).draws = s.draws := rfl
@[simp] theorem setFr_pending (s : State) (f : Nat) (x : Frond) : (setFr s f x).pending = s.pending := rfl

/-! ### updFr -/

@[simp] theorem updFr_member (s : State) (f : Nat) (g : Frond → Frond) : (updFr s f g).member = s.member := rfl
@[simp] theorem updFr_regs (s : State) (f : Nat) (g : Frond → Frond) : (updFr s f g).regs = s.regs := rfl
@[simp] theorem updFr_bus (s : State) (f : Nat) (g : Frond → Frond) : (updFr s f g).bus = s.bus := rfl
@[simp] theorem updFr_isls (s : State) (f : Nat) (g : Frond → Frond) : (updFr s f g).isls = s.isls := rfl
@[simp] theorem updFr_strms (s : State) (f : Nat) (g : Frond → Frond) : (updFr s f g).strms = s.strms := rfl
@[simp] theorem updFr_probe (s : State) (f : Nat) (g : Frond → Frond) : (updFr s f g).probe = s.probe := rfl
@[simp] theorem updFr_qProbe (s : State) (f : Nat) (g : Frond → Frond) : (updFr s f g).qProbe = s.qProbe := rfl
@[simp] theorem updFr_flt (s : State) (f : Nat) (g : Frond → Frond) : (updFr s f g).flt = s.flt := rfl
@[simp] theorem updFr_pushWait (s : State) (f : Nat) (g : Frond → Frond) : (updFr s f g).pushWait = s.pushWait := rfl
@[simp] theorem updFr_load (s : State) (f : Nat) (g : Frond → Frond) : (updFr s f g).load = s.load := rfl
@[simp] theorem updFr_adm (s : State) (f : Nat) (g : Frond → Frond) : (updFr s f g).adm = s.adm := rfl
@[simp] theorem updFr_telAir (s : State) (f : Nat) (g : Frond → Frond) : (updFr s f g).telAir = s.telAir := rfl
@[simp] theorem updFr_vpm (s : State) (f : Nat) (g : Frond → Frond) : (updFr s f g).vpm = s.vpm := rfl
@[simp] theorem updFr_flash (s : State) (f : Nat) (g : Frond → Frond) : (updFr s f g).flash = s.flash := rfl
@[simp] theorem updFr_otp (s : State) (f : Nat) (g : Frond → Frond) : (updFr s f g).otp = s.otp := rfl
@[simp] theorem updFr_nv (s : State) (f : Nat) (g : Frond → Frond) : (updFr s f g).nv = s.nv := rfl
@[simp] theorem updFr_moss (s : State) (f : Nat) (g : Frond → Frond) : (updFr s f g).moss = s.moss := rfl
@[simp] theorem updFr_th (s : State) (f : Nat) (g : Frond → Frond) : (updFr s f g).th = s.th := rfl
@[simp] theorem updFr_rz (s : State) (f : Nat) (g : Frond → Frond) : (updFr s f g).rz = s.rz := rfl
@[simp] theorem updFr_bud (s : State) (f : Nat) (g : Frond → Frond) : (updFr s f g).bud = s.bud := rfl
@[simp] theorem updFr_conv (s : State) (f : Nat) (g : Frond → Frond) : (updFr s f g).conv = s.conv := rfl
@[simp] theorem updFr_fh (s : State) (f : Nat) (g : Frond → Frond) : (updFr s f g).fh = s.fh := rfl
@[simp] theorem updFr_mat (s : State) (f : Nat) (g : Frond → Frond) : (updFr s f g).mat = s.mat := rfl
@[simp] theorem updFr_age (s : State) (f : Nat) (g : Frond → Frond) : (updFr s f g).age = s.age := rfl
@[simp] theorem updFr_pm (s : State) (f : Nat) (g : Frond → Frond) : (updFr s f g).pm = s.pm := rfl
@[simp] theorem updFr_tap (s : State) (f : Nat) (g : Frond → Frond) : (updFr s f g).tap = s.tap := rfl
@[simp] theorem updFr_chip (s : State) (f : Nat) (g : Frond → Frond) : (updFr s f g).chip = s.chip := rfl
@[simp] theorem updFr_draws (s : State) (f : Nat) (g : Frond → Frond) : (updFr s f g).draws = s.draws := rfl
@[simp] theorem updFr_pending (s : State) (f : Nat) (g : Frond → Frond) : (updFr s f g).pending = s.pending := rfl

/-! ### setIsl -/

@[simp] theorem setIsl_member (s : State) (i : Nat) (x : Isl) : (setIsl s i x).member = s.member := rfl
@[simp] theorem setIsl_regs (s : State) (i : Nat) (x : Isl) : (setIsl s i x).regs = s.regs := rfl
@[simp] theorem setIsl_fronds (s : State) (i : Nat) (x : Isl) : (setIsl s i x).fronds = s.fronds := rfl
@[simp] theorem setIsl_bus (s : State) (i : Nat) (x : Isl) : (setIsl s i x).bus = s.bus := rfl
@[simp] theorem setIsl_strms (s : State) (i : Nat) (x : Isl) : (setIsl s i x).strms = s.strms := rfl
@[simp] theorem setIsl_probe (s : State) (i : Nat) (x : Isl) : (setIsl s i x).probe = s.probe := rfl
@[simp] theorem setIsl_qProbe (s : State) (i : Nat) (x : Isl) : (setIsl s i x).qProbe = s.qProbe := rfl
@[simp] theorem setIsl_flt (s : State) (i : Nat) (x : Isl) : (setIsl s i x).flt = s.flt := rfl
@[simp] theorem setIsl_pushWait (s : State) (i : Nat) (x : Isl) : (setIsl s i x).pushWait = s.pushWait := rfl
@[simp] theorem setIsl_load (s : State) (i : Nat) (x : Isl) : (setIsl s i x).load = s.load := rfl
@[simp] theorem setIsl_adm (s : State) (i : Nat) (x : Isl) : (setIsl s i x).adm = s.adm := rfl
@[simp] theorem setIsl_telAir (s : State) (i : Nat) (x : Isl) : (setIsl s i x).telAir = s.telAir := rfl
@[simp] theorem setIsl_vpm (s : State) (i : Nat) (x : Isl) : (setIsl s i x).vpm = s.vpm := rfl
@[simp] theorem setIsl_flash (s : State) (i : Nat) (x : Isl) : (setIsl s i x).flash = s.flash := rfl
@[simp] theorem setIsl_otp (s : State) (i : Nat) (x : Isl) : (setIsl s i x).otp = s.otp := rfl
@[simp] theorem setIsl_nv (s : State) (i : Nat) (x : Isl) : (setIsl s i x).nv = s.nv := rfl
@[simp] theorem setIsl_moss (s : State) (i : Nat) (x : Isl) : (setIsl s i x).moss = s.moss := rfl
@[simp] theorem setIsl_th (s : State) (i : Nat) (x : Isl) : (setIsl s i x).th = s.th := rfl
@[simp] theorem setIsl_rz (s : State) (i : Nat) (x : Isl) : (setIsl s i x).rz = s.rz := rfl
@[simp] theorem setIsl_bud (s : State) (i : Nat) (x : Isl) : (setIsl s i x).bud = s.bud := rfl
@[simp] theorem setIsl_conv (s : State) (i : Nat) (x : Isl) : (setIsl s i x).conv = s.conv := rfl
@[simp] theorem setIsl_fh (s : State) (i : Nat) (x : Isl) : (setIsl s i x).fh = s.fh := rfl
@[simp] theorem setIsl_mat (s : State) (i : Nat) (x : Isl) : (setIsl s i x).mat = s.mat := rfl
@[simp] theorem setIsl_age (s : State) (i : Nat) (x : Isl) : (setIsl s i x).age = s.age := rfl
@[simp] theorem setIsl_pm (s : State) (i : Nat) (x : Isl) : (setIsl s i x).pm = s.pm := rfl
@[simp] theorem setIsl_tap (s : State) (i : Nat) (x : Isl) : (setIsl s i x).tap = s.tap := rfl
@[simp] theorem setIsl_chip (s : State) (i : Nat) (x : Isl) : (setIsl s i x).chip = s.chip := rfl
@[simp] theorem setIsl_draws (s : State) (i : Nat) (x : Isl) : (setIsl s i x).draws = s.draws := rfl
@[simp] theorem setIsl_pending (s : State) (i : Nat) (x : Isl) : (setIsl s i x).pending = s.pending := rfl

/-! ### fset -/

@[simp] theorem fset_member (s : State) (x : Fld) (v : Nat) : (fset s x v).member = s.member := rfl
@[simp] theorem fset_fronds (s : State) (x : Fld) (v : Nat) : (fset s x v).fronds = s.fronds := rfl
@[simp] theorem fset_bus (s : State) (x : Fld) (v : Nat) : (fset s x v).bus = s.bus := rfl
@[simp] theorem fset_isls (s : State) (x : Fld) (v : Nat) : (fset s x v).isls = s.isls := rfl
@[simp] theorem fset_strms (s : State) (x : Fld) (v : Nat) : (fset s x v).strms = s.strms := rfl
@[simp] theorem fset_probe (s : State) (x : Fld) (v : Nat) : (fset s x v).probe = s.probe := rfl
@[simp] theorem fset_qProbe (s : State) (x : Fld) (v : Nat) : (fset s x v).qProbe = s.qProbe := rfl
@[simp] theorem fset_flt (s : State) (x : Fld) (v : Nat) : (fset s x v).flt = s.flt := rfl
@[simp] theorem fset_pushWait (s : State) (x : Fld) (v : Nat) : (fset s x v).pushWait = s.pushWait := rfl
@[simp] theorem fset_load (s : State) (x : Fld) (v : Nat) : (fset s x v).load = s.load := rfl
@[simp] theorem fset_adm (s : State) (x : Fld) (v : Nat) : (fset s x v).adm = s.adm := rfl
@[simp] theorem fset_telAir (s : State) (x : Fld) (v : Nat) : (fset s x v).telAir = s.telAir := rfl
@[simp] theorem fset_vpm (s : State) (x : Fld) (v : Nat) : (fset s x v).vpm = s.vpm := rfl
@[simp] theorem fset_flash (s : State) (x : Fld) (v : Nat) : (fset s x v).flash = s.flash := rfl
@[simp] theorem fset_otp (s : State) (x : Fld) (v : Nat) : (fset s x v).otp = s.otp := rfl
@[simp] theorem fset_nv (s : State) (x : Fld) (v : Nat) : (fset s x v).nv = s.nv := rfl
@[simp] theorem fset_moss (s : State) (x : Fld) (v : Nat) : (fset s x v).moss = s.moss := rfl
@[simp] theorem fset_th (s : State) (x : Fld) (v : Nat) : (fset s x v).th = s.th := rfl
@[simp] theorem fset_rz (s : State) (x : Fld) (v : Nat) : (fset s x v).rz = s.rz := rfl
@[simp] theorem fset_bud (s : State) (x : Fld) (v : Nat) : (fset s x v).bud = s.bud := rfl
@[simp] theorem fset_conv (s : State) (x : Fld) (v : Nat) : (fset s x v).conv = s.conv := rfl
@[simp] theorem fset_fh (s : State) (x : Fld) (v : Nat) : (fset s x v).fh = s.fh := rfl
@[simp] theorem fset_mat (s : State) (x : Fld) (v : Nat) : (fset s x v).mat = s.mat := rfl
@[simp] theorem fset_age (s : State) (x : Fld) (v : Nat) : (fset s x v).age = s.age := rfl
@[simp] theorem fset_pm (s : State) (x : Fld) (v : Nat) : (fset s x v).pm = s.pm := rfl
@[simp] theorem fset_tap (s : State) (x : Fld) (v : Nat) : (fset s x v).tap = s.tap := rfl
@[simp] theorem fset_chip (s : State) (x : Fld) (v : Nat) : (fset s x v).chip = s.chip := rfl
@[simp] theorem fset_draws (s : State) (x : Fld) (v : Nat) : (fset s x v).draws = s.draws := rfl
@[simp] theorem fset_pending (s : State) (x : Fld) (v : Nat) : (fset s x v).pending = s.pending := rfl

/-! ### fsetB -/

@[simp] theorem fsetB_member (s : State) (x : Fld) (b : Bool) : (fsetB s x b).member = s.member := rfl
@[simp] theorem fsetB_fronds (s : State) (x : Fld) (b : Bool) : (fsetB s x b).fronds = s.fronds := rfl
@[simp] theorem fsetB_bus (s : State) (x : Fld) (b : Bool) : (fsetB s x b).bus = s.bus := rfl
@[simp] theorem fsetB_isls (s : State) (x : Fld) (b : Bool) : (fsetB s x b).isls = s.isls := rfl
@[simp] theorem fsetB_strms (s : State) (x : Fld) (b : Bool) : (fsetB s x b).strms = s.strms := rfl
@[simp] theorem fsetB_probe (s : State) (x : Fld) (b : Bool) : (fsetB s x b).probe = s.probe := rfl
@[simp] theorem fsetB_qProbe (s : State) (x : Fld) (b : Bool) : (fsetB s x b).qProbe = s.qProbe := rfl
@[simp] theorem fsetB_flt (s : State) (x : Fld) (b : Bool) : (fsetB s x b).flt = s.flt := rfl
@[simp] theorem fsetB_pushWait (s : State) (x : Fld) (b : Bool) : (fsetB s x b).pushWait = s.pushWait := rfl
@[simp] theorem fsetB_load (s : State) (x : Fld) (b : Bool) : (fsetB s x b).load = s.load := rfl
@[simp] theorem fsetB_adm (s : State) (x : Fld) (b : Bool) : (fsetB s x b).adm = s.adm := rfl
@[simp] theorem fsetB_telAir (s : State) (x : Fld) (b : Bool) : (fsetB s x b).telAir = s.telAir := rfl
@[simp] theorem fsetB_vpm (s : State) (x : Fld) (b : Bool) : (fsetB s x b).vpm = s.vpm := rfl
@[simp] theorem fsetB_flash (s : State) (x : Fld) (b : Bool) : (fsetB s x b).flash = s.flash := rfl
@[simp] theorem fsetB_otp (s : State) (x : Fld) (b : Bool) : (fsetB s x b).otp = s.otp := rfl
@[simp] theorem fsetB_nv (s : State) (x : Fld) (b : Bool) : (fsetB s x b).nv = s.nv := rfl
@[simp] theorem fsetB_moss (s : State) (x : Fld) (b : Bool) : (fsetB s x b).moss = s.moss := rfl
@[simp] theorem fsetB_th (s : State) (x : Fld) (b : Bool) : (fsetB s x b).th = s.th := rfl
@[simp] theorem fsetB_rz (s : State) (x : Fld) (b : Bool) : (fsetB s x b).rz = s.rz := rfl
@[simp] theorem fsetB_bud (s : State) (x : Fld) (b : Bool) : (fsetB s x b).bud = s.bud := rfl
@[simp] theorem fsetB_conv (s : State) (x : Fld) (b : Bool) : (fsetB s x b).conv = s.conv := rfl
@[simp] theorem fsetB_fh (s : State) (x : Fld) (b : Bool) : (fsetB s x b).fh = s.fh := rfl
@[simp] theorem fsetB_mat (s : State) (x : Fld) (b : Bool) : (fsetB s x b).mat = s.mat := rfl
@[simp] theorem fsetB_age (s : State) (x : Fld) (b : Bool) : (fsetB s x b).age = s.age := rfl
@[simp] theorem fsetB_pm (s : State) (x : Fld) (b : Bool) : (fsetB s x b).pm = s.pm := rfl
@[simp] theorem fsetB_tap (s : State) (x : Fld) (b : Bool) : (fsetB s x b).tap = s.tap := rfl
@[simp] theorem fsetB_chip (s : State) (x : Fld) (b : Bool) : (fsetB s x b).chip = s.chip := rfl
@[simp] theorem fsetB_draws (s : State) (x : Fld) (b : Bool) : (fsetB s x b).draws = s.draws := rfl
@[simp] theorem fsetB_pending (s : State) (x : Fld) (b : Bool) : (fsetB s x b).pending = s.pending := rfl

/-! ### bumpBy -/

@[simp] theorem bumpBy_member (s : State) (x : Fld) (n : Nat) : (bumpBy s x n).member = s.member := rfl
@[simp] theorem bumpBy_fronds (s : State) (x : Fld) (n : Nat) : (bumpBy s x n).fronds = s.fronds := rfl
@[simp] theorem bumpBy_bus (s : State) (x : Fld) (n : Nat) : (bumpBy s x n).bus = s.bus := rfl
@[simp] theorem bumpBy_isls (s : State) (x : Fld) (n : Nat) : (bumpBy s x n).isls = s.isls := rfl
@[simp] theorem bumpBy_strms (s : State) (x : Fld) (n : Nat) : (bumpBy s x n).strms = s.strms := rfl
@[simp] theorem bumpBy_probe (s : State) (x : Fld) (n : Nat) : (bumpBy s x n).probe = s.probe := rfl
@[simp] theorem bumpBy_qProbe (s : State) (x : Fld) (n : Nat) : (bumpBy s x n).qProbe = s.qProbe := rfl
@[simp] theorem bumpBy_flt (s : State) (x : Fld) (n : Nat) : (bumpBy s x n).flt = s.flt := rfl
@[simp] theorem bumpBy_pushWait (s : State) (x : Fld) (n : Nat) : (bumpBy s x n).pushWait = s.pushWait := rfl
@[simp] theorem bumpBy_load (s : State) (x : Fld) (n : Nat) : (bumpBy s x n).load = s.load := rfl
@[simp] theorem bumpBy_adm (s : State) (x : Fld) (n : Nat) : (bumpBy s x n).adm = s.adm := rfl
@[simp] theorem bumpBy_telAir (s : State) (x : Fld) (n : Nat) : (bumpBy s x n).telAir = s.telAir := rfl
@[simp] theorem bumpBy_vpm (s : State) (x : Fld) (n : Nat) : (bumpBy s x n).vpm = s.vpm := rfl
@[simp] theorem bumpBy_flash (s : State) (x : Fld) (n : Nat) : (bumpBy s x n).flash = s.flash := rfl
@[simp] theorem bumpBy_otp (s : State) (x : Fld) (n : Nat) : (bumpBy s x n).otp = s.otp := rfl
@[simp] theorem bumpBy_nv (s : State) (x : Fld) (n : Nat) : (bumpBy s x n).nv = s.nv := rfl
@[simp] theorem bumpBy_moss (s : State) (x : Fld) (n : Nat) : (bumpBy s x n).moss = s.moss := rfl
@[simp] theorem bumpBy_th (s : State) (x : Fld) (n : Nat) : (bumpBy s x n).th = s.th := rfl
@[simp] theorem bumpBy_rz (s : State) (x : Fld) (n : Nat) : (bumpBy s x n).rz = s.rz := rfl
@[simp] theorem bumpBy_bud (s : State) (x : Fld) (n : Nat) : (bumpBy s x n).bud = s.bud := rfl
@[simp] theorem bumpBy_conv (s : State) (x : Fld) (n : Nat) : (bumpBy s x n).conv = s.conv := rfl
@[simp] theorem bumpBy_fh (s : State) (x : Fld) (n : Nat) : (bumpBy s x n).fh = s.fh := rfl
@[simp] theorem bumpBy_mat (s : State) (x : Fld) (n : Nat) : (bumpBy s x n).mat = s.mat := rfl
@[simp] theorem bumpBy_age (s : State) (x : Fld) (n : Nat) : (bumpBy s x n).age = s.age := rfl
@[simp] theorem bumpBy_pm (s : State) (x : Fld) (n : Nat) : (bumpBy s x n).pm = s.pm := rfl
@[simp] theorem bumpBy_tap (s : State) (x : Fld) (n : Nat) : (bumpBy s x n).tap = s.tap := rfl
@[simp] theorem bumpBy_chip (s : State) (x : Fld) (n : Nat) : (bumpBy s x n).chip = s.chip := rfl
@[simp] theorem bumpBy_draws (s : State) (x : Fld) (n : Nat) : (bumpBy s x n).draws = s.draws := rfl
@[simp] theorem bumpBy_pending (s : State) (x : Fld) (n : Nat) : (bumpBy s x n).pending = s.pending := rfl

/-! ### bump -/

@[simp] theorem bump_member (s : State) (x : Fld) : (bump s x).member = s.member := rfl
@[simp] theorem bump_fronds (s : State) (x : Fld) : (bump s x).fronds = s.fronds := rfl
@[simp] theorem bump_bus (s : State) (x : Fld) : (bump s x).bus = s.bus := rfl
@[simp] theorem bump_isls (s : State) (x : Fld) : (bump s x).isls = s.isls := rfl
@[simp] theorem bump_strms (s : State) (x : Fld) : (bump s x).strms = s.strms := rfl
@[simp] theorem bump_probe (s : State) (x : Fld) : (bump s x).probe = s.probe := rfl
@[simp] theorem bump_qProbe (s : State) (x : Fld) : (bump s x).qProbe = s.qProbe := rfl
@[simp] theorem bump_flt (s : State) (x : Fld) : (bump s x).flt = s.flt := rfl
@[simp] theorem bump_pushWait (s : State) (x : Fld) : (bump s x).pushWait = s.pushWait := rfl
@[simp] theorem bump_load (s : State) (x : Fld) : (bump s x).load = s.load := rfl
@[simp] theorem bump_adm (s : State) (x : Fld) : (bump s x).adm = s.adm := rfl
@[simp] theorem bump_telAir (s : State) (x : Fld) : (bump s x).telAir = s.telAir := rfl
@[simp] theorem bump_vpm (s : State) (x : Fld) : (bump s x).vpm = s.vpm := rfl
@[simp] theorem bump_flash (s : State) (x : Fld) : (bump s x).flash = s.flash := rfl
@[simp] theorem bump_otp (s : State) (x : Fld) : (bump s x).otp = s.otp := rfl
@[simp] theorem bump_nv (s : State) (x : Fld) : (bump s x).nv = s.nv := rfl
@[simp] theorem bump_moss (s : State) (x : Fld) : (bump s x).moss = s.moss := rfl
@[simp] theorem bump_th (s : State) (x : Fld) : (bump s x).th = s.th := rfl
@[simp] theorem bump_rz (s : State) (x : Fld) : (bump s x).rz = s.rz := rfl
@[simp] theorem bump_bud (s : State) (x : Fld) : (bump s x).bud = s.bud := rfl
@[simp] theorem bump_conv (s : State) (x : Fld) : (bump s x).conv = s.conv := rfl
@[simp] theorem bump_fh (s : State) (x : Fld) : (bump s x).fh = s.fh := rfl
@[simp] theorem bump_mat (s : State) (x : Fld) : (bump s x).mat = s.mat := rfl
@[simp] theorem bump_age (s : State) (x : Fld) : (bump s x).age = s.age := rfl
@[simp] theorem bump_pm (s : State) (x : Fld) : (bump s x).pm = s.pm := rfl
@[simp] theorem bump_tap (s : State) (x : Fld) : (bump s x).tap = s.tap := rfl
@[simp] theorem bump_chip (s : State) (x : Fld) : (bump s x).chip = s.chip := rfl
@[simp] theorem bump_draws (s : State) (x : Fld) : (bump s x).draws = s.draws := rfl
@[simp] theorem bump_pending (s : State) (x : Fld) : (bump s x).pending = s.pending := rfl

/-! ### pmStep -/

@[simp] theorem pmStep_member (s : State) : (pmStep s).member = s.member := rfl
@[simp] theorem pmStep_regs (s : State) : (pmStep s).regs = s.regs := rfl
@[simp] theorem pmStep_fronds (s : State) : (pmStep s).fronds = s.fronds := rfl
@[simp] theorem pmStep_bus (s : State) : (pmStep s).bus = s.bus := rfl
@[simp] theorem pmStep_isls (s : State) : (pmStep s).isls = s.isls := rfl
@[simp] theorem pmStep_strms (s : State) : (pmStep s).strms = s.strms := rfl
@[simp] theorem pmStep_probe (s : State) : (pmStep s).probe = s.probe := rfl
@[simp] theorem pmStep_qProbe (s : State) : (pmStep s).qProbe = s.qProbe := rfl
@[simp] theorem pmStep_flt (s : State) : (pmStep s).flt = s.flt := rfl
@[simp] theorem pmStep_pushWait (s : State) : (pmStep s).pushWait = s.pushWait := rfl
@[simp] theorem pmStep_load (s : State) : (pmStep s).load = s.load := rfl
@[simp] theorem pmStep_adm (s : State) : (pmStep s).adm = s.adm := rfl
@[simp] theorem pmStep_telAir (s : State) : (pmStep s).telAir = s.telAir := rfl
@[simp] theorem pmStep_vpm (s : State) : (pmStep s).vpm = s.vpm := rfl
@[simp] theorem pmStep_flash (s : State) : (pmStep s).flash = s.flash := rfl
@[simp] theorem pmStep_otp (s : State) : (pmStep s).otp = s.otp := rfl
@[simp] theorem pmStep_nv (s : State) : (pmStep s).nv = s.nv := rfl
@[simp] theorem pmStep_moss (s : State) : (pmStep s).moss = s.moss := rfl
@[simp] theorem pmStep_th (s : State) : (pmStep s).th = s.th := rfl
@[simp] theorem pmStep_rz (s : State) : (pmStep s).rz = s.rz := rfl
@[simp] theorem pmStep_bud (s : State) : (pmStep s).bud = s.bud := rfl
@[simp] theorem pmStep_conv (s : State) : (pmStep s).conv = s.conv := rfl
@[simp] theorem pmStep_fh (s : State) : (pmStep s).fh = s.fh := rfl
@[simp] theorem pmStep_mat (s : State) : (pmStep s).mat = s.mat := rfl
@[simp] theorem pmStep_age (s : State) : (pmStep s).age = s.age := rfl
@[simp] theorem pmStep_tap (s : State) : (pmStep s).tap = s.tap := rfl
@[simp] theorem pmStep_chip (s : State) : (pmStep s).chip = s.chip := rfl
@[simp] theorem pmStep_draws (s : State) : (pmStep s).draws = s.draws := rfl
@[simp] theorem pmStep_pending (s : State) : (pmStep s).pending = s.pending := rfl

/-! ### sendOn -/

@[simp] theorem sendOn_member (s : State) (i n : Nat) : (sendOn s i n).member = s.member := rfl
@[simp] theorem sendOn_regs (s : State) (i n : Nat) : (sendOn s i n).regs = s.regs := rfl
@[simp] theorem sendOn_fronds (s : State) (i n : Nat) : (sendOn s i n).fronds = s.fronds := rfl
@[simp] theorem sendOn_bus (s : State) (i n : Nat) : (sendOn s i n).bus = s.bus := rfl
@[simp] theorem sendOn_isls (s : State) (i n : Nat) : (sendOn s i n).isls = s.isls := rfl
@[simp] theorem sendOn_probe (s : State) (i n : Nat) : (sendOn s i n).probe = s.probe := rfl
@[simp] theorem sendOn_qProbe (s : State) (i n : Nat) : (sendOn s i n).qProbe = s.qProbe := rfl
@[simp] theorem sendOn_flt (s : State) (i n : Nat) : (sendOn s i n).flt = s.flt := rfl
@[simp] theorem sendOn_pushWait (s : State) (i n : Nat) : (sendOn s i n).pushWait = s.pushWait := rfl
@[simp] theorem sendOn_load (s : State) (i n : Nat) : (sendOn s i n).load = s.load := rfl
@[simp] theorem sendOn_adm (s : State) (i n : Nat) : (sendOn s i n).adm = s.adm := rfl
@[simp] theorem sendOn_telAir (s : State) (i n : Nat) : (sendOn s i n).telAir = s.telAir := rfl
@[simp] theorem sendOn_vpm (s : State) (i n : Nat) : (sendOn s i n).vpm = s.vpm := rfl
@[simp] theorem sendOn_flash (s : State) (i n : Nat) : (sendOn s i n).flash = s.flash := rfl
@[simp] theorem sendOn_otp (s : State) (i n : Nat) : (sendOn s i n).otp = s.otp := rfl
@[simp] theorem sendOn_nv (s : State) (i n : Nat) : (sendOn s i n).nv = s.nv := rfl
@[simp] theorem sendOn_moss (s : State) (i n : Nat) : (sendOn s i n).moss = s.moss := rfl
@[simp] theorem sendOn_th (s : State) (i n : Nat) : (sendOn s i n).th = s.th := rfl
@[simp] theorem sendOn_rz (s : State) (i n : Nat) : (sendOn s i n).rz = s.rz := rfl
@[simp] theorem sendOn_bud (s : State) (i n : Nat) : (sendOn s i n).bud = s.bud := rfl
@[simp] theorem sendOn_conv (s : State) (i n : Nat) : (sendOn s i n).conv = s.conv := rfl
@[simp] theorem sendOn_fh (s : State) (i n : Nat) : (sendOn s i n).fh = s.fh := rfl
@[simp] theorem sendOn_mat (s : State) (i n : Nat) : (sendOn s i n).mat = s.mat := rfl
@[simp] theorem sendOn_age (s : State) (i n : Nat) : (sendOn s i n).age = s.age := rfl
@[simp] theorem sendOn_pm (s : State) (i n : Nat) : (sendOn s i n).pm = s.pm := rfl
@[simp] theorem sendOn_tap (s : State) (i n : Nat) : (sendOn s i n).tap = s.tap := rfl
@[simp] theorem sendOn_chip (s : State) (i n : Nat) : (sendOn s i n).chip = s.chip := rfl
@[simp] theorem sendOn_draws (s : State) (i n : Nat) : (sendOn s i n).draws = s.draws := rfl
@[simp] theorem sendOn_pending (s : State) (i n : Nat) : (sendOn s i n).pending = s.pending := rfl

/-! ### raiseD -/

@[simp] theorem raiseD_member (s : State) (c : Nat) (u : Option Nat) (d i : Nat) : (raiseD s c u d i).member = s.member := by
  unfold raiseD; split <;> rfl
@[simp] theorem raiseD_regs (s : State) (c : Nat) (u : Option Nat) (d i : Nat) : (raiseD s c u d i).regs = s.regs := by
  unfold raiseD; split <;> rfl
@[simp] theorem raiseD_fronds (s : State) (c : Nat) (u : Option Nat) (d i : Nat) : (raiseD s c u d i).fronds = s.fronds := by
  unfold raiseD; split <;> rfl
@[simp] theorem raiseD_bus (s : State) (c : Nat) (u : Option Nat) (d i : Nat) : (raiseD s c u d i).bus = s.bus := by
  unfold raiseD; split <;> rfl
@[simp] theorem raiseD_isls (s : State) (c : Nat) (u : Option Nat) (d i : Nat) : (raiseD s c u d i).isls = s.isls := by
  unfold raiseD; split <;> rfl
@[simp] theorem raiseD_strms (s : State) (c : Nat) (u : Option Nat) (d i : Nat) : (raiseD s c u d i).strms = s.strms := by
  unfold raiseD; split <;> rfl
@[simp] theorem raiseD_probe (s : State) (c : Nat) (u : Option Nat) (d i : Nat) : (raiseD s c u d i).probe = s.probe := by
  unfold raiseD; split <;> rfl
@[simp] theorem raiseD_qProbe (s : State) (c : Nat) (u : Option Nat) (d i : Nat) : (raiseD s c u d i).qProbe = s.qProbe := by
  unfold raiseD; split <;> rfl
@[simp] theorem raiseD_pushWait (s : State) (c : Nat) (u : Option Nat) (d i : Nat) : (raiseD s c u d i).pushWait = s.pushWait := by
  unfold raiseD; split <;> rfl
@[simp] theorem raiseD_load (s : State) (c : Nat) (u : Option Nat) (d i : Nat) : (raiseD s c u d i).load = s.load := by
  unfold raiseD; split <;> rfl
@[simp] theorem raiseD_adm (s : State) (c : Nat) (u : Option Nat) (d i : Nat) : (raiseD s c u d i).adm = s.adm := by
  unfold raiseD; split <;> rfl
@[simp] theorem raiseD_telAir (s : State) (c : Nat) (u : Option Nat) (d i : Nat) : (raiseD s c u d i).telAir = s.telAir := by
  unfold raiseD; split <;> rfl
@[simp] theorem raiseD_vpm (s : State) (c : Nat) (u : Option Nat) (d i : Nat) : (raiseD s c u d i).vpm = s.vpm := by
  unfold raiseD; split <;> rfl
@[simp] theorem raiseD_flash (s : State) (c : Nat) (u : Option Nat) (d i : Nat) : (raiseD s c u d i).flash = s.flash := by
  unfold raiseD; split <;> rfl
@[simp] theorem raiseD_otp (s : State) (c : Nat) (u : Option Nat) (d i : Nat) : (raiseD s c u d i).otp = s.otp := by
  unfold raiseD; split <;> rfl
@[simp] theorem raiseD_nv (s : State) (c : Nat) (u : Option Nat) (d i : Nat) : (raiseD s c u d i).nv = s.nv := by
  unfold raiseD; split <;> rfl
@[simp] theorem raiseD_moss (s : State) (c : Nat) (u : Option Nat) (d i : Nat) : (raiseD s c u d i).moss = s.moss := by
  unfold raiseD; split <;> rfl
@[simp] theorem raiseD_th (s : State) (c : Nat) (u : Option Nat) (d i : Nat) : (raiseD s c u d i).th = s.th := by
  unfold raiseD; split <;> rfl
@[simp] theorem raiseD_rz (s : State) (c : Nat) (u : Option Nat) (d i : Nat) : (raiseD s c u d i).rz = s.rz := by
  unfold raiseD; split <;> rfl
@[simp] theorem raiseD_bud (s : State) (c : Nat) (u : Option Nat) (d i : Nat) : (raiseD s c u d i).bud = s.bud := by
  unfold raiseD; split <;> rfl
@[simp] theorem raiseD_conv (s : State) (c : Nat) (u : Option Nat) (d i : Nat) : (raiseD s c u d i).conv = s.conv := by
  unfold raiseD; split <;> rfl
@[simp] theorem raiseD_fh (s : State) (c : Nat) (u : Option Nat) (d i : Nat) : (raiseD s c u d i).fh = s.fh := by
  unfold raiseD; split <;> rfl
@[simp] theorem raiseD_mat (s : State) (c : Nat) (u : Option Nat) (d i : Nat) : (raiseD s c u d i).mat = s.mat := by
  unfold raiseD; split <;> rfl
@[simp] theorem raiseD_age (s : State) (c : Nat) (u : Option Nat) (d i : Nat) : (raiseD s c u d i).age = s.age := by
  unfold raiseD; split <;> rfl
@[simp] theorem raiseD_pm (s : State) (c : Nat) (u : Option Nat) (d i : Nat) : (raiseD s c u d i).pm = s.pm := by
  unfold raiseD; split <;> rfl
@[simp] theorem raiseD_tap (s : State) (c : Nat) (u : Option Nat) (d i : Nat) : (raiseD s c u d i).tap = s.tap := by
  unfold raiseD; split <;> rfl
@[simp] theorem raiseD_chip (s : State) (c : Nat) (u : Option Nat) (d i : Nat) : (raiseD s c u d i).chip = s.chip := by
  unfold raiseD; split <;> rfl
@[simp] theorem raiseD_draws (s : State) (c : Nat) (u : Option Nat) (d i : Nat) : (raiseD s c u d i).draws = s.draws := by
  unfold raiseD; split <;> rfl
@[simp] theorem raiseD_pending (s : State) (c : Nat) (u : Option Nat) (d i : Nat) : (raiseD s c u d i).pending = s.pending := by
  unfold raiseD; split <;> rfl

end Sys2Proof.Machine
end

