-- ==== Sys2Proof/Laws/Tables.lean ====
section
/-! SUPPORT. Laws/Tables.lean: reads after writes of sparse tables, bit fields, and byte memories; every memory operation keeps the canonical form. -/
namespace Sys2Proof.Machine

/-! ### Tables -/

@[simp] theorem tget_tset_same {α : Type} (d : α) (t : Tbl α) (k : Nat) (v : α) : tget d (tset t k v) k = v := by
  induction t with
  | nil => simp [tset, tget]
  | cons p t ih =>
    unfold tset
    split
    · simp [tget]
    · split
      · simp [tget]
      · rename_i h
        simp [tget, h, ih]

theorem tget_tset_ne {α : Type} (d : α) (t : Tbl α) (k j : Nat) (v : α) (h : j ≠ k) : tget d (tset t k v) j = tget d t j := by
  induction t with
  | nil => simp [tset, tget, h]
  | cons p t ih =>
    unfold tset
    split
    · simp [tget, h]
    · split
      · subst_vars; simp [tget, h]
      · simp [tget, ih]

@[simp] theorem tget?_tset_same {α : Type} (t : Tbl α) (k : Nat) (v : α) : tget? (tset t k v) k = some v := by
  induction t with
  | nil => simp [tset, tget?]
  | cons p t ih =>
    unfold tset
    split
    · simp [tget?]
    · split
      · simp [tget?]
      · rename_i h
        simp [tget?, h, ih]

theorem tget?_tset_ne {α : Type} (t : Tbl α) (k j : Nat) (v : α) (h : j ≠ k) : tget? (tset t k v) j = tget? t j := by
  induction t with
  | nil => simp [tset, tget?, h]
  | cons p t ih =>
    unfold tset
    split
    · simp [tget?, h]
    · split
      · subst_vars; simp [tget?, h]
      · simp [tget?, ih]

@[simp] theorem tget?_tdel_same {α : Type} (t : Tbl α) (k : Nat) : tget? (tdel t k) k = none := by
  induction t with
  | nil => rfl
  | cons p t ih =>
    unfold tdel at ih ⊢
    rw [List.filter_cons]
    split
    · rename_i h
      have : k ≠ p.1 := by rintro rfl; simp at h
      simp [tget?, this, ih]
    · exact ih

theorem tget?_tdel_ne {α : Type} (t : Tbl α) (k j : Nat) (h : j ≠ k) : tget? (tdel t k) j = tget? t j := by
  induction t with
  | nil => rfl
  | cons p t ih =>
    unfold tdel at ih ⊢
    rw [List.filter_cons]
    split
    · simp [tget?, ih]
    · rename_i h1
      have : p.1 = k := by simpa using h1
      simp [tget?, this, h, ih]

theorem tget_tset {α : Type} (d : α) (t : Tbl α) (k j : Nat) (v : α) : tget d (tset t k v) j = if j = k then v else tget d t j := by
  split
  · subst_vars; simp
  · exact tget_tset_ne d t k j v ‹_›

/-! ### Bit fields -/

theorem testBit_bitsOf (n hi lo i : Nat) : (bitsOf n hi lo).testBit i = (decide (i < hi + 1 - lo) && n.testBit (lo + i)) := by
  simp [bitsOf, Nat.testBit_mod_two_pow, Nat.testBit_div_two_pow, Nat.add_comm]

theorem putBits_eq (n hi lo v : Nat) :
    putBits n hi lo v = 2 ^ (lo + (hi + 1 - lo)) * (n / 2 ^ (lo + (hi + 1 - lo))) + (2 ^ lo * (v % 2 ^ (hi + 1 - lo)) + n % 2 ^ lo) := by
  have h1 := Nat.div_add_mod n (2 ^ lo)
  have h2 := Nat.div_add_mod (n / 2 ^ lo) (2 ^ (hi + 1 - lo))
  have h3 : n / 2 ^ (lo + (hi + 1 - lo)) = n / 2 ^ lo / 2 ^ (hi + 1 - lo) := by rw [Nat.pow_add, Nat.div_div_eq_div_mul]
  have h4 : 2 ^ (lo + (hi + 1 - lo)) * (n / 2 ^ (lo + (hi + 1 - lo))) = 2 ^ lo * (2 ^ (hi + 1 - lo) * (n / 2 ^ lo / 2 ^ (hi + 1 - lo))) := by
    rw [h3, Nat.pow_add, Nat.mul_assoc]
  have h5 : n = 2 ^ lo * (2 ^ (hi + 1 - lo) * (n / 2 ^ lo / 2 ^ (hi + 1 - lo))) + bitsOf n hi lo * 2 ^ lo + n % 2 ^ lo := by
    unfold bitsOf
    rw [Nat.mul_comm (n / 2 ^ lo % 2 ^ (hi + 1 - lo)), ← Nat.mul_add, h2, h1]
  unfold putBits
  rw [h4, Nat.mul_comm (v % _)]
  omega

theorem testBit_putBits (n hi lo v i : Nat) :
    (putBits n hi lo v).testBit i = if lo ≤ i ∧ i < lo + (hi + 1 - lo) then v.testBit (i - lo) else n.testBit i := by
  have hb1 : n % 2 ^ lo < 2 ^ lo := Nat.mod_lt _ (Nat.two_pow_pos _)
  have hb2 : 2 ^ lo * (v % 2 ^ (hi + 1 - lo)) + n % 2 ^ lo < 2 ^ (lo + (hi + 1 - lo)) := by
    have h := Nat.mod_lt v (Nat.two_pow_pos (hi + 1 - lo))
    rw [Nat.pow_add]
    calc _ < 2 ^ lo * (v % 2 ^ (hi + 1 - lo)) + 2 ^ lo := by omega
      _ = 2 ^ lo * (v % 2 ^ (hi + 1 - lo) + 1) := by ring
      _ ≤ _ := Nat.mul_le_mul_left _ h
  rw [putBits_eq, Nat.testBit_two_pow_mul_add _ hb2]
  split
  · rw [Nat.testBit_two_pow_mul_add _ hb1]
    split
    · rw [if_neg (by omega), Nat.testBit_mod_two_pow]; simp [*]
    · rw [if_pos (by omega), Nat.testBit_mod_two_pow]
      have : i - lo < hi + 1 - lo := by omega
      simp [this]
  · rw [if_neg (by omega), Nat.testBit_div_two_pow]
    congr 1; omega

/-- A field reads what was put into it. -/
theorem bitsOf_putBits_same (n hi lo v : Nat) : bitsOf (putBits n hi lo v) hi lo = v % 2 ^ (hi + 1 - lo) := by
  apply Nat.eq_of_testBit_eq; intro i
  rw [testBit_bitsOf, testBit_putBits, Nat.testBit_mod_two_pow]
  by_cases h : i < hi + 1 - lo
  · simp [h]
  · simp [h]

/-- A field that does not overlap the written one keeps its value. -/
theorem bitsOf_putBits_disj (n hi lo v h l : Nat) (hd : h < lo ∨ hi < l) : bitsOf (putBits n hi lo v) h l = bitsOf n h l := by
  apply Nat.eq_of_testBit_eq; intro i
  rw [testBit_bitsOf, testBit_bitsOf, testBit_putBits]
  by_cases h : i < h + 1 - l
  · rw [if_neg (by omega)]
  · simp [h]

theorem putBits_lt (n hi lo v : Nat) (hn : n < 2 ^ 64) (hh : hi < 64) : putBits n hi lo v < 2 ^ 64 := by
  apply Nat.lt_pow_two_of_testBit
  intro i hi'
  rw [testBit_putBits]
  split
  · omega
  · exact Nat.testBit_lt_two_pow (Nat.lt_of_lt_of_le hn (Nat.pow_le_pow_right (by decide) hi'))

/-- Putting back what a field holds changes nothing. -/
theorem putBits_self (n hi lo : Nat) : putBits n hi lo (bitsOf n hi lo) = n := by
  apply Nat.eq_of_testBit_eq; intro i
  rw [testBit_putBits]
  split
  · rename_i h
    rw [testBit_bitsOf]
    have h1 : i - lo < hi + 1 - lo := by omega
    have h2 : lo + (i - lo) = i := by omega
    simp [h1, h2]
  · rfl

theorem bitsOf_lt (n hi lo : Nat) : bitsOf n hi lo < 2 ^ (hi + 1 - lo) := Nat.mod_lt _ (Nat.two_pow_pos _)

/-! ### Byte memories -/

theorem mwfFrom_mono {d : Byte} {lo lo' : Option Nat} {m : List Host.Cell} (h : mwfFrom d lo m = true)
    (hlo : ∀ x, lo' = some x → ∃ y, lo = some y ∧ x ≤ y) : mwfFrom d lo' m = true := by
  cases m with
  | nil => rfl
  | cons p t =>
    obtain ⟨k, v⟩ := p
    simp only [mwfFrom, Bool.and_eq_true] at h ⊢
    refine ⟨⟨?_, h.1.2⟩, h.2⟩
    cases lo' with
    | none => rfl
    | some x =>
      obtain ⟨y, hy, hxy⟩ := hlo x rfl
      subst hy
      have := h.1.1
      simp only [decide_eq_true_eq] at this ⊢
      omega

theorem mwf_bound (lo : Option Nat) (a : Nat) : (∀ x, lo = some x → x < a) → (match lo with | none => true | some l => decide (l < a)) = true := by
  intro ha
  cases lo with
  | none => rfl
  | some x => simpa using ha x rfl

theorem mwfFrom_filter (d : Byte) (p : Host.Cell → Bool) (m : List Host.Cell) (lo : Option Nat) (h : mwfFrom d lo m = true) : mwfFrom d lo (m.filter p) = true := by
  induction m generalizing lo with
  | nil => rfl
  | cons c t ih =>
    simp only [mwfFrom, Bool.and_eq_true] at h
    rw [List.filter_cons]
    split
    · simp only [mwfFrom, Bool.and_eq_true]
      exact ⟨h.1, ih _ h.2⟩
    · refine ih lo (mwfFrom_mono h.2 ?_)
      intro x hx
      subst hx
      exact ⟨c.1, rfl, by have := h.1.1; simp at this; omega⟩

theorem mwfFrom_mset (d : Byte) (a : Nat) (b : Byte) (hb : b ≠ d) (m : List Host.Cell) (lo : Option Nat)
    (h : mwfFrom d lo m = true) (ha : ∀ x, lo = some x → x < a) : mwfFrom d lo (mset m a b) = true := by
  have hlo := mwf_bound lo a ha
  induction m generalizing lo with
  | nil =>
    simp only [mset, mwfFrom, Bool.and_eq_true]
    exact ⟨⟨hlo, by simpa using hb⟩, trivial⟩
  | cons p t ih =>
    obtain ⟨k, v⟩ := p
    simp only [mset]
    have h' := h
    simp only [mwfFrom, Bool.and_eq_true] at h'
    split
    · simp only [mwfFrom, Bool.and_eq_true]
      exact ⟨⟨hlo, by simpa using hb⟩, ⟨by simpa, h'.1.2⟩, h'.2⟩
    · split
      · rename_i h1 h2
        subst h2
        simp only [mwfFrom, Bool.and_eq_true]
        exact ⟨⟨hlo, by simpa using hb⟩, h'.2⟩
      · rename_i h1 h2
        simp only [mwfFrom, Bool.and_eq_true]
        exact ⟨⟨h'.1.1, h'.1.2⟩, ih (some k) h'.2 (by intro x hx; cases hx; omega) (by simp; omega)⟩

/-- A write keeps the canonical form. -/
theorem mwrite_wf (d : Byte) (m : List Host.Cell) (a : Nat) (b : Byte) (h : Memory.wf d m = true) : Memory.wf d (mwrite d m a b) = true := by
  unfold mwrite
  split
  · exact mwfFrom_filter d _ m none h
  · exact mwfFrom_mset d a b ‹_› m none h (by simp)

theorem mwrites_wf (d : Byte) (bs : List Nat) (m : List Host.Cell) (a : Nat) (h : Memory.wf d m = true) : Memory.wf d (mwrites d m a bs) = true := by
  induction bs generalizing m a with
  | nil => exact h
  | cons b bs ih => exact ih _ _ (mwrite_wf d m a _ h)

theorem mwfFrom_mclear (d : Byte) (m : List Host.Cell) (lo hi : Nat) (l : Option Nat) (h : mwfFrom d l m = true) : mwfFrom d l (mclear m lo hi) = true := by
  induction m generalizing l with
  | nil => rfl
  | cons p t ih =>
    obtain ⟨k, v⟩ := p
    simp only [mwfFrom, Bool.and_eq_true] at h
    simp only [mclear]
    split
    · refine ih l (mwfFrom_mono h.2 ?_)
      intro x hx
      subst hx
      exact ⟨k, rfl, by have := h.1.1; simp at this; omega⟩
    · simp only [mwfFrom, Bool.and_eq_true]
      exact ⟨h.1, ih _ h.2⟩

/-- Clearing a range keeps the canonical form. -/
theorem mclear_wf (d : Byte) (m : List Host.Cell) (lo hi : Nat) (h : Memory.wf d m = true) : Memory.wf d (mclear m lo hi) = true :=
  mwfFrom_mclear d m lo hi none h

theorem mread_filter_same (d : Byte) (a : Nat) (m : List Host.Cell) : mread d (m.filter fun c => c.1 != a) a = d := by
  induction m with
  | nil => rfl
  | cons c t ih =>
    rw [List.filter_cons]
    split
    · rename_i h
      have : a ≠ c.1 := by rintro rfl; simp at h
      simp [mread, this, ih]
    · exact ih

theorem mread_filter_ne (d : Byte) (a x : Nat) (h : x ≠ a) (m : List Host.Cell) : mread d (m.filter fun c => c.1 != a) x = mread d m x := by
  induction m with
  | nil => rfl
  | cons c t ih =>
    rw [List.filter_cons]
    split
    · simp [mread, ih]
    · rename_i h1
      have : c.1 = a := by simpa using h1
      simp [mread, this, h, ih]

theorem mread_mset_same (d : Byte) (a : Nat) (b : Byte) (m : List Host.Cell) : mread d (mset m a b) a = b := by
  induction m with
  | nil => simp [mset, mread]
  | cons c t ih =>
    unfold mset
    split
    · simp [mread]
    · split
      · simp [mread]
      · rename_i h
        simp [mread, h, ih]

theorem mread_mset_ne (d : Byte) (a x : Nat) (b : Byte) (h : x ≠ a) (m : List Host.Cell) : mread d (mset m a b) x = mread d m x := by
  induction m with
  | nil => simp [mset, mread, h]
  | cons c t ih =>
    unfold mset
    split
    · simp [mread, h]
    · split
      · subst_vars; simp [mread, h]
      · simp [mread, ih]

/-- A byte reads what was written to it. -/
theorem mread_mwrite_same (d : Byte) (m : List Host.Cell) (a : Nat) (b : Byte) : mread d (mwrite d m a b) a = b := by
  unfold mwrite
  split
  · rw [mread_filter_same]; exact ‹b = d›.symm
  · exact mread_mset_same d a b m

/-- Other bytes keep their value. -/
theorem mread_mwrite_ne (d : Byte) (m : List Host.Cell) (a x : Nat) (b : Byte) (h : x ≠ a) : mread d (mwrite d m a b) x = mread d m x := by
  unfold mwrite
  split
  · exact mread_filter_ne d a x h m
  · exact mread_mset_ne d a x b h m

/-- Bytes outside a written block keep their value. -/
theorem mread_mwrites_out (d : Byte) (l : List Nat) (m : List Host.Cell) (a x : Nat) (h : x < a ∨ a + l.length ≤ x) : mread d (mwrites d m a l) x = mread d m x := by
  induction l generalizing m a with
  | nil => rfl
  | cons b t ih =>
    simp only [List.length_cons] at h
    rw [mwrites, ih _ _ (by omega), mread_mwrite_ne _ _ _ _ _ (by omega)]

/-- A written block reads back. -/
theorem mreads_mwrites (d : Byte) (l : List Nat) (m : List Host.Cell) (a : Nat) : mreads d (mwrites d m a l) a l.length = l.map fun b => b % 256 := by
  induction l generalizing m a with
  | nil => rfl
  | cons b t ih =>
    simp only [List.length_cons, List.map_cons, mreads, mwrites]
    rw [ih, mread_mwrites_out _ _ _ _ _ (by omega), mread_mwrite_same, BitVec.toNat_ofNat]

end Sys2Proof.Machine
end

