-- ==== Sys2Proof/Laws/Regs.lean ====
section
/-! SUPPORT. Laws/Regs.lean: registers, fields and fronds after an update. -/
namespace Sys2Proof.Machine

/-! ### Words of registers -/

/-- A register depends on the member and the register file alone. -/
theorem reg_congr {s t : State} (h1 : t.member = s.member) (h2 : t.regs = s.regs) (a : Nat) : reg t a = reg s a := by
  unfold reg; rw [h1, h2]

theorem fget_congr {s t : State} (h1 : t.member = s.member) (h2 : t.regs = s.regs) (x : Fld) : fget t x = fget s x := by
  unfold fget; rw [reg_congr h1 h2]

theorem flag_congr {s t : State} (h1 : t.member = s.member) (h2 : t.regs = s.regs) (x : Fld) : flag t x = flag s x := by
  unfold flag; rw [fget_congr h1 h2]

theorem reg_setReg (s : State) (a b : Nat) (v : W64) (h : b ≠ RZ_ID) : reg (setReg s a v) b = if b = a then v else reg s b := by
  unfold reg setReg
  rw [if_neg h, if_neg h]
  exact tget_tset _ _ _ _ _

theorem reg_setReg_same (s : State) (a : Nat) (v : W64) (h : a ≠ RZ_ID) : reg (setReg s a v) a = v := by rw [reg_setReg s a a v h, if_pos rfl]

/-- RZ_ID follows from the member whatever is written (R403). -/
theorem reg_id (s : State) : reg s RZ_ID = BitVec.ofNat 64 (idWord s.member) := by unfold reg; rw [if_pos rfl]

theorem reg_setReg_ne (s : State) (a b : Nat) (v : W64) (h : b ≠ a) : reg (setReg s a v) b = reg s b := by
  by_cases hb : b = RZ_ID
  · subst hb; rw [reg_id, reg_id]; rfl
  · rw [reg_setReg s a b v hb, if_neg h]

/-! ### Fields -/

theorem toNat_reg_lt (s : State) (a : Nat) : (reg s a).toNat < 2 ^ 64 := (reg s a).isLt

/-- A field reads what was written to it, cut to its width. -/
theorem fget_fset_same (s : State) (x : Fld) (v : Nat) (ha : x.addr ≠ RZ_ID) (hh : x.hi < 64) : fget (fset s x v) x = v % 2 ^ (x.hi + 1 - x.lo) := by
  unfold fget fset
  rw [reg_setReg_same _ _ _ ha, BitVec.toNat_ofNat, Nat.mod_eq_of_lt (putBits_lt _ _ _ _ (toNat_reg_lt s x.addr) hh), bitsOf_putBits_same]

/-- A field of another register keeps its value. -/
theorem fget_fset_addr (s : State) (x y : Fld) (v : Nat) (h : y.addr ≠ x.addr) : fget (fset s x v) y = fget s y := by
  unfold fget fset; rw [reg_setReg_ne _ _ _ _ h]

/-- Another field of the same register keeps its value. -/
theorem fget_fset_disj (s : State) (x y : Fld) (v : Nat) (hh : x.hi < 64) (h : y.hi < x.lo ∨ x.hi < y.lo) : fget (fset s x v) y = fget s y := by
  by_cases ha : y.addr = x.addr
  · by_cases hid : x.addr = RZ_ID
    · unfold fget; rw [ha, hid, reg_id, reg_id]; rfl
    · unfold fget fset
      rw [ha, reg_setReg_same _ _ _ hid, BitVec.toNat_ofNat, Nat.mod_eq_of_lt (putBits_lt _ _ _ _ (toNat_reg_lt s x.addr) hh), bitsOf_putBits_disj _ _ _ _ _ _ h]
  · exact fget_fset_addr s x y v ha

theorem reg_fset_ne (s : State) (x : Fld) (v a : Nat) (h : a ≠ x.addr) : reg (fset s x v) a = reg s a := reg_setReg_ne _ _ _ _ h

theorem flag_fsetB_same (s : State) (x : Fld) (b : Bool) (ha : x.addr ≠ RZ_ID) (hh : x.hi < 64) (hl : x.lo ≤ x.hi) : flag (fsetB s x b) x = b := by
  unfold flag fsetB
  rw [fget_fset_same s x _ ha hh]
  have : 2 ≤ 2 ^ (x.hi + 1 - x.lo) := by
    calc 2 = 2 ^ 1 := rfl
      _ ≤ _ := Nat.pow_le_pow_right (by decide) (by omega)
  cases b
  · simp
  · rw [if_pos rfl, Nat.mod_eq_of_lt (by omega)]; rfl

theorem flag_fsetB_disj (s : State) (x y : Fld) (b : Bool) (hh : x.hi < 64) (h : y.hi < x.lo ∨ x.hi < y.lo) : flag (fsetB s x b) y = flag s y := by
  unfold flag fsetB; rw [fget_fset_disj s x y _ hh h]

theorem flag_fsetB_addr (s : State) (x y : Fld) (b : Bool) (h : y.addr ≠ x.addr) : flag (fsetB s x b) y = flag s y := by
  unfold flag fsetB; rw [fget_fset_addr s x y _ h]

theorem fget_lt (s : State) (x : Fld) : fget s x < 2 ^ (x.hi + 1 - x.lo) := bitsOf_lt _ _ _

/-- A field written with its own value leaves every register as it was. -/
theorem reg_fset_self (s : State) (x : Fld) (a : Nat) : reg (fset s x (fget s x)) a = reg s a := by
  by_cases ha : a = x.addr
  · subst ha
    by_cases hid : x.addr = RZ_ID
    · rw [hid, reg_id, reg_id]; rfl
    · unfold fset fget
      rw [reg_setReg_same _ _ _ hid, putBits_self]
      exact BitVec.eq_of_toNat_eq (by rw [BitVec.toNat_ofNat, Nat.mod_eq_of_lt (toNat_reg_lt s x.addr)])
  · exact reg_fset_ne s x _ a ha

/-- A counter that rises by nothing leaves every register as it was. -/
theorem reg_bumpBy_zero (s : State) (x : Fld) (a : Nat) : reg (bumpBy s x 0) a = reg s a := by
  have h : min (fget s x + 0) (fmax x) = fget s x := by
    have := fget_lt s x
    unfold fmax; omega
  unfold bumpBy
  rw [h, reg_fset_self]

/-- A saturating counter of w bits rises by one until it holds its largest value. -/
theorem fget_bump_same (s : State) (x : Fld) (ha : x.addr ≠ RZ_ID) (hh : x.hi < 64) : fget (bump s x) x = min (fget s x + 1) (fmax x) := by
  unfold bump bumpBy
  rw [fget_fset_same s x _ ha hh, Nat.mod_eq_of_lt]
  have := Nat.two_pow_pos (x.hi + 1 - x.lo)
  unfold fmax; omega

/-! ### Fronds, islands and streams -/

@[simp] theorem fr_setFr_same (s : State) (f : Nat) (x : Frond) : fr (setFr s f x) f = x := tget_tset_same _ _ _ _
theorem fr_setFr_ne (s : State) (f g : Nat) (x : Frond) (h : g ≠ f) : fr (setFr s f x) g = fr s g := tget_tset_ne _ _ _ _ _ h
@[simp] theorem fr_updFr_same (s : State) (f : Nat) (k : Frond → Frond) : fr (updFr s f k) f = k (fr s f) := tget_tset_same _ _ _ _
theorem fr_updFr_ne (s : State) (f g : Nat) (k : Frond → Frond) (h : g ≠ f) : fr (updFr s f k) g = fr s g := tget_tset_ne _ _ _ _ _ h
@[simp] theorem isl_setIsl_same (s : State) (i : Nat) (x : Isl) : isl (setIsl s i x) i = x := tget_tset_same _ _ _ _
theorem isl_setIsl_ne (s : State) (i j : Nat) (x : Isl) (h : j ≠ i) : isl (setIsl s i x) j = isl s j := tget_tset_ne _ _ _ _ _ h

/-- What has left on a stream and what is expected on it, after one more record of it. -/
theorem strm_sendOn (s : State) (i n : Nat) :
    tget {} (sendOn s i n).strms (32 * i + n) = { tget {} s.strms (32 * i + n) with sent := true, seqOut := (tget {} s.strms (32 * i + n)).seqOut + 1 } := tget_tset_same _ _ _ _

/-! ### Raises and the next state -/

/-- A raise of a listed source is in flight and changes nothing else. -/
theorem raiseD_eq (s : State) (c : Nat) (u : Option Nat) (d i : Nat) (h : (fltRow c).isSome) :
    raiseD s c u d i = { s with flt := { s.flt with raises := s.flt.raises ++ [⟨c, u, d, i, false⟩] } } := by
  unfold raiseD
  cases hr : fltRow c with
  | none => rw [hr] at h; cases h
  | some r => rfl

/-- Every meaning ends here: the next state has the member and the waiting commands of the state before it. -/
theorem nextOf_spec (s t : State) : ∃ u, nextOf s t = .next u ∧ u.member = s.member ∧ u.pending = s.pending := ⟨_, rfl, rfl, rfl⟩

theorem nextOf_eq {s t : State} (h1 : t.member = s.member) (h2 : t.pending = s.pending) : nextOf s t = .next t := by
  unfold nextOf; rw [← h1, ← h2]

end Sys2Proof.Machine
end

