-- ==== Sys2Proof/Laws/Bus.lean ====
section
/-! SUPPORT. Laws/Bus.lean: what an access does when nothing else waits: it starts at once, and with it the work that it releases. -/
namespace Sys2Proof.Machine

/-- A state in which nothing is ready to be carried out stays as it is. -/
theorem workN_stop {s : State} (h : work s = none) : ∀ n, workN n s = s
  | 0 => rfl
  | n + 1 => by unfold workN; rw [h]

theorem workN_go {s t : State} (h : work s = some t) (n : Nat) : workN (n + 1) s = workN n t := by rw [workN, h]

theorem flush_stop {s : State} (h : work s = none) : flush s = s := workN_stop h _

/-- With no committed entry and no waiting access there is no work. -/
theorem work_empty {s : State} (hr : s.bus.ready = []) (hq : s.bus.queue = []) : work s = none := by
  unfold work; rw [hr, hq]; cases s.bus.cur <;> rfl

/-- With no committed entry and an access in progress there is no work. -/
theorem work_busy {s : State} {c : Access × Phase3} (hr : s.bus.ready = []) (hc : s.bus.cur = some c) : work s = none := by
  unfold work; rw [hr, hc]

/-- The first waiting access starts when nothing is ready or in progress. -/
theorem work_start {s : State} {x : Access} {q : List Access} (hr : s.bus.ready = []) (hc : s.bus.cur = none) (hq : s.bus.queue = x :: q)
    (ha : answers s (activeIsl s) = true) (ht : inTakeover s = false) : work s = some (startAccess { s with bus := { s.bus with queue := q } } x) := by
  unfold work; rw [hr, hc, hq, ha, ht]; rfl

/-- The first committed entry acts before anything else. -/
theorem work_entry {s : State} {e : JEntry} {rest : List JEntry} (hr : s.bus.ready = e :: rest) :
    work s = some (actEntry { s with bus := { s.bus with ready := rest } } e) := by
  unfold work; rw [hr]

/-- The queue of a state written back as it was. -/
theorem bus_queue_self (s : State) {q : List Access} (h : s.bus.queue = q) : { s with bus := { s.bus with queue := q } } = s := by subst h; rfl

/-- An access that arrives while nothing waits starts at once. -/
theorem submit_start {s : State} {x : Access} (hr : s.bus.ready = []) (hq : s.bus.queue = []) (hc : s.bus.cur = none)
    (ha : answers s (activeIsl s) = true) (ht : inTakeover s = false) : submit s x = workN 1027 (startAccess s x) := by
  have hw : work { s with bus := { s.bus with queue := s.bus.queue ++ [x] } } = some (startAccess { s with bus := { s.bus with queue := [] } } x) :=
    work_start (s := { s with bus := { s.bus with queue := s.bus.queue ++ [x] } }) hr hc (by rw [hq]; rfl) ha ht
  have hn : (4 * (s.bus.ready.length + (s.bus.queue ++ [x]).length) + 1024) = 1027 + 1 := by rw [hr, hq]; rfl
  unfold submit
  rw [if_neg (by rw [ht]; decide)]
  show workN (4 * (s.bus.ready.length + (s.bus.queue ++ [x]).length) + 1024) _ = _
  rw [hn, workN_go hw, bus_queue_self s hq]

/-- A host write that the port takes while nothing waits. -/
theorem hostWrite_start {s : State} {a v : Nat} (hr : s.bus.ready = []) (hq : s.bus.queue = []) (hc : s.bus.cur = none)
    (ha : answers s (activeIsl s) = true) (ht : inTakeover s = false) (hp : hostReady s = true) (h49 : answers s 0x49 = true)
    (haddr : a < 2 ^ 26) (hv : v < 2 ^ 64) : hostWrite s a v = pmStep (workN 1027 (startAccess s ⟨.host, true, a, v, .clean, false, false⟩)) := by
  unfold hostWrite hostAccess hostTake
  rw [hp, h49, if_pos (by decide), submit_start hr hq hc ha ht, BitVec.toNat_ofNat, BitVec.toNat_ofNat, Nat.mod_eq_of_lt haddr, Nat.mod_eq_of_lt hv]

/-- In sync, an operation goes to the standby and waits for its acknowledgement; nothing else changes (R376). -/
theorem journal_inSync {s : State} (h : inSync s = true) (op : JOp) (w : Bool) :
    journal s op w = { s with bus := { s.bus with jSeq := s.bus.jSeq + 1, jAir := s.bus.jAir ++ [entryOf s op w], jWait := s.bus.jWait ++ [entryOf s op w] } } := by
  unfold journal; rw [h]; rfl

/-- Out of sync, an operation commits at once (R377). -/
theorem journal_alone {s : State} (h : inSync s = false) (op : JOp) (w : Bool) :
    journal s op w = { s with bus := { s.bus with jSeq := s.bus.jSeq + 1, ready := s.bus.ready ++ [entryOf s op w] } } := by
  unfold journal; rw [h]; rfl

/-- A response to the host leaves at the port; a write and a response other than OK carry 0 (R408). -/
theorem respond_host {s : State} {x : Access} (h : x.src = .host) (st : Status) (d : Nat) :
    respond s x st d = { s with bus := { s.bus with resp := s.bus.resp ++ [⟨.host, st, if st = .ok ∧ x.we = false then d else 0⟩] } } := by
  unfold respond; rw [h]

end Sys2Proof.Machine
end

