-- ==== Sys2Proof/Laws/Issue.lean ====
section
/-! SUPPORT. Laws/Issue.lean: what issuing one instruction of a loop program does when it meets no stall and no program fault. -/
namespace Sys2Proof.Machine

/-- A frond without pending writes is left as it is by a landing. -/
theorem landBy_nil (x : Frond) (c : Nat) (h : x.slot.infl = []) : landBy x c = x := by
  obtain ⟨slot, _⟩ := x
  obtain ⟨_, _, _, infl, _, _⟩ := slot
  simp only at h
  subst h
  rfl

/-- The state in which an instruction without a stall reads its operands: nothing that a read sees differs from the state before it. -/
def issueBase (s : State) (f c : Nat) : State := bumpBy (updFr s f fun x => landBy x c) (FR_SCHED_STAT_STALLS f) 0

theorem reg_issueBase (s : State) (f c a : Nat) : reg (issueBase s f c) a = reg s a := by
  unfold issueBase; rw [reg_bumpBy_zero]; rfl

theorem fr_issueBase (s : State) (f c : Nat) (h : (fr s f).slot.infl = []) : fr (issueBase s f c) f = fr s f := by
  show fr (updFr s f fun x => landBy x c) f = _
  rw [fr_updFr_same, landBy_nil _ _ h]

theorem fget_issueBase (s : State) (f c : Nat) (x : Fld) : fget (issueBase s f c) x = fget s x := by
  unfold fget; rw [reg_issueBase]

theorem scal_issueBase (s : State) (f c g k : Nat) : scal (issueBase s f c) g k = scal s g k := by
  unfold scal; rw [reg_issueBase]

theorem operand_issueBase (s : State) (f c k n : Nat) (h : (fr s f).slot.infl = []) : operand (issueBase s f c) f k n = operand s f k n := by
  unfold operand effMask; rw [fr_issueBase s f c h, reg_issueBase, scal_issueBase, scal_issueBase]

theorem operandHi_issueBase (s : State) (f c k : Nat) : operandHi (issueBase s f c) f k = operandHi s f k := by
  unfold operandHi; rw [scal_issueBase]

/-- A binding, a header and an instruction word depend on the registers alone. -/
theorem imem_congr {s t : State} (h : ∀ a, reg t a = reg s a) (f w : Nat) : imem t f w = imem s f w := by
  unfold imem; rw [h]

theorem binding_congr {s t : State} (h : ∀ a, reg t a = reg s a) (f g : Nat) : binding t f g = binding s f g := by
  unfold binding coreSt fget; rw [h, h]

theorem header_congr {s t : State} (h : ∀ a, reg t a = reg s a) (f : Nat) (b : Binding) : header t f b = header s f b := imem_congr h f _

/-- A word whose check bits show no error is fetched as it is (R82). -/
theorem fetchWord_clean {s : State} {f : Nat} {r : Run} (h : tget Ecc.clean r.fetch r.pc = .clean) : fetchWord s f r = (s, some r) := by
  unfold fetchWord; rw [h]

/-- An instruction that meets no program fault, no pending mark and a slot with a cycle left issues in that cycle: what its body answers for the lanes becomes pending, and the run goes on. -/
theorem issueOp_acts {s : State} {f word d a b m : Nat} {e : Bool} {sp : OpSpec} {srcLanes : Run → Binding → List Nat} {outHit : Dest → Bool}
    {body : State → Run → Binding → LaneOut} {r : Run} (hf : hasF s f = true) (hr : runsGroups s f = true) (hrun : (fr s f).slot.run = some r)
    (hw : imem s f r.pc = word) (hfe : tget Ecc.clean r.fetch r.pc = .clean) (hi : (fr s f).slot.infl = []) (hsx : r.sxAt ≤ (fr s f).slot.cyc) (hc : (fr s f).slot.cyc < slotC s f)
    (hp : lowestCode (progCodes (binding s f r.grp) sp d a b m) = none) :
    issueOp s f word e sp d a b m srcLanes outHit body =
      let c := (fr s f).slot.cyc
      let bd := binding s f r.grp
      let s1 := issueBase s f c
      let o := body s1 r bd
      let s2 := updFr s1 f fun x => { x with slot := { x.slot with infl := x.slot.infl ++ o.writes.map fun w => ⟨c + sp.lat, r.grp, w.1, w.2⟩ } }
      let s3 := match o.range with
        | l :: _ => progFault s2 f r.grp r.pc (.range l)
        | [] => match o.arith with
          | l :: _ => progFault s2 f r.grp r.pc (.arith l)
          | [] => s2
      finishIssue s3 f { r with m := o.m.getD r.m, sx := o.sx.getD r.sx, sf := o.sf.getD r.sf, sxAt := if sp.sx then c + sp.lat else r.sxAt } c (o.jump.getD (r.pc + 1)) e bd := by
  have hc1 : ∀ hit : Dest → Bool, max (readyAt (fr s f).slot.infl hit (fr s f).slot.cyc) (if sp.sx = true then r.sxAt else 0) = (fr s f).slot.cyc := by
    intro hit; rw [hi]; show max (fr s f).slot.cyc _ = _; split <;> omega
  unfold issueOp
  rw [hrun]
  simp only [hf, hr, hw, bne_self_eq_false, Bool.not_true, Bool.or_false, Bool.false_eq_true, if_false, if_neg (Nat.not_le.mpr hc), fetchWord_clean hfe, hp, hc1, Nat.sub_self]
  rfl

/-- Going on to the next instruction: with the E bit the run has ended, otherwise it goes on at the new program counter, and nothing else changes. -/
theorem finishIssue_goes {s : State} {f c pc : Nat} {e : Bool} {r : Run} {bd : Binding} (h : e = true ∨ pc < bd.entry + hdrLen (header s f bd)) :
    finishIssue s f r c pc e bd = updFr s f fun x => { x with slot := { x.slot with cyc := c + 1, used := max x.slot.used (c + 1), run := if e then none else some { r with pc := pc } } } := by
  have hh : (!e && decide (bd.entry + hdrLen (header s f bd) ≤ pc)) = false := by
    rcases h with rfl | h
    · rfl
    · rw [decide_eq_false (by omega), Bool.and_false]
  unfold finishIssue
  simp only [hh]
  rfl

end Sys2Proof.Machine
end

