-- ==== Sys2Proof/Tests/Slice0.lean ====
section
/-! SUPPORT. Tests/Slice0.lean: the smoke test of WellFormed, small tests whose values are worked out from the spec, and for every statement states and operands that meet its hypotheses. -/
namespace Sys2Proof.Tests
set_option Elab.async false
open Sys2Proof Sys2Proof.Machine Sys2Proof.Claims

/-! ### Small states -/

/-- Right after reset, with some fields of registers set. -/
def put (l : List (Fld × Nat)) : State := l.foldl (fun s p => fset s p.1 p.2) State.reset
/-- The same outside Spore mode. -/
def on (l : List (Fld × Nat)) : State := put ((NV_BOOT_STAT_SPORE, 0) :: l)
def withBus (s : State) (g : Bus → Bus) : State := { s with bus := g s.bus }
def withMat (s : State) (g : Mat → Mat) : State := { s with mat := g s.mat }

/-- The write of v at a meets no refusal, as a check. -/
def allowedB (s : State) (a v : Nat) : Bool :=
  (decide (a < 0x100000) || decide (a < 0x100000 + 0x10000 * nF s)) && match regAt a with | some r => !(regRefused s r v) | none => false
def holderB (s : State) (a : Nat) : Bool := match holder a with | some k => answers s k | none => true

theorem allowed_of {s : State} {a v : Nat} (h : allowedB s a v = true) : Allowed s a v := by
  unfold allowedB at h
  rw [Bool.and_eq_true] at h
  refine ⟨by simpa using h.1, ?_⟩
  have h2 := h.2
  split at h2
  · exact ⟨_, ‹_›, by simpa using h2⟩
  · cases h2

theorem holder_of {s : State} {a : Nat} (h : holderB s a = true) : ∀ k, holder a = some k → answers s k = true := by
  intro k hk
  unfold holderB at h
  rw [hk] at h
  exact h

/-! ### Phase cells, rails, frond cores -/

/-- Frond 63, phase 31: the last of the member of 64 fronds and 32 phases. -/
def phaseAt (g : Phase → Phase) : State := updPhase State.reset 63 31 g

theorem witness_PhaseCellEvents :
    (hasPhase State.reset 63 31 = true ∧ 31 < 32) ∧ (hasPhase (phaseAt fun p => { p with posHold := true }) 63 31 = true ∧ (phaseOf (fr (phaseAt fun p => { p with posHold := true }) 63) 31).posHold = true) ∧
    (phaseOf (fr (phaseAt fun p => { p with negHold := true }) 63) 31).negHold = true ∧
    (let s := fsetB (phaseAt fun p => { p with st := 2 }) (FR_LAW_STAT_DE 63) true; hasPhase s 63 31 = true ∧ (phaseOf (fr s 63) 31).st = 2 ∧ flag s (FR_LAW_STAT_DE 63) = true) ∧
    (let s := updFr State.reset 63 fun x => { x with senseDue := 2 ^ 31 }; (fr s 63).senseDue = 2 ^ 31 ∧ bitOf (fget s (FR_PHASE_HEALTH_SENSE_FAIL 63)) 31 = false) ∧
    bitOf (phaseOf (fr (phaseAt fun p => { p with st := 2, latched := 64 }) 63) 31).latched 6 = true ∧
    (phaseOf (fr (phaseAt fun p => { p with ocDue := true }) 63) 31).ocDue = true ∧
    (let s := phaseAt fun p => { p with openRun := 65535, stuck := 65535 }
     fget s (FR_DEGRADE_CFG_OPEN_RUN 63) ≤ (phaseOf (fr s 63) 31).openRun ∧ bitOf (fget s (FR_PHASE_HEALTH_OPEN 63)) 31 = false ∧
     fget s (FR_DEGRADE_CFG_SENSE_RUN 63) ≤ (phaseOf (fr s 63) 31).stuck ∧ bitOf (fget s (FR_PHASE_HEALTH_SENSE_FAIL 63)) 31 = false) := by decide +kernel

theorem witness_FrondCoreEvents :
    (hasF State.reset 63 = true ∧ answers State.reset 63 = true) ∧ (fr (updFr State.reset 63 fun x => { x with ovrDue := true }) 63).ovrDue = true ∧
    (let s := updFr State.reset 63 fun x => { x with law := { x.law with satDue := true } }; (fr s 63).law.satDue = true ∧ railSt s 63 ≠ 2) ∧
    (let s := updFr (put [(FR_RAIL_STAT_STATE 63, 2)]) 63 fun x => { x with law := { x.law with satDue := true } }; (fr s 63).law.satDue = true ∧ railSt s 63 = 2) ∧
    (fr State.reset 63).ovOwn = false ∧ (let s := updFr State.reset 63 fun x => { x with ovOwn := true }; (fr s 63).ovOwn = true) := by decide +kernel

/-- A frond with updates in flight. -/
def updIn (l : List FMsg) : State := updFr State.reset 63 fun x => { x with upd := l }

theorem witness_SignalsWaitForTheBoundary :
    (let s := updIn [.cap3 (some 7)]; hasF s 63 = true ∧ answers s 63 = true ∧ (takeUpd isCap3 [] (fr s 63).upd).isSome = true) ∧
    (takeUpd isChipSig [] (fr (updIn [.chipDark]) 63).upd).isSome = true ∧ (takeUpd isSagSig [] (fr (updIn [.sag 2 64]) 63).upd).isSome = true ∧
    (takeUpd isTripSig [] (fr (updIn [.trip true]) 63).upd).isSome = true ∧ (takeUpd isBx [] (fr (updIn [.bx 0 1]) 63).upd).isSome = true ∧
    takeUpd isPlainUpd [] (fr (updIn [.bandWord 0]) 63).upd = some (.bandWord 0, []) ∧ takeUpd isPlainUpd [] (fr (updIn [.trip true, .bandWord 0, .role 1]) 63).upd = some (.role 1, [.trip true, .bandWord 0]) := by decide +kernel

/-- A frond with one command in flight. -/
def cmdIn (seq : Nat) (m : FMsg) : State := updFr State.reset 0 fun x => { x with air := [⟨seq, m, true⟩] }

theorem witness_FrondCommandInOrder :
    (let s := cmdIn 0 (.write 0x88 1); hasF s 0 = true ∧ answers s 0 = true ∧ (fr s 0).air = ⟨0, .write 0x88 1, true⟩ :: [] ∧ 0 % 2 ^ 32 = (fr s 0).exp % 2 ^ 32 ∧
      cmdRefused (updFr s 0 fun x => { x with air := [] }) 0 (.write 0x88 1) = false) ∧
    (let s := cmdIn (2 ^ 32) (.write (FR_GOV_CFG 0 % 0x10000) 0); (fr s 0).air = [⟨2 ^ 32, .write (FR_GOV_CFG 0 % 0x10000) 0, true⟩] ∧ 2 ^ 32 % 2 ^ 32 = (fr s 0).exp % 2 ^ 32 ∧
      cmdRefused (updFr s 0 fun x => { x with air := [] }) 0 (.write (FR_GOV_CFG 0 % 0x10000) 0) = true) ∧
    (let s := cmdIn 1 (.write 0x88 1); (fr s 0).air = [⟨1, .write 0x88 1, true⟩] ∧ 1 % 2 ^ 32 ≠ (fr s 0).exp % 2 ^ 32) ∧
    (let s := cmdIn 0 (.scalar 7 1); (fr s 0).air = [⟨0, .scalar 7 1, true⟩] ∧ isScalarCmd (.scalar 7 1) = true ∧ isScalarCmd (.capWord 1) = true ∧ takeUpd isPlainUpd [] (fr s 0).upd = none) := by decide +kernel

/-- A frond with a move in progress. -/
def moving (wait : Nat) : State := updFr State.reset 5 fun x => { x with rail := { x.rail with plan := some ⟨1600, 2800, 10, 10, 10, 0, wait, 1600⟩ } }

theorem witness_FrondSlots :
    (hasF State.reset 5 = true ∧ answers State.reset 5 = true) ∧
    (let s := moving 0; (fr s 5).rail.plan = some ⟨1600, 2800, 10, 10, 10, 0, 0, 1600⟩ ∧ (fr s 5).rail.ending = false) ∧
    (let s := moving 1; (fr s 5).rail.plan = some ⟨1600, 2800, 10, 10, 10, 0, 1, 1600⟩ ∧ (fr s 5).rail.ending = false) ∧
    (let s := updFr (put [(FR_INJ_STAT_ACTIVE 5, 1)]) 5 fun x => { x with inj := { x.inj with causes := [4, 2] } }; lowestCode (fr s 5).inj.causes = some 2 ∧ flag s (FR_INJ_STAT_ACTIVE 5) = true) := by decide +kernel

theorem witness_RailStates :
    (let s := updFr State.reset 5 fun x => { x with rail := { x.rail with darkWait := true } }; hasF s 5 = true ∧ (fr s 5).rail.darkWait = true) ∧
    (let s := updFr (put [(FR_RAIL_STAT_STATE 5, 1)]) 5 fun x => { x with upd := [.grant true] }; takeFirst isGrant (fr s 5).upd = some (.grant true, []) ∧ railSt s 5 = 1 ∧ (fr s 5).rail.darkWait = false) ∧
    (let s := updFr (put [(FR_RAIL_STAT_STATE 5, 3)]) 5 fun x => { x with upd := [.grant true] }; takeFirst isGrant (fr s 5).upd = some (.grant true, []) ∧ railSt s 5 ≠ 1) ∧
    (let s := updFr (put [(FR_RAIL_STAT_STATE 5, 2)]) 5 fun x => { x with rail := { x.rail with doneDue := true } }; (fr s 5).rail.doneDue = true ∧ railSt s 5 = 2 ∧ s.flt.grpCap = []) ∧
    (let s := updFr (put [(FR_RAIL_STAT_STATE 5, 4)]) 5 fun x => { x with rail := { x.rail with retry := true } }; railSt s 5 = 4 ∧ (fr s 5).rail.retry = true) := by decide +kernel

/-- Frond 0 closes its east bridge, with `seg` of its segments closed after `far` samples apart. -/
def closingAt (seg far : Nat) : State := updFr (put [(FR_BRIDGE_STAT_STATE_E 0, 1), (FR_BRIDGE_STAT_ROLE 1, 2)]) 0 fun x => { x with closing := { x.closing with seg := seg, far := far } }

theorem witness_BridgeEvents :
    (let s := closingAt 4 0; hasF s 0 = true ∧ acrossOf s 0 false.toNat = some 1 ∧ 1 ≠ 0 ∧ brState s 0 false.toNat = 1 ∧ answers s 0 = true ∧ (fr s 0).closing.seg = 4 ∧ fget s (FR_BRIDGE_STAT_ROLE 1) = 2 ∧ (fr s 0).inbox = []) ∧
    (let s := closingAt 0 64; brState s 0 false.toNat = 1 ∧ 64 ≤ (fr s 0).closing.far ∧ (fr s 0).closing.seg = 0) ∧
    (let s := put [(FR_BRIDGE_STAT_STATE_S 0, 1)]; acrossOf s 0 true.toNat = some 8 ∧ brState s 0 true.toNat ≠ 0 ∧ inTakeover s = false ∧ brEnabled s 0 true.toNat = false) ∧
    (let s := put [(FR_BRIDGE_STAT_STATE_E 0, 2), (FR_PHASE_MASK_MASK 1, 0), (FR_PHASE_HEALTH_OPEN 1, 0xFFFFFFFF)]; brState s 0 false.toNat = 2 ∧ inTakeover s = false ∧ (healthy s 0 && healthy s 1) = false ∧ brEnabled s 0 false.toNat = false) := by decide +kernel

/-- No access waits and the standby is in sync. -/
def calm (l : List (Fld × Nat)) : State := on ((RZ_PAIR_STAT_SYNC, 1) :: l)

theorem quiet_calm (l : List (Fld × Nat)) (h : answers (calm l) (activeIsl (calm l)) = true ∧ inTakeover (calm l) = false ∧ inSync (calm l) = true ∧ (calm l).bus = {} ∧ (calm l).chip.rst = false) : Quiet (calm l) := by
  obtain ⟨h1, h2, h3, h4, h5⟩ := h
  unfold Quiet
  rw [h4]
  exact ⟨rfl, rfl, rfl, rfl, h1, h2, h3, h5⟩

theorem witness_LostPhasePolicy :
    (let s := calm [(RZ_DEGRADE_AUTO_BRIDGE, 1), (FR_BRIDGE_STAT_IMG_EN_E 0, 1), (FR_PHASE_HEALTH_OPEN 0, 0xFF), (FR_RAIL_STAT_STATE 0, 3), (FR_RAIL_STAT_STATE 1, 3)]
     Quiet s ∧ hasF s 0 = true ∧ takeFirst (fun p : Nat × Nat => p.1 == 0) s.rz.policyReq = none ∧ 4 < lostOf s 0 ∧ lostOf s 0 ≤ 8 ∧ inBridge s 0 = false ∧ policyPick s 0 = some 1) ∧
    (let s := put [(FR_PHASE_HEALTH_OPEN 0, 0x1FF), (FR_RAIL_STAT_STATE 0, 3)]; s.rz.drains.contains 0 = false ∧ railSt s 0 ≠ 0 ∧ 8 < lostOf s 0) ∧
    (let s := { calm [] with rz := { (calm []).rz with drains := [0] } }; s.rz.drains.contains 0 = true ∧ Quiet s) := by unfold Quiet; decide +kernel

theorem witness_PerformanceAndSag :
    (let s := calm [(RZ_IBUS_OPT_EN, 1), (FR_RAIL_STAT_STATE 3, 3)]; Quiet s ∧ s.rz.opt = none ∧ flag s RZ_IBUS_OPT_EN = true ∧ inSpore s = false ∧
      bestDuty s (fun k => (([0, 0, 0, 200] : List (BitVec 8)).getD k 0).toNat) = some (3, 200)) ∧
    (let s := put [(RZ_PERF_STAT_STATE, 1)]; let t := { s with rz := { s.rz with hot := 7 } }; fget t RZ_PERF_STAT_STATE = 1 ∧ (t.rz.hot == 7) = true) ∧
    (let s := put [(RZ_PERF_STAT_STATE, 1), (FR_RAIL_STAT_STATE 3, 3)]; let t := { s with rz := { s.rz with tel := [(3, ⟨3, 0, 0, 0, 0, 3, false, false, [], 63, 0, 0, 0, 0, [], []⟩)] } }
     fget t RZ_PERF_STAT_STATE = 1 ∧ (serviceFronds t).any (capped t) = true) ∧
    (let s := calm [(RZ_PERF_STAT_STATE, 2), (FR_RAIL_STAT_STATE 3, 3)]; let t := { s with bud := { s.bud with share := [(3, 1000)] } }
     Quiet t ∧ fget t RZ_PERF_STAT_STATE = 2 ∧ t.rz.hot ≠ 7 ∧ serviceFronds t = [3] ∧ fixedPower t 3 ≤ 95 / 100 * tget 0 t.bud.share 3) ∧
    (let s := { calm [] with th := { (calm []).th with air := [⟨3, 2, 1, 4⟩] } }; Quiet s ∧ s.th.air = [⟨3, 2, 1, 4⟩]) ∧
    (fget State.reset RZ_HARD_STAT_SAG < 1 ∧ fget (put [(RZ_HARD_STAT_SAG, 1)]) RZ_HARD_STAT_SAG < 2) ∧ fget (put [(RZ_HARD_STAT_SAG, 2)]) RZ_HARD_STAT_SAG ≠ 0 := by unfold Quiet; decide +kernel

/-! ### Loop programs -/

/-- Group g of frond 0 runs in lanes m and has `word` as its next instruction; the lane registers hold `lanes`. -/
def run0 (g m : Nat) : Run := ⟨g, 7, m, m, 0, 0, 0, []⟩
def prog (word g m : Nat) (lanes : Tbl W32) : State :=
  updFr (setImem State.reset 0 7 word) 0 fun x => { x with lanes := lanes, slot := { x.slot with run := some (run0 g m) } }
def rf (d a b : BitVec 6) (m : BitVec 5) : RForm := ⟨true, d, a.setWidth 7, b.setWidth 7, m⟩

/-- L3 of lanes 0 and 31 holds a value of each sign. -/
def vals : Tbl W32 := [(3 * 32, 0xFFFFFFFF), (3 * 32 + 31, 0x7FFFFFFF), (4 * 32, 0x80000000), (4 * 32 + 31, 1)]

theorem witness_LaneArithmetic : (∀ p ∈ ([(0x01, 0x1F), (0x02, 0x1F), (0x03, 0x1F), (0x04, 0x10), (0x05, 0), (0x07, 0), (0x08, 0), (0x09, 0), (0x0A, 0), (0x0B, 0), (0x0C, 0), (0x10, 7), (0x14, 1)] : List (Nat × Nat)),
      let w := rf 5 3 4 (BitVec.ofNat 5 p.2)
      let s := prog (encR p.1 w) 0 0x80000001 vals
      Issuing s 0 (encR p.1 w) w.e (run0 0 0x80000001) ∧ LegalR s 0 (run0 0 0x80000001) w p.2) ∧
    (∀ opc ∈ ([0x0D, 0x0E, 0x0F] : List Nat), let w := rf 5 3 0 31
      let s := prog (encR opc w) 0 0x80000001 vals
      Issuing s 0 (encR opc w) w.e (run0 0 0x80000001) ∧ LegalR s 0 (run0 0 0x80000001) w 0x1F ∧ w.b = 0) := by unfold Issuing LegalR; decide +kernel

theorem witness_LaneImmediates : ∀ opc ∈ ([0x18, 0x19, 0x1A, 0x1B] : List Nat), let w : IForm := ⟨true, 5, if opc = 0x19 then 0 else 3, 0x801⟩
    let s := prog (encI opc w) 0 0x80000001 vals
    Issuing s 0 (encI opc w) w.e (run0 0 0x80000001) ∧ writable (binding s 0 0) w.d.toNat = true ∧ reservedCode w.a.toNat = false ∧ (opc = 0x19 → w.a = 0) := by unfold Issuing; decide +kernel

/-- A field that ends at bit 31 and one that leaves the word; HI of a scalar and HI of a lane register. -/
theorem witness_ExtractField : ∀ p ∈ ([(31 + 0 * 32, 3, true), (31 + 1 * 32, 3, false), (0xC00, 0x40, true), (0x800, 0x3F - 6, false)] : List (Nat × Nat × Bool)), let w : IForm := ⟨true, 5, BitVec.ofNat 7 p.2.1, BitVec.ofNat 12 p.1⟩
    let s := prog (encI 0x1C w) 0 0x80000001 vals
    Issuing s 0 (encI 0x1C w) w.e (run0 0 0x80000001) ∧ writable (binding s 0 0) w.d.toNat = true ∧ reservedCode w.a.toNat = false ∧
    (if p.2.2 then w.imm.toNat % 32 + (w.imm.toNat / 32 % 32 + 1) ≤ 32 ∧ (w.imm.getLsbD 11 = true → 0x40 ≤ w.a.toNat)
     else 32 < w.imm.toNat % 32 + (w.imm.toNat / 32 % 32 + 1) ∨ w.imm.getLsbD 11 = true ∧ w.a.toNat < 0x40) := by unfold Issuing; decide +kernel

theorem witness_LaneConditional : (∀ opc ∈ ([0x06, 0x11, 0x13] : List Nat), let w := rf 5 3 4 0
      let s := prog (encR opc w) 0 0x80000001 vals
      Issuing s 0 (encR opc w) w.e (run0 0 0x80000001) ∧ LegalR s 0 (run0 0 0x80000001) w 0 ∧ w.d.toNat ≠ 0x0F ∧ w.d.toNat ≠ 0x2F ∧ writable (binding s 0 0) (w.d.toNat + 1) = true) ∧
    (∀ b ∈ ([0x40, 4] : List (BitVec 7)), let w : RForm := ⟨true, 5, 3, b, 0⟩
      let s := prog (encR 0x12 w) 0 0x80000001 vals
      Issuing s 0 (encR 0x12 w) w.e (run0 0 0x80000001) ∧ LegalR s 0 (run0 0 0x80000001) w 0 ∧ (0x40 ≤ w.b.toNat ∨ w.b.toNat < 0x30 ∧ w.b.toNat ≠ 0x0F ∧ w.b.toNat ≠ 0x2F)) := by unfold Issuing LegalR; constructor <;> decide +kernel

/-- Lane 0 multiplies −1 by the most negative value, which saturates; lane 31 does not. -/
theorem witness_LaneQFormat : ∀ opc ∈ ([0x15, 0x16] : List Nat), ∀ m ∈ ([0, 1] : List (BitVec 5)), let w := rf 5 4 4 m
    let s := prog (encR opc w) 0 0x80000001 vals
    Issuing s 0 (encR opc w) w.e (run0 0 0x80000001) ∧ LegalR s 0 (run0 0 0x80000001) w 1 ∧
    (m = 1 → rne (s32 (operand s 0 4 0) * s32 (operand s 0 4 0)) (2 ^ 30) ≠ clampInt (-2147483648) 2147483647 (rne (s32 (operand s 0 4 0) * s32 (operand s 0 4 0)) (2 ^ 30))) := by unfold Issuing LegalR; decide +kernel

theorem witness_LaneBfp : ∀ opc ∈ ([0x20, 0x21, 0x22, 0x23, 0x24, 0x25, 0x27] : List Nat),
    let w := if 0x24 ≤ opc then rf 5 3 0 0 else rf 5 3 4 0
    let s := prog (encR opc w) 0 0x80000001 [(3 * 32, 0x10007FFF), (4 * 32, 0xFF008000), (3 * 32 + 31, 1)]
    let r := run0 0 0x80000001
    Issuing s 0 (encR opc w) w.e r ∧ writable (binding s 0 0) w.d.toNat = true ∧ -128 ≤ r.sx ∧ r.sx ≤ 127 ∧ bfpCode w.a.toNat = true ∧ bfpCode w.b.toNat = true ∧ w.m = 0 ∧ reservedCode w.a.toNat = false ∧ r.m ≠ 0 ∧
    (opc ≠ 0x25 → ∀ n ∈ bitList 32 r.m, (alignTo r.sx (bfpVal (operand s 0 3 n))).2 = false ∧ (alignTo r.sx (bfpVal (operand s 0 4 n))).2 = false ∧ (alignTo r.sx (bfpVal (operand s 0 5 n))).2 = false ∧
      (alignTo r.sx (mulV (bfpVal (operand s 0 3 n)) (bfpVal (operand s 0 4 n)))).2 = false) ∧
    (opc = 0x25 → ∀ n ∈ bitList 32 r.m, (cvtTarget w.m.toNat (bfpVal (operand s 0 3 n))).2 = false) := by unfold Issuing; decide +kernel

theorem witness_LaneStage : ∀ p ∈ ([(2, 1), (4, 1), (0, 0), (6, 0)] : List (Nat × Nat)), let w : RForm := { rf 0 3 0 (BitVec.ofNat 5 p.1) with e := false }
    let s := prog (encR 0x26 w) 0 p.2 vals
    Issuing s 0 (encR 0x26 w) w.e (run0 0 p.2) ∧ reservedCode w.a.toNat = false ∧ w.d = 0 ∧ w.b = 0 ∧ (w.m.toNat < 3 ∨ 4 ≤ w.m.toNat ∧ w.m.toNat < 7) ∧ p.2 < 2 ^ 32 := by unfold Issuing; decide +kernel

theorem witness_LaneExchange :
    (∀ p ∈ ([(0x28, 4), (0x28, 12), (0x29, 31), (0x2A, 31), (0x2B, 0), (0x2B, 17), (0x2B, 2), (0x2B, 19), (0x2B, 4), (0x2B, 21)] : List (Nat × Nat)), let w := rf 5 3 0 (BitVec.ofNat 5 p.2)
      let s := prog (encR p.1 w) 0 1 vals
      Issuing s 0 (encR p.1 w) w.e (run0 0 1) ∧ writable (binding s 0 0) w.d.toNat = true ∧ reservedCode w.a.toNat = false ∧ w.b = 0) ∧
    (∀ m ∈ ([0, 16] : List (BitVec 5)), let w := rf 5 3 0 m
      let s := setScal (prog (encR 0x2B w) 0 0xFFFFFFFF ((List.range 32).map fun n => (3 * 32 + n, 0x7FFFFFFF))) 0 7 0xFFFFFFFF
      Issuing s 0 (encR 0x2B w) w.e (run0 0 0xFFFFFFFF) ∧ 2147483647 < (((bitList 32 0xFFFFFFFF).filter fun n => decide (m.toNat < 16) || bitOf (effMask s 0) n).map fun n => s32 (operand s 0 3 n)).sum) ∧
    (∀ op ∈ ([0, 1, 2, 3] : List Nat), let w := rf 5 3 0 (BitVec.ofNat 5 (8 + op))
      let s := prog (encR 0x2B w) 0 0x80000001 [(3 * 32, 0x01007FFF)]
      Issuing s 0 (encR 0x2B w) w.e (run0 0 0x80000001) ∧ w.m.toNat % 16 = 8 + op ∧ ∀ b ∈ (redBfp op 0 ((bitList 32 0x80000001).map fun n => operand s 0 3 n)).2, b = false) := by unfold Issuing; decide +kernel

theorem witness_MasksAndBranches :
    (∀ opc ∈ ([0x30, 0x31, 0x32, 0x33] : List Nat), let w := rf 0 (if opc < 0x32 then 3 else 0) 0 0
      let s := prog (encR opc w) 0 0x80000001 vals
      Issuing s 0 (encR opc w) w.e (run0 0 0x80000001) ∧ w.d = 0 ∧ w.b = 0 ∧ w.m = 0 ∧ reservedCode w.a.toNat = false) ∧
    (∀ opc ∈ ([0x38, 0x39, 0x3A] : List Nat), let w : BForm := if opc = 0x3A then ⟨true, 0, 0, 1⟩ else ⟨true, 3, 0xFF, 1⟩
      let s := prog (encB opc w) 0 0x80000001 vals
      let bd := binding s 0 0
      Issuing s 0 (encB opc w) w.e (run0 0 0x80000001) ∧ w.off ≠ 0 ∧ 7 + w.off.toNat < bd.entry + hdrLen (header s 0 bd) ∧ reservedCode w.a.toNat = false) := by unfold Issuing; decide +kernel

theorem witness_LaneOutputs :
    (∀ p ∈ ([(0x3C, 0), (0x3D, 4), (0x3E, 4)] : List (Nat × Nat)), let w := rf 0 3 4 (if p.1 = 0x3D then 7 else 0)
      let s := prog (encR p.1 w) p.2 1 vals
      Issuing s 0 (encR p.1 w) w.e (run0 p.2 1) ∧ w.d = 0 ∧ reservedCode w.a.toNat = false ∧ reservedCode w.b.toNat = false ∧ (binding s 0 p.2).aux = (p.1 != 0x3C) ∧ w.m.toNat < 8) ∧
    Issuing (prog 0x02000000 0 1 []) 0 0x02000000 true (run0 0 1) := by unfold Issuing; decide +kernel

theorem witness_ReservedOpcode : Issuing (prog 0xFE000000 0 1 []) 0 (0xFE000000 : W32).toNat true (run0 0 1) ∧ (0xFE000000 : W32).getLsbD 25 = true ∧ legalOpc ((0xFE000000 : W32).toNat / 2 ^ 26) = false ∧
    fget (prog 0xFE000000 0 1 []) (FR_PROG_STAT_PROG 0) = 0 ∧ fget (prog 0xFE000000 0 1 []) (FR_PROG_STAT_ARITH 0) = 0 ∧ fget (prog 0xFE000000 0 1 []) (FR_PROG_STAT_RANGE 0) = 0 := by unfold Issuing; decide +kernel

/-- MIN of L3 with L4 while L3 of lane 31 is pending until cycle c. -/
def pendingAt (c : Nat) : State :=
  updFr (prog (encR 0x07 (rf 5 3 4 0)) 0 0x80000000 vals) 0 fun x => { x with slot := { x.slot with infl := [⟨c, 4, .reg 3 31, 9⟩] } }

theorem witness_ScoreboardStalls : ∀ c ∈ ([1, 2000] : List Nat), let s := pendingAt c
    hasF s 0 = true ∧ runsGroups s 0 = true ∧ (fr s 0).slot.run = some (run0 0 0x80000000) ∧ imem s 0 7 = encR 0x07 (rf 5 3 4 0) ∧ LegalR s 0 (run0 0 0x80000000) (rf 5 3 4 0) 0 ∧
    (fr s 0).slot.infl = [⟨c, 4, .reg (rf 5 3 4 0).a.toNat 31, 9⟩] ∧ (fr s 0).slot.cyc < c ∧ bitOf 0x80000000 31 = true ∧ (rf 5 3 4 0).a ≠ (rf 5 3 4 0).b ∧
    (if c = 1 then c < slotC s 0 else (fr s 0).slot.cyc < slotC s 0 ∧ slotC s 0 ≤ c) := by unfold LegalR; decide +kernel

/-- NOP at word 7 of frond 0, which has been fetched as `e` says. -/
def fetched (e : Ecc) : State := updFr (prog 0 0 0x80000000 vals) 0 fun x => { x with slot := { x.slot with run := some { run0 0 0x80000000 with fetch := [(7, e)] } } }

theorem witness_DispatchAndLanding :
    (let s := updFr State.reset 63 fun x => { x with slot := { x.slot with due := [0, 4] } }; hasF s 63 = true ∧ (fr s 63).slot.run = none ∧ (fr s 63).slot.due = 0 :: [4] ∧ (fr s 63).slot.cyc < slotC s 63) ∧
    (∀ e ∈ ([.double, .single] : List Ecc), let s := fetched e
     hasF s 0 = true ∧ runsGroups s 0 = true ∧ (fr s 0).slot.run = some { run0 0 0x80000000 with fetch := [(7, e)] } ∧ imem s 0 7 = (0 : W32).toNat ∧ tget Ecc.clean [(7, e)] 7 = e ∧ (fr s 0).slot.infl = [] ∧
     (fr s 0).slot.cyc < slotC s 0 ∧ 7 + 1 < (binding s 0 0).entry + hdrLen (header s 0 (binding s 0 0))) ∧
    (let s := updFr State.reset 63 fun x => { x with slot := { x.slot with infl := [⟨2, 0, .reg 3 31, 9⟩] } }
     (fr s 63).slot.infl = [⟨2, 0, .reg 3 31, 9⟩] ∧ (fr s 63).slot.run = none ∧ (fr s 63).slot.due = [] ∧ 2 ≤ slotC s 63) ∧
    (let s := updFr (fetched .clean) 0 fun x => { x with slot := { x.slot with infl := [⟨0, 0, .reg 3 31, 9⟩] } }; 0 ≤ (fr s 0).slot.cyc ∧ (fr s 0).slot.run.isSome = true) := by decide +kernel

/-! ### Host accesses and the journal -/

/-- The row i is a journalled write that no rule refuses in s, and the island that holds the register answers. -/
def RowMeets (s : State) (i : Instr) : Prop := ∃ a v, written s i = some (a, v) ∧ Allowed s a v ∧ ∀ k, holder a = some k → answers s k = true
def rowMeetsB (s : State) (i : Instr) : Bool := match written s i with | some p => allowedB s p.1 p.2 && holderB s p.1 | none => false

theorem rowMeets_of {s : State} {i : Instr} (h : rowMeetsB s i = true) : RowMeets s i := by
  unfold rowMeetsB at h
  split at h
  · rw [Bool.and_eq_true] at h
    exact ⟨_, _, ‹_›, allowed_of h.1, holder_of h.2⟩
  · cases h

theorem ready_of {s : State} (h : s.bus = {} ∧ s.chip.rst = false ∧ answers s 0x49 = true ∧ answers s (activeIsl s) = true ∧ inTakeover s = false) : Ready s := by
  unfold Ready
  rw [h.1]
  exact ⟨rfl, rfl, rfl, rfl, by decide, h.2.1, h.2.2.1, h.2.2.2.1, h.2.2.2.2⟩

/-- What readies a state, as a check. -/
def readyB (s : State) : Bool := decide (s.bus = {} ∧ s.chip.rst = false ∧ answers s 0x49 = true ∧ answers s (activeIsl s) = true ∧ inTakeover s = false)

theorem atOnce_of {s : State} {i : Instr} (h : (readyB s && !(inSync s) && rowMeetsB s i) = true) : AtOnce s i := by
  rw [Bool.and_eq_true, Bool.and_eq_true] at h
  exact ⟨ready_of (of_decide_eq_true h.1.1), by simpa using h.1.2, rowMeets_of h.2⟩

theorem refused_of {s : State} {a v : Nat} (h : (match regAt a with | some r => regRefused s r v | none => false) = true) : ∃ r, regAt a = some r ∧ regRefused s r v = true := by
  split at h
  · exact ⟨_, ‹_›, h⟩
  · cases h

theorem witness_JournalledRows : (∀ p ∈ ([(.groupBind 63 7 0xFFFFFFFF00E00E00, [(FR_CORE_STAT_STATE 63, 1)]), (.groupUnbind 63 7 1, [(FR_CORE_STAT_STATE 63, 1)]), (.samplePeriodWrite 63 127, [(FR_CORE_STAT_STATE 63, 1)]), (.coreHalt 63 255, [(FR_CORE_STAT_STATE 63, 1)]),
      (.coreRun 63 1, []), (.coreStep 63 true 1, [(FR_CORE_STAT_STATE 63, 1)]), (.phaseHealthClear 63 0xFFFFFFFF, []), (.injectionGo 63 0x10100, [(FR_CORE_STAT_STATE 63, 1)]),
      (.injectionStop 63 0, [(FR_CORE_STAT_STATE 63, 1)]), (.on 63, []), (.dark 63, []), (.scalarPush 63, [(FC_TARGET_FRONDS, 1)]),
      (.programLoad 0xDFF 1, []), (.perfModeFree 0, []), (.perfModeFixed 0x640, []), (.perfModeBounded 0, []),
      (.vidWrite true 7 5200, []), (.stageRestart 47, []), (.stageStop 47, []), (.lastfClear, [])] ++
    [(.quarClear 255, []), (.fhEnable true, [(FH_MODEL_STAT_LOADED, 1)]), (.modelCheck true true, []), (.modelSwitch false true, []),
      (.domainEnable 1535 15, []), (.keyLoad 255 true, []), (.aliveRestart 0x6410fe7f2314, []), (.faultForce 0x32 0x64012, []),
      (.bankHandover 31 3, []), (.bankRetention 31, []), (.imageProgram true 256, []), (.imageVerify true, []),
      (.imageActivate true, []), (.imageConfirm true, []), (.svnCommit true, []), (.replanCmd, []),
      (.measureOnly, []), (.rebuildBaseline, []), (.lifetimeFlush, []), (.islandRestart 0x44, [(RZ_FLT_STAT_STAT 0, 64)])] : List (Instr × List (Fld × Nat))),
      Ready (calm p.2) ∧ inSync (calm p.2) = true ∧ RowMeets (calm p.2) p.1) ∧
    (let s := calm []; Ready s ∧ written s (.keyLoad 0 false) = some (MT_KEY_CMD, 0x200) ∧ MT_KEY_CMD < 0x100000 ∧ ∃ r, regAt MT_KEY_CMD = some r ∧ regRefused s r 0x200 = true) := by
  refine ⟨fun p hp => ?_, ready_of (by decide +kernel), by decide +kernel, by decide, refused_of (by decide +kernel)⟩
  have h : ∀ p ∈ ([(.groupBind 63 7 0xFFFFFFFF00E00E00, [(FR_CORE_STAT_STATE 63, 1)]), (.groupUnbind 63 7 1, [(FR_CORE_STAT_STATE 63, 1)]), (.samplePeriodWrite 63 127, [(FR_CORE_STAT_STATE 63, 1)]), (.coreHalt 63 255, [(FR_CORE_STAT_STATE 63, 1)]),
      (.coreRun 63 1, []), (.coreStep 63 true 1, [(FR_CORE_STAT_STATE 63, 1)]), (.phaseHealthClear 63 0xFFFFFFFF, []), (.injectionGo 63 0x10100, [(FR_CORE_STAT_STATE 63, 1)]),
      (.injectionStop 63 0, [(FR_CORE_STAT_STATE 63, 1)]), (.on 63, []), (.dark 63, []), (.scalarPush 63, [(FC_TARGET_FRONDS, 1)]),
      (.programLoad 0xDFF 1, []), (.perfModeFree 0, []), (.perfModeFixed 0x640, []), (.perfModeBounded 0, []),
      (.vidWrite true 7 5200, []), (.stageRestart 47, []), (.stageStop 47, []), (.lastfClear, [])] ++
    [(.quarClear 255, []), (.fhEnable true, [(FH_MODEL_STAT_LOADED, 1)]), (.modelCheck true true, []), (.modelSwitch false true, []),
      (.domainEnable 1535 15, []), (.keyLoad 255 true, []), (.aliveRestart 0x6410fe7f2314, []), (.faultForce 0x32 0x64012, []),
      (.bankHandover 31 3, []), (.bankRetention 31, []), (.imageProgram true 256, []), (.imageVerify true, []),
      (.imageActivate true, []), (.imageConfirm true, []), (.svnCommit true, []), (.replanCmd, []),
      (.measureOnly, []), (.rebuildBaseline, []), (.lifetimeFlush, []), (.islandRestart 0x44, [(RZ_FLT_STAT_STAT 0, 64)])] : List (Instr × List (Fld × Nat))),
    (readyB (calm p.2) && inSync (calm p.2) && rowMeetsB (calm p.2) p.1) = true := by decide +kernel
  have hp := h p hp
  rw [Bool.and_eq_true, Bool.and_eq_true] at hp
  exact ⟨ready_of (of_decide_eq_true hp.1.1), hp.1.2, rowMeets_of hp.2⟩

theorem witness_SetpointAndBridgeRows :
    (let s := calm []; Ready s ∧ inSync s = true ∧ 63 < nF s ∧ frCmdRefused s 63 .FR_SETPOINT 0 (2800 * 16) = false ∧ flag s RZ_BRIDGE_CMD_BUSY = false) ∧
    frCmdRefused (calm [(FR_FMAX_FCODE 63 7, 255), (FR_FMAX_VCODE 63 7, 3600)]) 63 .FR_SETPOINT 0 (1 + 1 * 2 ^ 16) = false := by
  exact ⟨⟨ready_of (by decide +kernel), by decide +kernel⟩, by decide +kernel⟩

theorem witness_FrondCommandLeaves : AtOnce (on [(FR_CORE_STAT_STATE 63, 1)]) (.coreHalt 63 255) ∧ written (on [(FR_CORE_STAT_STATE 63, 1)]) (.coreHalt 63 255) = some (FR_CORE_CTRL 63, 0xFF00) ∧ 0x100000 ≤ FR_CORE_CTRL 63 :=
  ⟨atOnce_of (by decide +kernel), by decide +kernel, by decide⟩

theorem witness_CommittedCommands :
    AtOnce (on [(FC_TARGET_FRONDS, 2 ^ 63)]) (.scalarPush 63) ∧
    (let s := on [(MS_BANK_OWNER 0, 7), (FC_TARGET_FRONDS, 2 ^ 63), (FR_CORE_STAT_STATE 63, 1)]
     AtOnce s (.programLoad 0xDFF 1) ∧ targets s (fget s FC_TARGET_FRONDS) = [63] ∧ (fr s 63).inbox = [] ∧ groupHolds s 63 0xDFF 0xE00 = false ∧ coreSt s 63 ≠ 0 ∧
     bankOf (fget s FC_LOAD_SRC_ADDR) = (fget s FC_LOAD_SRC_ADDR + 4 * 1 - 1) / 0x80000 ∧ ownerOf s (bankOf (fget s FC_LOAD_SRC_ADDR)) = 7 ∧ fget s FC_LOAD_SRC_ADDR % 4 = 0) ∧
    (let s := on [(FC_TARGET_FRONDS, 1), (FR_GROUP_EN 0 7, 1), (FR_GROUP_ENTRY 0 7, 7)]; AtOnce s (.programLoad 6 1) ∧ targets s (fget s FC_TARGET_FRONDS) = [0] ∧ (fr s 0).inbox = [] ∧ groupHolds s 0 6 7 = true) ∧
    AtOnce (on []) (.programLoad 0xE00 1) ∧
    AtOnce (on []) (.perfModeFree 0) ∧ AtOnce (on []) (.perfModeFixed 0x640) ∧ AtOnce (on []) (.perfModeBounded 0) ∧ AtOnce (on []) (.vidWrite true 7 5200) ∧ AtOnce (on []) (.vidWrite true 6 0) ∧
    (Ready (on []) ∧ answers (on []) 0x43 = true) ∧
    (let s := { on [] with vpm := { (on []).vpm with vidAir := [(5, 4000)] } }; answers s 0x43 = true ∧ takeFirst (fun p : Nat × Nat => p.1 == 5) s.vpm.vidAir = some ((5, 4000), [])) ∧
    (let s := updGrp (on [(VP_STAGE_STATE 47, 5), (VP_STAGE_GROUP 47, 0), (VP_VIN_STAT_STATE, 0)]) 0 fun g => { g with started := true }
     AtOnce s (.stageRestart 47) ∧ stSt s 47 = 5 ∧ (stg s 47).flt = false ∧ inputOk s = true ∧ (grp s (fget s (VP_STAGE_GROUP 47))).started = true) ∧
    (let s := on [(VP_STAGE_STATE 47, 3)]; AtOnce s (.stageStop 47) ∧ 1 ≤ stSt s 47 ∧ stSt s 47 ≤ 3) ∧ AtOnce (on []) .lastfClear ∧ AtOnce (on []) (.quarClear 255) := by
  refine ⟨atOnce_of ?_, ⟨atOnce_of ?_, ?_⟩, ⟨atOnce_of ?_, ?_⟩, atOnce_of ?_, atOnce_of ?_, atOnce_of ?_, atOnce_of ?_, atOnce_of ?_, atOnce_of ?_, ⟨ready_of ?_, ?_⟩, ?_, ⟨atOnce_of ?_, ?_⟩, ⟨atOnce_of ?_, ?_⟩, atOnce_of ?_, atOnce_of ?_⟩ <;> decide +kernel

theorem witness_CommittedSupervisorCommands :
    (AtOnce (on [(FH_MODEL_STAT_LOADED, 1)]) (.fhEnable true) ∧ inSpore (on [(FH_MODEL_STAT_LOADED, 1)]) = false) ∧
    (let s := on ((List.range 32).map fun b => (MS_BANK_OWNER b, 5)); AtOnce s (.modelCheck true true) ∧ modelRefusal s 1 1 true = 0 ∧ AtOnce s (.modelSwitch true true) ∧ modelRefusal s 2 1 true = 0) ∧
    AtOnce (on []) (.domainEnable 1535 15) ∧ AtOnce (on []) (.keyLoad 255 true) ∧ AtOnce (on []) (.aliveRestart 0x6410fe7f2314) ∧ AtOnce (on []) (.faultForce 0x32 0x64012) ∧
    AtOnce (on []) (.bankHandover 31 3) ∧ (AtOnce (on []) (.bankRetention 31) ∧ awake (on []) 31 = true) ∧
    (AtOnce (on []) (.imageProgram true 256) ∧ updRefusal (on []) 1 1 256 0 0 = 0) ∧ (AtOnce (on []) (.imageVerify true) ∧ updRefusal (on []) 2 1 0 0 0 = 0) ∧
    (let s := { on [] with nv := { (on []).nv with verOk1 := true } }; AtOnce s (.imageActivate true) ∧ updRefusal s 3 1 0 0 0 = 0) ∧
    (let s := on [(NV_BOOT_STAT_TRIAL, 1)]; AtOnce s (.imageConfirm false) ∧ updRefusal s 4 0 0 0 0 = 0) ∧ (let s := on [(NV_BOOT_STAT_SVN, 16)]; AtOnce s (.svnCommit false) ∧ updRefusal s 5 0 0 0 0 = 0) ∧
    (fget (on []) NV_UPD_ADDR_FOFF = 0 ∧ fget (on []) NV_UPD_ADDR_MOFF = 0) ∧
    (let s := on []; (AtOnce s .replanCmd ∧ AtOnce s .measureOnly ∧ AtOnce s .rebuildBaseline) ∧ inSpore s = false ∧ 0 < nF s ∧ s.age.run = none) ∧ AtOnce (on []) .lifetimeFlush ∧
    AtOnce (on [(RZ_FLT_STAT_STAT 0, 64)]) (.islandRestart 0x44) := by
  refine ⟨⟨atOnce_of ?_, ?_⟩, ⟨atOnce_of ?_, ?_, atOnce_of ?_, ?_⟩, atOnce_of ?_, atOnce_of ?_, atOnce_of ?_, atOnce_of ?_, atOnce_of ?_, ⟨atOnce_of ?_, ?_⟩, ⟨atOnce_of ?_, ?_⟩, ⟨atOnce_of ?_, ?_⟩, ⟨atOnce_of ?_, ?_⟩,
    ⟨atOnce_of ?_, ?_⟩, ⟨atOnce_of ?_, ?_⟩, ?_, ⟨⟨atOnce_of ?_, atOnce_of ?_, atOnce_of ?_⟩, ?_⟩, atOnce_of ?_, atOnce_of ?_⟩ <;> decide +kernel

theorem direct_of {s : State} {a v : Nat} (h : (readyB s && allowedB s a v && holderB s a) = true) : Direct s a v := by
  rw [Bool.and_eq_true, Bool.and_eq_true] at h
  exact ⟨ready_of (of_decide_eq_true h.1.1), allowed_of h.1.2, holder_of h.2⟩

theorem witness_DirectWrites :
    Direct (on []) RZ_ISLAND_PROBE (0x4C + 256 * 31) ∧ Direct (on []) MS_Q_SEL (0x4C + 256 * 31) ∧ Direct (on [(FR_CORE_STAT_STATE 63, 2)]) (FR_IMEM 63 0x6FF) 0xFFFFFFFFFFFFFFFF ∧
    (let s := on [(AD_CONV_CFG_EN 7, 1)]; Direct s (AD_CONV_TRIG 7) (0 ||| 0x8000000000000000) ∧ flag s (AD_CONV_CFG_EN 7) = true ∧ oddOfPair s 7 = false ∧ (cv s 7).run = none) ∧
    Direct (on [(MS_BANK_OWNER 0, 4)]) (AD_DMA_CFG 15) ((0 : W64) ||| 1).toNat ∧ Direct (on []) (AD_DMA_RD 15) 0 ∧ Direct (on [(AD_LCAL_CFG_EN, 1)]) AD_LCAL_CMD (63 + 2 ^ 8) ∧
    Direct (on []) RZ_TOPK_CTRL (5 + 16 + 32 + 2 ^ 8) ∧ Direct (on []) RZ_FLT_FIRST (2 ^ 8) ∧ Direct (on []) RZ_FLT_NVM (2 ^ 24) ∧
    (Direct (on [(MS_BANK_OWNER 0, 3)]) NV_READ_CMD (0 + 4 * 255 + 2 ^ 16 * 0 + 2 ^ 40) ∧ readRefused (on [(MS_BANK_OWNER 0, 3)]) 0 255 0 = false) ∧
    (Direct (on []) FC_LOAD_SRC 0xFFFFFF ∧ inSync (on []) = false ∧ (regAt FC_LOAD_SRC).isSome = true) := by
  refine ⟨direct_of ?_, direct_of ?_, direct_of ?_, ⟨direct_of ?_, ?_⟩, direct_of ?_, direct_of ?_, direct_of ?_, direct_of ?_, direct_of ?_, direct_of ?_, ⟨direct_of ?_, ?_⟩, ⟨direct_of ?_, ?_⟩⟩ <;> decide +kernel

theorem witness_HostReads :
    (Ready (on []) ∧ (RZ_ID : Nat) % 8 = 0 ∧ (regAt RZ_ID).map (fun r => r.row.rc) = some 0 ∧ (∀ k, holder RZ_ID = some k → answers (on []) k = true)) ∧
    ((0x3FFFFF8 : BitVec 26).toNat % 8 = 0 ∧ 0x1000000 ≤ (0x1FFFFF8 : BitVec 26).toNat ∧ answers (on []) 0x48 = true ∧ awake (on []) (bankOf (0x1FFFFF8 % 0x1000000)) = true) ∧ (1 : BitVec 26).toNat % 8 ≠ 0 ∧
    (withBus (on []) fun b => { b with resp := [⟨.host, .ok, 7⟩] }).bus.resp = [⟨.host, .ok, 7⟩] ∧
    (let s := withBus (setIsl (on []) 0x43 { halted := true }) fun b => { b with cur := some (⟨.host, false, 0x40000, 0, .clean, false, false⟩, .island 0x43) }
     s.bus.ready = [] ∧ s.bus.queue = [] ∧ s.bus.cur = some (⟨.host, false, 0x40000, 0, .clean, false, false⟩, .island 0x43) ∧ answerComing s 0x43 = false) :=
  ⟨⟨ready_of (by decide +kernel), by decide, by decide +kernel, holder_of (by decide +kernel)⟩, by decide +kernel, by decide, rfl, by decide +kernel⟩

/-! ### Steps, reset and start-up -/

theorem witness_StepTakesFront : State.reset.pending = [] := rfl

theorem witness_InvariantKept : Inv State.reset ∧ step { State.reset with pending := [.hostResponseTaken] } = .next State.reset ∧ Inv { State.reset with pending := [.hostResponseTaken] } :=
  ⟨⟨by decide, by decide⟩, rfl, ⟨by decide, by decide⟩⟩

def booted (st : Nat) : State := { State.reset with flash := { State.reset.flash with boot0 := some ⟨1, 1, st, 0, 0⟩ } }

theorem witness_ResetRelease : fget State.reset NV_BOOT_STAT_STEP = 0 ∧ (bootRec State.reset).state = 0 ∧ (fget (booted 1) NV_BOOT_STAT_STEP = 0 ∧ (bootRec (booted 1)).state = 1) ∧ (bootRec (booted 2)).state = 2 := by
  decide +kernel

theorem witness_StartUp :
    (answers State.reset (activeIsl State.reset) = true ∧ inTakeover State.reset = false) ∧
    (let s := put [(VP_GRP_STAT_PG 0, 1), (NV_BOOT_STAT_STEP, 1)]; inSpore s = true ∧ flag s (VP_GRP_STAT_PG 0) = true ∧ 1 ≤ fget s NV_BOOT_STAT_STEP) ∧
    (let s := put [(NV_BOOT_STAT_STEP, 2)]; inSpore s = true ∧ fget s NV_BOOT_STAT_STEP = 2 ∧ answers s 0x4A = true) ∧
    (let s := put [(NV_BOOT_STAT_STEP, 6)]; fget s NV_BOOT_STAT_STEP = 6 ∧ s.bus.ready = [] ∧ s.bus.queue = [] ∧ ∀ p ∈ regEntries (stagedRd s), entryHeld p = true) ∧
    (let s := put [(NV_BOOT_STAT_STEP, 7)]; fget s NV_BOOT_STAT_STEP = 7 ∧ (∀ f, f < nF s → railSt s f ≠ 1 ∧ railSt s f ≠ 2 ∧ railSt s f ≠ 4) ∧ waiting s = [] ∧ s.chip.exitWait = []) := by decide +kernel

/-! ### Islands, streams, queues and the Lichen pair -/

theorem witness_ClocksAndHeartbeats :
    (State.reset.chip.refAbsent = false) ∧ (hasIsl State.reset 0x4C = true ∧ (isl State.reset 0x4C).inReset = false ∧ State.reset.chip.restart = none) ∧
    (hasIsl State.reset 63 = true ∧ (isl State.reset 63).stopped = false ∧ answers State.reset 0x47 = true) := by decide +kernel

theorem witness_QueueWords :
    (tget {} State.reset.strms (32 * 0x4C + 31)).dropping ≠ 1 ∧ BitVec.ofNat 32 (0xFFFFFFFF00000000 : W64).toNat = (tget {} State.reset.strms (32 * 0x4C + 31)).expect ∧
    BitVec.ofNat 32 (0xFFFFFFFF : W64).toNat ≠ (tget {} State.reset.strms (32 * 0x4C + 31)).expect ∧ isCommandStream 0x4C 31 = false ∧ isCommandStream 0x40 11 = true ∧
    (tget {} State.reset.strms (32 * 0x40 + 11)).dropping ≠ 1 ∧ BitVec.ofNat 32 (1 : W64).toNat ≠ (tget {} State.reset.strms (32 * 0x40 + 11)).expect := by decide +kernel

def probing : State := { setIsl (on [(RZ_ISLAND_PROBE_BUSY, 1), (MS_Q_SEL_BUSY, 1)]) 0x4C { cycles := 9 } with
  probe := some ⟨0x4C, 31⟩, qProbe := some ⟨0x4C, 31⟩, strms := tset [] (32 * 0x4C + 31) { sent := true, seqOut := 0, fill := 3, ue := 2 } }

theorem witness_ResetsAndProbes :
    (probing.probe = some ⟨0x4C, 31⟩ ∧ inTakeover probing = false ∧ answers probing 0x4C = true ∧ 0x4C ≠ activeIsl probing ∧ (tget {} probing.strms (32 * 0x4C + 31)).sent = true) ∧ probing.qProbe = some ⟨0x4C, 31⟩ ∧
    (let s := { withBus (on []) (fun b => { b with jSeq := 2 ^ 32 + 1 }) with probe := some ⟨0x40, 1⟩ }; s.probe = some ⟨0x40, 1⟩ ∧ inTakeover s = false ∧ answers s 0x40 = true ∧ 0x40 = activeIsl s ∧ 0 < s.bus.jSeq) ∧
    (0x40 : BitVec 8).toNat = activeIsl State.reset ∧ (0x41 : BitVec 8).toNat ≠ activeIsl State.reset := by decide +kernel

def pairCfg : JEntry := ⟨7, .write RZ_PAIR_CFG 0x114, false, 0⟩

theorem witness_JournalPair :
    (let s := withBus (calm []) fun b => { b with jAir := [pairCfg] }; s.bus.jAir = pairCfg :: [] ∧ answers s (standbyIsl s) = true ∧ pairCfg.seq % 2 ^ 32 ≠ s.bus.sbSeq % 2 ^ 32 ∧ pairCfg.seq % 2 ^ 32 = (withBus s fun b => { b with sbSeq := 7 }).bus.sbSeq % 2 ^ 32) ∧
    (let s := withBus (calm []) fun b => { b with jAck := [7], jWait := [pairCfg] }
     s.bus.jAck = [7] ∧ s.bus.ready = [] ∧ s.bus.queue = [] ∧ s.bus.jWait = [pairCfg] ∧ pairCfg.seq = 7 ∧ pairCfg.op = .write RZ_PAIR_CFG 0x114 ∧ pairCfg.wait = false) ∧
    (let s := calm []; inSync s = true ∧ answers s (activeIsl s) = true ∧ answers s (standbyIsl s) = true ∧ inTakeover s = false) ∧
    (let s := on [(RZ_PAIR_STAT_RESYNC, 1)]; flag s RZ_PAIR_STAT_RESYNC = true ∧ answers s (activeIsl s) = true ∧ answers s (standbyIsl s) = true ∧ inTakeover s = false ∧
      s.bus.ready = [] ∧ s.bus.jWait = [] ∧ s.bus.queue = []) := by decide +kernel

def sagWr : Access := wr RZ_SAG_CFG 0x50
def waitingAck : State := withBus (calm []) fun b => { b with cur := some (sagWr, .commit 7), jWait := [⟨7, .write RZ_SAG_CFG 0x50, true, 0⟩], jAck := [7] }

theorem witness_AcknowledgementTimeout :
    waitingAck.bus.ready = [] ∧ waitingAck.bus.queue = [] ∧ sagWr.src = .host ∧ sagWr.we = true ∧ waitingAck.bus.cur = some (sagWr, .commit 7) ∧
    waitingAck.bus.jWait = [⟨7, .write RZ_SAG_CFG 0x50, true, 0⟩] ∧ waitingAck.bus.jAck = [7] := by decide +kernel

def fcmdWr : Access := wr (FR_GOV_CFG 63) 1
def keptCmd : FCmd := ⟨4, .write 0x88 1, true⟩
def ackWait (ok old : Bool) : State := withBus (updFr (calm []) 63 fun x => { x with unacked := [keptCmd] }) fun b =>
  { b with acks := [⟨63, ok, true, some keptCmd, old⟩], cur := some (fcmdWr, .island 63) }
def takingOver : State := withBus (on [(RZ_PAIR_STAT_TAKEOVER, 1), (RZ_PAIR_STAT_ACTIVE, 1), (MS_BANK_OWNER 5, 1)]) fun b => { b with lost := [fcmdWr] }
def restarting (k : Nat) : State := { setIsl (on [(RZ_ISLAND_RST_BUSY, 1)]) k { inReset := true } with chip := { State.reset.chip with restart := some ⟨k, true⟩, rst := false } }

theorem witness_TakeoverAndRestart :
    (∀ ok ∈ [false, true], ∀ old ∈ [false, true], let s := ackWait ok old
      takeFirst (fun a : Ack => a.isl == 63) s.bus.acks = some (⟨63, ok, true, some keptCmd, old⟩, []) ∧ answers s (activeIsl s) = true ∧ inTakeover s = false ∧ s.bus.ready = [] ∧ s.bus.queue = [] ∧
      s.bus.cur = some (fcmdWr, .island 63) ∧ fcmdWr.src = .host ∧ fcmdWr.we = true ∧ isScalarCmd keptCmd.msg = false ∧ keptCmd.wait = true ∧ inSync s = true) ∧
    (∀ l : List (Nat × Nat), keptCmd.msg ≠ .sporeExit l) ∧
    (let s := takingOver; inTakeover s = true ∧ answers s (activeIsl s) = true ∧ s.bus.ready = [] ∧ s.bus.queue = [] ∧ s.bus.cur = none ∧ s.bus.lost = [fcmdWr] ∧ fcmdWr.src = .host ∧ s.bud.lateTok = [] ∧ s.rz.cmd = []) ∧
    (∀ k ∈ [0x44, 0x45, 0x46], let s := restarting k; s.chip.restart = some ⟨k, true⟩ ∧ s.bus.ready = [] ∧ s.bus.queue = [] ∧ s.bus.commits = []) := by
  refine ⟨?_, ?_, ?_, ?_⟩
  · decide +kernel
  · intro l h; cases h
  · decide +kernel
  · decide +kernel

/-! ### Fault collector, Moss -/

def raising (l : List (Fld × Nat)) (r : Raise) : State := { on l with flt := { State.reset.flt with raises := [r], seq := 9 } }

theorem witness_FaultRaises :
    ((fltRow 0x01).isSome = true ∧ (fltRow 0xA9).isSome = true) ∧
    (let s := raising [] ⟨0x33, some 63, 7, 63, false⟩; answers s 0x47 = true ∧ (pickRaise s 0x33 (some 63) 7).isSome = true ∧ s.bus.ready = [] ∧ s.bus.queue = [] ∧ s.bus.jWait = []) ∧
    (let s := raising [(RZ_FLT_CTRL_ESC_EN, 0xFF), (RZ_FLT_STAT_STAT 0, 0x1000), (RZ_FLT_CFG_LVL 12, 3)] ⟨0x33, some 63, 7, 63, false⟩; isSet s 12 = true) ∧
    (let s := raising [] ⟨0x01, some 63, 7, 63, false⟩; (pickRaise s 0x12 (some 1) 0).isSome = true) := by
  refine ⟨?_, ?_, ?_, ?_⟩ <;> decide +kernel

theorem witness_FirstFaultLatch :
    (∀ l ∈ ([[], [(RZ_FLT_FIRST_VALID, 1), (RZ_FLT_FIRST_SRC, 4)]] : List (List (Fld × Nat))), let s := raising l ⟨0x33, some 63, 7, 63, false⟩
      answers s 0x47 = true ∧ (match pickRaise s 0x33 (some 63) 7 with | some p => (fltRow p.1.src).isSome | none => false) = true ∧ s.bus.ready = [] ∧ s.bus.queue = [] ∧ s.bus.jWait = [] ∧
      flag s RZ_FLT_FIRST_VALID = !l.isEmpty) ∧
    Direct (on [(RZ_FLT_FIRST_VALID, 1), (RZ_FLT_FIRST_SRC, 4)]) RZ_FLT_FIRST (2 ^ 8) := by
  refine ⟨?_, direct_of ?_⟩ <;> decide +kernel

/-- Source 255 - 0x56 = 0xA9 is set at a level, its window open or not. -/
def faulty (lvl : Nat) (win : Bool) : State := { on [(RZ_FLT_STAT_STAT 2, 2 ^ (0xA9 % 64)), (RZ_FLT_CFG_LVL 0xA9, lvl)] with
  flt := { State.reset.flt with windows := if win then tset [] 0xA9 5 else [], seq := 9 } }
def anyRec (n : Nat) : FRec := ⟨n, 0xA9, 1, 3, 1, 3, false, false, false, 5, 0, 0, 0, 0, 0, 1⟩

theorem witness_FaultCollector :
    (let s := faulty 2 true; answers s 0x47 = true ∧ s.bus.ready = [] ∧ s.bus.queue = [] ∧ (fltRow 0xA9).isSome = true ∧ tget? s.flt.windows 0xA9 = some 5 ∧ isSet s 0xA9 = true ∧ lvlOf s 0xA9 = 2) ∧
    (let s := withBus (faulty 2 true) fun b => { b with fltAcks := [(2, 2 ^ 41 + 1)] }; s.bus.fltAcks = [(2, 2 ^ 41 + 1)] ∧ 2 < 4 ∧ 0xA9 / 64 = 2 ∧ bitOf (2 ^ 41 + 1) (0xA9 % 64) = true ∧ isSet s 0xA9 = true ∧ ¬ isSet s 0x80 = true) ∧
    (let s := { faulty 2 true with regs := [] }; tget? s.flt.windows 0xA9 = some 5 ∧ isSet s 0xA9 = false) ∧
    (let s := { on [] with flt := { State.reset.flt with tests := [⟨1, 0x50, 63, 31, 4, 3⟩] } }
     takeFirst (fun y : TestRun => y.src == 0x50 && y.unit == 63) s.flt.tests = some (⟨1, 0x50, 63, 31, 4, 3⟩, []) ∧ hasF s 63 = true) ∧
    (on []).flt.aliveStop = false ∧ ({ on [] with flt := { State.reset.flt with aliveStop := true } }).flt.aliveStop = true ∧
    ({ on [] with flt := { State.reset.flt with chipDrain := true } }).flt.chipDrain = true ∧
    (let s := { on [] with flt := { State.reset.flt with nvmQ := [anyRec 3, anyRec 4] } }; s.flt.nvmQ = [anyRec 3, anyRec 4] ∧ answers s (activeIsl s) = true ∧ answers s 0x4A = true ∧ inTakeover s = false) := by
  decide +kernel

theorem witness_MossWords :
    (let s := on [(MS_BANK_OWNER 31, 7)]; answers s 0x48 = true ∧ (7 : BitVec 3).toNat ≠ 0 ∧ (7 : BitVec 3).toNat ≠ 3 ∧ (0xFFFFF8 : BitVec 24).toNat % 8 = 0 ∧ bankOf (0xFFFFF8 : BitVec 24).toNat = 31 ∧
      awake s 31 = true ∧ ownerOf s 31 = 7 ∧ ownerOf s 31 ≠ 6) ∧
    awake (on [(MS_BANK_RSTATE 31, 2)]) 31 = false ∧
    (Ready (on [(MS_BANK_OWNER 31, 3)]) ∧ awake (on [(MS_BANK_OWNER 31, 3)]) 31 = true ∧ ownerOf (on [(MS_BANK_OWNER 31, 3)]) 31 = 3) ∧
    (let s := { on [(MS_BANK_RSTATE 31, 3), (MS_BANK_OWNER 31, 5)] with moss := { State.reset.moss with waits := [⟨31, 5, 0, 0xFFFFF8, 2 ^ 64 - 1⟩] } }
     fget s (MS_BANK_RSTATE 31) = 3 ∧ s.moss.waits = [⟨31, 5, 0, 0xFFFFF8, 2 ^ 64 - 1⟩] ∧ bankOf 0xFFFFF8 = 31 ∧ ownerOf s 31 = 5 ∧ s.bus.ready = [] ∧ s.bus.queue = [] ∧ s.bus.cur = none) ∧
    flag (on [(MS_CFG_SCRUB_EN, 1)]) MS_CFG_SCRUB_EN = true := by
  refine ⟨?_, ?_, ⟨ready_of (by decide +kernel), ?_⟩, ?_, ?_⟩ <;> decide +kernel

/-! ### The VPM stage -/

/-- Stages 46 and 47 make group 7, in the given states; the group has started. -/
def vpmAt (st46 st47 : Nat) (l : List (Fld × Nat)) (x : Stage) (y : Grp) : State :=
  setGrp (setStg (on ([(VP_STAGE_GROUP 46, 7), (VP_STAGE_IMG_EN 46, 1), (VP_STAGE_STATE 46, st46), (VP_STAGE_GROUP 47, 7), (VP_STAGE_IMG_EN 47, 1), (VP_STAGE_STATE 47, st47),
    (VP_VID_VID 7, 800), (VP_VIN_STAT_VIN, 12000), (VP_VIN_STAT_STATE, 0)] ++ l)) 47 x) 7 y

def running : State := vpmAt 2 2 [] {} { started := true, vref := 256 * 800 }

theorem witness_VpmGroups :
    ((grp running 7).started = true ∧ startDue running 7 (0xFFFF : BitVec 16).toNat = true ∧ vinMv running ≠ 0 ∧ stSt running 47 = 2 ∧ stagesOf running 7 = [46, 47]) ∧
    (let s := vpmAt 1 3 [] {} { started := true, vref := 200000, acc := -5, dPrev := 65536, first := false }; (grp s 7).started = true ∧ startDue s 7 10000 = true ∧ vinMv s ≠ 0 ∧ stSt s 46 = 1) ∧
    syncOn running 7 = false ∧ (grp (on []) 7).started = false ∧ flag (on []) VP_SYNC_STAT_LOCK = false ∧
    (let s := { on [(VP_SYNC_STAT_LOCK, 1)] with vpm := { State.reset.vpm with sync := { run := 16, minP := 10000, maxP := 10000, last := 10000 } } }
     flag s VP_SYNC_STAT_LOCK = true ∧ 100 * ((10500 : Int) - s.vpm.sync.last).natAbs ≤ 5 * s.vpm.sync.last ∧ 5 * s.vpm.sync.last < 100 * ((10501 : Int) - s.vpm.sync.last).natAbs ∧
     (s.vpm.sync.count + 1) % 2 ^ gcfg s 7 0 (VP_GRP_PWM_SDIV 7) = 0) ∧
    (let s := { on [] with vpm := { State.reset.vpm with sync := { run := 16, minP := 10000, maxP := 10000, last := 10000 } } }
     flag s VP_SYNC_STAT_LOCK = false ∧ 16 ≤ s.vpm.sync.run ∧ 0 < s.vpm.sync.run ∧ 100 * (max s.vpm.sync.maxP 10099 - min s.vpm.sync.minP 10099) < min s.vpm.sync.minP 10099) ∧
    ((grp running 7).started = true ∧ fget running (VP_VID_VID 7) ≠ 0 ∧ (grp running 7).vref = 256 * fget running (VP_VID_VID 7)) ∧ flag (on [(VP_GRP_STAT_PG 7, 1)]) (VP_GRP_STAT_PG 7) = true ∧
    (let s := vpmAt 2 2 [(VP_GRP_LL_SHED_EN 7, 1), (VP_GRP_LL_MIN_ACT 7, 1), (VP_GRP_LL_SPARE 7, 0)] {} { started := true }
     (grp s 7).started = true ∧ gcfg s 7 3 (VP_GRP_LL_SHED_EN 7) ≠ 0 ∧ shedTarget s 7 0 1 < (actOf s 7).length ∧ (actOf s 7).length ≤ shedTarget s 7 1000000 1) ∧
    Quiet (calm []) ∧
    (let s := vpmAt 2 2 [(VP_GRP_LL_AF_EN 7, 1)] {} { started := true }
     (grp s 7).started = true ∧ gcfg s 7 3 (VP_GRP_LL_AF_EN 7) = 1 ∧ (grp s 7).firing = false ∧ (grp s 7).armed = true ∧ (grp s 7).rose = true ∧ servOf s 7 = [46, 47] ∧ (stg s 46).flt = false ∧ (stg s 46).held ≠ some (stagePeriod s 46 0)) ∧
    ((grp (vpmAt 2 3 [] {} { started := true, firing := true }) 7).firing = true ∧ servOf (vpmAt 2 3 [] {} { started := true, firing := true }) 7 = [46, 47]) ∧
    (grp (vpmAt 2 2 [] {} { started := true, afHold := true }) 7).afHold = true := by unfold Quiet; decide +kernel

/-- Stage 47 has its second own period in progress, and its last trip was in period j. -/
def tripped (st47 j : Nat) (l : List (Fld × Nat)) (hic : Nat) : State := vpmAt 2 st47 l { idx := 1, rise := 100, width := 50, tripIn := some j, hic := hic } { started := true, first := false }

theorem witness_VpmStages :
    (let s := vpmAt 2 1 [(VP_GRP_LIM_HSS_V 7, 100)] {} { started := true }
     stSt s 47 = 1 ∧ (stg s 47).ready = false ∧ inputOk s = true ∧ 4 * 2000 ≤ 0 + 4 * 20 * gcfg s 7 2 (VP_GRP_LIM_HSS_V 7) ∧ 0 + 4 * 20 * gcfg s 7 2 (VP_GRP_LIM_HSS_V 7) < 4 * 2001 ∧ (stg s 47).restart = false) ∧
    (stg (vpmAt 2 1 [] { restart := true } { started := true }) 47).restart = true ∧
    (let s := vpmAt 2 2 [(VP_GRP_STAT_DE 7, 1)] { rise := 100, width := 50 } { started := true }; stSt s 47 = 2 ∧ flag s (VP_GRP_STAT_DE 7) = true ∧ schedHigh s 47 99 = false ∧ schedHigh s 47 150 = false) ∧
    (stSt running 47 = 2 ∧ (stg running 47).tripIn.any (fun j => j + 1 == stagePeriod running 47 0) = false ∧ (stg running 47).flt = false) ∧
    (let s := tripped 2 0 [] 0; stSt s 47 = 2 ∧ stagePeriod s 47 100 = 2 ∧ (stg s 47).tripIn.any (fun j => j + 1 == stagePeriod s 47 100) = false) ∧
    (let s := tripped 2 0 [(VP_GRP_LIM_HIC_MAX 7, 1)] 0; stSt s 47 = 2 ∧ (stg s 47).tripIn = some 0 ∧ 0 + 1 = stagePeriod s 47 99 ∧ (stg s 47).hic < gcfg s 7 2 (VP_GRP_LIM_HIC_MAX 7)) ∧
    (let s := tripped 2 1 [(VP_GRP_LIM_HIC_MAX 7, 1)] 1; stSt s 47 = 2 ∧ (stg s 47).tripIn = some 1 ∧ 1 + 1 = stagePeriod s 47 100 ∧ gcfg s 7 2 (VP_GRP_LIM_HIC_MAX 7) ≤ (stg s 47).hic) ∧
    stSt (vpmAt 2 3 [] {} { started := true }) 47 = 3 ∧ stSt (vpmAt 2 4 [] {} { started := true }) 47 = 4 ∧
    (let s := vpmAt 2 2 [(VP_GRP_LIM_TAU 7, 1), (VP_GRP_LIM_IOL 7, 10)] { ifNum := 5000, ifDen := 2, overTicks := 20 } { started := true }
     0 < (stg s 47).ifDen ∧ stSt s 47 = 2 ∧ ((stg s 47).ifNum : Rat) / (stg s 47).ifDen * (1 - 1 / 10) + 2500 / 10 ≤ 250 * gcfg s 7 2 (VP_GRP_LIM_IOL 7) ∧
       250 * gcfg s 7 2 (VP_GRP_LIM_IOL 7) < ((stg s 47).ifNum : Rat) / (stg s 47).ifDen * (1 - 1 / 10) + 2501 / 10 ∧ 20 * 1 ≤ (stg s 47).overTicks ∧ ¬ 20 * 1 ≤ (stg running 47).overTicks) ∧
    ((stg running 47).flt = false ∧ stSt running 47 ≠ 0) ∧
    (let s := vpmAt 2 6 [] { flt := true } { started := true }; (stg s 47).flt = true ∧ stSt s 47 = 6 ∧ (grp s 7).started = true) ∧
    (fget running VP_VIN_STAT_STATE ≠ 1 ∧ fget running VP_VIN_STAT_STATE ≠ 2 ∧ flag running (VP_STAGE_IMG_EN 47) = true) ∧
    (let s := vpmAt 6 5 [(VP_VIN_STAT_STATE, 1)] {} {}; fget s VP_VIN_STAT_STATE ≠ 0 ∧ fget s (VP_VID_VID 7) ≠ 0 ∧ (grp s 7).started = false ∧ flag s (VP_STAGE_IMG_EN 47) = true) ∧
    (let r : VRec := ⟨1, 2, 47, 7, 5, 0, 0, 0, 0, 0, 0, 0, 0, 0, 0, 0, 0, 0⟩
     let s := { on [(VP_LASTF_STAT_PENDING, 1)] with vpm := { State.reset.vpm with rec_ := some r } }
     s.vpm.rec_ = some r ∧ flag s VP_LASTF_STAT_PENDING = true ∧ answers s (activeIsl s) = true ∧ answers s 0x4A = true ∧ inTakeover s = false ∧ s.flash.vpm0 = none) := by
  refine ⟨?_, ?_, ?_, ?_, ?_, ?_, ?_, ?_, ?_, ?_, ?_, ?_, ?_, ?_, ?_⟩ <;> decide +kernel

/-! ### Converters, calibration, thermal unit -/

/-- Converter 7 is enabled, with the given burst, timer and other fields. -/
def conv7 (l : List (Fld × Nat)) (x : Cv) : State := updCv (on ([(AD_CONV_CFG_EN 7, 1), (AD_CONV_CFG_CH 7, 0x40), (AD_CONV_CFG_LEN 7, 65535)] ++ l)) 7 fun _ => x
def burst (taken : Nat) : Burst := ⟨0x40, 0, 2, false, false, 2, 63, 1, false, taken, false⟩
def withLcal (s : State) (g : Lcal → Lcal) : State := { s with conv := { s.conv with lcal := g s.conv.lcal } }

/-- Frond 63 is in service with its phases active. -/
def served : List (Fld × Nat) := [(AD_LCAL_CFG_EN, 1), (AD_LCAL_CFG_W_LOG, 1), (FR_RAIL_STAT_STATE 63, 3)]

/-- Two windows whose line x = 1000, 2000 to y has gain a. -/
def windows (a c : Int) : List (Int × Nat × Int × Nat) := [(1000, 1, a * 1000 - c, 16384), (20000, 1, a * 20000 - c, 16384)]

/-- Phase 31 of frond 63 is being fitted, its line of slope a. -/
def fitting (a : Int) : State := withLcal (on served) fun x => { x with item := some (63, 31), pairs := windows a (a * 1024) }

theorem witness_ConvertersAndCalibration :
    (let s := conv7 [] { timer := true }; (cv s 7).timer = true ∧ flag s (AD_CONV_CFG_EN 7) = true ∧ oddOfPair s 7 = false ∧ answers s 0x44 = true ∧ (cv s 7).run = none) ∧
    (cv (conv7 [] { timer := true, run := some (burst 1) }) 7).run.isSome = true ∧
    (let s := conv7 [(AD_CONV_TRIG_SRC 7, 2), (AD_CONV_TRIG_EDGE 7, 1), (AD_CONV_TRIG_SEL 7, 63)] {}; pwmFor s 1 63 7 = true ∧ pwmFor s 1 62 7 = false ∧ (cv s 7).run = none) ∧
    (let s := conv7 [(AD_CONV_TRIG_SRC 7, 2), (AD_CONV_TRIG_EDGE 7, 1), (AD_CONV_TRIG_SEL 7, 63)] { run := some (burst 0) }
     pwmFor s 1 63 7 = true ∧ (cv s 7).run = some (burst 0) ∧ (burst 0).ofEvent (1 : BitVec 2).toNat (63 : BitVec 6).toNat = true ∧ (burst 0).taken = 0 ∧ (burst 0).stale = false ∧ 0 < (burst 1).taken ∧ (burst 0).ofEvent 2 63 = false) ∧
    (let s := { conv7 [(AD_CONV_TRIG_SRC 7, 3), (AD_CONV_TRIG_SEL 7, 63)] {} with conv := { State.reset.conv with trigs := [63] } }
     takeFirst (fun x : Nat => x == 63) s.conv.trigs = some (63, []) ∧ fget s (AD_CONV_TRIG_SRC 7) = 3 ∧ fget s (AD_CONV_TRIG_SEL 7) = 63) ∧
    (let s := conv7 [(AD_CONV_STAT_CONVERGED 7, 1), (AD_WIN_CFG_EN 63, 1), (AD_WIN_CFG_CONV 63, 7), (AD_WIN_CFG_CH 63, 0x40), (AD_WIN_CFG_HI 63, 1000)] { run := some (burst 1) }
     (cv s 7).run = some (burst 1) ∧ (burst 1).pair = false ∧ flag s (AD_CONV_CFG_EN 7) = true ∧ (burst 1).cont = false ∧ (burst 1).taken < (burst 1).len ∧ channelOf s 7 = none ∧
     flag s (AD_CONV_STAT_CONVERGED 7) = true ∧ s.chip.refAbsent = false ∧ badChannel s (burst 1).ch = false ∧ winsFor s 7 (burst 1).ch false = [63]) ∧
    flag (conv7 [] {}) (AD_CONV_STAT_CONVERGED 7) = false ∧ (burst 2).len ≤ (burst 2).taken ∧
    (let s := updDm (on [(AD_DMA_CFG_EN 15, 1), (AD_DMA_CFG_DEST 15, 0), (MS_BANK_OWNER 0, 4)]) 15 fun x => { x with words := [(7, 4, true)] }
     flag s (AD_DMA_CFG_EN 15) = true ∧ flag s (AD_DMA_CFG_DEST 15) = false ∧ (dm s 15).words = [(7, 4, true)] ∧ awake s (bankOf (fget s (AD_DMA_CFG_BASE 15) + fget s (AD_DMA_WR_WR 15) % ringSize s 15)) = true ∧
     ownerOf s (bankOf (fget s (AD_DMA_CFG_BASE 15) + fget s (AD_DMA_WR_WR 15) % ringSize s 15)) = 4 ∧ ownerOf (on [(MS_BANK_OWNER 0, 5)]) 0 ≠ 4) ∧
    (let s := on served; flag s AD_LCAL_CFG_EN = true ∧ inSpore s = false ∧ answers s 0x44 = true ∧ s.conv.lcal.item = none ∧ s.conv.lcal.cmd = none ∧ s.conv.lcal.test = none ∧ s.conv.lcal.tests = [] ∧ s.conv.lcal.wait = false ∧
     (((List.range (36 * nF s)).find? fun p => decide (s.conv.lcal.pos ≤ p) && lcalItemOk s p)).isSome = true) ∧
    (let s := on [(AD_LCAL_CFG_EN, 1)]; ((List.range (36 * nF s)).find? fun p => decide (s.conv.lcal.pos ≤ p) && lcalItemOk s p) = none) ∧
    (let s := withLcal (on ([(AD_CONV_STAT_CONVERGED 7, 1)] ++ served)) fun x => { x with item := some (63, 35) }
     s.conv.lcal.item = some (63, 35) ∧ flag s (AD_CONV_STAT_CONVERGED (fget s AD_LCAL_CFG_CONV)) = true ∧ s.chip.refAbsent = false ∧ s.conv.lcal.pairs.length < 2 ^ fget s AD_LCAL_CFG_W_LOG ∧ scal s 63 0 = s.conv.lcal.s0 ∧ scal (setScal s 63 0 1) 63 0 ≠ s.conv.lcal.s0) ∧
    (∀ a ∈ [19200, 32001], let s := fitting a; s.conv.lcal.item = some (63, 31) ∧ 2 ^ fget s AD_LCAL_CFG_W_LOG ≤ s.conv.lcal.pairs.length ∧
      (lcalFit (s.conv.lcal.pairs.map pairRat) 16384 (fget s AD_LCAL_CFG_SPREAD) (fget s (FR_LEAF_CAL_GAIN 63 31))).map (fitOk true (fget s AD_LCAL_CFG_RES_MAX)) = some (decide (a = 19200))) := by
  refine ⟨?_, ?_, ?_, ?_, ?_, ?_, ?_, ?_, ?_, ?_, ?_, ?_, ?_⟩ <;> decide +kernel

theorem witness_ThermalSamples :
    (answers State.reset 0x45 = true ∧ hasF State.reset 63 = true) ∧ flag (on [(TH_REM_CFG_EN 15, 1)]) (TH_REM_CFG_EN 15) = true ∧
    (remInvalid true 1000001 = true ∧ remInvalid true 1000000 = false ∧ remInvalid false 23999 = true ∧ remInvalid false 24000 = false) ∧
    (refreshOf (on []) 7 < tget 0 ({ on [] with th := { State.reset.th with ref := tset [] 7 3 } }).th.ref 7 ∧ tget 0 (on []).th.ref 7 ≤ refreshOf (on []) 7) := by decide +kernel

/-! ### Fiddlehead, budget, admission -/

def withFh (s : State) (g : Fh → Fh) : State := { s with fh := g s.fh }
def withBud (s : State) (g : Bud → Bud) : State := { s with bud := g s.bud }
def admSet (s : State) (g : Adm → Adm) : State := { s with adm := g s.adm }
def fhOn : State := on ([(FH_CTRL_EN, 1), (FH_MODEL_STAT_LOADED, 1)] ++ (List.range 32).map fun b => (MS_BANK_OWNER b, 5))
/-- Every bank is the host's. -/
def lent : State := on ((List.range 32).map fun b => (MS_BANK_OWNER b, 7))
def anyRun : FhRun := ⟨7, [(0, ⟨7, 2 ^ 22, 0, 0, 0⟩), (63, ⟨7, 0, 1, 2, 3⟩)], ⟨[], [], []⟩, [], [], false⟩
def anyIn : FIn := ⟨0, -5, [], 0, 3, 0, false, false, true⟩
def anyTel : TelRec := ⟨63, 1, 5000, 800, 40, 3, false, false, [], 64, 64, 0, 0, 0, [], []⟩

theorem witness_ForecastCycles :
    (State.reset.member.fronds ≤ 64 ∧ answers fhOn 0x42 = true ∧ flag fhOn FH_CTRL_EN = true ∧ flag fhOn FH_MODEL_STAT_LOADED = true ∧ inSpore fhOn = false ∧ fhOn.fh.run = none ∧ fhOn.fh.switch = none ∧ slotOwned fhOn (fget fhOn FH_MODEL_STAT_SLOT) (flag fhOn FH_MODEL_STAT_WIDE) = true) ∧
    slotOwned lent 0 false = false ∧
    (withFh fhOn fun x => { x with run := some anyRun }).fh.run = some anyRun ∧ firstUe [] = none ∧ firstUe [(8, .double)] = some 8 ∧
    ((fr (updFr (on []) 63 fun x => { x with upd := [.forecast 0 1 2 3] }) 63).upd = .forecast 0 1 2 3 :: [] ∧ answers (on []) 63 = true ∧ (tget ({} : Strm) (on []).strms (fcKey 0 63)).next = some (BitVec.ofNat 32 (provSeq 0))) ∧
    (let s := { on [] with strms := tset [] (fcKey 0 63) ({ next := some 9 } : Strm) }; (tget ({} : Strm) s.strms (fcKey 0 63)).next ≠ none ∧ (tget ({} : Strm) s.strms (fcKey 0 63)).next ≠ some (BitVec.ofNat 32 (provSeq 0))) ∧
    (withFh (on []) fun x => { x with adAir := [(63, ⟨7, 2 ^ 22, 0, 0, 0⟩)] }).fh.adAir = [(63, ⟨7, 2 ^ 22, 0, 0, 0⟩)] ∧
    ({ on [] with rz := { (on []).rz with fcAir := [(63, ⟨7, 2 ^ 22, 0, 0, 0⟩)] } }).rz.fcAir = [(63, ⟨7, 2 ^ 22, 0, 0, 0⟩)] ∧
    (withFh (on []) fun x => { x with inAir := [(63, anyIn)] }).fh.inAir = [(63, anyIn)] ∧
    (answers (on []) 0x4C = true ∧ tokenOk (putBits 8 7 4 15) = false ∧ tokenOk (putBits 4 7 4 15) = true ∧ bitsOf (putBits 4 7 4 15) 3 0 = 4 ∧ (on []).fh.queue.length < 256) ∧
    256 ≤ (withFh (on []) fun x => { x with queue := List.replicate 256 (0, 4) }).fh.queue.length ∧
    (let s := withFh lent fun x => { x with check := some (2, 1, true) }; s.fh.check = some (2, 1, true) ∧ slotOwned s 1 true = false) ∧ slotOwned fhOn 1 true = true := by
  refine ⟨?_, ?_, ?_, ?_, ?_, ?_, ?_, ?_, ?_, ?_, ?_, ?_, ?_, ?_⟩ <;> decide +kernel

def jobTok (k id : Nat) : Nat := k + 16 * 15 + 2 ^ 20 * id
def openCut : Cut := ⟨4, [62, 63], true, false, false, [], none, none, none⟩
def anAnswer : EnRec := ⟨0, 4, 63, true, [9]⟩

theorem witness_BudgetAndEnergy :
    (answers (calm []) (activeIsl (calm [])) = true ∧ inTakeover (calm []) = false ∧ (calm []).bus.ready = [] ∧ (calm []).bus.queue = [] ∧ inSync (calm []) = true) ∧
    takeFirst (fun y : TelRec => y.f == 63) ({ calm [] with telAir := [anyTel] }).telAir = some (anyTel, []) ∧
    (hasF (calm []) 63 = true ∧ (domOf (calm []) 63).mode = 0 ∧ (domOf (calm []) 64).mode = 0) ∧
    (let s := withBud (calm []) fun x => { x with doms := tset (tset [] 63 { (domOf (calm []) 63) with bad := 1000 }) 64 { (domOf (calm []) 64) with bad := 64000 } }
     1000 ≤ (domOf s 63).bad ∧ 1000 * nF s ≤ (domOf s 64).bad ∧ (domOf s 63).mode = 0 ∧ (domOf s 64).mode = 0) ∧
    (calm []).rz.fhShut = false ∧ ({ calm [] with rz := { (calm []).rz with fhShut := true } }).rz.fhShut = true ∧
    ((calm []).bud.pend = [] ∧ ((8000 + 20 * fget (calm []) BG_CAP_V_FOLLOW : Nat) : Int) ≤ vinMv (calm [(VP_VIN_STAT_VIN, 20000)]) ∧ inSpore (calm []) = false ∧ flag (calm []) BG_CTRL_EN = false) ∧
    flag (calm [(BG_REP_CFG_EN, 1)]) BG_REP_CFG_EN = true ∧
    (takeFirst (fun p : Nat × Nat => p.2 == 0x43) (withBud (calm []) fun x => { x with reqAir := [(4, 63), (4, 0x43)] }).bud.reqAir = some ((4, 0x43), [(4, 63)]) ∧ answers (calm []) 0x43 = true) ∧
    (let s := withBud (calm []) fun x => { x with ansAir := [anAnswer], cuts := [openCut] }
     takeFirst (fun p : EnRec => p.isl == 63) s.bud.ansAir = some (anAnswer, []) ∧ s.bud.cuts = [openCut] ∧ openCut.num = anAnswer.cut ∧ openCut.vpm = true) ∧ (openCut.body.isNone = true ∧ openCut.job.isNone = true) ∧
    (let s := withBud (calm []) fun x => { x with tokAir := [(0, 7), (0, jobTok 4 0xFFFFFF)] }
     s.bud.tokAir = [(0, 7)] ++ (0, jobTok 4 0xFFFFFF) :: [] ∧ isToken 4 7 = false ∧ isToken 5 7 = false ∧ isToken 4 (jobTok 4 0xFFFFFF) = true ∧ s.bud.jobs.length < 64) ∧
    (let j : Job := ⟨0xFFFFFF, 0, 15, 4, false⟩; let s := withBud (calm []) fun x => { x with tokAir := [(0, jobTok 5 0xFFFFFF)], jobs := [j] }
     s.bud.tokAir = [] ++ (0, jobTok 5 0xFFFFFF) :: [] ∧ isToken 5 (jobTok 5 0xFFFFFF) = true ∧ s.bud.jobs = [j] ∧ j.id = bitsOf (jobTok 5 0xFFFFFF) 43 20) := by
  refine ⟨?_, ?_, ?_, ?_, ?_, ?_, ?_, ?_, ?_, ⟨rfl, rfl, rfl, rfl⟩, ?_, ?_, ?_⟩ <;> decide +kernel

def queued (l : List (Fld × Nat)) (r : AReq) : State := admSet (on l) fun a => { a with queue := [r] }
def reqF : AReq := ⟨false, 63, 2, false, false, false⟩
def reqD : AReq := ⟨true, 1535, 2, false, false, false⟩
def admAir (m : AMsg) : State := admSet (on []) fun a => { a with air := [m] }

theorem witness_AdmissionEvents :
    (takeAdm (admAir (.wake false 63 3)) 63 (fun m => match m with | .wake _ _ _ => true | _ => false)).map (fun p => p.1) = some (.wake false 63 3) ∧
    (answers (on []) 0x4B = true ∧ fget (on [(RZ_HARD_STAT_SAG, 1)]) RZ_HARD_STAT_SAG ≠ 0) ∧
    (let s := queued [] reqF; fget s RZ_HARD_STAT_SAG = 0 ∧ s.adm.queue.map (deferNow s) = [reqF] ∧ reqF.dom = false ∧ verdictOf s reqF = 0) ∧
    (let s := queued [] reqD; s.adm.queue.map (deferNow s) = [reqD] ∧ reqD.dom = true ∧ reqD.n < 1536 ∧ verdictOf s reqD = 0) ∧
    (let s := queued [(RZ_FLT_LIVE_CHIP_DOWN, 1)] reqF; s.adm.queue.map (deferNow s) = [reqF] ∧ verdictOf s reqF ≠ 0) ∧
    (∀ m ∈ [AMsg.complete 63, .release 63, .withdraw 63], takeFirst (fun x : AMsg => x.frond == some 63) (admAir m).adm.air = some (m, [])) ∧
    (on []).adm.busyF.contains 63 = false ∧ (admAir (.current 63 9)).adm.air = [.current 63 9] ∧
    (let s := on [(AD_RET_DOM_EN 1535, 1), (AD_RET_DOM_STATE 1535, 2)]; lineHigh s 1535 = false ∧ flag s (AD_RET_DOM_EN 1535) = true ∧ fget s (AD_RET_DOM_STATE 1535) = 2) ∧
    (let s := admSet (on [(AD_RET_DOM_EN 1535, 1), (AD_RET_DOM_STATE 1535, 3)]) fun a => { a with slopeD := tset [] 1535 4 }
     (tget? s.adm.slopeD 1535).isSome = true ∧ flag s (AD_RET_DOM_EN 1535) = true ∧ fget s (AD_RET_DOM_STATE 1535) = 3) := by
  refine ⟨?_, ?_, ?_, ?_, ?_, ?_, ?_, ?_, ?_, ?_⟩ <;> decide +kernel

/-! ### Mat fabric -/

/-- Lane 3 in a given state with what the engine keeps of it, and other fields. -/
def lane3 (st : Nat) (l : List (Fld × Nat)) (x : MLane) : State := updLane (on ((MT_LANE_STAT_STATE 3, st) :: (MT_LANE_CFG_EN 3, 1) :: l)) 3 fun _ => x

/-- The codeword of zeros; the end of one whose header shows FFO 80; and a word that is none, nor near one. -/
def zeroWord : List (BitVec 10) := List.replicate 544 0
def headWord : List (BitVec 10) := [1, 320, 867, 522, 641, 195, 688, 787, 368, 360, 891, 142, 125, 302, 980, 766, 757, 360, 495, 92, 362, 999, 866, 262, 47, 520, 481, 14, 860, 981, 449, 26]
def noWord : List (BitVec 10) := List.replicate 513 0 ++ List.replicate 31 1

theorem witness_zeroWord : rsDecode (zeroWord.map (·.toNat)) = some (0, List.replicate 544 0) := by decide +kernel
theorem witness_headWord : rsDecode (headWord.map (·.toNat)) = some (0, headWord.map (·.toNat)) ∧ 80 ≤ cwFfo (headWord.map (·.toNat)) := by decide +kernel
theorem witness_noWord : rsDecode (noWord.map (·.toNat)) = none := by decide +kernel

theorem witness_MatLanes :
    (answers (on []) 0x46 = true ∧ (on []).bus.ready = [] ∧ (on []).bus.queue = []) ∧ laneSt (lane3 1 [] {}) 3 = 1 ∧
    (let s := lane3 3 [(MT_LANE_CFG_UNC_MAX 3, 5)] { unc := 2, uncMs := 4 }; 2 ≤ laneSt s 3 ∧ (ml s 3).unc < 3 ∧ (ml s 3).uncMs < fget s (MT_LANE_CFG_UNC_MAX 3)) ∧
    (let s := lane3 2 [(MT_LANE_CFG_UNC_MAX 3, 5)] { unc := 3 }; 2 ≤ laneSt s 3 ∧ 3 ≤ (ml s 3).unc) ∧ (let s := lane3 3 [(MT_LANE_CFG_UNC_MAX 3, 5)] { uncMs := 5 }; laneSt s 3 = 3 ∧ fget s (MT_LANE_CFG_UNC_MAX 3) ≤ (ml s 3).uncMs) ∧
    (∀ g ∈ [6, 7], let x := ml (lane3 1 [] { good := g, cnt := 1023, lane := 0 }) 3; let w := List.replicate 544 0; x.good ≠ 0 ∧ cwCount w = (x.cnt + 1) % 1024 ∧ cwLane w = x.lane) ∧ ¬ ((ml (lane3 1 [] {}) 3).good ≠ 0) ∧
    (let s := lane3 2 [] {}; 2 ≤ laneSt s 3 ∧ (ml s 3).sync = false) ∧ (let s := lane3 0 [] {}; laneSt s 3 = 0 ∧ laneMay s 3 = true) ∧ laneSt (lane3 3 [] {}) 3 = 3 ∧ (on []).mat.oeFault = false := by
  refine ⟨?_, ?_, ?_, ?_, ?_, ?_, ?_, ?_, ?_, ?_, ?_⟩ <;> decide +kernel

/-- A Numbered device with ID 5 and lane 3 Up, a key in slot 0 and in slot 255, which holds group 0x1234. -/
def mat5 (l : List (Fld × Nat)) (g : Mat → Mat) : State :=
  withMat (updMg (updMg (on ([(MT_LANE_STAT_STATE 3, 3), (MT_ID_STAT_STATE, 2), (MT_ID_STAT_ID, 5), (MT_GRP_CFG_EN 255, 1), (MT_GRP_CFG_RA_EN 255, 1), (MT_GRP_CFG_GROUP 255, 0x1234), (MT_GRP_MEM_GCEIL 255, 100)] ++ l)) 0
    fun _ => { key0 := some 1, epoch := some 3 }) 255 fun _ => { key0 := some 0x0123456789ABCDEF, epoch := some 3 }) g

theorem witness_MatOwnEvents :
    (let s := withMat (mat5 [(MT_ID_STAT_STATE, 0)] id) fun x => { x with lanes := tset x.lanes 3 { pnum := true } }
     (upLanes s).find? (fun k => (ml s k).pnum) = some 3 ∧ (keyOf s 0 (fget s (MT_GRP_CFG_GEN 0))).isSome = true ∧ fget s MT_ID_STAT_STATE = 0 ∧ inSpore s = false ∧ answers s 0x46 = true) ∧
    fget (mat5 [(MT_ID_STAT_STATE, 1)] id) MT_ID_STAT_STATE = 1 ∧ fget (mat5 [(MT_ID_STAT_STATE, 3)] id) MT_ID_STAT_STATE = 3 ∧
    (let s := updMg (mat5 [] fun x => { x with dev := tset [] 9 ⟨3, 1⟩ }) 0 fun g => { g with cands := [⟨9, 4, 3, 0⟩] }
     numbered s = true ∧ inSpore s = false ∧ (keyOf s 0 (fget s (MT_GRP_CFG_GEN 0))).isSome = true ∧ (mg s 0).sq < 0xFFFFFF ∧ registrarOf s = 9 ∧ ownId s = 5 ∧ routeLane s (registrarOf s) = some 3) ∧
    flag (mat5 [(MT_ID_STAT_REGISTRAR, 1)] id) MT_ID_STAT_REGISTRAR = true ∧
    (let s := mat5 [] id; answers s 0x46 = true ∧ upLanes s = [3] ∧ (routeEntries s 3).length ≤ 244 ∧ numbered s = true) ∧
    (let s := mat5 [] fun x => { x with dev := tset [] 0xFFEF ⟨3, 1⟩, blk := tset [] 64 ⟨3, 1⟩ }; (tget? s.mat.dev 0xFFEF).isSome = true ∧ (tget? s.mat.blk 64).isSome = true) ∧ grpEn (mat5 [] id) 255 = true ∧
    (let s := mat5 [(MT_GRP_STAT_LEASE 255, 1)] id; grpEn s 255 = true ∧ fget s (MT_GRP_STAT_LEASE 255) = 1) ∧ (let s := mat5 [(MT_GRP_STAT_LEASE 255, 2)] id; grpEn s 255 = true ∧ fget s (MT_GRP_STAT_LEASE 255) = 2) := by
  refine ⟨?_, ?_, ?_, ?_, ?_, ?_, ?_, ?_, ?_, ?_⟩ <;> decide +kernel

/-! Frames of device 9 in epoch 3 with SQ 1, tagged under the key of slot 0 or 255 of `mat5`. -/

def addressedB (s : State) (L : Nat) (l : List Nat) (type n key : Nat) : Bool :=
  decide (laneSt s L = 3 ∧ inSpore s = false ∧ answers s 0x46 = true ∧ fb l 0 1 = type ∧ type ≠ 1 ∧ lenOk l = true ∧ numbered s = true) &&
  decide ((fb l 4 2 = 0xFFFE ∨ fb l 4 2 = ownId s ∧ 0 < ownId s ∧ ownId s < 0xFFF0) ∧ slotOf s (fb l 8 2) = some n ∧ keyOf s n (fb l 10 1) = some key)

theorem addressed_of {s : State} {L type n key : Nat} {l : List Nat} (h : addressedB s L l type n key = true) : Addressed s L l type n key := by
  unfold addressedB at h
  rw [Bool.and_eq_true] at h
  obtain ⟨a, b, c, d, e, f, g⟩ := of_decide_eq_true h.1
  exact ⟨a, b, c, d, e, f, g, of_decide_eq_true h.2⟩

def tagOk (key : Nat) (l : List Nat) : Bool := frameTag key (l.take (l.length - 8)) == l.drop (l.length - 8)

/-- The state after R320. -/
def after (s : State) (n : Nat) (l : List Nat) : State := (replayCheck s n l).getD s

theorem taken_of {s : State} {L type n key : Nat} {l : List Nat} (h : (addressedB s L l type n key && tagOk key l && (fb l 6 2 != 0) && (replayCheck s n l).isSome) = true) : Taken s L l type n (after s n l) := by
  simp only [Bool.and_eq_true, bne_iff_ne] at h
  refine ⟨⟨key, addressed_of h.1.1.1, eq_of_beq h.1.1.2⟩, ?_⟩
  rw [if_neg h.1.2]
  obtain ⟨t, ht⟩ := Option.isSome_iff_exists.1 h.2
  unfold after
  rw [ht]
  rfl

theorem taken_join {s : State} {L type n key : Nat} {l : List Nat} (h : (addressedB s L l type n key && tagOk key l && (fb l 6 2 == 0)) = true) : Taken s L l type n s := by
  simp only [Bool.and_eq_true, beq_iff_eq] at h
  refine ⟨⟨key, addressed_of h.1.1, eq_of_beq h.1.2⟩, ?_⟩
  rw [if_pos h.2]

def key255 : Nat := 0x0123456789ABCDEF
def beaconAir : List Nat := [1, 32, 40, 0, 254, 255, 9, 0, 0, 0, 0, 0, 0, 0, 0, 0, 0, 0, 0, 0, 0, 0, 0, 0, 77, 0, 0, 0, 0, 0, 0, 0, 9, 0, 2, 1, 0, 0, 0, 0]
def grantAir : List Nat := [8, 32, 40, 0, 5, 0, 9, 0, 52, 18, 0, 0, 3, 0, 0, 0, 1, 0, 0, 0, 0, 0, 0, 0, 60, 0, 0, 0, 0, 0, 0, 0, 12, 121, 13, 21, 237, 190, 100, 229]
def joinState : State := mat5 [(MT_ID_STAT_REGISTRAR, 1), (MT_ID_CFG_REG_CAP, 1), (MT_GRP_CFG_EN 0, 1)] fun x => { x with ids := [(8, 77)] }
def joinAir : List Nat := [2, 32, 56, 0, 254, 255, 0, 0, 0, 0, 0, 0, 3, 0, 0, 0, 1, 0, 0, 0, 0, 0, 0, 0, 77, 0, 0, 0, 0, 0, 0, 0, 99, 0, 0, 0, 0, 0, 0, 0, 0, 0, 0, 0, 0, 0, 0, 0, 171, 97, 227, 220, 11, 60, 194, 52]
def assignAir (c : Nat) : List Nat := if c = 0 then [3, 32, 56, 0, 254, 255, 9, 0, 0, 0, 0, 0, 3, 0, 0, 0, 1, 0, 0, 0, 0, 0, 0, 0, 0, 0, 0, 0, 0, 0, 0, 0, 99, 0, 0, 0, 0, 0, 0, 0, 12, 0, 0, 0, 0, 0, 0, 0, 156, 27, 201, 13, 121, 165, 141, 214] else if c = 1 then [3, 32, 56, 0, 254, 255, 9, 0, 0, 0, 0, 0, 3, 0, 0, 0, 1, 0, 0, 0, 0, 0, 0, 0, 0, 0, 0, 0, 0, 0, 0, 0, 99, 0, 0, 0, 0, 0, 0, 0, 12, 0, 1, 0, 0, 0, 0, 0, 30, 133, 42, 64, 22, 230, 150, 27] else [3, 32, 56, 0, 254, 255, 9, 0, 0, 0, 0, 0, 3, 0, 0, 0, 1, 0, 0, 0, 0, 0, 0, 0, 0, 0, 0, 0, 0, 0, 0, 0, 99, 0, 0, 0, 0, 0, 0, 0, 12, 0, 3, 0, 0, 0, 0, 0, 127, 188, 238, 170, 141, 226, 142, 37]
def waitingState : State := mat5 [(MT_ID_STAT_STATE, 1), (MT_ID_STAT_ID, 0)] fun x => { x with join := some (99, 3) }
def renewAir : List Nat := [4, 32, 48, 0, 5, 0, 9, 0, 0, 0, 0, 0, 3, 0, 0, 0, 1, 0, 0, 0, 0, 0, 0, 0, 77, 0, 0, 0, 0, 0, 0, 0, 9, 0, 0, 0, 0, 0, 0, 0, 27, 171, 34, 112, 64, 230, 11, 231]
def routeAir (m : Nat) : List Nat := if m = 31 then [5, 32, 48, 0, 254, 255, 9, 0, 0, 0, 0, 0, 3, 0, 0, 0, 1, 0, 0, 0, 0, 0, 0, 0, 1, 0, 0, 0, 0, 0, 0, 0, 11, 0, 0, 31, 0, 0, 0, 0, 49, 76, 108, 54, 224, 159, 165, 59] else [5, 32, 48, 0, 254, 255, 9, 0, 0, 0, 0, 0, 3, 0, 0, 0, 1, 0, 0, 0, 0, 0, 0, 0, 1, 0, 0, 0, 0, 0, 0, 0, 11, 0, 0, 32, 0, 0, 0, 0, 187, 110, 66, 48, 24, 238, 82, 89]
def candAir : List Nat := [6, 32, 48, 0, 5, 0, 9, 0, 52, 18, 0, 0, 3, 0, 0, 0, 1, 0, 0, 0, 0, 0, 0, 0, 77, 0, 0, 0, 0, 0, 0, 0, 3, 0, 0, 0, 1, 0, 0, 0, 112, 12, 46, 48, 220, 42, 214, 207]
def reportAir : List Nat := [7, 32, 56, 0, 5, 0, 9, 0, 52, 18, 0, 0, 3, 0, 0, 0, 1, 0, 0, 0, 0, 0, 0, 0, 50, 0, 0, 0, 20, 0, 0, 0, 0, 0, 0, 0, 7, 0, 0, 0, 0, 0, 0, 0, 0, 0, 0, 0, 19, 58, 130, 110, 98, 30, 102, 112]
def siteAir : List Nat := [9, 32, 40, 0, 5, 0, 9, 0, 52, 18, 0, 0, 3, 0, 0, 0, 1, 0, 0, 0, 0, 0, 0, 0, 244, 1, 0, 0, 0, 0, 0, 0, 189, 10, 44, 35, 86, 115, 157, 112]
def regRdAir : List Nat := [10, 32, 40, 0, 5, 0, 9, 0, 52, 18, 0, 0, 3, 0, 0, 0, 1, 0, 0, 0, 0, 0, 0, 0, 24, 0, 2, 0, 0, 0, 0, 0, 250, 65, 51, 197, 82, 71, 208, 218]
def regWrAir : List Nat := [11, 32, 48, 0, 5, 0, 9, 0, 52, 18, 0, 0, 3, 0, 0, 0, 1, 0, 0, 0, 0, 0, 0, 0, 24, 0, 2, 0, 0, 0, 0, 0, 42, 0, 0, 0, 0, 0, 0, 0, 185, 26, 20, 23, 63, 84, 94, 102]
def raState : State := withBus (mat5 [(MT_RA_CFG_RA_LO, 2), (MT_RA_CFG_RA_HI, 2), (MT_RA_CFG_RATE, 1)] id) fun x => { x with cur := some (wr RZ_SAG_CFG 0x50, .commit 7) }
def rspAir : List Nat := [12, 32, 48, 0, 5, 0, 9, 0, 52, 18, 0, 0, 3, 0, 0, 0, 1, 0, 0, 0, 0, 0, 0, 0, 7, 0, 0, 0, 24, 0, 2, 0, 42, 0, 0, 0, 0, 0, 0, 0, 38, 0, 6, 208, 208, 225, 217, 10]
def capAir : List Nat := [13, 32, 64, 0, 5, 0, 9, 0, 52, 18, 0, 0, 3, 0, 0, 0, 1, 0, 0, 0, 0, 0, 0, 0, 0, 0, 0, 0, 0, 0, 0, 0, 0, 0, 0, 0, 0, 0, 0, 0, 0, 0, 0, 0, 1, 0, 0, 0, 0, 0, 0, 0, 0, 0, 0, 0, 27, 241, 106, 88, 1, 54, 64, 219]

theorem witness_MatFrames_beacon :
    (let s := lane3 2 [] { uid := some 77 }; answers s 0x46 = true ∧ laneSt s 3 = 2 ∧ fb beaconAir 0 1 = 1 ∧ lenOk beaconAir = true ∧ (ml s 3).uid = some (fb beaconAir 24 8)) := by
  decide +kernel

theorem witness_MatFrames_tag :
    (Addressed (mat5 [] id) 3 grantAir 8 255 key255 ∧ Addressed (updMg (mat5 [] id) 255 fun g => { g with key0 := some 6 }) 3 grantAir 8 255 6 ∧ tagOk 6 grantAir = false ∧ tagOk key255 grantAir = true ∧ fb grantAir 6 2 ≠ 0) := by
  refine ⟨addressed_of ?_, addressed_of ?_, ?_⟩ <;> decide +kernel

theorem witness_MatFrames_replay :
    (let s := mat5 [] fun x => { x with replay := tset [] 9 [⟨0x1234, 3, 1⟩] }; Addressed s 3 grantAir 8 255 key255 ∧ replayCheck s 255 grantAir = none) := by
  refine ⟨addressed_of ?_, ?_⟩ <;> decide +kernel

theorem witness_MatFrames_join :
    (let s := joinState; Taken s 3 joinAir 2 0 s ∧ fb joinAir 6 2 = 0 ∧ fb joinAir 4 2 = 0xFFFE ∧ registrarOf s = ownId s ∧ 0 < ownId s ∧ flag s MT_ID_STAT_REGISTRAR = true ∧ (ml s 3).joins = 0 ∧ s.mat.regLeft = 0 ∧
      s.mat.ids = [(8, fb joinAir 24 8)] ∧ (keyOf s 0 (fget s (MT_GRP_CFG_GEN 0))).isSome = true ∧ (mg s 0).sq < 0xFFFFFF) := by
  refine ⟨taken_join (key := 1) ?_, ?_⟩ <;> decide +kernel

theorem witness_MatFrames_assign :
    (∀ c ∈ [0, 1, 3], let s := waitingState; let l := assignAir c; (laneSt s 3 = 3 ∧ inSpore s = false ∧ answers s 0x46 = true ∧ fb l 0 1 = 3 ∧ lenOk l = true ∧ fb l 4 2 = 0xFFFE) ∧ (fget s MT_ID_STAT_STATE = 1 ∧ fb l 24 8 = ownUid s ∧
      s.mat.join = some (fb l 32 8, 3) ∧ slotOf s (fb l 8 2) = some 0 ∧ keyOf s 0 (fb l 10 1) = some 1 ∧ tagOk 1 l = true ∧ fb l 42 1 = c)) := by
  decide +kernel

theorem witness_MatFrames_renew :
    (let s := mat5 [(MT_ID_STAT_REGISTRAR, 1)] id; let t := after s 0 renewAir; Taken s 3 renewAir 4 0 t ∧ flag t MT_ID_STAT_REGISTRAR = true ∧ tget? t.mat.ids (fb renewAir 32 2) = none ∧ fb renewAir 32 2 ≠ ownId t) := by
  refine ⟨taken_of (key := 1) ?_, ?_⟩ <;> decide +kernel

theorem witness_MatFrames_route :
    (let s := mat5 [] id; let l := routeAir 31; let t := after s 0 l; Taken s 3 l 5 0 t ∧ fb l 24 1 = 1 ∧ fb l 34 1 = 0 ∧ fb l 35 1 < 32 ∧ tget? t.mat.dev (fb l 32 2) = none ∧ t.mat.dev.length < 1024) := by
  refine ⟨taken_of (key := 1) ?_, ?_⟩ <;> decide +kernel

theorem witness_MatFrames_route_withdrawn :
    (let s := mat5 [] fun x => { x with dev := tset [] 11 ⟨3, 4⟩ }; let l := routeAir 32; let t := after s 0 l; Taken s 3 l 5 0 t ∧ 32 ≤ fb l 35 1 ∧ tget? t.mat.dev (fb l 32 2) = some ⟨3, 4⟩) := by
  refine ⟨taken_of (key := 1) ?_, ?_⟩ <;> decide +kernel

theorem witness_MatFrames_candidate_report :
    (Taken (mat5 [] id) 3 candAir 6 255 (after (mat5 [] id) 255 candAir) ∧ Taken (mat5 [] id) 3 reportAir 7 255 (after (mat5 [] id) 255 reportAir)) := by
  refine ⟨taken_of (key := key255) ?_, taken_of (key := key255) ?_⟩ <;> decide +kernel

theorem witness_MatFrames_grant :
    (let t := after (mat5 [] id) 255 grantAir; Taken (mat5 [] id) 3 grantAir 8 255 t ∧ grpEn t 255 = true) := by
  refine ⟨taken_of (key := key255) ?_, ?_⟩ <;> decide +kernel

theorem witness_MatFrames_ceiling :
    (let s := mat5 [(MT_GRP_STAT_ROLE 255, 2)] id; let t := after s 255 siteAir; Taken s 3 siteAir 9 255 t ∧ fget t (MT_GRP_STAT_ROLE 255) = 2) := by
  refine ⟨taken_of (key := key255) ?_, ?_⟩ <;> decide +kernel

theorem witness_MatFrames_register_access :
    (let s := raState; let t := after s 255 regRdAir; Taken s 3 regRdAir 10 255 t ∧ Taken s 3 regWrAir 11 255 (after s 255 regWrAir) ∧ t.bus = s.bus ∧ s.bus.ready = [] ∧ s.bus.queue = [] ∧ s.bus.cur = some (wr RZ_SAG_CFG 0x50, .commit 7) ∧
      inTakeover t = false ∧ flag t (MT_GRP_CFG_RA_EN 255) = true ∧ fget t MT_RA_CFG_RA_LO ≤ fb regRdAir 24 4 / 0x10000 ∧ fb regRdAir 24 4 / 0x10000 ≤ fget t MT_RA_CFG_RA_HI ∧ fb regRdAir 24 4 / 0x10000 ≠ 7 ∧
      tget 0 t.mat.reqs (fb regRdAir 6 2) < fget t MT_RA_CFG_RATE) := by
  refine ⟨taken_of (key := key255) ?_, taken_of (key := key255) ?_, ?_⟩ <;> decide +kernel

theorem witness_MatFrames_response_capture :
    (Taken (mat5 [] id) 3 rspAir 12 255 (after (mat5 [] id) 255 rspAir) ∧ Taken (mat5 [] id) 3 capAir 13 255 (after (mat5 [] id) 255 capAir)) := by
  refine ⟨taken_of (key := key255) ?_, taken_of (key := key255) ?_⟩ <;> decide +kernel

/-! ### Flash, ageing, ports -/

def withOps (l : List FlashOp) : State := let s := on []; { s with nv := { s.nv with ops := l } }
def loading (l : Load) : State := { on [] with load := some l }

theorem witness_FlashAndLoads :
    answers (on []) 0x4A = true ∧ (withOps [.read 3 15 0xFFF000]).nv.ops = [.read 3 15 0xFFF000] ∧ (withOps [.table ⟨31, 0, 0, 0, 0, [], []⟩]).nv.ops = [.table ⟨31, 0, 0, 0, 0, [], []⟩] ∧
    (withOps [.upd 1 1 8 0x7FFFF8 0xFFFFF8]).nv.ops = [.upd 1 1 8 0x7FFFF8 0xFFFFF8] ∧ (withOps [.upd 2 0 0 0 0]).nv.ops = [.upd 2 0 0 0 0] ∧
    (let l : Load := ⟨0xDFE, 2, 0xFFFFF8, 2 ^ 63⟩; let s := loading l; s.load = some l ∧ l.dst + l.len ≤ 4096 ∧ (∀ f ∈ targets s l.targets, answers s f = true) ∧ targets s l.targets = [63] ∧ (1 : BitVec 13).toNat < l.len) ∧
    ({ on [] with chip := { (on []).chip with topk := some [(5, 7)] } }).chip.topk = some [(5, 7)] := by
  refine ⟨?_, rfl, rfl, rfl, rfl, ?_, ?_⟩ <;> decide +kernel

def aged (l : List (Fld × Nat)) (r : Option Replan) : State := let s := on l; { s with age := { s.age with run := r } }
def theRun : Replan := ⟨0, [0, 63], [], [], false⟩

theorem witness_AgeingAndLifetime :
    (let s := on [(MS_BANK_OWNER 1, 1)]; answers s (activeIsl s) = true ∧ inTakeover s = false ∧ s.bus.ready = [] ∧ s.bus.queue = [] ∧ s.member.fronds ≤ 64 ∧ ownerOf s 1 = rzMaster s ∧ awake s 1 = true) ∧
    (let s := on [(NV_AGE_CFG_EN, 1), (NV_AGE_CFG_PERIOD, 0)]; s.age.run.isNone = true ∧ s.age.cmd = none ∧ s.age.due = false ∧ inSpore s = false ∧ flag s NV_AGE_CFG_EN = true ∧ dueAt s ≤ lifeSeconds s) ∧
    (flag (on [(NV_AGE_CFG_EN, 0)]) NV_AGE_CFG_EN = false ∧ lifeSeconds (on [(NV_AGE_CFG_PERIOD, 1)]) < dueAt (on [(NV_AGE_CFG_PERIOD, 1)])) ∧
    (let s := aged [(FR_FMAX_FCODE 63 0, 100)] (some theRun)
     hasF s 63 = true ∧ 63 ∈ theRun.todo ∧ 0 ∈ theRun.todo ∧ tget? theRun.defer 63 = none ∧ mayMeasure s 63 = true ∧ (List.range 8).filter (fun i => (rzPoint s 63 i).2 != 0) = [0] ∧
     (badLines [] [0]).length ≠ 4 ∧ (badLines (List.replicate 64 2001) [0]).length = 4) ∧
    (mayMeasure (aged [(FR_RAIL_STAT_STATE 63, 2)] (some { theRun with defer := [(63, 3598)] })) 63 = false ∧ 3598 + 1 < 3600 ∧ 3600 ≤ 3599 + 1 ∧ mayMeasure (on []) 63 = true) := by
  refine ⟨?_, ?_, ?_, ?_, ?_⟩ <;> decide +kernel

/-- A LINEAR11 word of 100 W: N = 0, Y = 100. -/
def hundred : BitVec 16 := 100

theorem witness_PmbusCommands :
    pmFree (calm []) = true ∧ Ready (calm []) ∧ (∀ a ∈ [VP_VIN_STAT, BG_POWER, TH_STAT, RZ_ID, BG_ENERGY, RZ_FLT_FIRST, BG_CAP, MT_SITE], holderB (calm []) a = true) ∧
    vinMv (calm [(VP_VIN_STAT_VIN, 12000)]) ≠ 0 ∧ (linear11 (12000 / 1000)).isSome = true ∧
    (linear11Unit hundred.toNat 1048575 = some 100 ∧ (regAt BG_CAP).isSome = true ∧ inSync (calm []) = true ∧ (calm []).bud.pend = []) ∧
    (match regAt BG_CAP with | some r => regRefused (calm []) r (putBits (reg (calm []) BG_CAP).toNat BG_CAP_SUPPLY.hi BG_CAP_SUPPLY.lo 100) | none => true) = false ∧
    (linear11Unit hundred.toNat (fmax MT_SITE_CEIL) = some 100 ∧ (regAt MT_SITE).isSome = true) ∧
    (match regAt MT_SITE with | some r => regRefused (calm []) r (putBits (putBits (reg (calm []) MT_SITE).toNat MT_SITE_CEIL.hi MT_SITE_CEIL.lo 100) MT_SITE_VALID.hi MT_SITE_VALID.lo 1) | none => true) = false ∧
    (linear11Unit (0x7FF : BitVec 16).toNat 1048575 = none ∧ linear11Unit (0x7FF : BitVec 16).toNat (fmax MT_SITE_CEIL) = none) ∧ (0xFF : BitVec 8).toNat ∉ pmCodes ∧
    (let s := { calm [] with pm := { cml := 0xA0, alert := true, word := 0x80A } }; s.pm.word = pmWord s ∧ s.pm.alert = true) ∧ (calm []).pm.alert = false := by
  refine ⟨?_, ready_of ?_, ?_, ?_, ?_, ?_, ?_, ?_, ?_, ?_, ?_, ?_, ?_⟩ <;> decide +kernel

/-- A PEC that is right and one that is wrong, for each of the commands that may carry one. -/
theorem witness_PmbusCommands_pec : (calm []).pm.addr = 0 ∧ ∀ l ∈ ([[0xB0, 0xD0, 100, 0], [0xB0, 0xD1, 100, 0], [0xB0, 0x03]] : List (List Nat)), pec8 l < 256 ∧ 7 ≠ pec8 l := ⟨rfl, by decide +kernel⟩

theorem witness_TestAccessPort :
    (0xFF : BitVec 8).toNat ∉ [0x00, 0x01, 0x02, 0xC0] ∧ (Ready (on []) ∧ (RZ_ID : Nat) % 8 = 0 ∧ (regAt RZ_ID).map (fun r => r.row.rc) = some 0 ∧ holderB (on []) RZ_ID = true) ∧
    State.reset.tap.dbg = none ∧ ({ State.reset with tap := { State.reset.tap with dbg := some (1, 5) } }).tap.dbg = some (1, 5) := by
  refine ⟨?_, ⟨ready_of ?_, ?_⟩, ?_, ?_⟩ <;> decide +kernel

/-! ### WellFormed refuses an ill-formed command, and no word spells a command -/

theorem test_wf_frond : (Instr.slotBoundary 63).wf = true ∧ (Instr.slotBoundary 64).wf = false := by decide
theorem test_wf_phase : (Instr.phaseOpen 63 31).wf = true ∧ (Instr.phaseOpen 63 32).wf = false := by decide
theorem test_wf_bus_sample : (Instr.ibusOptPeriod []).wf = false := by decide
theorem test_wf_filter_sample : (Instr.overloadFilterTick []).wf = false := by decide
theorem test_wf_stream : (Instr.streamResetHandshake (.queue 0x4C 31)).wf = true ∧ (Instr.streamResetHandshake (.frond 64)).wf = false := by decide
theorem test_wf_fetch : (Instr.groupDispatch 0 [(0xFFF, .double)]).wf = true ∧ (Instr.groupDispatch 0 [(0x1000, .single)]).wf = false := by decide
theorem test_wf_thermal_sample : (Instr.thermalSample 0 []).wf = false := by decide

theorem test_no_word (n w : Nat) : decodeTableWord n w = none := rfl
theorem test_no_fetch_word (s : State) (n w : Nat) : s.withFetchWord n w = s := rfl

/-! ### Values that the spec works out -/

/-- The word 0x4803_3200 of spec/04_loop_programs.md: BND with E 0, D 0, A 0x33, B 0x10. -/
theorem test_word_bnd : encR 0x12 { e := false, d := 0, a := 0x33, b := 0x10, m := 0 } = 0x48033200 := by decide

/-- READ_VIN at 12,040 mV is 0xD303 (spec/20_ports_electrical.md). -/
theorem test_linear11_vin : linear11 (12040 / 1000) = some 0xD303 := by decide +kernel

/-- E4M3 0x79 is 288, 0x7E is 448, and the pattern S.1111.111 is the NaN (spec/05_arithmetic.md). -/
theorem test_e4m3 : weightOp 0 0x79 = .fin 288 1 ∧ weightOp 0 0x7E = .fin 448 1 ∧ weightOp 0 0x7F = .nan := by decide +kernel
/-- E5M2 0x60 is 512. -/
theorem test_e5m2 : weightOp 1 0x60 = .fin 512 1 := by decide +kernel
/-- FP32 0x3F80_8000 to BF16 is a tie and keeps the even 0x3F80. -/
theorem test_bf16_tie : fpCvt f32 bf16 0x3F808000 = 0x3F80 := by decide +kernel

/-- 500 and infinity into E4M3 give 448, of which only the finite one has overflowed; 65,536 into E5M2 gives 57,344 and infinity stays (R119). -/
theorem test_fp8 : toE4m3 0x43FA0000 = (0x7E, true) ∧ toE4m3 0xFF800000 = (0xFE, false) ∧ toE5m2 0x47800000 = (0x7B, true) ∧ toE5m2 0x7F800000 = (0x7C, false) := by decide +kernel

/-- In BFP16 the value 32,767.5 × 2^-10 does not fit at -10; at -9 it is 16,384 (spec/05_arithmetic.md). -/
theorem test_bfp_fit : fitsAt 16 ⟨65535, 2, -10⟩ (-10) = false ∧ fitsAt 16 ⟨65535, 2, -10⟩ (-9) = true ∧ roundAt ⟨65535, 2, -10⟩ (-9) = 16384 := by decide

/-- The energy counter of F27 after 1 and 2 µs: 22 and 45 (Table 5-6). -/
theorem test_energy : frondE (updFr State.reset 27 fun x => { x with tot := 8700000000 }) 27 = 22 ∧ frondE (updFr State.reset 27 fun x => { x with tot := 17400000000 }) 27 = 45 := by decide +kernel

/-- Table 7-3. -/
def tableF27 (i : Nat) : Nat × Nat := [(1800, 40), (2000, 64), (2200, 84), (2400, 100), (2600, 112), (2800, 124), (3000, 136), (3200, 146)].getD i (0, 0)
/-- Fmax of F27: 120 at 2,734 and 119 at 2,733 (spec/07_setpoints_profiles.md). -/
theorem test_fmax : fmaxP tableF27 2734 = 120 ∧ fmaxP tableF27 2733 = 119 ∧ fmaxP tableF27 3080 = 140 ∧ fmaxP tableF27 3079 = 139 := by decide

/-- The move of F27 from 2,794 to 3,140 at 10 mV/µs, 5 mV/µs², 5 mV/µs³: not over at tick 93, over at tick 94 (spec/07_setpoints_profiles.md). -/
theorem test_move_ticks (m : Plan) (h : (m.p0, m.e, m.v, m.a, m.j) = (2794, 3140, 1280, 640, 640)) : planDone m 93 = false ∧ planDone m 94 = true := by
  simp only [Prod.mk.injEq] at h
  obtain ⟨h1, h2, h3, h4, h5⟩ := h
  simp only [planDone, planTotal, planTimes, h1, h2, h3, h4, h5]
  decide +kernel

/-- F27 with the points of Table 7-3 in force, as commanded by the Rhizome. -/
def f27 : State := { State.reset with rz := { State.reset.rz with tab := tset [] 27 ((List.range 8).map tableF27) }, nv := State.reset.nv }
/-- The re-plan of F27: point 5 with slack 17 and g 0.5 moves to 2,826, point 7 with slack 10 to 3,240 (spec/18_lifetime_ageing.md). -/
theorem test_replan : planPoint f27 27 5 (some (17, 8)) none = .inl (2826, 0) ∧ planPoint f27 27 6 (some (28, 8)) none = .inl (3000, 0) ∧ planPoint f27 27 7 (some (10, 8)) none = .inl (3240, 0) := by decide +kernel

/-- The grant round of Table 14-9: A 1,074 W, B 925 W, C 1,100 W, D 900 W. -/
theorem test_grants :
    grantSplit (put [(MT_GRP_MGR_FLOOR_MAX 0, 400), (MT_GRP_MGR_BIAS 0, 3), (MT_GRP_MGR_SLACK_MAX 0, 256)]) 0 4000
      [⟨1, 1300, 400, false, 1000, 200, true, 0, 0, 0⟩, ⟨2, 1300, 400, false, 1000, 230, true, 0, 0, 0⟩, ⟨3, 1100, 400, false, 1000, 128, true, 0, 0, 0⟩, ⟨4, 900, 400, false, 999, 250, true, 0, 0, 0⟩]
      = ([(1, 1074), (2, 925), (3, 1100), (4, 900)], false) := by decide +kernel

/-- CRC-32 of the ASCII digits 1 to 9, its published check value. -/
theorem test_crc32 : crc32 [0x31, 0x32, 0x33, 0x34, 0x35, 0x36, 0x37, 0x38, 0x39] = 0xCBF43926 := by decide +kernel
/-- CRC-16 of the same with polynomial 0x1021 and initial value 0xFFFF. -/
theorem test_crc16 : crc16 [0x31, 0x32, 0x33, 0x34, 0x35, 0x36, 0x37, 0x38, 0x39] = 0x29B1 := by decide +kernel
/-- The AES-CMAC example of SP 800-38B with one whole block, cut to 64 bits. -/
theorem test_cmac : cmac64 [0x2b, 0x7e, 0x15, 0x16, 0x28, 0xae, 0xd2, 0xa6, 0xab, 0xf7, 0x15, 0x88, 0x09, 0xcf, 0x4f, 0x3c]
    [0x6b, 0xc1, 0xbe, 0xe2, 0x2e, 0x40, 0x9f, 0x96, 0xe9, 0x3d, 0x7e, 0x11, 0x73, 0x93, 0x17, 0x2a] = [0x07, 0x0a, 0x16, 0xb4, 0x6b, 0x4d, 0x41, 0x44] := by decide +kernel
/-- The SHA-256 digest of the three bytes abc (FIPS 180-4). -/
theorem test_sha256 : beValue (sha256 [0x61, 0x62, 0x63]) = 0xba7816bf8f01cfea414140de5dae2223b00361a396177a9cb410ff61f20015ad := by decide +kernel

/-! ### Others -/

/-- With an empty queue the block idles (log entry 1). -/
theorem test_idle : step State.reset = .next State.reset := rfl

/-- The Q1.15 product of 0x6000 and 0xC000 is 0xFFFF_D000, and that of -1 and -1 saturates (spec/05_arithmetic.md). -/
theorem test_q15 : wrap32 (rne (signedOf 16 0x6000 * signedOf 16 0xC000) (2 ^ 15)) = 0xFFFFD000 ∧ rne (signedOf 16 0x8000 * signedOf 16 0x8000) (2 ^ 15) = 0x8000 := by decide

end Sys2Proof.Tests
end

section
/-! Rules about commands: each ends in a next state, with the member and the waiting commands of the state before it. -/
namespace Sys2Proof.Machine
open Sys2Proof.Claims

/-- Every command's meaning ends in `nextOf`: it neither faults nor is refused, and the member and the waiting commands are those before it. -/
theorem exec_eq_nextOf (i : Instr) (s : State) : ∃ u, exec i s = nextOf s u := by
  cases i <;> exact ⟨_, rfl⟩

/-- A command whose meaning ends in a state with the member and the waiting commands of before answers that state. -/
theorem gives_of_exec {i : Instr} {s u : State} {P : State → Prop} (hx : exec i s = nextOf s u) (hm : u.member = s.member) (hp : u.pending = s.pending) (h : P u) :
    Gives i s P := ⟨u, hx.trans (nextOf_eq hm hp), h⟩

theorem gives_imp {i : Instr} {s : State} {P Q : State → Prop} (h : Gives i s P) (hPQ : ∀ t, P t → Q t) : Gives i s Q := by
  obtain ⟨t, ht, hP⟩ := h
  exact ⟨t, ht, hPQ t hP⟩

/-- A saturating counter rises by n until it holds its largest value. -/
theorem fget_bumpBy_same (s : State) (x : Fld) (n : Nat) (ha : x.addr ≠ RZ_ID) (hh : x.hi < 64) : fget (bumpBy s x n) x = min (fget s x + n) (fmax x) := by
  unfold bumpBy
  rw [fget_fset_same s x _ ha hh, Nat.mod_eq_of_lt]
  have := Nat.two_pow_pos (x.hi + 1 - x.lo)
  unfold fmax
  omega

end Sys2Proof.Machine
end

section
/-! The invariant of a legal member (R1, R2, R403). -/
namespace Sys2Proof.Machine

/-- Settles O32: the member is no command's to change, and RZ_ID follows from it whatever is written (R403). -/
theorem invariantKept : Obligations.InvariantKept := by
  intro s t hs hstep
  obtain ⟨hmem, hpend⟩ : t.member = s.member ∧ t.pending = s.pending.tail := by
    unfold step at hstep
    split at hstep
    next hp => cases hstep; exact ⟨rfl, by rw [hp]; rfl⟩
    next c rest hp =>
      obtain ⟨u, hu⟩ := exec_eq_nextOf c { s with pending := rest }
      cases hu.symm.trans hstep
      exact ⟨rfl, by rw [hp]; rfl⟩
  exact ⟨⟨hmem ▸ hs.1, reg_id t⟩, hpend, hmem⟩

/-- Settles O33. -/
theorem invariantAtReset : Obligations.InvariantAtReset := ⟨⟨by decide, reg_id _⟩, rfl⟩

end Sys2Proof.Machine
end

section
/-! The lanes of the Mat engine: what each operation on a lane does, and what it leaves alone (R305 to R307). -/
namespace Sys2Proof.Machine
open Sys2Proof.Claims

/-! #### The frame of an operation on lanes -/

/-- What an operation on the lanes in p may touch: their status and error registers and the route counts, the engine but for the frames that have left and the levels of the optical engine, the raises in
flight, and the PMBus status. -/
structure OnLanes (p : Nat → Prop) (s t : State) : Prop where
  rest : t = { s with regs := t.regs, mat := t.mat, flt := t.flt, pm := t.pm }
  tx : t.mat.tx = s.mat.tx
  oe : t.mat.oeAbsent = s.mat.oeAbsent ∧ t.mat.oeFault = s.mat.oeFault
  reg : ∀ a, a ≠ MT_ROUTE_STAT → (∀ l, p l → a ≠ MT_LANE_STAT l ∧ a ≠ MT_LANE_FEC l) → reg t a = reg s a

variable {p : Nat → Prop} {s t u : State} {l : Nat}

theorem OnLanes.refl (s : State) : OnLanes p s s := ⟨rfl, rfl, ⟨rfl, rfl⟩, fun _ _ _ => rfl⟩

theorem OnLanes.trans (h : OnLanes p s t) (k : OnLanes p t u) : OnLanes p s u where
  rest := by rw [k.rest, h.rest]
  tx := k.tx.trans h.tx
  oe := ⟨k.oe.1.trans h.oe.1, k.oe.2.trans h.oe.2⟩
  reg a h1 h2 := (k.reg a h1 h2).trans (h.reg a h1 h2)

theorem OnLanes.member (h : OnLanes p s t) : t.member = s.member := by rw [h.rest]
theorem OnLanes.pending (h : OnLanes p s t) : t.pending = s.pending := by rw [h.rest]
theorem OnLanes.fronds (h : OnLanes p s t) : t.fronds = s.fronds := by rw [h.rest]
theorem OnLanes.bus (h : OnLanes p s t) : t.bus = s.bus := by rw [h.rest]

/-- The state of a lane that is not in p stays. -/
theorem OnLanes.laneSt_eq (h : OnLanes p s t) {k : Nat} (hk : k < 4) (hp : ¬ p k) : laneSt t k = laneSt s k := by
  have hr : Machine.reg t (MT_LANE_STAT k) = Machine.reg s (MT_LANE_STAT k) := by
    refine h.reg _ ?_ fun l hl => ⟨?_, ?_⟩
    · show 0x70020 + 8 * k ≠ 0x70308; omega
    · intro he
      have hlk : k = l := by have : 0x70020 + 8 * k = 0x70020 + 8 * l := he; omega
      exact hp (hlk ▸ hl)
    · show 0x70020 + 8 * k ≠ 0x70040 + 8 * l; omega
  unfold laneSt fget; rw [hr]

/-- The other lanes' states, the fronds and the frames that have left stay as they are. -/
def OthersKept (l : Nat) (s t : State) : Prop := (∀ k, k < 4 → k ≠ l → laneSt t k = laneSt s k) ∧ t.fronds = s.fronds ∧ t.mat.tx = s.mat.tx

theorem OnLanes.others (h : OnLanes (· = l) s t) : OthersKept l s t := ⟨fun _ hk hne => h.laneSt_eq hk hne, h.fronds, h.tx⟩

theorem OnLanes.foldl {α : Type} (g : State → α → State) (h : ∀ s a, OnLanes p s (g s a)) (xs : List α) (s : State) : OnLanes p s (xs.foldl g s) := by
  induction xs generalizing s with
  | nil => exact .refl s
  | cons x xs ih => exact (h s x).trans (ih (g s x))

/-! #### Each operation on a lane -/

theorem onLanes_fset_stat (hl : p l) (s : State) (hi lo v : Nat) : OnLanes p s (fset s ⟨MT_LANE_STAT l, hi, lo⟩ v) :=
  ⟨rfl, rfl, ⟨rfl, rfl⟩, fun a _ h => reg_fset_ne s _ v a (h l hl).1⟩

theorem onLanes_fset_fec (hl : p l) (s : State) (hi lo v : Nat) : OnLanes p s (fset s ⟨MT_LANE_FEC l, hi, lo⟩ v) :=
  ⟨rfl, rfl, ⟨rfl, rfl⟩, fun a _ h => reg_fset_ne s _ v a (h l hl).2⟩

theorem onLanes_fset_route (s : State) (hi lo v : Nat) : OnLanes p s (fset s ⟨MT_ROUTE_STAT, hi, lo⟩ v) :=
  ⟨rfl, rfl, ⟨rfl, rfl⟩, fun a h _ => reg_fset_ne s _ v a h⟩

theorem onLanes_showRoutes (s : State) : OnLanes p s (showRoutes s) := (onLanes_fset_route s 10 0 _).trans (onLanes_fset_route _ 26 16 _)

theorem onLanes_updLane (s : State) (l : Nat) (g : MLane → MLane) : OnLanes p s (updLane s l g) := ⟨rfl, rfl, ⟨rfl, rfl⟩, fun _ _ _ => rfl⟩

theorem onLanes_raiseD (s : State) (c : Nat) (u : Option Nat) (d i : Nat) : OnLanes p s (raiseD s c u d i) := by
  refine ⟨?_, by simp, by simp, fun a _ _ => reg_congr (by simp) (by simp) a⟩
  unfold raiseD; split <;> rfl

theorem onLanes_pmStep (s : State) : OnLanes p s (pmStep s) := ⟨rfl, rfl, ⟨rfl, rfl⟩, fun _ _ _ => rfl⟩

/-- A withdrawn route leaves its table and joins the withdrawn ones; besides, the route counts follow. -/
theorem withdraw_eq (s : State) (key kind : Nat) : ∃ g, withdraw s key kind = showRoutes { s with mat := { s.mat with
    dev := if kind = 0 then tdel s.mat.dev key else s.mat.dev, blk := if kind = 0 then s.mat.blk else tdel s.mat.blk key, gone := g } } := by
  unfold withdraw
  by_cases hk : kind = 0
  · simp only [if_pos hk]
    cases tget? s.mat.dev key <;> exact ⟨_, rfl⟩
  · simp only [if_neg hk]
    cases tget? s.mat.blk key <;> exact ⟨_, rfl⟩

theorem withdraw_flt (s : State) (key kind : Nat) : (withdraw s key kind).flt = s.flt := by
  obtain ⟨g, h⟩ := withdraw_eq s key kind; rw [h]; rfl

theorem withdraw_dev (s : State) (key kind : Nat) : (withdraw s key kind).mat.dev = if kind = 0 then tdel s.mat.dev key else s.mat.dev := by
  obtain ⟨g, h⟩ := withdraw_eq s key kind; rw [h]; rfl

theorem onLanes_withdraw (s : State) (key kind : Nat) : OnLanes p s (withdraw s key kind) := by
  obtain ⟨g, h⟩ := withdraw_eq s key kind
  rw [h]
  refine OnLanes.trans ?_ (onLanes_showRoutes _)
  exact ⟨rfl, rfl, ⟨rfl, rfl⟩, fun _ _ _ => rfl⟩

/-- A projection that no step of a fold changes is that of its start. -/
theorem foldl_proj_eq {α β : Type} (π : State → β) (g : State → α → State) (h : ∀ s a, π (g s a) = π s) (xs : List α) (s : State) : π (xs.foldl g s) = π s := by
  induction xs generalizing s with
  | nil => rfl
  | cons x xs ih => exact (ih (g s x)).trans (h s x)

theorem onLanes_dropRoutes (s : State) (l : Nat) : OnLanes p s (dropRoutes s l) :=
  (OnLanes.foldl _ (fun _ _ => onLanes_withdraw _ _ _) _ s).trans (OnLanes.foldl _ (fun _ _ => onLanes_withdraw _ _ _) _ _)

theorem dropRoutes_flt (s : State) (l : Nat) : (dropRoutes s l).flt = s.flt :=
  (foldl_proj_eq (·.flt) _ (fun _ _ => withdraw_flt _ _ _) _ _).trans (foldl_proj_eq (·.flt) _ (fun _ _ => withdraw_flt _ _ _) _ _)

theorem mem_dev_withdrawn (xs : List (Nat × Route)) (s : State) (r : Nat × Route) (h : r ∈ (xs.foldl (fun t x => withdraw t x.1 0) s).mat.dev) :
    r ∈ s.mat.dev ∧ ∀ x ∈ xs, r.1 ≠ x.1 := by
  induction xs generalizing s with
  | nil => exact ⟨h, fun _ hx => absurd hx List.not_mem_nil⟩
  | cons x xs ih =>
    obtain ⟨hr, hxs⟩ := ih (withdraw s x.1 0) h
    rw [withdraw_dev, if_pos rfl] at hr
    obtain ⟨hr, hx⟩ := List.mem_filter.mp hr
    exact ⟨hr, List.forall_mem_cons.mpr ⟨by simpa using hx, hxs⟩⟩

/-- No device route learned on a lane outlives its routes' withdrawal (Table 14-10). -/
theorem dropRoutes_dev (s : State) (l : Nat) (r : Nat × Route) (h : r ∈ (dropRoutes s l).mat.dev) : r.2.lane ≠ l := by
  have hblk : ∀ (t : State) (xs : List (Nat × Route)), (xs.foldl (fun t x => withdraw t x.1 1) t).mat.dev = t.mat.dev := fun t xs =>
    foldl_proj_eq (·.mat.dev) _ (fun _ _ => by rw [withdraw_dev, if_neg (by decide)]) xs t
  unfold dropRoutes at h
  rw [hblk] at h
  obtain ⟨hr, hkey⟩ := mem_dev_withdrawn _ _ _ h
  exact fun hl => hkey r (List.mem_filter.mpr ⟨hr, by simpa using hl⟩) rfl

/-- A lane that leaves Up forgets its partner, and of the frames that wait keeps the BEACONs. -/
def leftLane (x : MLane) : MLane := { x with uid := none, pnum := false, out := x.out.filter fun b => fb b 0 1 == 1 }

/-- What leaving Up does before its raise (R306, Tables 14-2 and 14-10). -/
def leftUp (s : State) (l : Nat) : State := fset (updLane (dropRoutes s l) l leftLane) (MT_LANE_STAT_PARTNER l) 0

theorem leaveUp_eq (s : State) (l : Nat) : leaveUp s l = if laneSt s l = 3 then raiseD (leftUp s l) 0xC8 (some l) 0 0x46 else leftUp s l := rfl

theorem fget_leaveUp (s : State) (l : Nat) (x : Fld) : fget (leaveUp s l) x = fget (leftUp s l) x := by
  rw [leaveUp_eq]
  split
  · exact fget_congr (raiseD_member ..) (raiseD_regs ..) x
  · rfl

theorem leaveUp_mat (s : State) (l : Nat) : (leaveUp s l).mat = (leftUp s l).mat := by
  rw [leaveUp_eq]
  split
  · exact raiseD_mat ..
  · rfl

theorem onLanes_leaveUp (hl : p l) (s : State) : OnLanes p s (leaveUp s l) := by
  have hleft : OnLanes p s (leftUp s l) := ((onLanes_dropRoutes s l).trans (onLanes_updLane _ l _)).trans (onLanes_fset_stat hl _ 31 16 0)
  rw [leaveUp_eq]
  split
  · exact hleft.trans (onLanes_raiseD _ _ _ _ _)
  · exact hleft

theorem onLanes_laneHold (hl : p l) (s : State) : OnLanes p s (laneHold s l) :=
  ((onLanes_leaveUp hl s).trans (onLanes_updLane _ l _)).trans (onLanes_fset_stat hl _ 1 0 0)

theorem onLanes_laneOff (hl : p l) (s : State) : OnLanes p s (laneOff s l) := by
  refine OnLanes.trans ?_ (onLanes_laneHold hl _)
  split
  · exact (onLanes_fset_stat hl s 47 32 _).trans (onLanes_updLane _ l _)
  · exact .refl s

theorem onLanes_sendCodeword (s : State) (l : Nat) : OnLanes p s (sendCodeword s l) := onLanes_updLane s l _

/-! #### Fields of a lane's status after each operation -/

@[simp] theorem ml_updLane_same (s : State) (l : Nat) (g : MLane → MLane) : ml (updLane s l g) l = g (ml s l) := tget_tset_same _ _ _ _

@[simp] theorem ml_fset (s : State) (x : Fld) (v k : Nat) : ml (fset s x v) k = ml s k := rfl

theorem laneStat_ne_id (l : Nat) : MT_LANE_STAT l ≠ RZ_ID := by show 0x70020 + 8 * l ≠ 0; omega

/-- A field of a lane's status reads what was written to it, and the fields beside it stay. -/
theorem fget_stat_same (s : State) (l v : Nat) {hi lo : Nat} (hh : hi < 64) : fget (fset s ⟨MT_LANE_STAT l, hi, lo⟩ v) ⟨MT_LANE_STAT l, hi, lo⟩ = v % 2 ^ (hi + 1 - lo) :=
  fget_fset_same s _ v (laneStat_ne_id l) hh

theorem fget_stat_disj (s : State) (l v : Nat) {hi lo hi' lo' : Nat} (hh : hi < 64) (h : hi' < lo ∨ hi < lo') :
    fget (fset s ⟨MT_LANE_STAT l, hi, lo⟩ v) ⟨MT_LANE_STAT l, hi', lo'⟩ = fget s ⟨MT_LANE_STAT l, hi', lo'⟩ := fget_fset_disj s _ _ v hh h

theorem laneSt_setState (s : State) (l v : Nat) : laneSt (fset s (MT_LANE_STAT_STATE l) v) l = v % 4 := fget_stat_same s l v (by decide)

/-- The error counts of a lane are in a register of their own. -/
theorem laneSt_fset_fec (s : State) (l hi lo v : Nat) : laneSt (fset s ⟨MT_LANE_FEC l, hi, lo⟩ v) l = laneSt s l :=
  fget_fset_addr s _ _ v (by show 0x70020 + 8 * l ≠ 0x70040 + 8 * l; omega)

/-- Leaving Up touches only PARTNER in its lane's status register. -/
theorem fget_leaveUp_stat (s : State) (hl : l < 4) {hi lo : Nat} (h : hi < 16 ∨ 31 < lo) : fget (leaveUp s l) ⟨MT_LANE_STAT l, hi, lo⟩ = fget s ⟨MT_LANE_STAT l, hi, lo⟩ := by
  have hdrop : reg (dropRoutes s l) (MT_LANE_STAT l) = reg s (MT_LANE_STAT l) :=
    (onLanes_dropRoutes (p := fun _ => False) s l).reg _ (by show 0x70020 + 8 * l ≠ 0x70308; omega) fun _ h => h.elim
  calc fget (leaveUp s l) ⟨MT_LANE_STAT l, hi, lo⟩ = fget (leftUp s l) ⟨MT_LANE_STAT l, hi, lo⟩ := fget_leaveUp s l _
    _ = fget (dropRoutes s l) ⟨MT_LANE_STAT l, hi, lo⟩ := fget_stat_disj _ l 0 (by decide) h
    _ = fget s ⟨MT_LANE_STAT l, hi, lo⟩ := by unfold fget; rw [hdrop]

theorem partner_leaveUp (s : State) (l : Nat) : fget (leaveUp s l) (MT_LANE_STAT_PARTNER l) = 0 := (fget_leaveUp s l _).trans (fget_stat_same _ l 0 (by decide))

theorem uid_leaveUp (s : State) (l : Nat) : (ml (leaveUp s l) l).uid = none := by
  have hml : ml (leftUp s l) l = leftLane (ml (dropRoutes s l) l) := ml_updLane_same _ l _
  unfold ml at hml ⊢
  rw [leaveUp_mat, hml]
  rfl

/-- Holding a lane Off touches only STATE and PARTNER in its status register. -/
theorem fget_laneHold (s : State) (hl : l < 4) {hi lo : Nat} (h1 : 1 < lo) (h : hi < 16 ∨ 31 < lo) :
    fget (laneHold s l) ⟨MT_LANE_STAT l, hi, lo⟩ = fget s ⟨MT_LANE_STAT l, hi, lo⟩ :=
  (fget_fset_disj _ _ _ _ (by decide : 1 < 64) (.inr h1)).trans (fget_leaveUp_stat s hl h)

theorem laneSt_laneHold (s : State) (l : Nat) : laneSt (laneHold s l) l = 0 := laneSt_setState _ _ _

theorem laneSt_laneOff (s : State) (l : Nat) {k : Nat} (hk : k < 4) : laneSt (laneOff s l) k = if k = l then 0 else laneSt s k := by
  split
  next h => rw [h]; exact laneSt_laneHold _ _
  next h => exact (onLanes_laneOff (p := (· = l)) rfl s).laneSt_eq hk h

/-- Losing lock counts in DOWNS (R306). -/
theorem downs_laneOff (s : State) (hl : l < 4) (h : 2 ≤ laneSt s l) :
    fget (laneOff s l) (MT_LANE_STAT_DOWNS l) = min (fget s (MT_LANE_STAT_DOWNS l) + 1) (fmax (MT_LANE_STAT_DOWNS l)) := by
  unfold laneOff
  rw [if_pos h, fget_laneHold _ hl (by decide) (.inr (by decide))]
  exact fget_bump_same s (MT_LANE_STAT_DOWNS l) (laneStat_ne_id l) (show 47 < 64 by decide)

theorem los_laneOff (s : State) (hl : l < 4) : flag (laneOff s l) (MT_LANE_STAT_LOS l) = flag s (MT_LANE_STAT_LOS l) := by
  unfold laneOff flag
  rw [fget_laneHold _ hl (by decide) (.inl (by decide))]
  split
  · rw [show fget (updLane (bump s (MT_LANE_STAT_DOWNS l)) l lockLost) (MT_LANE_STAT_LOS l) = fget s (MT_LANE_STAT_LOS l) from
      fget_stat_disj s l _ (by decide) (.inl (by decide))]
  · rfl

/-! #### Raises -/

/-- A lane that is Up raises the lane-down source when it leaves that state (Table 14-2). -/
theorem leaveUp_flt (s : State) (l : Nat) :
    (leaveUp s l).flt = if laneSt s l = 3 then { s.flt with raises := s.flt.raises ++ [⟨0xC8, some l, 0, 0x46, false⟩] } else s.flt := by
  rw [leaveUp_eq]
  split
  · rw [raiseD_eq _ _ _ _ _ (by decide)]
    show ({ (dropRoutes s l).flt with raises := (dropRoutes s l).flt.raises ++ _ } : Flt) = _
    rw [dropRoutes_flt]
  · exact dropRoutes_flt s l

theorem laneOff_flt (s : State) (l : Nat) :
    (laneOff s l).flt = if laneSt s l = 3 then { s.flt with raises := s.flt.raises ++ [⟨0xC8, some l, 0, 0x46, false⟩] } else s.flt := by
  have hst : laneSt (updLane (bump s (MT_LANE_STAT_DOWNS l)) l lockLost) l = laneSt s l := fget_stat_disj s l _ (by decide) (.inl (by decide))
  refine (leaveUp_flt _ l).trans ?_
  split
  · simp only [hst]; rfl
  · rfl

/-! #### Codewords (R305, R306) -/

@[simp] theorem fget_pmStep (s : State) (x : Fld) : fget (pmStep s) x = fget s x := rfl
@[simp] theorem laneSt_pmStep (s : State) (l : Nat) : laneSt (pmStep s) l = laneSt s l := rfl
@[simp] theorem ml_pmStep (s : State) (l : Nat) : ml (pmStep s) l = ml s l := rfl

/-- Without a remote access among what has arrived, none is admitted. -/
theorem admitMat_nil (s : State) {t : State} (h : t.bus.queue = []) : admitMat s t = t := by
  unfold admitMat
  simp only [h, List.drop_nil, List.take_nil, List.foldl_nil]
  exact bus_queue_self t h

/-- A codeword on a lane that is not Off, with nothing waiting at the active Rhizome, is taken after the lane has sent its own; what follows it finds no access to carry out. -/
theorem exec_codewordReceived {s : State} {l : BitVec 2} {cnt : BitVec 10} {lane : BitVec 2} {ffo : BitVec 8} {data par : List (BitVec 10)}
    (hidle : answers s 0x46 = true ∧ s.bus.ready = [] ∧ s.bus.queue = []) (hst : laneSt s l.toNat ≠ 0) {r : Option (Nat × List Nat)} (hr : rsDecode (cwSymbols cnt lane ffo data par) = r)
    (h : OnLanes p s (takeCodeword (sendCodeword s l.toNat) l.toNat r)) :
    exec (.codewordReceived l cnt lane ffo data par) s = nextOf s (pmStep (takeCodeword (sendCodeword s l.toNat) l.toNat r)) := by
  obtain ⟨hans, hready, hqueue⟩ := hidle
  have hword : codeword l.toNat (cwSymbols cnt lane ffo data par) s = takeCodeword (sendCodeword s l.toNat) l.toNat r := by
    unfold codeword; rw [if_neg (by simp [hans, hst]), hr]
  have hq : (takeCodeword (sendCodeword s l.toNat) l.toNat r).bus.queue = [] := by rw [h.bus, hqueue]
  show nextOf s (settle (admitMat s (codeword l.toNat _ s))) = _
  rw [hword, admitMat_nil s hq, settle, flush_stop (work_empty (by rw [h.bus, hready]) hq)]

/-- The codeword that arrives on a lane that is not Off gives what taking it leaves. -/
theorem gives_codeword {s : State} {l : BitVec 2} {cnt : BitVec 10} {lane : BitVec 2} {ffo : BitVec 8} {data par : List (BitVec 10)} {P : State → Prop}
    (hidle : answers s 0x46 = true ∧ s.bus.ready = [] ∧ s.bus.queue = []) (hst : laneSt s l.toNat ≠ 0) {r : Option (Nat × List Nat)} (hr : rsDecode (cwSymbols cnt lane ffo data par) = r)
    (h : OnLanes p s (takeCodeword (sendCodeword s l.toNat) l.toNat r)) (hP : P (pmStep (takeCodeword (sendCodeword s l.toNat) l.toNat r))) :
    Gives (.codewordReceived l cnt lane ffo data par) s P :=
  gives_of_exec (exec_codewordReceived hidle hst hr h) h.member h.pending hP

/-- The lane's own codeword, which it sends for each one received, takes the next CWCNT (R305). -/
theorem ml_sendCodeword (s : State) (l : Nat) : ∃ line mid out, ml (sendCodeword s l) l = { ml s l with line := line, next := ((ml s l).next + 1) % 1024, mid := mid, out := out } :=
  ⟨_, _, _, ml_updLane_same s l _⟩

/-- An uncorrectable codeword as its lane keeps it. -/
def badLane (x : MLane) : MLane := { x with unc := x.unc + 1, uncMs := x.uncMs + 1, good := 0, part := [], sync := false }

/-- An uncorrectable codeword as it is counted, before the lane goes Off for it. -/
def countBad (s : State) (l : Nat) : State := bump (updLane s l badLane) (MT_LANE_FEC_UNC l)

theorem laneSt_countBad (s : State) (l : Nat) : laneSt (countBad s l) l = laneSt s l := laneSt_fset_fec _ l _ _ _

theorem ml_countBad (s : State) (l : Nat) : ml (countBad s l) l = badLane (ml s l) := ml_updLane_same s l _

theorem fecUnc_countBad (s : State) (l : Nat) : fget (countBad s l) (MT_LANE_FEC_UNC l) = min (fget s (MT_LANE_FEC_UNC l) + 1) (fmax (MT_LANE_FEC_UNC l)) :=
  fget_bump_same (updLane s l badLane) _ (by show 0x70040 + 8 * l ≠ 0; omega) (show 63 < 64 by decide)

theorem onLanes_countBad (hl : p l) (s : State) : OnLanes p s (countBad s l) := (onLanes_updLane s l _).trans (onLanes_fset_fec hl _ 63 32 _)

/-- The fourth uncorrectable codeword in a row, or one more in this millisecond than UNC_MAX, takes a lane in Linked or Up Off; any other is counted (R306). -/
theorem badCodeword_eq (s : State) (l : Nat) :
    badCodeword s l = if 2 ≤ laneSt s l ∧ (3 ≤ (ml s l).unc ∨ fget s (MT_LANE_CFG_UNC_MAX l) ≤ (ml s l).uncMs) then laneOff (countBad s l) l else countBad s l := by
  have hcfg : fget (countBad s l) (MT_LANE_CFG_UNC_MAX l) = fget s (MT_LANE_CFG_UNC_MAX l) :=
    fget_fset_addr _ (MT_LANE_FEC_UNC l) _ _ (by show 0x70000 + 8 * l ≠ 0x70040 + 8 * l; omega)
  show (if 2 ≤ laneSt (countBad s l) l ∧ (4 ≤ (ml (countBad s l) l).unc ∨ fget (countBad s l) (MT_LANE_CFG_UNC_MAX l) < (ml (countBad s l) l).uncMs) then
    laneOff (countBad s l) l else countBad s l) = _
  rw [laneSt_countBad, ml_countBad, hcfg]
  simp only [badLane, Nat.lt_succ_iff, Nat.succ_le_succ_iff]

theorem onLanes_badCodeword (hl : p l) (s : State) : OnLanes p s (badCodeword s l) := by
  rw [badCodeword_eq]
  split
  · exact (onLanes_countBad hl s).trans (onLanes_laneOff hl _)
  · exact onLanes_countBad hl s

/-- The run of consistent codewords with the one that has just decoded (R306). -/
def goodRun (x : MLane) (cnt lane : Nat) : Nat := if x.good ≠ 0 ∧ cnt = (x.cnt + 1) % 1024 ∧ lane = x.lane then x.good + 1 else 1

theorem goodRun_of_run {x : MLane} {cnt lane : Nat} (h : x.good ≠ 0 ∧ cnt = (x.cnt + 1) % 1024 ∧ lane = x.lane) : goodRun x cnt lane = x.good + 1 := if_pos h

theorem goodRun_of_break {x : MLane} {cnt lane : Nat} (h : ¬ (x.good ≠ 0 ∧ cnt = (x.cnt + 1) % 1024 ∧ lane = x.lane)) : goodRun x cnt lane = 1 := if_neg h

/-- A lane that acquires, after a codeword that decodes. -/
def heardLane (good cnt lane : Nat) (x : MLane) : MLane := { x with good := good, cnt := cnt, lane := lane, unc := 0 }

theorem acquireStep_eq (s : State) (l cnt lane : Nat) : acquireStep s l cnt lane =
    if goodRun (ml s l) cnt lane = 8 then fset (updLane (updLane s l (heardLane (goodRun (ml s l) cnt lane) cnt lane)) l fun x => { x with good := 0 }) (MT_LANE_STAT_STATE l) 2
    else updLane s l (heardLane (goodRun (ml s l) cnt lane) cnt lane) := rfl

theorem onLanes_acquireStep (hl : p l) (s : State) (cnt lane : Nat) : OnLanes p s (acquireStep s l cnt lane) := by
  rw [acquireStep_eq]
  split
  · exact ((onLanes_updLane s l _).trans (onLanes_updLane _ l _)).trans (onLanes_fset_stat hl _ 1 0 2)
  · exact onLanes_updLane s l _

theorem acquireStep_flt (s : State) (l cnt lane : Nat) : (acquireStep s l cnt lane).flt = s.flt := by
  rw [acquireStep_eq]; split <;> rfl

/-- The eighth consistent codeword links the lane, and its run starts again (R306). -/
theorem laneSt_acquireStep (s : State) (l cnt lane : Nat) : laneSt (acquireStep s l cnt lane) l = if goodRun (ml s l) cnt lane = 8 then 2 else laneSt s l := by
  rw [acquireStep_eq]
  split
  · exact laneSt_setState _ l 2
  · rfl

theorem ml_acquireStep (s : State) (l cnt lane : Nat) :
    ml (acquireStep s l cnt lane) l = heardLane (if goodRun (ml s l) cnt lane = 8 then 0 else goodRun (ml s l) cnt lane) cnt lane (ml s l) := by
  rw [acquireStep_eq]
  split
  · rw [ml_fset, ml_updLane_same, ml_updLane_same]; rfl
  · exact ml_updLane_same _ l _

theorem fecCorr_acquireStep (s : State) (l cnt lane : Nat) : fget (acquireStep s l cnt lane) (MT_LANE_FEC_CORR l) = fget s (MT_LANE_FEC_CORR l) := by
  rw [acquireStep_eq]
  split
  · exact fget_fset_addr _ (MT_LANE_STAT_STATE l) _ _ (by show 0x70040 + 8 * l ≠ 0x70020 + 8 * l; omega)
  · rfl

/-- A lane in Linked or Up after a codeword that decodes, its parser apart. -/
def parsedLane (x : MLane) (cnt lane : Nat) : MLane := { x with unc := 0, cnt := cnt, lane := lane }

/-- A parser that does not know where frames start takes no word before the one that FFO names (R309). -/
theorem foldl_feedWord_unsynced (ffo : Nat) (x : MLane) (hx : x.sync = false) (ws : List (Nat × List Nat)) (hw : ∀ w ∈ ws, w.1 ≠ ffo) (fs : List (List Nat)) :
    ws.foldl (feedWord ffo) (x, fs) = (x, fs) := by
  induction ws with
  | nil => rfl
  | cons w ws ih =>
    obtain ⟨hw1, hws⟩ := List.forall_mem_cons.mp hw
    have hfeed : feedWord ffo (x, fs) w = (x, fs) := by simp [feedWord, hx, hw1]
    rw [List.foldl_cons, hfeed, ih hws]

theorem feedCodeword_unsynced {x : MLane} (hx : x.sync = false) {ffo : Nat} (hf : 80 ≤ ffo) (data : List Nat) : feedCodeword x ffo data = (x, []) := by
  refine foldl_feedWord_unsynced ffo x hx _ (fun w hw => ?_) []
  obtain ⟨i, hi, rfl⟩ := List.mem_map.mp hw
  have := List.mem_range.mp hi
  show i ≠ ffo
  omega

/-! #### Beacons (R306, R310) -/

/-- The bytes of this device's BEACON on a lane (Table 14-7). -/
def beaconBytes (s : State) (l : Nat) : List Nat :=
  frameHdr 1 0xFFFE (ownId s) 0 0 0 0 40 ++ leBytes 8 (ownUid s) ++ leBytes 2 (ownId s) ++ [l, (numbered s).toNat + 2 * (inSpore s).toNat, 0, 0, 0, 0]

theorem beaconBytes_congr {s t : State} (h1 : t.member = s.member) (h2 : t.regs = s.regs) (l : Nat) : beaconBytes t l = beaconBytes s l := by
  unfold beaconBytes ownId ownUid numbered inSpore
  rw [fget_congr h1 h2, fget_congr h1 h2, flag_congr h1 h2, reg_congr h1 h2]

/-- A beacon leaves on each listed lane, and sending them changes no register and nothing outside the engine. -/
theorem foldl_sendBeacon (ls : List Nat) (s : State) :
    ls.foldl sendBeacon s = { s with mat := (ls.foldl sendBeacon s).mat } ∧ (ls.foldl sendBeacon s).mat.tx = s.mat.tx ++ ls.map fun l => (l, beaconBytes s l) := by
  induction ls generalizing s with
  | nil => exact ⟨rfl, (List.append_nil _).symm⟩
  | cons l ls ih =>
    obtain ⟨hrest, htx⟩ := ih (sendBeacon s l)
    refine ⟨hrest, htx.trans ?_⟩
    have hone : (sendBeacon s l).mat.tx = s.mat.tx ++ [(l, beaconBytes s l)] := rfl
    rw [hone, List.append_assoc]
    simp only [List.map_cons, List.singleton_append, beaconBytes_congr (show (sendBeacon s l).member = s.member from rfl) rfl]

theorem leValue_leBytes (n v : Nat) : leValue (leBytes n v) = v % 256 ^ n := by
  induction n generalizing v with
  | zero => rw [pow_zero, Nat.mod_one]; rfl
  | succ n ih => rw [leBytes, leValue, ih, Nat.mod_mod, pow_succ', Nat.mod_mul]

theorem ownUid_lt (s : State) : ownUid s < 256 ^ 8 := toNat_reg_lt s MT_UID

theorem ownId_lt (s : State) : ownId s < 256 ^ 2 := fget_lt s MT_ID_STAT_ID

theorem fb_len_beaconBytes (s : State) (l : Nat) : fb (beaconBytes s l) 2 2 = 40 := rfl
theorem fb_type_beaconBytes (s : State) (l : Nat) : fb (beaconBytes s l) 0 1 = 1 := rfl
theorem length_beaconBytes (s : State) (l : Nat) : (beaconBytes s l).length = 40 := rfl

theorem lenOk_beaconBytes (s : State) (l : Nat) : lenOk (beaconBytes s l) = true := by
  simp only [lenOk, fb_len_beaconBytes, fb_type_beaconBytes, length_beaconBytes]
  decide

/-- A BEACON has the layout of Tables 14-4 and 14-7. -/
theorem beaconBytes_fields (s : State) {l : Nat} (hl : l < 4) :
    lenOk (beaconBytes s l) = true ∧ fb (beaconBytes s l) 0 1 = 1 ∧ fb (beaconBytes s l) 4 2 = 0xFFFE ∧ fb (beaconBytes s l) 24 8 = ownUid s ∧ fb (beaconBytes s l) 32 2 = ownId s ∧
    fb (beaconBytes s l) 34 1 = l := by
  have hdst : fb (beaconBytes s l) 4 2 = leValue (leBytes 2 0xFFFE) := rfl
  have huid : fb (beaconBytes s l) 24 8 = leValue (leBytes 8 (ownUid s)) := rfl
  have hid : fb (beaconBytes s l) 32 2 = leValue (leBytes 2 (ownId s)) := rfl
  have hlane : fb (beaconBytes s l) 34 1 = l % 256 := rfl
  refine ⟨lenOk_beaconBytes s l, fb_type_beaconBytes s l, ?_, ?_, ?_, ?_⟩
  · rw [hdst, leValue_leBytes, Nat.mod_eq_of_lt (by norm_num)]
  · rw [huid, leValue_leBytes, Nat.mod_eq_of_lt (ownUid_lt s)]
  · rw [hid, leValue_leBytes, Nat.mod_eq_of_lt (ownId_lt s)]
  · rw [hlane, Nat.mod_eq_of_lt (by omega)]

/-! #### All lanes at once (R307) -/

theorem laneSt_foldl_laneOff (ls : List Nat) (s : State) {k : Nat} (hk : k < 4) : laneSt (ls.foldl laneOff s) k = if k ∈ ls then 0 else laneSt s k := by
  induction ls generalizing s with
  | nil => simp
  | cons l ls ih =>
    rw [List.foldl_cons, ih, laneSt_laneOff s l hk]
    by_cases h1 : k ∈ ls <;> by_cases h2 : k = l <;> simp [h1, h2]

/-- Every lane that is not Off goes Off. -/
theorem laneSt_allOff (s : State) {k : Nat} (hk : k < 4) : laneSt (((List.range 4).filter fun l => laneSt s l != 0).foldl laneOff s) k = 0 := by
  rw [laneSt_foldl_laneOff _ _ hk]
  split
  next => rfl
  next h => simpa [hk] using h

theorem onLanes_takeBad (s : State) (l : Nat) : OnLanes (· = l) s (takeCodeword (sendCodeword s l) l none) :=
  (onLanes_sendCodeword s l).trans (onLanes_badCodeword (p := (· = l)) rfl _)

theorem onLanes_foldl_laneOff (ls : List Nat) (s : State) : OnLanes (fun _ => True) s (ls.foldl laneOff s) :=
  OnLanes.foldl _ (fun s _ => onLanes_laneOff trivial s) ls s

theorem laneMay_of_oeFault {s : State} (h : s.mat.oeFault = true) (k : Nat) : laneMay s k = false := by simp [laneMay, h]

theorem laneMay_of_oeAbsent {s : State} (h : s.mat.oeAbsent = true) (k : Nat) : laneMay s k = false := by simp [laneMay, h]

/-- A change of every listed lane reaches each once, and nothing else in the state changes. -/
theorem foldl_updLane (g : MLane → MLane) (ls : List Nat) (hls : ls.Nodup) (s : State) :
    ls.foldl (fun t l => updLane t l g) s = { s with mat := { s.mat with lanes := (ls.foldl (fun t l => updLane t l g) s).mat.lanes } } ∧
    ∀ k, ml (ls.foldl (fun t l => updLane t l g) s) k = if k ∈ ls then g (ml s k) else ml s k := by
  induction ls generalizing s with
  | nil => exact ⟨rfl, fun k => by simp⟩
  | cons l ls ih =>
    obtain ⟨hl, hls⟩ := List.nodup_cons.mp hls
    obtain ⟨hrest, hml⟩ := ih hls (updLane s l g)
    refine ⟨hrest, fun k => (hml k).trans ?_⟩
    have hk : ml (updLane s l g) k = if k = l then g (ml s l) else ml s k := tget_tset _ _ _ _ _
    rw [hk]
    by_cases h : k = l
    · subst h; simp [hl]
    · simp [h]

end Sys2Proof.Machine
end

section
/-! The events of a Mat lane (R305 to R307). -/
namespace Sys2Proof.Machine
open Sys2Proof.Claims

/-! #### What a codeword does to its lane -/

section
variable {s : State} {l : BitVec 2} {cnt : BitVec 10} {lane : BitVec 2} {ffo : BitVec 8} {data par : List (BitVec 10)}
  (hidle : answers s 0x46 = true ∧ s.bus.ready = [] ∧ s.bus.queue = [])
include hidle

/-- An uncorrectable codeword that does not take its lane Off is answered and counted. -/
theorem gives_countBad (hbad : rsDecode (cwSymbols cnt lane ffo data par) = none) (hst : laneSt s l.toNat ≠ 0)
    (hstay : ¬ (2 ≤ laneSt s l.toNat ∧ (3 ≤ (ml s l.toNat).unc ∨ fget s (MT_LANE_CFG_UNC_MAX l.toNat) ≤ (ml s l.toNat).uncMs))) :
    Gives (.codewordReceived l cnt lane ffo data par) s fun t => OthersKept l.toNat s t ∧ t.flt = s.flt ∧ laneSt t l.toNat = laneSt s l.toNat ∧ (ml t l.toNat).good = 0 ∧
      (ml t l.toNat).unc = (ml s l.toNat).unc + 1 ∧ fget t (MT_LANE_FEC_UNC l.toNat) = min (fget s (MT_LANE_FEC_UNC l.toNat) + 1) (fmax (MT_LANE_FEC_UNC l.toNat)) := by
  have hlanes := onLanes_takeBad s l.toNat
  obtain ⟨line, mid, out, hsend⟩ := ml_sendCodeword s l.toNat
  have htake : takeCodeword (sendCodeword s l.toNat) l.toNat none = countBad (sendCodeword s l.toNat) l.toNat :=
    (badCodeword_eq _ _).trans (if_neg (by rw [hsend]; exact hstay))
  refine gives_codeword hidle hst hbad hlanes ⟨(hlanes.trans (onLanes_pmStep _)).others, ?_⟩
  rw [htake, pmStep_flt, laneSt_pmStep, ml_pmStep, fget_pmStep, laneSt_countBad, ml_countBad, fecUnc_countBad, hsend]
  exact ⟨rfl, rfl, rfl, rfl, rfl⟩

/-- One uncorrectable codeword too many takes its lane Off. -/
theorem gives_laneOff_of_bad (hbad : rsDecode (cwSymbols cnt lane ffo data par) = none) (hst : 2 ≤ laneSt s l.toNat)
    (hmany : 3 ≤ (ml s l.toNat).unc ∨ fget s (MT_LANE_CFG_UNC_MAX l.toNat) ≤ (ml s l.toNat).uncMs) :
    Gives (.codewordReceived l cnt lane ffo data par) s fun t => laneSt t l.toNat = 0 ∧
      fget t (MT_LANE_STAT_DOWNS l.toNat) = min (fget s (MT_LANE_STAT_DOWNS l.toNat) + 1) (fmax (MT_LANE_STAT_DOWNS l.toNat)) ∧ OthersKept l.toNat s t ∧
      if laneSt s l.toNat = 3 then Raised 0xC8 (some l.toNat) 0 0x46 s t else t.flt = s.flt := by
  have hlanes := onLanes_takeBad s l.toNat
  obtain ⟨line, mid, out, hsend⟩ := ml_sendCodeword s l.toNat
  have htake : takeCodeword (sendCodeword s l.toNat) l.toNat none = laneOff (countBad (sendCodeword s l.toNat) l.toNat) l.toNat :=
    (badCodeword_eq _ _).trans (if_pos ⟨hst, by rw [hsend]; exact hmany⟩)
  have hcount : laneSt (countBad (sendCodeword s l.toNat) l.toNat) l.toNat = laneSt s l.toNat := laneSt_countBad _ _
  have hdowns : fget (countBad (sendCodeword s l.toNat) l.toNat) (MT_LANE_STAT_DOWNS l.toNat) = fget s (MT_LANE_STAT_DOWNS l.toNat) :=
    fget_fset_addr _ (MT_LANE_FEC_UNC l.toNat) _ _ (by show 0x70020 + 8 * l.toNat ≠ 0x70040 + 8 * l.toNat; omega)
  have hothers := (hlanes.trans (onLanes_pmStep _)).others
  refine gives_codeword hidle (by omega) hbad hlanes ?_
  rw [htake] at hothers ⊢
  refine ⟨(laneSt_laneOff _ _ l.isLt).trans (if_pos rfl), (downs_laneOff _ l.isLt (by rw [hcount]; exact hst)).trans (by rw [hdowns]), hothers, ?_⟩
  have hflt := laneOff_flt (countBad (sendCodeword s l.toNat) l.toNat) l.toNat
  rw [hcount] at hflt
  split
  next h => rw [if_pos h] at hflt; exact hflt
  next h => rw [if_neg h] at hflt; exact hflt

/-- A codeword that decodes in Acquire is answered and corrects the count; it makes the run of consistent codewords longer, and the eighth links the lane. -/
theorem gives_acquireStep {c : Nat} {w : List Nat} (hdec : rsDecode (cwSymbols cnt lane ffo data par) = some (c, w)) (hst : laneSt s l.toNat = 1)
    {g st good : Nat} (hg : goodRun (ml s l.toNat) (cwCount w) (cwLane w) = g) (hst' : (if g = 8 then 2 else 1) = st) (hgood : (if g = 8 then 0 else g) = good) :
    Gives (.codewordReceived l cnt lane ffo data par) s fun t => laneSt t l.toNat = st ∧ (ml t l.toNat).good = good ∧ (ml t l.toNat).next = ((ml s l.toNat).next + 1) % 1024 ∧
      fget t (MT_LANE_FEC_CORR l.toNat) = min (fget s (MT_LANE_FEC_CORR l.toNat) + c) (fmax (MT_LANE_FEC_CORR l.toNat)) ∧ OthersKept l.toNat s t ∧ t.flt = s.flt := by
  let s1 := bumpBy (sendCodeword s l.toNat) (MT_LANE_FEC_CORR l.toNat) c
  have htake : takeCodeword (sendCodeword s l.toNat) l.toNat (some (c, w)) = acquireStep s1 l.toNat (cwCount w) (cwLane w) := if_pos hst
  have hs1 : OnLanes (· = l.toNat) s s1 := (onLanes_sendCodeword s _).trans (onLanes_fset_fec (p := (· = l.toNat)) rfl _ 31 0 _)
  have hlanes : OnLanes (· = l.toNat) s (takeCodeword (sendCodeword s l.toNat) l.toNat (some (c, w))) := by
    rw [htake]; exact hs1.trans (onLanes_acquireStep (p := (· = l.toNat)) rfl _ _ _)
  obtain ⟨line, mid, out, hsend⟩ := ml_sendCodeword s l.toNat
  have hml1 : ml s1 l.toNat = _ := hsend
  have hg1 : goodRun (ml s1 l.toNat) (cwCount w) (cwLane w) = g := by rw [hml1]; exact hg
  have hst1 : laneSt s1 l.toNat = 1 := (laneSt_fset_fec _ _ _ _ _).trans hst
  have hcorr : fget s1 (MT_LANE_FEC_CORR l.toNat) = _ :=
    fget_bumpBy_same (sendCodeword s l.toNat) (MT_LANE_FEC_CORR l.toNat) c (by show 0x70040 + 8 * l.toNat ≠ 0; omega) (show 31 < 64 by decide)
  have hothers := (hlanes.trans (onLanes_pmStep _)).others
  refine gives_codeword hidle (by omega) hdec hlanes ?_
  rw [htake] at hothers ⊢
  rw [pmStep_flt, laneSt_pmStep, ml_pmStep, fget_pmStep, acquireStep_flt, laneSt_acquireStep, ml_acquireStep, fecCorr_acquireStep, hg1, hst1, hcorr, hml1]
  exact ⟨hst', hgood, rfl, rfl, hothers, rfl⟩

/-- A codeword that decodes in Linked or Up while the parser looks for a frame's start that FFO does not name changes no state. -/
theorem gives_unsynced {c : Nat} {w : List Nat} (hdec : rsDecode (cwSymbols cnt lane ffo data par) = some (c, w)) (hst : 2 ≤ laneSt s l.toNat)
    (hsync : (ml s l.toNat).sync = false) (hffo : 80 ≤ cwFfo w) :
    Gives (.codewordReceived l cnt lane ffo data par) s fun t => laneSt t l.toNat = laneSt s l.toNat ∧ (ml t l.toNat).unc = 0 ∧ OthersKept l.toNat s t ∧ t.flt = s.flt := by
  let s1 := bumpBy (sendCodeword s l.toNat) (MT_LANE_FEC_CORR l.toNat) c
  obtain ⟨line, mid, out, hsend⟩ := ml_sendCodeword s l.toNat
  have hsync1 : (ml s1 l.toNat).sync = false := (congrArg MLane.sync hsend).trans hsync
  have htake : takeCodeword (sendCodeword s l.toNat) l.toNat (some (c, w)) = updLane s1 l.toNat fun _ => parsedLane (ml s1 l.toNat) (cwCount w) (cwLane w) := by
    have hne : ¬ laneSt (sendCodeword s l.toNat) l.toNat = 1 := by show ¬ laneSt s l.toNat = 1; omega
    show (if laneSt (sendCodeword s l.toNat) l.toNat = 1 then _ else _) = _
    rw [if_neg hne, feedCodeword_unsynced hsync1 hffo]
    rfl
  have hlanes : OnLanes (· = l.toNat) s (takeCodeword (sendCodeword s l.toNat) l.toNat (some (c, w))) := by
    rw [htake]; exact ((onLanes_sendCodeword s _).trans (onLanes_fset_fec (p := (· = l.toNat)) rfl _ 31 0 _)).trans (onLanes_updLane _ _ _)
  have hothers := (hlanes.trans (onLanes_pmStep _)).others
  refine gives_codeword hidle (by omega) hdec hlanes ?_
  rw [htake] at hothers ⊢
  have hst1 : laneSt s1 l.toNat = laneSt s l.toNat := laneSt_fset_fec _ _ _ _ _
  rw [pmStep_flt, laneSt_pmStep, ml_pmStep, ml_updLane_same]
  exact ⟨hst1, rfl, hothers, rfl⟩

end

/-! #### The other events of a lane -/

theorem onLanes_laneAcquire {p : Nat → Prop} {l : Nat} (hl : p l) (s : State) : OnLanes p s (laneAcquire s l) := by
  refine OnLanes.trans ?_ (onLanes_fset_stat hl _ 1 0 1)
  exact ⟨rfl, rfl, ⟨rfl, rfl⟩, fun _ _ _ => rfl⟩

theorem good_laneAcquire (s : State) (l : Nat) : (ml (laneAcquire s l) l).good = 0 := by
  unfold laneAcquire
  rw [ml_fset, ml_updLane_same]

/-- The beacons of a millisecond leave on the lanes in Linked and Up. -/
def beaconsSent (s : State) : State := ((List.range 4).filter fun k => decide (2 ≤ laneSt s k)).foldl sendBeacon s

/-- The counts of a lane as a millisecond ends (R306). -/
def nextMs (x : MLane) : MLane := { x with uncMs := 0, flood := 0, wait := x.wait - 1, losses := (x.losses.map (· + 1)).filter (· < 1000) }

/-- The counts of the engine as a millisecond ends (R312, R318, R319, R324, R327). -/
def endMs (m : Mat) : Mat :=
  { m with
    bad := 0, reqs := [], regLeft := m.regLeft - 1,
    seen := (m.seen.map fun e => (e.1, e.2.1, e.2.2.1, e.2.2.2.1, e.2.2.2.2 - 1)).filter fun e => e.2.2.2.2 != 0,
    grps := m.grps.map fun p => (p.1, { p.2 with membs := p.2.membs.map fun m => { m with left := m.left - 1 } }) }

/-- BEACON_SEND: the beacons leave, and the engine's counts begin a new millisecond. -/
theorem exec_beaconSend {s : State} (hans : answers s 0x46 = true) :
    exec .beaconSend s = nextOf s ((List.range 4).foldl (fun t k => updLane t k nextMs) { beaconsSent s with mat := endMs (beaconsSent s).mat }) := by
  show execBeaconSend s = _
  unfold execBeaconSend
  rw [if_pos hans]
  rfl

section
variable {s : State} {l : BitVec 2}

theorem gives_laneReacquire (hst : laneSt s l.toNat = 0) (hmay : laneMay s l.toNat = true) :
    Gives (.laneReacquire l) s fun t => laneSt t l.toNat = 1 ∧ t.mat.oeReset = false ∧ (ml t l.toNat).good = 0 ∧ OthersKept l.toNat s t ∧ t.flt = s.flt := by
  have hlanes : OnLanes (· = l.toNat) s (laneAcquire s l.toNat) := onLanes_laneAcquire (p := (· = l.toNat)) rfl s
  have hx : exec (.laneReacquire l) s = nextOf s (laneAcquire s l.toNat) := congrArg (nextOf s) (if_pos ⟨hst, hmay⟩)
  exact gives_of_exec hx hlanes.member hlanes.pending ⟨laneSt_setState _ _ 1, rfl, good_laneAcquire s _, hlanes.others, rfl⟩

theorem gives_lossOfSignal (hst : laneSt s l.toNat ≠ 0) :
    Gives (.lossOfSignal l true) s fun t => laneSt t l.toNat = 0 ∧ flag t (MT_LANE_STAT_LOS l.toNat) = true ∧
      (2 ≤ laneSt s l.toNat → fget t (MT_LANE_STAT_DOWNS l.toNat) = min (fget s (MT_LANE_STAT_DOWNS l.toNat) + 1) (fmax (MT_LANE_STAT_DOWNS l.toNat))) ∧
      OthersKept l.toNat s t := by
  let s1 := fsetB s (MT_LANE_STAT_LOS l.toNat) true
  have hlanes : OnLanes (· = l.toNat) s (laneOff s1 l.toNat) := (onLanes_fset_stat (p := (· = l.toNat)) rfl s 2 2 _).trans (onLanes_laneOff (p := (· = l.toNat)) rfl _)
  have hx : exec (.lossOfSignal l true) s = nextOf s (laneOff s1 l.toNat) := congrArg (nextOf s) (if_pos (by simp [hst]))
  have hlos : flag s1 (MT_LANE_STAT_LOS l.toNat) = true := flag_fsetB_same s _ true (laneStat_ne_id _) (show 2 < 64 by decide) (Nat.le_refl 2)
  have hst1 : laneSt s1 l.toNat = laneSt s l.toNat := fget_stat_disj s _ _ (by decide) (.inl (by decide))
  have hdowns : fget s1 (MT_LANE_STAT_DOWNS l.toNat) = fget s (MT_LANE_STAT_DOWNS l.toNat) := fget_stat_disj s _ _ (by decide) (.inr (by decide))
  refine gives_of_exec hx hlanes.member hlanes.pending ⟨(laneSt_laneOff s1 _ l.isLt).trans (if_pos rfl), (los_laneOff s1 l.isLt).trans hlos, fun h => ?_, hlanes.others⟩
  rw [downs_laneOff s1 l.isLt (by rw [hst1]; exact h), hdowns]

theorem gives_signalReturns :
    Gives (.lossOfSignal l false) s fun t => flag t (MT_LANE_STAT_LOS l.toNat) = false ∧ laneSt t l.toNat = laneSt s l.toNat ∧ OthersKept l.toNat s t ∧ t.flt = s.flt ∧ t.mat = s.mat := by
  have hx : exec (.lossOfSignal l false) s = nextOf s (fsetB s (MT_LANE_STAT_LOS l.toNat) false) := rfl
  exact gives_of_exec hx rfl rfl ⟨flag_fsetB_same s _ false (laneStat_ne_id _) (show 2 < 64 by decide) (Nat.le_refl 2), fget_stat_disj s _ _ (by decide) (.inl (by decide)),
    (onLanes_fset_stat (p := (· = l.toNat)) rfl s 2 2 _).others, rfl, rfl⟩

theorem gives_beaconTimeout (hst : laneSt s l.toNat = 3) :
    Gives (.beaconTimeout l) s fun t => laneSt t l.toNat = 2 ∧ fget t (MT_LANE_STAT_PARTNER l.toNat) = 0 ∧ (ml t l.toNat).uid = none ∧
      Raised 0xC8 (some l.toNat) 0 0x46 s t ∧ OthersKept l.toNat s t ∧ ∀ r ∈ t.mat.dev, r.2.lane ≠ l.toNat := by
  let u := fset (leaveUp s l.toNat) (MT_LANE_STAT_STATE l.toNat) 2
  have hlanes : OnLanes (· = l.toNat) s u := (onLanes_leaveUp (p := (· = l.toNat)) rfl s).trans (onLanes_fset_stat (p := (· = l.toNat)) rfl _ 1 0 2)
  have hx : exec (.beaconTimeout l) s = nextOf s u := congrArg (nextOf s) (if_pos hst)
  refine gives_of_exec hx hlanes.member hlanes.pending ⟨laneSt_setState _ _ 2, ?_, ?_, ?_, hlanes.others, ?_⟩
  · exact (fget_stat_disj _ _ _ (by decide) (.inr (by decide))).trans (partner_leaveUp s _)
  · exact uid_leaveUp s l.toNat
  · exact (leaveUp_flt s _).trans (if_pos hst)
  · intro r hr
    have hmat : u.mat = _ := leaveUp_mat s l.toNat
    rw [hmat] at hr
    exact dropRoutes_dev s _ r hr

theorem gives_beaconSend (hans : answers s 0x46 = true) :
    Gives .beaconSend s fun t => t.regs = s.regs ∧ t.member = s.member ∧ t.mat.bad = 0 ∧
      t.mat.tx = s.mat.tx ++ ((List.range 4).filter fun k => decide (2 ≤ laneSt s k)).map fun k => (k, beaconBytes s k) := by
  obtain ⟨hsent, hframes⟩ : beaconsSent s = { s with mat := (beaconsSent s).mat } ∧ (beaconsSent s).mat.tx = _ := foldl_sendBeacon _ s
  obtain ⟨hrest, -⟩ := foldl_updLane nextMs (List.range 4) List.nodup_range { beaconsSent s with mat := endMs (beaconsSent s).mat }
  have hx := exec_beaconSend hans
  rw [hrest, hsent] at hx
  exact gives_of_exec hx rfl rfl ⟨rfl, rfl, rfl, hframes⟩

theorem gives_oeFault (hno : s.mat.oeFault = false) :
    Gives .oeFault s fun t => t.mat.oeFault = true ∧ (∀ k, k < 4 → laneSt t k = 0 ∧ laneMay t k = false) ∧ ⟨0xC9, none, 0, 0x46, false⟩ ∈ t.flt.raises ∧ t.fronds = s.fronds := by
  let s0 := { s with mat := { s.mat with oeFault := true } }
  let u := ((List.range 4).filter fun k => laneSt s0 k != 0).foldl laneOff s0
  have hu : OnLanes (fun _ => True) s0 u := onLanes_foldl_laneOff _ s0
  have hx : exec .oeFault s = nextOf s (raiseD u 0xC9 none 0 0x46) := congrArg (nextOf s) (if_neg (by rw [hno]; decide))
  have hfault : (raiseD u 0xC9 none 0 0x46).mat.oeFault = true := by rw [raiseD_mat]; exact hu.oe.2
  have hraise := raiseD_eq u 0xC9 none 0 0x46 (by decide)
  refine gives_of_exec hx ((raiseD_member ..).trans hu.member) ((raiseD_pending ..).trans hu.pending) ⟨hfault, fun k hk => ⟨?_, laneMay_of_oeFault hfault k⟩, ?_, ?_⟩
  · exact (fget_congr (raiseD_member ..) (raiseD_regs ..) _).trans (laneSt_allOff s0 hk)
  · rw [hraise]; exact List.mem_append_right _ (List.mem_singleton_self _)
  · rw [raiseD_fronds]; exact hu.fronds

theorem gives_oeFaultClear :
    Gives .oeFaultClear s fun t => t.mat.oeFault = false ∧ (∀ k, k < 4 → (ml t k).wait = max (ml s k).wait 10) ∧ t.regs = s.regs ∧ t.fronds = s.fronds ∧ t.flt = s.flt := by
  obtain ⟨hrest, hml⟩ := foldl_updLane (fun x => { x with wait := max x.wait 10 }) (List.range 4) List.nodup_range { s with mat := { s.mat with oeFault := false } }
  have hx : exec .oeFaultClear s = nextOf s _ := congrArg (nextOf s) hrest
  refine gives_of_exec hx rfl rfl ⟨rfl, fun k hk => ?_, rfl, rfl, rfl⟩
  exact congrArg MLane.wait ((hml k).trans (if_pos (List.mem_range.mpr hk)))

theorem gives_oeRemoved :
    Gives (.oePresentChange false) s fun t => t.mat.oeAbsent = true ∧ (∀ k, k < 4 → laneSt t k = 0 ∧ laneMay t k = false) ∧ t.fronds = s.fronds := by
  let s0 := { s with mat := { s.mat with oeAbsent := true } }
  let u := ((List.range 4).filter fun k => laneSt s0 k != 0).foldl laneOff s0
  have hu : OnLanes (fun _ => True) s0 u := onLanes_foldl_laneOff _ s0
  have hx : exec (.oePresentChange false) s = nextOf s u := rfl
  exact gives_of_exec hx hu.member hu.pending ⟨hu.oe.1, fun k hk => ⟨laneSt_allOff s0 hk, laneMay_of_oeAbsent hu.oe.1 k⟩, hu.fronds⟩

end

/-- Settles O54: each event of a lane by the lemma that says what it does. -/
theorem matLanes : Obligations.MatLanes := by
  intro s l
  refine ⟨fun cnt lane ffo data par hidle hbad => ⟨fun hst => ?_, fun hst hunc hms => ?_, gives_laneOff_of_bad hidle hbad⟩,
    fun cnt lane ffo data par c w hidle hdec hst => ⟨fun hrun h7 => ?_, fun hrun h7 => ?_, fun hrun => ?_⟩,
    fun cnt lane ffo data par c w hidle => gives_unsynced hidle, gives_laneReacquire, gives_lossOfSignal, gives_signalReturns, gives_beaconTimeout, fun hans => ?_, gives_oeFault,
    gives_oeFaultClear, gives_oeRemoved, ⟨_, rfl, rfl⟩⟩
  · refine gives_imp (gives_countBad hidle hbad (by omega) (by omega)) fun t h => ?_
    obtain ⟨hothers, hflt, hst', hgood, -, hunc⟩ := h
    exact ⟨hst'.trans hst, hgood, hunc, hothers, hflt⟩
  · refine gives_imp (gives_countBad hidle hbad (by omega) (by omega)) fun t h => ?_
    obtain ⟨hothers, hflt, hst', -, hunc, -⟩ := h
    exact ⟨hst', hunc, hothers, hflt⟩
  · exact gives_acquireStep hidle hdec hst ((goodRun_of_run hrun).trans (congrArg (· + 1) h7)) rfl rfl
  · exact gives_acquireStep hidle hdec hst (goodRun_of_run hrun) (if_neg (by omega)) (if_neg (by omega))
  · exact gives_acquireStep hidle hdec hst (goodRun_of_break hrun) rfl rfl
  · refine gives_imp (gives_beaconSend hans) fun t h => ?_
    obtain ⟨hregs, hmem, hbad, htx⟩ := h
    refine ⟨fun k _ => fget_congr hmem hregs _, hregs, hbad, _, htx, by simp [Function.comp_def], fun p hp => ?_⟩
    obtain ⟨k, hk, rfl⟩ := List.mem_map.mp hp
    exact beaconBytes_fields s (List.mem_range.mp (List.mem_filter.mp hk).1)

end Sys2Proof.Machine
end

section
/-! The PMBus target (R415, R416): a read of VP_VIN_STAT through it. -/
namespace Sys2Proof.Machine
open Sys2Proof.Claims

/-- After reset, VP_VIN_STAT shows 12,000 mV and, as the lowest mean since its last read, 11,900 mV. -/
def vinDipped : State := setReg State.reset VP_VIN_STAT (BitVec.ofNat 64 (12000 + 11900 * 2 ^ 32))

theorem pmFree_vinDipped : pmFree vinDipped = true := by decide +kernel

theorem ready_vinDipped : Ready vinDipped := ⟨rfl, rfl, rfl, rfl, by decide, rfl, by decide +kernel, by decide +kernel, by decide +kernel⟩

theorem holder_answers_vinDipped (k : Nat) (hk : holder VP_VIN_STAT = some k) : answers vinDipped k = true := by
  cases (show holder VP_VIN_STAT = some 0x43 from rfl).symm.trans hk
  decide +kernel

theorem vin_linear11_vinDipped : ((linear11 ((fget vinDipped VP_VIN_STAT_VIN : Rat) / 1000)).map (leBytes 2)).isSome = true := by decide +kernel

/-- READ_VIN is served as a host read of VP_VIN_STAT (R415), and such a read returns VIN_MIN, an RC field, to its reset value (R9). -/
theorem readVin_clears_vinMin : (match exec .readVin vinDipped with | .next t => fget t VP_VIN_STAT_VIN_MIN | _ => 0) = 0xFFFF := by decide +kernel

/-- Refutes O59: READ_VIN, like every read of Table 20-4, is served as a host read of its source (R415), and VIN_MIN of VP_VIN_STAT is an RC field (R9, Table 9-20): the read takes it from 11,900 to 0xFFFF, where the
statement has a read change nothing but the PMBus target. -/
theorem not_pmbusCommands : ¬ Obligations.PmbusCommands := by
  intro h
  obtain ⟨-, -, -, -, -, -, -, hvin, -⟩ := h vinDipped pmFree_vinDipped
  obtain ⟨l, hl⟩ := Option.isSome_iff_exists.mp vin_linear11_vinDipped
  obtain ⟨t, ht, -, -, hframe⟩ := hvin ready_vinDipped holder_answers_vinDipped l hl
  have hmin := readVin_clears_vinMin
  rw [ht, hframe] at hmin
  have hwas : fget vinDipped VP_VIN_STAT_VIN_MIN = 11900 := by decide +kernel
  exact absurd (hmin.symm.trans hwas) (by decide)

end Sys2Proof.Machine
end

section
/-! Frond cores: what arrives at a core, in order, and what it acknowledges (R22, R23, R27, R78, R79, R88). -/
namespace Sys2Proof.Machine
open Sys2Proof.Claims

/-! #### Frames of one frond -/

theorem inFrond_updFr (s : State) (f : Nat) (g : Frond → Frond) : InFrond f s (updFr s f g) := ⟨rfl, fun _ h => fr_updFr_ne s f _ g h, fun _ _ => rfl⟩

/-! #### Whole records of a data stream (R27) -/

/-- The receiver of stream k expects the number after `seq`. -/
def expectAfter (s : State) (k seq : Nat) : State := { s with strms := tset s.strms k { tget {} s.strms k with next := some (BitVec.ofNat 32 (seq + 1)) } }

/-- A record whose number is expected, or the first one of a restarted receiver, only moves the expected number. -/
theorem recvSeq_expected {s : State} {k src rx seq : Nat} (h : (tget {} s.strms k).next = none ∨ (tget {} s.strms k).next = some (BitVec.ofNat 32 seq)) :
    recvSeq s k src rx seq = expectAfter s k seq := if_pos h

/-- Any other record is a gap, counted at the receiver and raised. -/
theorem recvSeq_gap {s : State} {k src rx seq : Nat} (h : ¬ ((tget {} s.strms k).next = none ∨ (tget {} s.strms k).next = some (BitVec.ofNat 32 seq))) :
    recvSeq s k src rx seq = raiseD (setIsl (expectAfter s k seq) rx { isl s rx with gaps := min 0xFFFF ((isl s rx).gaps + 1) }) 0x0E none src rx := if_neg h

/-- The arrival of a record touches streams, islands and the raises in flight alone. -/
theorem recvSeq_rest (s : State) (k src rx seq : Nat) :
    recvSeq s k src rx seq = { s with strms := (recvSeq s k src rx seq).strms, isls := (recvSeq s k src rx seq).isls, flt := (recvSeq s k src rx seq).flt } := by
  by_cases h : (tget {} s.strms k).next = none ∨ (tget {} s.strms k).next = some (BitVec.ofNat 32 seq)
  · rw [recvSeq_expected h]; rfl
  · rw [recvSeq_gap h, raiseD_eq _ _ _ _ _ (by decide)]; rfl

theorem recvRec_rest (s : State) (rx p : Nat) : recvRec s rx p = { s with strms := (recvRec s rx p).strms, isls := (recvRec s rx p).isls, flt := (recvRec s rx p).flt } :=
  recvSeq_rest s _ _ rx _

/-! #### Updates and signals -/

/-- Update m has arrived at frond core f and waits for its boundary; `rest` is still in flight. -/
def arrived (s : State) (f : Nat) (m : FMsg) (rest : List FMsg) : State := updFr s f fun x => { x with upd := rest, inbox := x.inbox ++ [(0, m)] }

section
variable {s : State} {f : Nat} {m : FMsg} {rest : List FMsg}

theorem takeSignal_eq {p : FMsg → Bool} (hans : answers s f = true) (hm : takeUpd p [] (fr s f).upd = some (m, rest)) : takeSignal s f p = arrived s f m rest := by
  unfold takeSignal
  rw [if_pos hans, hm]
  rfl

theorem gives_arrived {i : Instr} (hx : exec i s = nextOf s (arrived s f m rest)) :
    Gives i s fun t => (fr t f).inbox = (fr s f).inbox ++ [(0, m)] ∧ (fr t f).upd = rest ∧ InFrond f s t ∧ t.regs = s.regs ∧ t.flt = s.flt := by
  have hfr : fr (arrived s f m rest) f = { fr s f with upd := rest, inbox := (fr s f).inbox ++ [(0, m)] } := fr_updFr_same s f _
  exact gives_of_exec hx rfl rfl ⟨by rw [hfr], by rw [hfr], inFrond_updFr s f _, rfl, rfl⟩

theorem gives_signal {i : Instr} {p : FMsg → Bool} (hx : exec i s = nextOf s (takeSignal s f p)) (hans : answers s f = true) (hm : takeUpd p [] (fr s f).upd = some (m, rest)) :
    Gives i s fun t => (fr t f).inbox = (fr s f).inbox ++ [(0, m)] ∧ (fr t f).upd = rest ∧ InFrond f s t ∧ t.regs = s.regs ∧ t.flt = s.flt :=
  gives_arrived (hx.trans (congrArg (nextOf s) (takeSignal_eq hans hm)))

theorem gives_remoteUpdate (hf : hasF s f = true) (hans : answers s f = true) (hm : takeUpd isPlainUpd [] (fr s f).upd = some (m, rest)) :
    Gives (.remoteUpdate f) s fun t => (fr t f).inbox = (fr s f).inbox ++ [(0, m)] ∧ (fr t f).upd = rest ∧ InFrond f s t ∧ t.regs = s.regs ∧ t.flt = s.flt := by
  refine gives_arrived ?_
  show execRemoteUpdate f s = _
  unfold execRemoteUpdate
  rw [if_pos (by rw [hf, hans]; rfl), hm]
  rfl

/-- The arrival of the leader's BX counts in the sequence of its stream (R27, R78). -/
def bxCounted (s : State) (f : Nat) (m : FMsg) : State := match m with | .bx prov _ => recvRec s f prov | _ => s

theorem bxCounted_rest (s : State) (f : Nat) (m : FMsg) :
    bxCounted s f m = { s with strms := (bxCounted s f m).strms, isls := (bxCounted s f m).isls, flt := (bxCounted s f m).flt } := by
  cases m with
  | bx prov _ => exact recvRec_rest s f prov
  | _ => rfl

theorem exec_bxRecord (hf : hasF s f = true) (hans : answers s f = true) (hm : takeUpd isBx [] (fr s f).upd = some (m, rest)) :
    exec (.bxRecord f) s = nextOf s (arrived (bxCounted s f m) f m rest) := by
  show execBxRecord f s = _
  unfold execBxRecord
  simp only [hf, hans, hm]
  rfl

theorem gives_bxRecord (hf : hasF s f = true) (hans : answers s f = true) (hm : takeUpd isBx [] (fr s f).upd = some (m, rest)) :
    Gives (.bxRecord f) s fun t =>
      (fr t f).inbox = (fr s f).inbox ++ [(0, m)] ∧ (fr t f).upd = rest ∧ (∀ g, g ≠ f → fr t g = fr s g) ∧ t.regs = s.regs ∧ t.bus = s.bus := by
  have hx := exec_bxRecord hf hans hm
  rw [bxCounted_rest] at hx
  refine gives_of_exec hx rfl rfl ?_
  generalize bxCounted s f m = u
  have hfr := fr_updFr_same { s with strms := u.strms, isls := u.isls, flt := u.flt } f fun x => { x with upd := rest, inbox := x.inbox ++ [(0, m)] }
  exact ⟨congrArg Frond.inbox hfr, congrArg Frond.upd hfr, fun g hg => fr_updFr_ne _ f g _ hg, rfl, rfl⟩

end

/-- Settles O3: each signal by the arrival that it is (R22, R23). -/
theorem signalsWaitForTheBoundary : Obligations.SignalsWaitForTheBoundary := fun _ _ _ _ hf hans =>
  ⟨gives_signal rfl hans, gives_signal rfl hans, gives_signal rfl hans, gives_signal rfl hans, gives_remoteUpdate hf hans, gives_bxRecord hf hans⟩

/-! #### Commands (R27, R77, R79, R88) -/

/-- The oldest command in flight has left the stream. -/
def popAir (s : State) (f : Nat) (rest : List FCmd) : State := updFr s f fun x => { x with air := rest }

theorem fr_popAir (s : State) (f : Nat) (rest : List FCmd) : fr (popAir s f rest) f = { fr s f with air := rest } := fr_updFr_same s f _

/-- What a core keeps of a command that it has checked: the next number, and the command itself if its outcome is good. -/
def checkedFrond (x : Frond) (c : FCmd) (ok : Bool) : Frond := { x with exp := x.exp + 1, inbox := if ok then x.inbox ++ [(c.seq, c.msg)] else x.inbox }

/-- Frond core f has checked command c, and its acknowledgement has left. -/
def checked (s : State) (f : Nat) (c : FCmd) (ok : Bool) : State :=
  sendOn { updFr s f (checkedFrond · c ok) with bus := { s.bus with acks := s.bus.acks ++ [{ isl := f, ok := ok, wait := c.wait, cmd := some c }] } } f 3

theorem fr_checked (s : State) (f : Nat) (c : FCmd) (ok : Bool) : fr (checked s f c ok) f = checkedFrond (fr s f) c ok := fr_updFr_same s f (checkedFrond · c ok)

theorem takeCommand_due {s : State} {f : Nat} {c : FCmd} {ok : Bool} (hdue : c.seq % 2 ^ 32 = (fr s f).exp % 2 ^ 32) (hok : cmdRefused s f c.msg = !ok) :
    takeCommand s f c = checked s f c ok := by
  unfold takeCommand
  rw [if_pos hdue, hok, Bool.not_not]
  rfl

/-- A command out of sequence changes nothing. -/
theorem takeCommand_refused {s : State} {f : Nat} {c : FCmd} (h : ¬ c.seq % 2 ^ 32 = (fr s f).exp % 2 ^ 32) : takeCommand s f c = s := if_neg h

section
variable {s : State} {f : Nat} {c : FCmd} {rest : List FCmd}

theorem exec_frondCommand (hf : hasF s f = true) (hans : answers s f = true) (hair : (fr s f).air = c :: rest) :
    exec (.frondCommand f .clean) s = nextOf s (takeCommand (popAir s f rest) f c) := by
  show execFrondCommand f .clean s = _
  unfold execFrondCommand
  rw [if_pos (by rw [hf, hans]; rfl), hair]
  rfl

/-- A command that carries the expected number, whatever row brings it. -/
theorem gives_takeCommand {i : Instr} (hx : exec i s = nextOf s (takeCommand (popAir s f rest) f c)) (hdue : c.seq % 2 ^ 32 = (fr s f).exp % 2 ^ 32) (ok : Bool)
    (hok : cmdRefused (popAir s f rest) f c.msg = !ok) :
    Gives i s fun t => (fr t f).air = rest ∧ (fr t f).inbox = (if ok then (fr s f).inbox ++ [(c.seq, c.msg)] else (fr s f).inbox) ∧ (fr t f).exp = (fr s f).exp + 1 ∧
      t.bus.acks = s.bus.acks ++ [{ isl := f, ok := ok, wait := c.wait, cmd := some c }] ∧ t.regs = s.regs ∧ t.flt = s.flt := by
  have hpop : c.seq % 2 ^ 32 = (fr (popAir s f rest) f).exp % 2 ^ 32 := by rw [fr_popAir]; exact hdue
  rw [takeCommand_due hpop hok] at hx
  have hfr : fr (checked (popAir s f rest) f c ok) f = checkedFrond { fr s f with air := rest } c ok := (fr_checked _ f c ok).trans (by rw [fr_popAir])
  exact gives_of_exec hx rfl rfl ⟨congrArg Frond.air hfr, congrArg Frond.inbox hfr, congrArg Frond.exp hfr, rfl, rfl, rfl⟩

/-- A scalar push or a cap word is refused by no core (R77). -/
theorem cmdRefused_scalar {m : FMsg} (h : isScalarCmd m = true) (s : State) (f : Nat) : cmdRefused s f m = false := by
  cases m with
  | scalar => rfl
  | capWord => rfl
  | _ => cases h

theorem exec_remoteUpdate_scalar (hf : hasF s f = true) (hans : answers s f = true) (hair : (fr s f).air = c :: rest) (hc : isScalarCmd c.msg = true)
    (hupd : takeUpd isPlainUpd [] (fr s f).upd = none) : exec (.remoteUpdate f) s = nextOf s (takeCommand (popAir s f rest) f c) := by
  show execRemoteUpdate f s = _
  unfold execRemoteUpdate
  rw [if_pos (by rw [hf, hans]; rfl), hupd, hair]
  exact congrArg (nextOf s) (if_pos hc)

end

/-- Settles O4: a command in sequence by what its acknowledgement says, one out of sequence by the frame of what it leaves (R27, R88). -/
theorem frondCommandInOrder : Obligations.FrondCommandInOrder := by
  intro s f c rest hf hans hair
  have hx := exec_frondCommand hf hans hair
  refine ⟨fun hdue hok => ?_, fun hdue hok => ?_, fun hdue => ?_, fun hdue hc hupd => ?_⟩
  · exact gives_imp (gives_takeCommand hx hdue true hok) fun t h => h.2
  · exact gives_imp (gives_takeCommand hx hdue false hok) fun t h => h.2
  · have hpop : ¬ c.seq % 2 ^ 32 = (fr (popAir s f rest) f).exp % 2 ^ 32 := by rw [fr_popAir]; exact hdue
    rw [takeCommand_refused hpop] at hx
    exact gives_of_exec hx rfl rfl ⟨by rw [fr_popAir], by rw [fr_popAir], by rw [fr_popAir], inFrond_updFr s f _, rfl, rfl⟩
  · exact gives_takeCommand (exec_remoteUpdate_scalar hf hans hair hc hupd) hdue true (cmdRefused_scalar hc _ _)

end Sys2Proof.Machine
end

section
/-! The register map: what an address names, and what a write stores (Table 0-3, Tables 19-1 and 19-6 to 19-11). -/
namespace Sys2Proof.Machine

/-! #### Addresses -/

/-- The row that is found assigns the offset. -/
theorem findRow_spec {rs : List RegRow} {o : Nat} {p : RegRow × Nat} (h : findRow rs o = some p) : p.1 ∈ rs ∧ p.1.off ≤ o ∧ (o - p.1.off) % p.1.stride = 0 := by
  induction rs with
  | nil => cases h
  | cons r rs ih =>
    unfold findRow at h
    split at h
    next hr => cases h; exact ⟨List.mem_cons_self, hr.1, hr.2.1⟩
    next => exact ⟨List.mem_cons_of_mem _ (ih h).1, (ih h).2⟩

/-- Rows that end before an offset do not assign it. -/
theorem findRow_append {l rs : List RegRow} {o : Nat} (h : ∀ r ∈ l, 0 < r.stride ∧ r.off + r.stride * r.cnt ≤ o) : findRow (l ++ rs) o = findRow rs o := by
  induction l with
  | nil => rfl
  | cons r l ih =>
    obtain ⟨⟨hpos, hend⟩, hl⟩ := List.forall_mem_cons.mp h
    have hcnt : ¬ (o - r.off) / r.stride < r.cnt := by
      rw [Nat.div_lt_iff_lt_mul hpos, Nat.mul_comm]
      omega
    rw [List.cons_append, findRow, if_neg fun hr => hcnt hr.2.2.1, ih hl]

/-- Every row of the register map lies on 8-byte steps. -/
theorem rows_aligned : (∀ k, k < 10 → ∀ r ∈ rowsOfBlock k, r.off % 8 = 0 ∧ r.stride % 8 = 0) ∧ ∀ r ∈ rowsFR, r.off % 8 = 0 ∧ r.stride % 8 = 0 := by decide +kernel

theorem aligned_of_findRow {rs : List RegRow} {o : Nat} {p : RegRow × Nat} (hrs : ∀ r ∈ rs, r.off % 8 = 0 ∧ r.stride % 8 = 0) (h : findRow rs o = some p) : o % 8 = 0 := by
  obtain ⟨hmem, hle, hmod⟩ := findRow_spec h
  obtain ⟨hoff, hstride⟩ := hrs _ hmem
  have h8 : (o - p.1.off) % 8 = 0 := Nat.mod_eq_zero_of_dvd ((Nat.dvd_of_mod_eq_zero hstride).trans (Nat.dvd_of_mod_eq_zero hmod))
  omega

/-- A register is found at an aligned address below the frond blocks' end (Table 19-1). -/
theorem addr_of_regAt {a : Nat} {r : RegAt} (h : regAt a = some r) : a % 8 = 0 ∧ a < 0x500000 := by
  unfold regAt at h
  split at h
  next ha =>
    split at h
    next => cases h
    next hrow =>
      have hal := aligned_of_findRow (rows_aligned.1 _ (by omega)) hrow
      omega
  next =>
    split at h
    next ha =>
      split at h
      next => cases h
      next hrow =>
        have hal := aligned_of_findRow rows_aligned.2 hrow
        omega
    next => cases h

/-- A register of a frond block: its row and index follow from the offset, its frond from the block. -/
theorem regAt_frond {a : Nat} {r : RegAt} (h : regAt a = some r) (ha : 0x100000 ≤ a) :
    r.f = (a - 0x100000) / 0x10000 ∧ findRow rowsFR ((a - 0x100000) % 0x10000) = some (r.row, r.i) := by
  unfold regAt at h
  rw [if_neg (by omega)] at h
  split at h
  · split at h
    next => cases h
    next hrow => cases h; exact ⟨rfl, hrow⟩
  · cases h

/-! #### Stores -/

/-- Storing the RW bits of a word: those take the written value, and the others stay (Table 0-3). -/
theorem storedWord (x : W64) (rw v : Nat) :
    BitVec.ofNat 64 (x.toNat - (x.toNat &&& rw) + (v &&& rw)) = (x &&& ~~~(BitVec.ofNat 64 rw)) ||| (BitVec.ofNat 64 v &&& BitVec.ofNat 64 rw) := by
  generalize hR : BitVec.ofNat 64 rw = R
  have hx : BitVec.ofNat 64 (x.toNat &&& rw) = x &&& R := by rw [BitVec.ofNat_and, BitVec.ofNat_toNat, BitVec.setWidth_eq, hR]
  have hv : BitVec.ofNat 64 (v &&& rw) = BitVec.ofNat 64 v &&& R := by rw [BitVec.ofNat_and, hR]
  have hkeep : x = (x &&& ~~~R) + (x &&& R) := by
    rw [BitVec.add_eq_or_of_and_eq_zero _ _ (by ext i; simp; grind)]
    ext i; simp; grind
  have hsub : BitVec.ofNat 64 (x.toNat - (x.toNat &&& rw)) = x &&& ~~~R := by
    have hadd : BitVec.ofNat 64 (x.toNat - (x.toNat &&& rw)) + (x &&& R) = x := by
      rw [← hx, ← BitVec.ofNat_add, Nat.sub_add_cancel Nat.and_le_left, BitVec.ofNat_toNat, BitVec.setWidth_eq]
    have := hadd.trans hkeep
    exact add_right_cancel this
  rw [BitVec.ofNat_add, hsub, hv, BitVec.add_eq_or_of_and_eq_zero _ _ (by ext i; simp; grind)]

/-- A write to a register without W1C bits stores its RW bits. -/
theorem storeAll_eq {a : Nat} {r : RegAt} (hr : regAt a = some r) (hw : r.row.w1c = 0) (s : State) (v : Nat) :
    storeAll s a v = setReg s a ((reg s a &&& ~~~(BitVec.ofNat 64 r.row.rw)) ||| (BitVec.ofNat 64 v &&& BitVec.ofNat 64 r.row.rw)) := by
  unfold storeAll storeRw
  simp only [hr, hw, if_true, storedWord]

/-- A field that the RW bits cover takes its bits of the written value. -/
theorem fget_storeAll_same {a : Nat} {r : RegAt} (hr : regAt a = some r) (hw : r.row.w1c = 0) (ha : a ≠ RZ_ID) {hi lo : Nat} (hh : hi < 64)
    (hrw : bitsOf r.row.rw hi lo = 2 ^ (hi + 1 - lo) - 1) (s : State) (v : Nat) : fget (storeAll s a v) ⟨a, hi, lo⟩ = bitsOf v hi lo := by
  unfold fget
  rw [storeAll_eq hr hw, reg_setReg_same _ _ _ ha]
  apply Nat.eq_of_testBit_eq
  intro i
  have hbit := congrArg (Nat.testBit · i) hrw
  simp only [testBit_bitsOf, Nat.testBit_two_pow_sub_one] at hbit ⊢
  by_cases h : i < hi + 1 - lo
  · have hlt : lo + i < 64 := by omega
    simp only [h, decide_true, Bool.true_and] at hbit
    simp only [h, decide_true, Bool.true_and, BitVec.testBit_toNat, BitVec.getLsbD_or, BitVec.getLsbD_and, BitVec.getLsbD_not, BitVec.getLsbD_ofNat, hlt, hbit, Bool.not_true, Bool.and_false,
      Bool.false_or, Bool.and_true]
  · simp [h]

end Sys2Proof.Machine
end

section
/-! Islands, streams and queues (R17, R18, R25, R27, R360 to R363, R410). -/
namespace Sys2Proof.Machine
open Sys2Proof.Claims

/-! #### REF_CLK and heartbeats -/

/-- A lane that is not Off goes Off. -/
def laneDrop (s : State) (l : Nat) : State := if laneSt s l = 0 then s else laneOff s l

theorem onLanes_laneDrop (s : State) (l : Nat) : OnLanes (fun _ => True) s (laneDrop s l) := by
  unfold laneDrop
  split
  · exact .refl s
  · exact onLanes_laneOff trivial s

theorem laneSt_laneDrop (s : State) (l : Nat) {k : Nat} (hk : k < 4) : laneSt (laneDrop s l) k = if k = l then 0 else laneSt s k := by
  unfold laneDrop
  split
  next h => split <;> simp_all
  next => exact laneSt_laneOff s l hk

theorem mem_raises_laneDrop {s : State} {x : Raise} (h : x ∈ s.flt.raises) (l : Nat) : x ∈ (laneDrop s l).flt.raises := by
  unfold laneDrop
  split
  · exact h
  · rw [laneOff_flt]
    split
    · exact List.mem_append_left _ h
    · exact h

theorem laneSt_foldl_laneDrop (ls : List Nat) (s : State) {k : Nat} (hk : k < 4) : laneSt (ls.foldl laneDrop s) k = if k ∈ ls then 0 else laneSt s k := by
  induction ls generalizing s with
  | nil => simp
  | cons l ls ih =>
    rw [List.foldl_cons, ih, laneSt_laneDrop s l hk]
    by_cases h1 : k ∈ ls <;> by_cases h2 : k = l <;> simp [h1, h2]

theorem mem_raises_foldl_laneDrop (ls : List Nat) {s : State} {x : Raise} (h : x ∈ s.flt.raises) : x ∈ (ls.foldl laneDrop s).flt.raises := by
  induction ls generalizing s with
  | nil => exact h
  | cons l ls ih => exact ih (mem_raises_laneDrop h l)

theorem gives_refClkAbsent {s : State} (hno : s.chip.refAbsent = false) :
    Gives .refClkAbsent s fun t => t.chip.refAbsent = true ∧ (∀ l, l < 4 → laneSt t l = 0) ∧ ⟨0, none, 0, 0x47, false⟩ ∈ t.flt.raises ∧ t.fronds = s.fronds ∧ t.bus = s.bus := by
  let s1 := raiseD { s with chip := { s.chip with refAbsent := true } } 0x00 none 0 0x47
  have hs1 : s1 = { s with chip := { s.chip with refAbsent := true }, flt := { s.flt with raises := s.flt.raises ++ [⟨0, none, 0, 0x47, false⟩] } } := raiseD_eq _ _ _ _ _ (by decide)
  have hx : exec .refClkAbsent s = nextOf s ((List.range 4).foldl laneDrop s1) := congrArg (nextOf s) (if_neg (by rw [hno]; decide))
  have hfold : OnLanes (fun _ => True) s1 ((List.range 4).foldl laneDrop s1) := OnLanes.foldl _ onLanes_laneDrop _ s1
  have hrest := hfold.rest
  refine gives_of_exec hx (hfold.member.trans (by rw [hs1])) (hfold.pending.trans (by rw [hs1])) ⟨?_, fun l hl => ?_, ?_, ?_, ?_⟩
  · rw [hrest, hs1]
  · rw [laneSt_foldl_laneDrop _ _ hl, if_pos (List.mem_range.mpr hl)]
  · exact mem_raises_foldl_laneDrop _ (by rw [hs1]; exact List.mem_append_right _ (List.mem_singleton_self _))
  · rw [hfold.fronds, hs1]
  · rw [hfold.bus, hs1]

theorem gives_heartbeatToggle {s : State} {i : BitVec 8} (hi : hasIsl s i.toNat = true) (hreset : (isl s i.toNat).inReset = false) (hno : s.chip.restart = none) :
    Gives (.heartbeatToggle i false) s fun t =>
      answers t i.toNat = true ∧ (isl t i.toNat).beat = !(isl s i.toNat).beat ∧ (∀ j, j ≠ i.toNat → isl t j = isl s j) ∧ t = { s with isls := t.isls } := by
  have hx : exec (.heartbeatToggle i false) s =
      nextOf s (setIsl s i.toNat { isl s i.toNat with beat := !(isl s i.toNat).beat, stopped := false, halted := false }) := by
    show execHeartbeatToggle i false s = _
    unfold execHeartbeatToggle
    simp only [hi, hreset, hno]
    rfl
  refine gives_of_exec hx rfl rfl ⟨?_, by rw [isl_setIsl_same], fun j hj => isl_setIsl_ne s _ j _ hj, rfl⟩
  unfold answers
  simp [hreset]

/-- The stop sources are listed in Table 15-1. -/
theorem fltRow_stop (c : Nat) (h : c < 14) : (fltRow c).isSome = true := by
  revert c
  decide

theorem raiseD_rest (s : State) (c : Nat) (u : Option Nat) (d i : Nat) : raiseD s c u d i = { s with flt := (raiseD s c u d i).flt } := by
  unfold raiseD
  split <;> rfl

theorem gives_islandStopped {s : State} {i : BitVec 8} (hi : hasIsl s i.toNat = true) (h47 : i.toNat ≠ 0x47) (hrun : (isl s i.toNat).stopped = false) (hans : answers s 0x47 = true) :
    Gives (.islandStopped i) s fun t =>
      answers t i.toNat = false ∧ (∀ j, j ≠ i.toNat → isl t j = isl s j) ∧ t = { s with isls := t.isls, flt := t.flt } ∧
      ∀ c u, stopSource i.toNat = (c, u) → c < 14 → Raised c u 0 0x47 s t := by
  let s1 := setIsl s i.toNat { isl s i.toNat with stopped := true, halted := true }
  let t := raiseD s1 (stopSource i.toNat).1 (stopSource i.toNat).2 0 0x47
  have hx : exec (.islandStopped i) s = nextOf s t := by
    have hne : (i.toNat != 0x47) = true := bne_iff_ne.mpr h47
    exact congrArg (nextOf s) (if_pos (by rw [hi, hne, hrun, hans]; rfl))
  have hisl : ∀ j, isl t j = isl s1 j := fun j => by unfold isl; rw [raiseD_isls]
  refine gives_of_exec hx (raiseD_member ..) (raiseD_pending ..) ⟨?_, fun j hj => ?_, ?_, fun c u hcu hc => ?_⟩
  · unfold answers
    rw [hisl, isl_setIsl_same]
    rfl
  · rw [hisl, isl_setIsl_ne s _ j _ hj]
  · exact (raiseD_rest s1 _ _ _ _).trans (by rw [raiseD_isls]; rfl)
  · have ht : t = raiseD s1 c u 0 0x47 := by show raiseD s1 (stopSource i.toNat).1 (stopSource i.toNat).2 0 0x47 = _; rw [hcu]
    rw [ht, raiseD_eq _ _ _ _ _ (fltRow_stop c hc)]
    rfl

/-- Settles O37: the lanes one after another, and the source of a stop by its island (Table 15-1). -/
theorem clocksAndHeartbeats : Obligations.ClocksAndHeartbeats := by
  intro s
  refine ⟨gives_refClkAbsent, ⟨_, rfl, rfl⟩, fun i => gives_heartbeatToggle, fun i hi h47 hrun hans => ?_⟩
  refine gives_imp (gives_islandStopped hi h47 hrun hans) fun t ht => ?_
  obtain ⟨hans', hothers, hrest, hraised⟩ := ht
  refine ⟨hans', hothers, hrest, fun f hf h64 => hraised _ _ ?_ (by omega), fun k hk hik => hraised _ _ ?_ (by omega), fun k hk hik => hraised _ _ ?_ (by omega)⟩
  · unfold stopSource; rw [if_pos (by omega), hf]
  · unfold stopSource; rw [if_neg (by omega), if_pos (by omega)]; congr 1; omega
  · unfold stopSource; rw [if_neg (by omega), if_neg (by omega)]; congr 1; omega

/-! #### The words of a queue -/

/-- A stream takes a new state. -/
def putStrm (s : State) (k : Nat) (x : Strm) : State := { s with strms := tset s.strms k x }

theorem strm_putStrm_same (s : State) (k : Nat) (x : Strm) : tget {} (putStrm s k x).strms k = x := tget_tset_same _ _ _ _
theorem strm_putStrm_ne (s : State) {j k : Nat} (x : Strm) (h : j ≠ k) : tget {} (putStrm s k x).strms j = tget {} s.strms j := tget_tset_ne _ _ _ _ _ h

/-- The key of stream n of island i. -/
abbrev queueKey (i : BitVec 8) (n : BitVec 5) : Nat := 32 * i.toNat + n.toNat

/-- Stream n of island i. -/
abbrev queueStrm (s : State) (i : BitVec 8) (n : BitVec 5) : Strm := tget {} s.strms (queueKey i n)

theorem queueStrm_putStrm (s : State) (i : BitVec 8) (n : BitVec 5) (x : Strm) : queueStrm (putStrm s (queueKey i n) x) i n = x := strm_putStrm_same s _ x

/-- The other streams stay as they are. -/
abbrev OnlyStrm (k : Nat) (s t : State) : Prop := ∀ j, j ≠ k → tget {} t.strms j = tget {} s.strms j

section
variable {s : State} {i : BitVec 8} {n : BitVec 5} {rx : BitVec 8} {tag : BitVec 2} {w : W64}

/-- A clean first word of a packet, on a stream that is not dropping the packet before it, is checked for its number. -/
theorem exec_queueWord_first (htag : tag.toNat ≤ 1) (hdrop : (queueStrm s i n).dropping ≠ 1) {t : State} {x : Strm}
    (hc : checkSeq s i.toNat n.toNat rx.toNat (queueStrm s i n) (BitVec.ofNat 32 w.toNat) = (t, x)) :
    exec (.queueWord i n rx tag w .clean) s = nextOf s (putStrm t (queueKey i n) { x with fill := tag.toNat, dropping := 0 }) := by
  show execQueueWord i n rx tag w .clean s = _
  unfold execQueueWord
  simp only [hdrop, takeWord, htag, hc, if_true, if_false]
  rfl

theorem gives_queueWord_expected (htag : tag.toNat ≤ 1) (hdrop : (queueStrm s i n).dropping ≠ 1)
    (hseq : BitVec.ofNat 32 w.toNat = (queueStrm s i n).expect) :
    Gives (.queueWord i n rx tag w .clean) s fun t =>
      queueStrm t i n = { queueStrm s i n with
        expect := (queueStrm s i n).expect + 1, refusing := false, fill := tag.toNat, dropping := 0 } ∧
      OnlyStrm (queueKey i n) s t ∧ t = { s with strms := t.strms } := by
  have hx := exec_queueWord_first (s := s) (i := i) (n := n) (rx := rx) (w := w) htag hdrop (if_pos hseq)
  exact gives_of_exec hx rfl rfl ⟨(queueStrm_putStrm s i n _).trans (by rw [hseq]), fun j hj => strm_putStrm_ne s _ hj, rfl⟩

theorem gives_queueWord_refused (htag : tag.toNat ≤ 1) (hdrop : (queueStrm s i n).dropping ≠ 1)
    (hseq : BitVec.ofNat 32 w.toNat ≠ (queueStrm s i n).expect) (hcmd : isCommandStream i.toNat n.toNat = true) :
    Gives (.queueWord i n rx tag w .clean) s fun t =>
      (queueStrm t i n).expect = (queueStrm s i n).expect ∧ (queueStrm t i n).refusing = true ∧
      OnlyStrm (queueKey i n) s t ∧ t = { s with strms := t.strms } := by
  have hx := exec_queueWord_first (s := s) (i := i) (n := n) (rx := rx) (w := w) htag hdrop ((if_neg hseq).trans (if_pos hcmd))
  exact gives_of_exec hx rfl rfl ⟨by rw [queueStrm_putStrm], by rw [queueStrm_putStrm], fun j hj => strm_putStrm_ne s _ hj, rfl⟩

theorem gives_queueWord_gap (htag : tag.toNat ≤ 1) (hdrop : (queueStrm s i n).dropping ≠ 1)
    (hseq : BitVec.ofNat 32 w.toNat ≠ (queueStrm s i n).expect) (hdata : isCommandStream i.toNat n.toNat = false) :
    Gives (.queueWord i n rx tag w .clean) s fun t =>
      (queueStrm t i n).expect = BitVec.ofNat 32 w.toNat + 1 ∧ (isl t rx.toNat).gaps = min 0xFFFF ((isl s rx.toNat).gaps + 1) ∧
      Raised 0x0E none (queueKey i n) rx.toNat s t ∧ OnlyStrm (queueKey i n) s t ∧ t.regs = s.regs := by
  have hx := exec_queueWord_first (s := s) (i := i) (n := n) (rx := rx) (w := w) htag hdrop ((if_neg hseq).trans (if_neg (by rw [hdata]; decide)))
  rw [raiseD_eq _ _ _ _ _ (by decide)] at hx
  exact gives_of_exec hx rfl rfl ⟨by rw [queueStrm_putStrm], congrArg Isl.gaps (isl_setIsl_same s rx.toNat _), rfl, fun j hj => strm_putStrm_ne _ _ hj, rfl⟩

theorem gives_queueWord_double : Gives (.queueWord i n rx tag w .double) s fun t =>
      queueStrm t i n = { queueStrm s i n with
        ue := min 0xFFFF ((queueStrm s i n).ue + 1), discards := min 0xFF ((queueStrm s i n).discards + 1), fill := 0, dropping := 1 } ∧
      Raised 0x1B none (queueKey i n) rx.toNat s t ∧ OnlyStrm (queueKey i n) s t ∧ t.regs = s.regs := by
  have hx : exec (.queueWord i n rx tag w .double) s = nextOf s (putStrm (raiseD s 0x1B none (queueKey i n) rx.toNat) (queueKey i n) _) := rfl
  rw [raiseD_eq _ _ _ _ _ (by decide)] at hx
  exact gives_of_exec hx rfl rfl ⟨queueStrm_putStrm _ i n _, rfl, fun j hj => strm_putStrm_ne _ _ hj, rfl⟩

end

/-- Settles O38: the number of a packet's first word against the expected one, and the uncorrectable word (R25, R27, R362). -/
theorem queueWords : Obligations.QueueWords := fun _ _ _ _ _ =>
  ⟨fun _ => gives_queueWord_expected, fun _ => gives_queueWord_gap, fun _ => gives_queueWord_refused, fun _ => gives_queueWord_double⟩

end Sys2Proof.Machine
end

section
/-! Stream resets, resends and probes (R25, R27, R29, R257, R360, R363). -/
namespace Sys2Proof.Machine
open Sys2Proof.Claims

/-! #### Stream resets and resends -/

/-- A stream that has been reset at both ends keeps its error counts alone. -/
def resetStrm (x : Strm) : Strm := { x with sent := false, seqOut := 0, expect := 0, refusing := false, next := some 0, fill := 0, dropping := 0 }

theorem gives_streamReset_queue (s : State) (i : BitVec 8) (n : BitVec 5) :
    Gives (.streamResetHandshake (.queue i n)) s fun t =>
      queueStrm t i n = resetStrm (queueStrm s i n) ∧ OnlyStrm (queueKey i n) s t ∧ (i.toNat = activeIsl s → n = 2 → t.rz.fhShut = false ∧ t.fh.inAir = []) ∧
      (i.toNat ≠ activeIsl s ∨ n ≠ 2 → t = { s with strms := t.strms }) := by
  let s1 := putStrm s (queueKey i n) (resetStrm (queueStrm s i n))
  have hx : exec (.streamResetHandshake (.queue i n)) s = nextOf s (openInputs s1 i.toNat n.toNat) := rfl
  have hn : n.toNat = 2 ↔ n = 2 := (BitVec.toNat_inj (x := n) (y := 2))
  unfold openInputs at hx
  by_cases h : i.toNat = activeIsl s1 ∧ n.toNat = 2
  · rw [if_pos h] at hx
    refine gives_of_exec hx rfl rfl ⟨queueStrm_putStrm s i n _, fun j hj => strm_putStrm_ne s _ hj, fun _ _ => ⟨rfl, rfl⟩, fun hne => ?_⟩
    exact (hne.elim (fun hi => hi h.1) fun h2 => h2 (hn.mp h.2)).elim
  · rw [if_neg h] at hx
    exact gives_of_exec hx rfl rfl ⟨queueStrm_putStrm s i n _, fun j hj => strm_putStrm_ne s _ hj, fun hi h2 => (h ⟨hi, hn.mpr h2⟩).elim, fun _ => rfl⟩

theorem numberFrom_msg (n : Nat) (l : List FCmd) : (numberFrom n l).map (·.msg) = l.map (·.msg) := by
  induction l generalizing n with
  | nil => rfl
  | cons c l ih => exact congrArg (c.msg :: ·) (ih (n + 1))

theorem numberFrom_seq (n : Nat) (l : List FCmd) : (numberFrom n l).map (·.seq) = List.range' n l.length := by
  induction l generalizing n with
  | nil => rfl
  | cons c l ih => exact congrArg (n :: ·) (ih (n + 1))

theorem length_numberFrom (n : Nat) (l : List FCmd) : (numberFrom n l).length = l.length := by
  simpa using congrArg List.length (numberFrom_msg n l)

/-- The commands that frond core f has not taken, which its sender keeps. -/
def notTaken (x : Frond) : List FCmd := x.unacked.filter fun c => decide (x.exp ≤ c.seq)

/-- A command stream that has been reset at both ends: what has not been taken is numbered from 0 on (R27, log entry 29). -/
def resetCmds (x : Frond) : Frond := { x with air := [], exp := 0, sent := (numberFrom 0 (notTaken x)).length, unacked := numberFrom 0 (notTaken x) }

theorem gives_streamReset_frond (s : State) (f : Nat) :
    Gives (.streamResetHandshake (.frond f)) s fun t => fr t f = resetCmds (fr s f) ∧ (∀ g, g ≠ f → fr t g = fr s g) ∧
      t.bus.acks = s.bus.acks.map (fun a => if a.isl = f then { a with old := true } else a) ∧ t = { s with fronds := t.fronds, bus := { s.bus with acks := t.bus.acks } } := by
  have hx : exec (.streamResetHandshake (.frond f)) s = nextOf s (updFr (oldAcks s f) f resetCmds) := rfl
  exact gives_of_exec hx rfl rfl ⟨fr_updFr_same (oldAcks s f) f resetCmds, fun g hg => fr_updFr_ne (oldAcks s f) f g _ hg, rfl, rfl⟩

theorem gives_resend_frond (s : State) (f : Nat) :
    Gives (.commandResend (.frond f)) s fun t => fr t f = { fr s f with air := notTaken (fr s f) } ∧ InFrond f s t ∧ t.regs = s.regs := by
  have hx : exec (.commandResend (.frond f)) s = nextOf s (resend s f) := rfl
  exact gives_of_exec hx rfl rfl ⟨fr_updFr_same s f _, inFrond_updFr s f _, rfl⟩

theorem gives_resend_queue (s : State) (i : BitVec 8) (n : BitVec 5) :
    Gives (.commandResend (.queue i n)) s fun t => queueStrm t i n = { queueStrm s i n with refusing := false } ∧ OnlyStrm (queueKey i n) s t ∧ t = { s with strms := t.strms } := by
  have hx : exec (.commandResend (.queue i n)) s = nextOf s (putStrm s (queueKey i n) { queueStrm s i n with refusing := false }) := rfl
  exact gives_of_exec hx rfl rfl ⟨queueStrm_putStrm s i n _, fun j hj => strm_putStrm_ne s _ hj, rfl⟩

/-! #### The number that a probe reports -/

/-- A stream that is not the journal reports its last number, once a record has left. -/
theorem lastSeq_strm {s : State} {p : Probe} (h : p.isl ≠ activeIsl s ∨ p.str ≠ 1) :
    lastSeq s p = if (tget {} s.strms (32 * p.isl + p.str)).sent then some ((tget {} s.strms (32 * p.isl + p.str)).seqOut - 1).toNat else none :=
  if_neg fun hj => h.elim (fun hi => hi hj.1) fun h1 => h1 hj.2

/-- The journal is stream 1 of the active Rhizome (log entry 107). -/
theorem lastSeq_journal {s : State} {p : Probe} (hi : p.isl = activeIsl s) (hs : p.str = 1) (hj : 0 < s.bus.jSeq) : lastSeq s p = some ((s.bus.jSeq - 1) % 2 ^ 32) :=
  (if_pos ⟨hi, hs⟩).trans (if_neg (by omega))

/-! #### Snapshots -/

theorem flag_congr_fget {s t : State} {x : Fld} (h : fget t x = fget s x) : flag t x = flag s x := by unfold flag; rw [h]

theorem reg_fsetB_ne (s : State) (x : Fld) (b : Bool) (a : Nat) (h : a ≠ x.addr) : reg (fsetB s x b) a = reg s a := reg_fset_ne s x _ a h

theorem fget_fsetB_addr (s : State) (x y : Fld) (b : Bool) (h : y.addr ≠ x.addr) : fget (fsetB s x b) y = fget s y := fget_fset_addr s x y _ h

theorem fget_fsetB_disj (s : State) (x y : Fld) (b : Bool) (hh : x.hi < 64) (h : y.hi < x.lo ∨ x.hi < y.lo) : fget (fsetB s x b) y = fget s y := fget_fset_disj s x y _ hh h

theorem cycles_snapshotIsl (s : State) (p : Probe) (adv : W64) : reg (snapshotIsl s p adv) RZ_ISLAND_CYCLES = (isl s p.isl).cycles + adv := by
  unfold snapshotIsl
  rw [reg_fsetB_ne _ _ _ _ (by decide), reg_fsetB_ne _ _ _ _ (by decide), reg_fsetB_ne _ _ _ _ (by decide), reg_fset_ne _ _ _ _ (by decide), reg_fset_ne _ _ _ _ (by decide),
    reg_setReg_same _ _ _ (by decide)]

theorem sent_snapshotIsl (s : State) (p : Probe) (adv : W64) : flag (snapshotIsl s p adv) RZ_ISLAND_SEQ_SENT = (lastSeq s p).isSome := by
  unfold snapshotIsl
  rw [flag_fsetB_addr _ _ _ _ (by decide), flag_fsetB_addr _ _ _ _ (by decide), flag_fsetB_same _ _ _ (by decide) (by decide) (by decide)]

theorem seqOut_snapshotIsl (s : State) (p : Probe) (adv : W64) : fget (snapshotIsl s p adv) RZ_ISLAND_SEQ_SEQ_OUT = (lastSeq s p).getD 0 % 2 ^ 32 := by
  unfold snapshotIsl
  rw [fget_fsetB_addr _ _ _ _ (by decide), fget_fsetB_addr _ _ _ _ (by decide), fget_fsetB_disj _ _ _ _ (by decide) (by decide), fget_fset_disj _ _ _ _ (by decide) (by decide),
    fget_fset_same _ _ _ (by decide) (by decide)]
  rfl

theorem busy_snapshotIsl (s : State) (p : Probe) (adv : W64) : flag (snapshotIsl s p adv) RZ_ISLAND_PROBE_BUSY = false := flag_fsetB_same _ _ _ (by decide) (by decide) (by decide)

theorem stale_snapshotIsl (s : State) (p : Probe) (adv : W64) : flag (snapshotIsl s p adv) RZ_ISLAND_PROBE_STALE = false :=
  (flag_fsetB_disj _ _ _ _ (by decide) (by decide)).trans (flag_fsetB_same _ _ _ (by decide) (by decide) (by decide))

theorem gives_probeSnapshot {s : State} {p : Probe} (adv : W64) (hp : s.probe = some p) (ht : inTakeover s = false) (hans : answers s p.isl = true) :
    Gives (.probeSnapshotArrives false adv false) s fun t => reg t RZ_ISLAND_CYCLES = (isl s p.isl).cycles + adv ∧
      flag t RZ_ISLAND_SEQ_SENT = (lastSeq s p).isSome ∧ fget t RZ_ISLAND_SEQ_SEQ_OUT = (lastSeq s p).getD 0 % 2 ^ 32 ∧
      flag t RZ_ISLAND_PROBE_BUSY = false ∧ flag t RZ_ISLAND_PROBE_STALE = false ∧ t.probe = none := by
  have hx : exec (.probeSnapshotArrives false adv false) s = nextOf s (snapshotIsl s p adv) := by
    show execProbeSnapshotArrives false adv false s = _
    unfold execProbeSnapshotArrives
    simp only [ht, hp, hans]
    rfl
  exact gives_of_exec hx rfl rfl ⟨cycles_snapshotIsl s p adv, sent_snapshotIsl s p adv, seqOut_snapshotIsl s p adv, busy_snapshotIsl s p adv, stale_snapshotIsl s p adv, rfl⟩

theorem gives_queueSnapshot {s : State} {p : Probe} (adv : W64) (hp : s.qProbe = some p) (ht : inTakeover s = false) :
    Gives (.probeSnapshotArrives true adv false) s fun t =>
      fget t MS_Q_STAT_FILL = (tget {} s.strms (32 * p.isl + p.str)).fill % 2 ^ ((MS_Q_STAT_FILL).hi + 1 - (MS_Q_STAT_FILL).lo) ∧
      fget t MS_Q_STAT_UE = (tget {} s.strms (32 * p.isl + p.str)).ue % 2 ^ ((MS_Q_STAT_UE).hi + 1 - (MS_Q_STAT_UE).lo) ∧
      flag t MS_Q_SEL_BUSY = false ∧ flag t MS_Q_SEL_STALE = false ∧ t.qProbe = none := by
  have hx : exec (.probeSnapshotArrives true adv false) s = nextOf s (snapshotQueue s p) := by
    show execProbeSnapshotArrives true adv false s = _
    unfold execProbeSnapshotArrives
    simp only [ht, hp]
    rfl
  refine gives_of_exec hx rfl rfl ⟨?_, ?_, flag_fsetB_same _ _ _ (by decide) (by decide) (by decide),
    (flag_fsetB_disj _ _ _ _ (by decide) (by decide)).trans (flag_fsetB_same _ _ _ (by decide) (by decide) (by decide)), rfl⟩
  · unfold snapshotQueue
    rw [fget_fsetB_addr _ _ _ _ (by decide), fget_fsetB_addr _ _ _ _ (by decide), fget_fset_disj _ _ _ _ (by decide) (by decide), fget_fset_disj _ _ _ _ (by decide) (by decide),
      fget_fset_disj _ _ _ _ (by decide) (by decide), fget_fset_same _ _ _ (by decide) (by decide)]
  · unfold snapshotQueue
    rw [fget_fsetB_addr _ _ _ _ (by decide), fget_fsetB_addr _ _ _ _ (by decide), fget_fset_disj _ _ _ _ (by decide) (by decide), fget_fset_same _ _ _ (by decide) (by decide)]

theorem gives_probeTimeout {s : State} {p : Probe} (hp : s.probe = some p) : Gives (.probeTimeout false) s fun t =>
    reg t RZ_ISLAND_CYCLES = 0 ∧ reg t RZ_ISLAND_SEQ = 0 ∧ flag t RZ_ISLAND_PROBE_STALE = true ∧ flag t RZ_ISLAND_PROBE_BUSY = false ∧
    t = { s with regs := t.regs, probe := none } := by
  let s1 := fsetB (fsetB { s with probe := none } RZ_ISLAND_PROBE_STALE true) RZ_ISLAND_PROBE_BUSY false
  have hx : exec (.probeTimeout false) s = nextOf s (setReg (setReg s1 RZ_ISLAND_CYCLES 0) RZ_ISLAND_SEQ 0) := by
    show nextOf s (probeStale s) = _
    unfold probeStale
    rw [hp]
  have hprobe : ∀ x : Fld, x.addr = RZ_ISLAND_PROBE → flag (setReg (setReg s1 RZ_ISLAND_CYCLES 0) RZ_ISLAND_SEQ 0) x = flag s1 x := fun x hx => by
    unfold flag fget
    rw [hx, reg_setReg_ne _ _ _ _ (by decide), reg_setReg_ne _ _ _ _ (by decide)]
  refine gives_of_exec hx rfl rfl ⟨?_, reg_setReg_same _ _ _ (by decide), ?_, ?_, rfl⟩
  · rw [reg_setReg_ne _ _ _ _ (by decide), reg_setReg_same _ _ _ (by decide)]
  · exact (hprobe _ rfl).trans ((flag_fsetB_disj _ _ _ _ (by decide) (by decide)).trans (flag_fsetB_same _ _ _ (by decide) (by decide) (by decide)))
  · exact (hprobe _ rfl).trans (flag_fsetB_same _ _ _ (by decide) (by decide) (by decide))

theorem gives_queueProbeTimeout {s : State} {p : Probe} (hp : s.qProbe = some p) : Gives (.probeTimeout true) s fun t =>
    reg t MS_Q_STAT = 0 ∧ flag t MS_Q_SEL_STALE = true ∧ flag t MS_Q_SEL_BUSY = false ∧ t = { s with regs := t.regs, qProbe := none } := by
  let s1 := fsetB (fsetB { s with qProbe := none } MS_Q_SEL_STALE true) MS_Q_SEL_BUSY false
  have hx : exec (.probeTimeout true) s = nextOf s (setReg s1 MS_Q_STAT 0) := by
    show nextOf s (qProbeStale s) = _
    unfold qProbeStale
    rw [hp]
  have hsel : ∀ x : Fld, x.addr = MS_Q_SEL → flag (setReg s1 MS_Q_STAT 0) x = flag s1 x := fun x hx => by
    unfold flag fget
    rw [hx, reg_setReg_ne _ _ _ _ (by decide)]
  refine gives_of_exec hx rfl rfl ⟨reg_setReg_same _ _ _ (by decide), ?_, ?_, rfl⟩
  · exact (hsel _ rfl).trans ((flag_fsetB_disj _ _ _ _ (by decide) (by decide)).trans (flag_fsetB_same _ _ _ (by decide) (by decide) (by decide)))
  · exact (hsel _ rfl).trans (flag_fsetB_same _ _ _ (by decide) (by decide) (by decide))

/-- Settles O39: a reset at both ends, what a resend sends again, and the snapshots by the number that they report (R25, R27, R29, R363). -/
theorem resetsAndProbes : Obligations.ResetsAndProbes := by
  intro s
  refine ⟨gives_streamReset_queue s, fun f => ?_, gives_resend_frond s, gives_resend_queue s, fun p adv hp ht hans => ?_, fun p adv hp ht => gives_queueSnapshot adv hp ht,
    fun p hp => gives_probeTimeout hp, fun p hp => gives_queueProbeTimeout hp⟩
  · refine gives_imp (gives_streamReset_frond s f) fun t h => ?_
    obtain ⟨hfr, hothers, hacks, hrest⟩ := h
    rw [hfr]
    refine ⟨rfl, rfl, rfl, ?_, numberFrom_msg 0 _, rfl, hothers, hacks, hrest⟩
    exact (numberFrom_seq 0 _).trans (by rw [← List.range_eq_range', ← length_numberFrom 0]; rfl)
  · refine gives_imp (gives_probeSnapshot adv hp ht hans) fun t h => ?_
    obtain ⟨hcycles, hsent, hseq, hbusy, hstale, hprobe⟩ := h
    refine ⟨hcycles, fun hs => ?_, fun hi h1 hj => ?_, hbusy, hstale, hprobe⟩
    · rw [lastSeq_strm hs] at hsent hseq
      refine ⟨?_, fun hleft => ?_⟩
      · rw [hsent]; split <;> simp_all
      · rw [hseq, if_pos hleft, Option.getD_some, Nat.mod_eq_of_lt (BitVec.isLt _)]
    · rw [lastSeq_journal hi h1 hj] at hsent hseq
      exact ⟨hsent, hseq.trans (Nat.mod_mod _ _)⟩

end Sys2Proof.Machine
end

section
/-! The Lichen pair: the journal, digests and resynchronisation (R27, R376 to R378). -/
namespace Sys2Proof.Machine
open Sys2Proof.Claims

/-! #### The standby's end of the journal -/

theorem gives_journalEntry {s : State} {e : JEntry} {rest : List JEntry} (hair : s.bus.jAir = e :: rest) (hans : answers s (standbyIsl s) = true)
    (hseq : e.seq % 2 ^ 32 = s.bus.sbSeq % 2 ^ 32) : Gives .journalEntry s fun t =>
      t.bus = { s.bus with jAir := rest, standby := commitOp s.bus.standby e.op, sbSeq := e.seq + 1, jAck := s.bus.jAck ++ [e.seq] } ∧ t = { s with bus := t.bus } := by
  have hx : exec .journalEntry s =
      nextOf s { s with bus := { s.bus with jAir := rest, standby := commitOp s.bus.standby e.op, sbSeq := e.seq + 1, jAck := s.bus.jAck ++ [e.seq] } } := by
    show execJournalEntry s = _
    unfold execJournalEntry
    rw [hair]
    exact congrArg (nextOf s) (if_pos (by rw [hans, Bool.true_and, beq_iff_eq]; exact hseq))
  exact gives_of_exec hx rfl rfl ⟨rfl, rfl⟩

/-- An entry out of sequence is refused (R27). -/
theorem exec_journalEntry_refused {s : State} {e : JEntry} {rest : List JEntry} (hair : s.bus.jAir = e :: rest) (hseq : e.seq % 2 ^ 32 ≠ s.bus.sbSeq % 2 ^ 32) :
    exec .journalEntry s = .next s := by
  show execJournalEntry s = _
  unfold execJournalEntry
  rw [hair]
  exact congrArg (nextOf s) (if_neg (by rw [Bool.and_eq_true, beq_iff_eq]; exact fun h => hseq h.2))

/-! #### The active Rhizome's end -/

/-- A committed entry that leaves no work behind is all that is carried out. -/
theorem flush_entry {s t : State} {e : JEntry} {rest : List JEntry} (hr : s.bus.ready = e :: rest) (ht : actEntry { s with bus := { s.bus with ready := rest } } e = t) (hstop : work t = none) :
    flush s = t := by
  have hgo : work s = some t := (work_entry hr).trans (congrArg some ht)
  show workN (4 * (s.bus.ready.length + s.bus.queue.length) + 1023 + 1) s = t
  rw [workN_go hgo, workN_stop hstop]

theorem regAt_pairCfg : regAt RZ_PAIR_CFG = some ⟨⟨.RZ_PAIR_CFG, 0x700, 8, 1, 0x1ff, 0x0, 0x0, 0x0, 0x114⟩, 0, 0⟩ := by decide +kernel

/-- A committed write of RZ_PAIR_CFG that no access waits for stores its fields. -/
theorem actEntry_pairCfg (s : State) (n v prov : Nat) : actEntry s ⟨n, .write RZ_PAIR_CFG v, false, prov⟩ =
    storeAll { s with bus := { s.bus with commits := commitOp s.bus.commits (.write RZ_PAIR_CFG v) } } RZ_PAIR_CFG v := by
  unfold actEntry
  simp only [regAt_pairCfg]
  rfl

theorem storeAll_pairCfg (s : State) (v : Nat) : ∃ w, storeAll s RZ_PAIR_CFG v = setReg s RZ_PAIR_CFG w := ⟨_, storeAll_eq regAt_pairCfg rfl s v⟩

/-- The oldest acknowledgement commits its entry, here a write of RZ_PAIR_CFG, which acts at once when nothing else is ready. -/
theorem gives_journalAck_pairCfg {s : State} {n v prov : Nat} {rest : List Nat} (hack : s.bus.jAck = n :: rest) (hready : s.bus.ready = []) (hqueue : s.bus.queue = [])
    (hwait : s.bus.jWait = [⟨n, .write RZ_PAIR_CFG v, false, prov⟩]) : Gives (.journalAck false) s fun t =>
      t.bus.jAck = rest ∧ t.bus.jWait = [] ∧ t.bus.ready = [] ∧ t.bus.commits = commitOp s.bus.commits (.write RZ_PAIR_CFG v) ∧
      fget t RZ_PAIR_CFG_ACK_TO = bitsOf v 7 0 ∧ fget t RZ_PAIR_CFG_RESYNC_EN = bitsOf v 8 8 := by
  let b := { s.bus with jAck := rest, jWait := [], ready := [] }
  let t := storeAll { s with bus := { b with commits := commitOp s.bus.commits (.write RZ_PAIR_CFG v) } } RZ_PAIR_CFG v
  obtain ⟨w, hw⟩ : ∃ w, t = setReg _ RZ_PAIR_CFG w := storeAll_pairCfg _ v
  have hflush : flush { s with bus := { b with ready := [⟨n, .write RZ_PAIR_CFG v, false, prov⟩] } } = t :=
    flush_entry rfl (actEntry_pairCfg _ n v prov) (work_empty (by rw [hw]; rfl) (by rw [hw]; exact hqueue))
  have hx : exec (.journalAck false) s = nextOf s (pmStep t) := by
    rw [← hflush]
    show execJournalAck false s = _
    unfold execJournalAck
    simp only [hack, hwait, hready, takeFirst, beq_self_eq_true, if_true]
    rfl
  have hto : fget t ⟨RZ_PAIR_CFG, 7, 0⟩ = bitsOf v 7 0 := fget_storeAll_same regAt_pairCfg rfl (by decide) (by decide) (by decide) _ v
  have hre : fget t ⟨RZ_PAIR_CFG, 8, 8⟩ = bitsOf v 8 8 := fget_storeAll_same regAt_pairCfg rfl (by decide) (by decide) (by decide) _ v
  have hbus : (pmStep t).bus = { b with commits := commitOp s.bus.commits (.write RZ_PAIR_CFG v) } := by rw [hw]; rfl
  exact gives_of_exec hx (by rw [hw]; rfl) (by rw [hw]; rfl) ⟨by rw [hbus], by rw [hbus], by rw [hbus], by rw [hbus], hto, hre⟩

theorem gives_stateDigest {s : State} (hsync : inSync s = true) (hact : answers s (activeIsl s) = true) (hstb : answers s (standbyIsl s) = true) (ht : inTakeover s = false) :
    Gives (.stateDigest true) s fun t => inSync t = false ∧ flag t RZ_PAIR_STAT_RESYNC = flag s RZ_PAIR_CFG_RESYNC_EN ∧ Raised 0x11 none 0 (standbyIsl s) s t ∧
      fget t RZ_PAIR_STAT_DIGEST_FAILS = min (fget s RZ_PAIR_STAT_DIGEST_FAILS + 1) (fmax RZ_PAIR_STAT_DIGEST_FAILS) ∧ t = { s with regs := t.regs, flt := t.flt } := by
  let s1 : State := { s with flt := { s.flt with raises := s.flt.raises ++ [⟨0x11, none, 0, standbyIsl s, false⟩] } }
  have hs1 : raiseD s 0x11 none 0 (standbyIsl s) = s1 := raiseD_eq _ _ _ _ _ (by decide)
  have hx : exec (.stateDigest true) s = nextOf s (bump (outOfSync s1) RZ_PAIR_STAT_DIGEST_FAILS) := by
    rw [← hs1]
    exact congrArg (nextOf s) (if_pos (by rw [hsync, hact, hstb, ht]; rfl))
  refine gives_of_exec hx rfl rfl ⟨?_, ?_, rfl, ?_, rfl⟩
  · exact (flag_congr_fget (fget_fset_disj _ _ _ _ (by decide) (by decide))).trans
      ((flag_fsetB_disj _ _ _ _ (by decide) (by decide)).trans (flag_fsetB_same _ _ _ (by decide) (by decide) (by decide)))
  · exact (flag_congr_fget (fget_fset_disj _ _ _ _ (by decide) (by decide))).trans
      (flag_fsetB_same (fsetB s1 RZ_PAIR_STAT_SYNC false) _ _ (by decide) (by decide) (by decide))
  · rw [fget_bump_same _ _ (by decide) (by decide)]
    unfold outOfSync
    rw [fget_fsetB_disj _ _ _ _ (by decide) (by decide), fget_fsetB_disj _ _ _ _ (by decide) (by decide)]
    rfl

theorem gives_resyncComplete {s : State} (hre : flag s RZ_PAIR_STAT_RESYNC = true) (hact : answers s (activeIsl s) = true) (hstb : answers s (standbyIsl s) = true) (ht : inTakeover s = false)
    (hready : s.bus.ready = []) (hwait : s.bus.jWait = []) (hqueue : s.bus.queue = []) : Gives .resyncComplete s fun t =>
      inSync t = true ∧ flag t RZ_PAIR_STAT_RESYNC = false ∧ t.bus = { s.bus with standby := s.bus.commits, sbSeq := s.bus.jSeq, jAir := [], jAck := [] } ∧ t.fronds = s.fronds := by
  let b := { s.bus with standby := s.bus.commits, sbSeq := s.bus.jSeq, ready := [], jWait := [], jAir := [], jAck := [] }
  let t := fsetB (fsetB { s with bus := b } RZ_PAIR_STAT_SYNC true) RZ_PAIR_STAT_RESYNC false
  have hstop : work t = none := work_empty rfl hqueue
  have hx : exec .resyncComplete s = nextOf s (pmStep t) := by
    rw [← flush_stop hstop]
    show execResyncComplete s = _
    unfold execResyncComplete
    rw [if_pos (by rw [hre, hact, hstb, ht]; rfl)]
    simp only [hready, hwait]
    rfl
  have hsync : flag t RZ_PAIR_STAT_SYNC = true := (flag_fsetB_disj _ _ _ _ (by decide) (by decide)).trans (flag_fsetB_same _ _ _ (by decide) (by decide) (by decide))
  have hresync : flag t RZ_PAIR_STAT_RESYNC = false := flag_fsetB_same _ _ _ (by decide) (by decide) (by decide)
  have hbus : b = { s.bus with standby := s.bus.commits, sbSeq := s.bus.jSeq, jAir := [], jAck := [] } := by simp only [b, hready, hwait]
  exact gives_of_exec hx rfl rfl ⟨hsync, hresync, hbus, rfl⟩

/-- Settles O40: the standby's end of the journal, the active Rhizome's end, and the loss and return of sync (R27, R376, R378). -/
theorem journalPair : Obligations.JournalPair := by
  intro s
  refine ⟨fun e rest hair hans => ⟨gives_journalEntry hair hans, exec_journalEntry_refused hair⟩, fun e n rest hack hready hqueue hwait hseq hop hw => ?_, gives_stateDigest,
    gives_resyncComplete⟩
  obtain ⟨seq, op, wait, prov⟩ := e
  obtain rfl : seq = n := hseq
  obtain rfl : op = .write RZ_PAIR_CFG 0x114 := hop
  obtain rfl : wait = false := hw
  refine gives_imp (gives_journalAck_pairCfg hack hready hqueue hwait) fun t h => ?_
  obtain ⟨hjack, hjwait, hjready, hcommits, hto, hre⟩ := h
  exact ⟨hjack, hjwait, hjready, hcommits, hto, by unfold flag; rw [hre]; decide⟩

end Sys2Proof.Machine
end

section
/-! Host writes: one that needs no journal entry acts and is answered at once; one that does commits at once while the standby is out of sync (R376, R377, R396). -/
namespace Sys2Proof.Machine
open Sys2Proof.Claims

/-! #### A write reaches its register -/

theorem hostReady_of_ready {s : State} (hs : Ready s) : hostReady s = true := by
  obtain ⟨-, hq, hc, hl, hresp, hrst, -⟩ := hs
  simp [hostReady, waiting, hq, hc, hl, hrst, hresp]

theorem ready_hostWrite {s : State} {a v : Nat} {r : RegAt} (hs : Ready s) (hr : regAt a = some r) (hv : v < 2 ^ 64) :
    hostWrite s a v = pmStep (workN 1027 (startAccess s (wr a v))) := by
  have hready := hostReady_of_ready hs
  obtain ⟨hrd, hq, hc, -, -, -, h49, hact, ht⟩ := hs
  have ha := (addr_of_regAt hr).2
  exact hostWrite_start hrd hq hc hact ht hready h49 (by omega) hv

/-- A write to a register of the member is not refused for its address (R396 cases 1 and 3). -/
theorem startAccess_wr {s : State} {a v : Nat} {r : RegAt} (hmem : a < 0x100000 ∨ a < 0x100000 + 0x10000 * nF s) (hr : regAt a = some r) :
    startAccess s (wr a v) = startWrite s (wr a v) r v := by
  obtain ⟨h8, hlt⟩ := addr_of_regAt hr
  have hfrond : ¬ (0x100000 ≤ a ∧ a < 0x500000 ∧ nF s ≤ (a - 0x100000) / 0x10000) := by omega
  have hal : ¬ (false || a % 8 != 0) = true := by rw [h8]; decide
  unfold startAccess
  show (if (false || a % 8 != 0) = true then _ else if 0x1000000 ≤ a then _ else if 0x100000 ≤ a ∧ a < 0x500000 ∧ nF s ≤ (a - 0x100000) / 0x10000 then _ else
    match regAt a with | none => _ | some r => _) = _
  rw [if_neg hal, if_neg (by omega), if_neg hfrond, hr]
  rfl

/-! #### Writes without a journal entry -/

/-- The write is answered OK at the host port. -/
def okAnswered (t : State) : State := { t with bus := { t.bus with resp := t.bus.resp ++ [⟨.host, .ok, 0⟩] } }

theorem startWrite_direct {s : State} {a v : Nat} {r : RegAt} (hj : journalled r.row.name = false) (hvid : vidOwned r = false) (hok : regRefused s r v = false)
    (hans : ∀ k, holder a = some k → answers s k = true) : startWrite s (wr a v) r v = okAnswered (applyReg s a r v) := by
  unfold startWrite
  simp only [hvid, hj, hok, Bool.false_and, Bool.false_eq_true, if_false]
  cases hh : holder a with
  | none =>
    simp only [wr, hh]
    rfl
  | some k =>
    simp only [wr, hh, hans k hh, Bool.not_true, Bool.false_eq_true, if_false]
    rfl

/-- A direct write acts and is answered; the rest of the path of accesses does not move. -/
theorem gives_direct {i : Instr} {s t : State} {a v : Nat} {r : RegAt} {P : State → Prop} (h : Direct s a v) (hx : exec i s = nextOf s (hostWrite s a v)) (hv : v < 2 ^ 64)
    (hr : regAt a = some r) (hj : journalled r.row.name = false) (hvid : vidOwned r = false) (ht : applyReg s a r v = t)
    (hframe : t.member = s.member ∧ t.pending = s.pending ∧ t.bus = s.bus) (hP : Ok s (pmStep (okAnswered t)) → P (pmStep (okAnswered t))) : Gives i s P := by
  obtain ⟨hs, ⟨hmem, r', hr', hok⟩, hans⟩ := h
  obtain rfl : r' = r := Option.some.inj (hr'.symm.trans hr)
  obtain ⟨hm, hp, hb⟩ := hframe
  obtain ⟨hrd, hq, -⟩ := id hs
  have hstop : work (okAnswered t) = none := work_empty (by show t.bus.ready = []; rw [hb, hrd]) (by show t.bus.queue = []; rw [hb, hq])
  have hw : hostWrite s a v = pmStep (okAnswered t) := by
    rw [ready_hostWrite hs hr hv, startAccess_wr hmem hr, startWrite_direct hj hvid hok hans, ht, workN_stop hstop]
  have hans : Ok s (pmStep (okAnswered t)) := by
    show ({ t.bus with resp := t.bus.resp ++ [⟨.host, .ok, 0⟩] } : Bus) = _
    rw [hb]
  exact gives_of_exec (hx.trans (congrArg (nextOf s) hw)) hm hp (hP hans)

/-! #### Journalled writes while the standby is out of sync -/

/-- The write has committed, and its access waits for what the register's domain does. -/
def committed (s : State) (a v : Nat) : State :=
  { s with bus := { s.bus with cur := some (wr a v, .commit s.bus.jSeq), jSeq := s.bus.jSeq + 1, ready := [], commits := commitOp s.bus.commits (.write a v) } }

theorem startWrite_journal {s : State} {a v : Nat} {r : RegAt} (hj : journalled r.row.name = true) (hvid : vidOwned r = false) (hok : regRefused s r v = false)
    (hb : r.row.name ≠ .RZ_BRIDGE_CMD) (hsp : r.row.name ≠ .FR_SETPOINT) :
    startWrite s (wr a v) r v = journal (waitFor s (wr a v) (.commit s.bus.jSeq)) (.write a v) true := by
  unfold startWrite
  simp only [hvid, hj, hok, hb, hsp, false_and, if_false, Bool.false_and, Bool.false_eq_true, if_true]
  rfl

/-- Out of sync, a write commits at once and acts (R377). -/
theorem hostWrite_atOnce {s : State} {a v : Nat} {r : RegAt} (hs : Ready s) (hout : inSync s = false) (hmem : a < 0x100000 ∨ a < 0x100000 + 0x10000 * nF s) (hr : regAt a = some r)
    (hok : regRefused s r v = false) (hv : v < 2 ^ 64) (hj : journalled r.row.name = true) (hvid : vidOwned r = false) (hb : r.row.name ≠ .RZ_BRIDGE_CMD) (hsp : r.row.name ≠ .FR_SETPOINT) :
    hostWrite s a v = pmStep (workN 1026 (actWrite (committed s a v) a r v true)) := by
  obtain ⟨hrd, -⟩ := id hs
  rw [ready_hostWrite hs hr hv, startAccess_wr hmem hr, startWrite_journal hj hvid hok hb hsp, journal_alone (show inSync (waitFor s _ _) = false from hout),
    workN_go (work_entry (rest := []) (by show s.bus.ready ++ [_] = _; rw [hrd]; rfl))]
  unfold actEntry
  simp only [entryOf, hr]
  rfl

end Sys2Proof.Machine
end

section
/-! Committed commands of a frond core (R27, R88, R376, R377). -/
namespace Sys2Proof.Machine
open Sys2Proof.Claims

/-- The offsets of the frond commands that rows of their own write. -/
def CmdOffset (o : Nat) : Prop := o = 0 ∨ o = 0x10 ∨ o = 0x70 ∨ o = 0x88 ∨ o = 0x400 ∨ ∃ n, n < 8 ∧ o = 0x100 + 8 * n

/-- The row is that of a frond command with no form of its own at the commit. -/
def isPlainFrCmd (n : RName) : Bool := isFrCmd n && n != .FR_SETPOINT

theorem findRow_cmdOffset {o : Nat} (h : CmdOffset o) : ((findRow rowsFR o).map fun p => isPlainFrCmd p.1.name) = some true := by
  obtain rfl | rfl | rfl | rfl | rfl | ⟨n, hn, rfl⟩ := h
  · decide
  · decide
  · decide
  · decide
  · decide
  · revert n
    decide

theorem plain_of_cmdOffset {a : Nat} {r : RegAt} (hr : regAt a = some r) (ha : 0x100000 ≤ a) (ho : CmdOffset ((a - 0x100000) % 0x10000)) : isPlainFrCmd r.row.name = true := by
  have h := findRow_cmdOffset ho
  rw [(regAt_frond hr ha).2] at h
  exact Option.some.inj h

theorem isPlainFrCmd_spec {n : RName} (h : isPlainFrCmd n = true) : isFrCmd n = true ∧ n ≠ .FR_SETPOINT ∧ n ≠ .RZ_BRIDGE_CMD ∧ n ≠ .VP_VID ∧ journalled n = true := by
  obtain ⟨hcmd, hsp⟩ := Bool.and_eq_true_iff.mp h
  refine ⟨hcmd, bne_iff_ne.mp hsp, ?_, ?_, by unfold journalled; rw [hcmd]; rfl⟩
  · rintro rfl; cases hcmd
  · rintro rfl; cases hcmd

/-- A committed frond command leaves on the frond's command stream, and its access waits for the core. -/
theorem actWrite_frCmd {s : State} {a v : Nat} {r : RegAt} (hcmd : isFrCmd r.row.name = true) {x : Access} {p : Phase3} (hcur : s.bus.cur = some (x, p)) :
    actWrite s a r v true = { sendCmd s r.f (.write (a % 0x10000) v) true with bus := { s.bus with cur := some (x, .island r.f) } } := by
  unfold actWrite
  simp only [hcmd, if_true]
  unfold awaitIsl
  rw [show (sendCmd s r.f (.write (a % 0x10000) v) true).bus.cur = _ from hcur]
  rfl


/-- Each row that is a journalled write is the host write of its register and word (log entry 24). -/
theorem exec_written {s : State} {i : Instr} {a v : Nat} (h : written s i = some (a, v)) : exec i s = nextOf s (hostWrite s a v) := by
  cases i
  case vidWrite byHost g vid =>
    cases byHost
    · cases h
    · change (if 6 ≤ g.toNat then some (VP_VID g.toNat, vid.toNat) else none) = some (a, v) at h
      split at h <;> cases h
      rfl
  all_goals cases h
  all_goals rfl

/-- The rows whose register lies in a frond's page write a frond command with a word that fits (log entry 24). -/
theorem written_frond {s : State} {i : Instr} {a v : Nat} (h : written s i = some (a, v)) (ha : 0x100000 ≤ a) :
    v < 2 ^ 64 ∧ CmdOffset ((a - 0x100000) % 0x10000) := by
  cases i
  case vidWrite byHost g vid =>
    cases byHost
    · cases h
    · change (if 6 ≤ g.toNat then some (VP_VID g.toNat, vid.toNat) else none) = some (a, v) at h
      split at h <;> cases h
      simp only [VP_VID] at ha
      omega
  all_goals cases h
  case groupBind f n d => exact ⟨(d ||| 1).isLt, .inr (.inr (.inr (.inr (.inr ⟨n.toNat, n.isLt, by simp only [FR_GROUP]; omega⟩))))⟩
  case groupUnbind f n d => exact ⟨putBits_lt _ _ _ _ d.isLt (by decide), .inr (.inr (.inr (.inr (.inr ⟨n.toNat, n.isLt, by simp only [FR_GROUP]; omega⟩))))⟩
  case phaseHealthClear f d => exact ⟨d.isLt, by simp only [CmdOffset, FR_PHASE_HEALTH]; omega⟩
  case injectionGo f d => exact ⟨(d ||| 4).isLt, by simp only [CmdOffset, FR_INJ_CFG]; omega⟩
  case injectionStop f d => exact ⟨putBits_lt _ _ _ _ d.isLt (by decide), by simp only [CmdOffset, FR_INJ_CFG]; omega⟩
  case samplePeriodWrite f n => exact ⟨by omega, by simp only [CmdOffset, FR_SAMPLE_CFG]; omega⟩
  case coreHalt f o => exact ⟨by omega, by simp only [CmdOffset, FR_CORE_CTRL]; omega⟩
  case coreRun f o => exact ⟨by omega, by simp only [CmdOffset, FR_CORE_CTRL]; omega⟩
  case coreStep f run o => exact ⟨by have := Bool.toNat_le run; omega, by simp only [CmdOffset, FR_CORE_CTRL]; omega⟩
  case on f => exact ⟨by decide, by simp only [CmdOffset, FR_RAIL_CMD]; omega⟩
  case dark f => exact ⟨by decide, by simp only [CmdOffset, FR_RAIL_CMD]; omega⟩
  case quarClear n => simp only [TH_SENS] at ha; omega
  case domainEnable n c => simp only [AD_RET_DOM] at ha; omega
  case faultForce n d => simp only [RZ_FLT_CFG] at ha; omega
  case bankHandover b o => simp only [MS_BANK] at ha; omega
  case bankRetention b => simp only [MS_BANK] at ha; omega
  all_goals exact absurd ha (by decide)

/-- R27: the command leaves with the next number of its stream and stays unacknowledged. -/
theorem fr_sendCmd_same (s : State) (f : Nat) (m : FMsg) (w : Bool) :
    fr (sendCmd s f m w) f = { fr s f with air := (fr s f).air ++ [⟨(fr s f).sent, m, w⟩], unacked := (fr s f).unacked ++ [⟨(fr s f).sent, m, w⟩], sent := (fr s f).sent + 1 } :=
  fr_updFr_same _ _ _

theorem fr_sendCmd_ne (s : State) {f g : Nat} (m : FMsg) (w : Bool) (h : g ≠ f) : fr (sendCmd s f m w) g = fr s g := fr_updFr_ne _ _ _ _ h

/-- The state after a committed frond command: its number and its message are on the stream, and its access waits for the core. -/
def frondSent (s : State) (a v f : Nat) : State :=
  let t := sendCmd (committed s a v) f (.write (a % 0x10000) v) true
  { t with bus := { t.bus with cur := some (wr a v, .island f) } }

/-- A host write of a frond command while the standby is out of sync (R377). -/
theorem hostWrite_frCmd {s : State} {a v : Nat} {r : RegAt} (hs : Ready s) (hout : inSync s = false) (hmem : a < 0x100000 ∨ a < 0x100000 + 0x10000 * nF s) (hr : regAt a = some r)
    (hok : regRefused s r v = false) (hv : v < 2 ^ 64) (hp : isPlainFrCmd r.row.name = true) : hostWrite s a v = pmStep (frondSent s a v r.f) := by
  obtain ⟨hcmd, hsp, hbr, hvn, hj⟩ := isPlainFrCmd_spec hp
  have hvid : vidOwned r = false := by unfold vidOwned; simp [hvn]
  rw [hostWrite_atOnce hs hout hmem hr hok hv hj hvid hbr hsp, actWrite_frCmd hcmd (rfl : (committed s a v).bus.cur = some (wr a v, .commit s.bus.jSeq))]
  exact congrArg pmStep (workN_stop (work_busy rfl rfl) _)

/-- Settles O25: the register is that of a frond command, whose commit only sends it. -/
theorem frondCommandLeaves : Obligations.FrondCommandLeaves := by
  rintro s i a v ⟨hs, hout, a', v', hw', ⟨hmem, r, hr, hok⟩, -⟩ hw ha
  obtain ⟨rfl, rfl⟩ : a' = a ∧ v' = v := by simpa using hw'.symm.trans hw
  obtain ⟨hv, ho⟩ := written_frond hw ha
  obtain ⟨hf, -⟩ := regAt_frond hr ha
  have hx := (exec_written hw).trans (congrArg (nextOf s) (hostWrite_frCmd hs hout hmem hr hok hv (plain_of_cmdOffset hr ha ho)))
  refine gives_of_exec hx rfl rfl ?_
  rw [hf]
  exact ⟨fr_sendCmd_same s ((a' - 0x100000) / 0x10000) (.write (a' % 0x10000) v') true, fun g hg => fr_sendCmd_ne s (.write (a' % 0x10000) v') true hg, rfl, rfl, rfl, rfl, rfl⟩

end Sys2Proof.Machine
end

section
/-! Writes that need no journal entry act at once (R29, R89, R129, R222 to R236, R336, R346, R363, R394, R396). -/
namespace Sys2Proof.Machine
open Sys2Proof.Claims

/-! #### Words and registers -/

/-- A write to a register without W1C bits changes no other register and nothing but registers. -/
theorem storeAll_setReg {a : Nat} {r : RegAt} (hr : regAt a = some r) (hw : r.row.w1c = 0) (s : State) (v : Nat) : ∃ w, storeAll s a v = setReg s a w := ⟨_, storeAll_eq hr hw s v⟩

theorem bitOf_eq_testBit (n i : Nat) : bitOf n i = n.testBit i := by
  rw [bitOf, Nat.testBit_eq_decide_div_mod_eq]
  rfl

theorem fget_setReg_addr {s : State} {a : Nat} {x : Fld} (w : W64) (h : x.addr ≠ a) : fget (setReg s a w) x = fget s x := by
  unfold fget
  rw [reg_setReg_ne _ _ _ _ h]

theorem flag_setReg_addr {s : State} {a : Nat} {x : Fld} (w : W64) (h : x.addr ≠ a) : flag (setReg s a w) x = flag s x := flag_congr_fget (fget_setReg_addr w h)

theorem flag_fsetB_bit (s : State) {a i : Nat} (b : Bool) (ha : a ≠ RZ_ID) (hi : i < 64) : flag (fsetB s ⟨a, i, i⟩ b) ⟨a, i, i⟩ = b := flag_fsetB_same s _ b ha hi (Nat.le_refl i)

@[simp] theorem reg_answered (t : State) (a : Nat) : reg (pmStep (okAnswered t)) a = reg t a := rfl
@[simp] theorem fget_answered (t : State) (x : Fld) : fget (pmStep (okAnswered t)) x = fget t x := rfl
@[simp] theorem flag_answered (t : State) (x : Fld) : flag (pmStep (okAnswered t)) x = flag t x := rfl

/-- A flag that the RW bits cover takes its bit of the written value. -/
theorem flag_storeAll_same {a : Nat} {r : RegAt} (hr : regAt a = some r) (hw : r.row.w1c = 0) (ha : a ≠ RZ_ID) {i : Nat} (hi : i < 64) (hrw : bitOf r.row.rw i = true) (s : State) (v : Nat) :
    flag (storeAll s a v) ⟨a, i, i⟩ = bitOf v i := by
  have hone : ∀ n : Nat, bitsOf n i i = n / 2 ^ i % 2 := fun n => by rw [bitsOf, Nat.add_sub_cancel_left, Nat.pow_one]
  have hcov : bitsOf r.row.rw i i = 2 ^ (i + 1 - i) - 1 := by
    rw [hone, Nat.add_sub_cancel_left]
    exact beq_iff_eq.mp hrw
  rw [flag, fget_storeAll_same hr hw ha hi hcov, hone]
  rfl

/-! #### Probes and the instruction memory (R29, R89, R363) -/

theorem regAt_islandProbe : regAt RZ_ISLAND_PROBE = some ⟨⟨.RZ_ISLAND_PROBE, 0x100, 8, 1, 0x1fff, 0, 0, 0, 0⟩, 0, 0⟩ := by decide +kernel

theorem regAt_qSel : regAt MS_Q_SEL = some ⟨⟨.MS_Q_SEL, 0x200, 8, 1, 0x1fff, 0, 0, 0, 0⟩, 0, 0⟩ := by decide +kernel

/-- The island and the stream that a probe names. -/
theorem probeOf (k : BitVec 8) (n : BitVec 5) : (⟨bitsOf (k.toNat + 256 * n.toNat) 7 0, bitsOf (k.toNat + 256 * n.toNat) 12 8⟩ : Probe) = ⟨k.toNat, n.toNat⟩ := by
  have hk : bitsOf (k.toNat + 256 * n.toNat) 7 0 = k.toNat := by unfold bitsOf; omega
  have hn : bitsOf (k.toNat + 256 * n.toNat) 12 8 = n.toNat := by unfold bitsOf; omega
  rw [hk, hn]

theorem gives_islandProbe {s : State} {k : BitVec 8} {n : BitVec 5} (h : Direct s RZ_ISLAND_PROBE (k.toNat + 256 * n.toNat)) :
    Gives (.islandProbe k n) s fun t => t.probe = some ⟨k.toNat, n.toNat⟩ ∧ flag t RZ_ISLAND_PROBE_BUSY = true ∧ Ok s t := by
  obtain ⟨w, hw⟩ := storeAll_setReg regAt_islandProbe rfl s (k.toNat + 256 * n.toNat)
  refine gives_direct (t := fsetB { setReg s RZ_ISLAND_PROBE w with probe := some ⟨k.toNat, n.toNat⟩ } RZ_ISLAND_PROBE_BUSY true) h rfl (by omega) regAt_islandProbe rfl rfl ?_ ⟨rfl, rfl, rfl⟩
    fun hok => ⟨rfl, (flag_answered _ _).trans (flag_fsetB_bit _ true (by decide) (by decide)), hok⟩
  show fsetB { storeAll s RZ_ISLAND_PROBE _ with probe := some ⟨_, _⟩ } RZ_ISLAND_PROBE_BUSY true = _
  rw [hw, probeOf]

theorem gives_queueProbe {s : State} {k : BitVec 8} {n : BitVec 5} (h : Direct s MS_Q_SEL (k.toNat + 256 * n.toNat)) :
    Gives (.queueProbe k n) s fun t => t.qProbe = some ⟨k.toNat, n.toNat⟩ ∧ flag t MS_Q_SEL_BUSY = true ∧ Ok s t := by
  obtain ⟨w, hw⟩ := storeAll_setReg regAt_qSel rfl s (k.toNat + 256 * n.toNat)
  refine gives_direct (t := fsetB { setReg s MS_Q_SEL w with qProbe := some ⟨k.toNat, n.toNat⟩ } MS_Q_SEL_BUSY true) h rfl (by omega) regAt_qSel rfl rfl ?_ ⟨rfl, rfl, rfl⟩
    fun hok => ⟨rfl, (flag_answered _ _).trans (flag_fsetB_bit _ true (by decide) (by decide)), hok⟩
  show fsetB { storeAll s MS_Q_SEL _ with qProbe := some ⟨_, _⟩ } MS_Q_SEL_BUSY true = _
  rw [hw, probeOf]

/-- The row of the instruction memory of a frond core. -/
def imemRow : RegRow := ⟨.FR_IMEM, 0x4000, 8, 2048, 0xffffffffffffffff, 0, 0, 0, 0⟩

theorem findRow_imem (m : BitVec 11) : findRow rowsFR (0x4000 + 8 * m.toNat) = some (imemRow, m.toNat) := by
  obtain ⟨l, rest, hrows, hl⟩ : ∃ l rest, rowsFR = l ++ imemRow :: rest ∧ ∀ r ∈ l, 0 < r.stride ∧ r.off + r.stride * r.cnt ≤ 0x4000 :=
    ⟨rowsFR.takeWhile (· ≠ imemRow), (rowsFR.dropWhile (· ≠ imemRow)).tail, by decide +kernel, by decide +kernel⟩
  rw [hrows, findRow_append fun r hr => ⟨(hl r hr).1, (hl r hr).2.trans (by omega)⟩]
  have hin : imemRow.off ≤ 0x4000 + 8 * m.toNat ∧ (0x4000 + 8 * m.toNat - imemRow.off) % imemRow.stride = 0 ∧ (0x4000 + 8 * m.toNat - imemRow.off) / imemRow.stride < imemRow.cnt ∧
      ¬ (imemRow.name = .MS_CONFLICT ∧ (0x4000 + 8 * m.toNat - imemRow.off) / imemRow.stride % 8 = 7) := by
    simp only [imemRow]
    exact ⟨by omega, by omega, by omega, fun hc => by cases hc.1⟩
  rw [findRow, if_pos hin]
  have hi : (0x4000 + 8 * m.toNat - imemRow.off) / imemRow.stride = m.toNat := by
    simp only [imemRow]
    omega
  rw [hi]

theorem regAt_imem (f : BitVec 6) (m : BitVec 11) : regAt (FR_IMEM f.toNat m.toNat) = some ⟨imemRow, f.toNat, m.toNat⟩ := by
  simp only [regAt, FR_IMEM]
  have ho : (0x104000 + 0x10000 * f.toNat + 8 * m.toNat - 0x100000) % 0x10000 = 0x4000 + 8 * m.toNat := by omega
  have hf : (0x104000 + 0x10000 * f.toNat + 8 * m.toNat - 0x100000) / 0x10000 = f.toNat := by omega
  rw [if_neg (by omega), if_pos (by omega), ho, hf, findRow_imem]

/-- The instruction words of a register of the instruction memory. -/
theorem imem_of_reg {t : State} {f m : Nat} {d : W64} (h : reg t (FR_IMEM f m) = d) : imem t f (2 * m) = d.toNat % 2 ^ 32 ∧ imem t f (2 * m + 1) = d.toNat / 2 ^ 32 := by
  have hlo : 2 * m / 2 = m := by omega
  have hhi : (2 * m + 1) / 2 = m := by omega
  unfold imem bitsOf
  rw [hlo, hhi, h, if_pos (by omega), if_neg (by omega)]
  omega

theorem gives_imemWrite {s : State} {f : BitVec 6} {m : BitVec 11} {d : W64} (h : Direct s (FR_IMEM f.toNat m.toNat) d.toNat) :
    Gives (.imemWrite f m d) s fun t => reg t (FR_IMEM f.toNat m.toNat) = d ∧ imem t f.toNat (2 * m.toNat) = d.toNat % 2 ^ 32 ∧ imem t f.toNat (2 * m.toNat + 1) = d.toNat / 2 ^ 32 ∧
      (∀ a, a ≠ FR_IMEM f.toNat m.toNat → reg t a = reg s a) ∧ Ok s t ∧ t.fronds = s.fronds := by
  have hid : FR_IMEM f.toNat m.toNat ≠ RZ_ID := by simp only [FR_IMEM, RZ_ID]; omega
  refine gives_direct (t := setReg s (FR_IMEM f.toNat m.toNat) d) h rfl d.isLt (regAt_imem f m) rfl rfl ?_ ⟨rfl, rfl, rfl⟩ fun hok => ?_
  · show setReg s _ (BitVec.ofNat 64 d.toNat) = _
    rw [BitVec.ofNat_toNat, BitVec.setWidth_eq]
  · have hreg : reg (pmStep (okAnswered (setReg s (FR_IMEM f.toNat m.toNat) d))) (FR_IMEM f.toNat m.toNat) = d := (reg_answered _ _).trans (reg_setReg_same _ _ _ hid)
    obtain ⟨hlo, hhi⟩ := imem_of_reg hreg
    exact ⟨hreg, hlo, hhi, fun a ha => (reg_answered _ _).trans (reg_setReg_ne _ _ _ _ ha), hok, rfl⟩

end Sys2Proof.Machine
end

section
/-! Converters, DMA channels and calibration commands (R222, R229, R231, R236). -/
namespace Sys2Proof.Machine
open Sys2Proof.Claims

/-! #### The registers -/

theorem regAt_convTrig (c : BitVec 3) : regAt (AD_CONV_TRIG c.toNat) = some ⟨⟨.AD_CONV_TRIG, 0x140, 8, 8, 0xfffff1ffff3ff, 0, 0, 0x8000000000000000, 0⟩, 0, c.toNat⟩ := by
  obtain ⟨c⟩ := c
  revert c
  decide +kernel

theorem regAt_dmaCfg (k : BitVec 4) : regAt (AD_DMA_CFG k.toNat) = some ⟨⟨.AD_DMA_CFG, 0x800, 32, 16, 0xffffffffffff0f3f, 0, 0, 0, 0⟩, 0, k.toNat⟩ := by
  obtain ⟨k⟩ := k
  revert k
  decide +kernel

theorem regAt_dmaRd (k : BitVec 4) : regAt (AD_DMA_RD k.toNat) = some ⟨⟨.AD_DMA_RD, 0x810, 32, 16, 0xffffffff, 0, 0, 0, 0⟩, 0, k.toNat⟩ := by
  obtain ⟨k⟩ := k
  revert k
  decide +kernel

theorem regAt_lcalCmd : regAt AD_LCAL_CMD = some ⟨⟨.AD_LCAL_CMD, 0xc08, 8, 1, 0x3f, 0, 0, 0x100, 0⟩, 0, 0⟩ := by decide +kernel

theorem holder_convTrig (c : BitVec 3) : holder (AD_CONV_TRIG c.toNat) = some 0x44 := by
  obtain ⟨c⟩ := c
  revert c
  decide

theorem bitOf_or_two_pow (d : W64) (i : Nat) (hi : i < 64) : bitOf (d ||| BitVec.twoPow 64 i).toNat i = true := by
  rw [bitOf_eq_testBit, BitVec.testBit_toNat]
  simp [hi]

/-! #### Bursts -/

/-- The burst that a trigger starts from the configuration of converter c. -/
def triggeredBurst (src : Nat) (s : State) (c : Nat) : Burst :=
  ⟨fget s (AD_CONV_CFG_CH c), fget s (AD_CONV_CFG_DIV c), fget s (AD_CONV_CFG_LEN c) + 1, flag s (AD_CONV_CFG_CONT c), flag s (AD_CONV_CFG_PAIR c), src, fget s (AD_CONV_TRIG_SEL c),
    fget s (AD_CONV_TRIG_EDGE c), false, 0, false⟩

/-- A trigger starts a burst of an enabled converter that runs none (R222). -/
theorem trigger_idle {s : State} {src c : Nat} (hen : flag s (AD_CONV_CFG_EN c) = true) (hodd : oddOfPair s c = false) (hans : answers s 0x44 = true) (hrun : (cv s c).run = none) :
    trigger src s c = fsetB (updCv s c fun x => { x with run := some (triggeredBurst src s c) }) (AD_CONV_STAT_BUSY c) true := by
  unfold trigger
  simp only [hen, hodd, hans, hrun, Bool.not_true, Bool.or_self, Bool.false_eq_true, if_false]
  rfl

theorem cv_updCv_same (s : State) (c : Nat) (g : Cv → Cv) : cv (updCv s c g) c = g (cv s c) := tget_tset_same _ _ _ _

/-- The state after a write w to the trigger register of converter c, before the soft trigger. -/
def trigStored (s : State) (c : Nat) (w : W64) (timer : Bool) : State := updCv (setReg s (AD_CONV_TRIG c) w) c fun x => { x with timer := timer }

/-- The configuration registers are not the trigger register. -/
theorem fget_trigStored_cfg {s : State} {c n hi lo : Nat} (hc : c < 8) (hn : n < 8) (w : W64) (b : Bool) : fget (trigStored s c w b) ⟨AD_CONV_CFG n, hi, lo⟩ = fget s ⟨AD_CONV_CFG n, hi, lo⟩ :=
  fget_setReg_addr (s := s) (x := ⟨AD_CONV_CFG n, hi, lo⟩) w (by show 0x20100 + 8 * n ≠ 0x20140 + 8 * c; omega)

theorem oddOfPair_trigStored {s : State} {c : Nat} (hc : c < 8) (w : W64) (b : Bool) : oddOfPair (trigStored s c w b) c = oddOfPair s c := by
  unfold oddOfPair
  rw [flag_congr_fget (fget_trigStored_cfg hc (by omega) w b)]

theorem cv_trigStored_run (s : State) (c : Nat) (w : W64) (b : Bool) : (cv (trigStored s c w b) c).run = (cv s c).run := by
  unfold trigStored
  rw [cv_updCv_same]
  rfl

theorem gives_softTrigger {s : State} {c : BitVec 3} {d : W64} (h : Direct s (AD_CONV_TRIG c.toNat) (d ||| 0x8000000000000000).toNat) (hen : flag s (AD_CONV_CFG_EN c.toNat) = true)
    (hodd : oddOfPair s c.toNat = false) (hrun : (cv s c.toNat).run = none) : Gives (.softTrigger c d) s fun t =>
      flag t (AD_CONV_STAT_BUSY c.toNat) = true ∧ (∃ b, (cv t c.toNat).run = some b ∧ b.src = 0 ∧ b.taken = 0 ∧ b.len = fget s (AD_CONV_CFG_LEN c.toNat) + 1) ∧ Ok s t := by
  obtain ⟨-, -, hans⟩ := id h
  have hc := c.isLt
  obtain ⟨w, hw⟩ := storeAll_setReg (regAt_convTrig c) rfl s (d ||| 0x8000000000000000).toNat
  have hbit : bitOf (d ||| 0x8000000000000000).toNat 63 = true := bitOf_or_two_pow d 63 (by decide)
  generalize hb : (bitsOf (d ||| 0x8000000000000000).toNat 1 0 == 1 && flag s (AD_CONV_CFG_EN c.toNat)) = timer
  have happly : applyReg s (AD_CONV_TRIG c.toNat) ⟨⟨.AD_CONV_TRIG, 0x140, 8, 8, 0xfffff1ffff3ff, 0, 0, 0x8000000000000000, 0⟩, 0, c.toNat⟩ (d ||| 0x8000000000000000).toNat =
      trigger 0 (trigStored s c.toNat w timer) c.toNat := by
    show (if bitOf (d ||| 0x8000000000000000).toNat 63 = true then trigger 0 (updCv (storeAll s _ _) _ fun x => { x with timer := _ }) c.toNat else _) = _
    rw [if_pos hbit, hw]
    exact congrArg (fun b => trigger 0 (trigStored s c.toNat w b) c.toNat) hb
  have htrig := trigger_idle (src := 0) ((flag_congr_fget (fget_trigStored_cfg hc hc w timer)).trans hen) ((oddOfPair_trigStored hc w timer).trans hodd) (hans _ (holder_convTrig c))
    ((cv_trigStored_run s c.toNat w timer).trans hrun)
  refine gives_direct h rfl (d ||| 0x8000000000000000).isLt (regAt_convTrig c) rfl rfl (happly.trans htrig) ⟨rfl, rfl, rfl⟩ fun hok => ⟨?_, ?_, hok⟩
  · exact (flag_answered _ _).trans (flag_fsetB_bit _ true (by show 0x20180 + 8 * c.toNat ≠ 0; omega) (by decide))
  · refine ⟨triggeredBurst 0 (trigStored s c.toNat w timer) c.toNat, ?_, rfl, rfl, congrArg (· + 1) (fget_trigStored_cfg hc hc w timer)⟩
    exact congrArg Cv.run (cv_updCv_same (trigStored s c.toNat w timer) c.toNat fun x => { x with run := some (triggeredBurst 0 (trigStored s c.toNat w timer) c.toNat) })

/-! #### DMA channels -/

/-- The state after a channel is enabled: its counts are 0, its stream is reset, and it holds no words (R229). -/
def dmaReset (s : State) (k : Nat) (w : W64) : State :=
  updDm (resetOut (fset (setReg (setReg s (AD_DMA_CFG k) w) (AD_DMA_WR k) 0) (AD_DMA_RD_RD k) 0) 0x44 k) k fun _ => {}

theorem gives_dmaEnable {s : State} {k : BitVec 4} {d : W64} (h : Direct s (AD_DMA_CFG k.toNat) (d ||| 1).toNat) : Gives (.dmaEnable k d) s fun t =>
    flag t (AD_DMA_CFG_EN k.toNat) = true ∧ reg t (AD_DMA_WR k.toNat) = 0 ∧ fget t (AD_DMA_RD_RD k.toNat) = 0 ∧ dm t k.toNat = {} ∧ Ok s t := by
  have hk := k.isLt
  have hbit : bitOf (d ||| 1).toNat 0 = true := bitOf_or_two_pow d 0 (by decide)
  obtain ⟨w, hw⟩ := storeAll_setReg (regAt_dmaCfg k) rfl s (d ||| 1).toNat
  have happly : applyReg s (AD_DMA_CFG k.toNat) ⟨⟨.AD_DMA_CFG, 0x800, 32, 16, 0xffffffffffff0f3f, 0, 0, 0, 0⟩, 0, k.toNat⟩ (d ||| 1).toNat = dmaReset s k.toNat w := by
    show (if bitOf (d ||| 1).toNat 0 = true then updDm (resetOut (fset (setReg (storeAll s _ _) _ 0) _ 0) 0x44 k.toNat) k.toNat _ else _) = _
    rw [if_pos hbit, hw]
    rfl
  have hen : flag (setReg s (AD_DMA_CFG k.toNat) w) (AD_DMA_CFG_EN k.toNat) = true := by
    rw [← hw]
    exact (flag_storeAll_same (regAt_dmaCfg k) rfl (by show 0x20800 + 32 * k.toNat ≠ 0; omega) (by decide) (show bitOf 0xffffffffffff0f3f 0 = true by decide) s _).trans hbit
  refine gives_direct h rfl (d ||| 1).isLt (regAt_dmaCfg k) rfl rfl happly ⟨rfl, rfl, rfl⟩ fun hok => ⟨?_, ?_, ?_, tget_tset_same _ _ _ _, hok⟩
  · show flag (fset (setReg (setReg s (AD_DMA_CFG k.toNat) w) (AD_DMA_WR k.toNat) 0) (AD_DMA_RD_RD k.toNat) 0) (AD_DMA_CFG_EN k.toNat) = true
    rw [flag_congr_fget (fget_fset_addr _ _ _ _ (by show 0x20800 + 32 * k.toNat ≠ 0x20810 + 32 * k.toNat; omega)), flag_setReg_addr _ (by show 0x20800 + 32 * k.toNat ≠ 0x20808 + 32 * k.toNat; omega)]
    exact hen
  · show reg (fset (setReg (setReg s (AD_DMA_CFG k.toNat) w) (AD_DMA_WR k.toNat) 0) (AD_DMA_RD_RD k.toNat) 0) (AD_DMA_WR k.toNat) = 0
    rw [reg_fset_ne _ _ _ _ (by show 0x20808 + 32 * k.toNat ≠ 0x20810 + 32 * k.toNat; omega)]
    exact reg_setReg_same _ _ _ (by show 0x20808 + 32 * k.toNat ≠ 0; omega)
  · exact fget_fset_same (setReg (setReg s (AD_DMA_CFG k.toNat) w) (AD_DMA_WR k.toNat) 0) (AD_DMA_RD_RD k.toNat) 0 (by show 0x20810 + 32 * k.toNat ≠ 0; omega) (by show 31 < 64; decide)

/-- The watermark moves its flag and the raises alone. -/
theorem watermark_rest (s : State) (k n : Nat) : watermark s k n = { s with regs := (watermark s k n).regs, flt := (watermark s k n).flt } ∧
    fget (watermark s k n) (AD_DMA_RD_RD k) = fget s (AD_DMA_RD_RD k) := by
  unfold watermark
  dsimp only
  split
  · rw [raiseD_rest]
    exact ⟨rfl, fget_fsetB_addr s _ (AD_DMA_RD_RD k) true (by show 0x20810 + 32 * k ≠ 0x20818 + 32 * k; omega)⟩
  · exact ⟨rfl, rfl⟩

/-- A write of the read count raises at most the watermark of its channel (R231). -/
theorem applyReg_dmaRd (s : State) (k : BitVec 4) (d : W32) : ∃ t, applyReg s (AD_DMA_RD k.toNat) ⟨⟨.AD_DMA_RD, 0x810, 32, 16, 0xffffffff, 0, 0, 0, 0⟩, 0, k.toNat⟩ d.toNat = t ∧
    t = { s with regs := t.regs, flt := t.flt } ∧ fget t (AD_DMA_RD_RD k.toNat) = d.toNat := by
  obtain ⟨w, hw⟩ := storeAll_setReg (regAt_dmaRd k) rfl s d.toNat
  have hrd : fget (setReg s (AD_DMA_RD k.toNat) w) (AD_DMA_RD_RD k.toNat) = d.toNat := by
    rw [← hw]
    refine (fget_storeAll_same (regAt_dmaRd k) rfl (by show 0x20810 + 32 * k.toNat ≠ 0; omega) (by decide) (show bitsOf 0xffffffff 31 0 = 2 ^ 32 - 1 by decide) s _).trans ?_
    unfold bitsOf
    omega
  obtain ⟨b, n, ht⟩ : ∃ (b : Bool) (n : Nat), applyReg s (AD_DMA_RD k.toNat) ⟨⟨.AD_DMA_RD, 0x810, 32, 16, 0xffffffff, 0, 0, 0, 0⟩, 0, k.toNat⟩ d.toNat =
    if b = true then watermark (storeAll s (AD_DMA_RD k.toNat) d.toNat) k.toNat n else storeAll s (AD_DMA_RD k.toNat) d.toNat := ⟨_, _, rfl⟩
  rw [hw] at ht
  obtain ⟨hrest, hkeep⟩ := watermark_rest (setReg s (AD_DMA_RD k.toNat) w) k.toNat n
  refine ⟨_, ht, ?_⟩
  split
  · exact ⟨hrest, hkeep.trans hrd⟩
  · exact ⟨rfl, hrd⟩

theorem gives_dmaRdWrite {s : State} {k : BitVec 4} {d : W32} (h : Direct s (AD_DMA_RD k.toNat) d.toNat) : Gives (.dmaRdWrite k d) s fun t =>
    fget t (AD_DMA_RD_RD k.toNat) = d.toNat ∧ t.conv = s.conv ∧ Ok s t := by
  obtain ⟨t, ht, hrest, hrd⟩ := applyReg_dmaRd s k d
  refine gives_direct h rfl (by omega) (regAt_dmaRd k) rfl rfl ht ⟨by rw [hrest], by rw [hrest], by rw [hrest]⟩ fun hok => ⟨(fget_answered _ _).trans hrd, ?_, hok⟩
  show t.conv = s.conv
  rw [hrest]

/-! #### Leaf calibration -/

theorem gives_lcalCmd {s : State} {f : BitVec 6} (h : Direct s AD_LCAL_CMD (f.toNat + 2 ^ 8)) : Gives (.lcalCmd f) s fun t =>
    t.conv.lcal.cmd = some (f.toNat, 0) ∧ flag t AD_LCAL_CMD_BUSY = true ∧ Ok s t := by
  have hgo : bitOf (f.toNat + 2 ^ 8) 8 = true := by
    unfold bitOf
    exact beq_iff_eq.mpr (by omega)
  have hf : bitsOf (f.toNat + 2 ^ 8) 5 0 = f.toNat := by unfold bitsOf; omega
  obtain ⟨w, hw⟩ := storeAll_setReg regAt_lcalCmd rfl s (f.toNat + 2 ^ 8)
  refine gives_direct (t := fsetB (updLcal (setReg s AD_LCAL_CMD w) fun x => { x with cmd := some (f.toNat, 0), rej := false }) AD_LCAL_CMD_BUSY true) h rfl (by omega) regAt_lcalCmd rfl rfl ?_ ⟨rfl, rfl, rfl⟩
    fun hok => ⟨rfl, (flag_answered _ _).trans (flag_fsetB_bit _ true (by decide) (by decide)), hok⟩
  show (if bitOf (f.toNat + 2 ^ 8) 8 = true then fsetB (updLcal (storeAll s AD_LCAL_CMD _) fun x => { x with cmd := some (bitsOf (f.toNat + 2 ^ 8) 5 0, 0), rej := false }) AD_LCAL_CMD_BUSY true else _) = _
  rw [if_pos hgo, hw, hf]

end Sys2Proof.Machine
end

section
/-! Scans, fault records and plain registers (R129, R336, R346, R394, R396). -/
namespace Sys2Proof.Machine
open Sys2Proof.Claims

/-! #### Scans -/

theorem regAt_topkCtrl : regAt RZ_TOPK_CTRL = some ⟨⟨.RZ_TOPK_CTRL, 0x400, 8, 1, 0x3f, 0, 0, 0x100, 0x20⟩, 0, 0⟩ := by decide +kernel

/-- A scan reads nothing of its own control register. -/
theorem topkScan_setReg (s : State) (w : W64) (m : Nat) (d e : Bool) : topkScan (setReg s RZ_TOPK_CTRL w) m d e = topkScan s m d e := by
  have hkeep : ∀ x : Fld, 0x10000 ≤ x.addr → fget (setReg s RZ_TOPK_CTRL w) x = fget s x := fun x hx => fget_setReg_addr w (by show x.addr ≠ 0x400; omega)
  have hrail : ∀ f, railSt (setReg s RZ_TOPK_CTRL w) f = railSt s f := fun f => hkeep _ (by show 0x10000 ≤ 0x1000a8 + 0x10000 * f; omega)
  have hquar : ∀ n, flag (setReg s RZ_TOPK_CTRL w) (TH_SENS_QUAR n) = flag s (TH_SENS_QUAR n) := fun n => flag_congr_fget (hkeep _ (by show 0x10000 ≤ 0x31000 + 8 * n; omega))
  have hsens : ∀ n, fget (setReg s RZ_TOPK_CTRL w) (TH_SENS_READ n) = fget s (TH_SENS_READ n) := fun n => hkeep _ (by show 0x10000 ≤ 0x31000 + 8 * n; omega)
  have hrem : ∀ n, fget (setReg s RZ_TOPK_CTRL w) (TH_REM_STAT_READ n) = fget s (TH_REM_STAT_READ n) := fun n => hkeep _ (by show 0x10000 ≤ 0x30900 + 8 * n; omega)
  have hmask : ∀ f, fget (setReg s RZ_TOPK_CTRL w) (FR_PHASE_MASK_MASK f) = fget s (FR_PHASE_MASK_MASK f) := fun f => hkeep _ (by show 0x10000 ≤ 0x100018 + 0x10000 * f; omega)
  have himg : ∀ n, flag (setReg s RZ_TOPK_CTRL w) (VP_STAGE_IMG_EN n) = flag s (VP_STAGE_IMG_EN n) := fun n => flag_congr_fget (hkeep _ (by show 0x10000 ≤ VP_STAGE n; simp only [VP_STAGE]; omega))
  unfold topkScan topkList
  simp only [hrail, hquar, hsens, hrem, hmask, himg]
  rfl

/-- The bits of a scan command. -/
theorem topkBits (m : BitVec 4) (d e : Bool) : let v := m.toNat + 16 * d.toNat + 32 * e.toNat + 2 ^ 8
    bitOf v 8 = true ∧ bitsOf v 3 0 = m.toNat ∧ bitOf v 4 = d ∧ bitOf v 5 = e ∧ v < 2 ^ 64 := by
  intro v
  have hm := m.isLt
  have hd : d.toNat = 0 ∨ d.toNat = 1 := by cases d <;> decide
  have he : e.toNat = 0 ∨ e.toNat = 1 := by cases e <;> decide
  have hbd : (d.toNat == 1) = d := by cases d <;> rfl
  have hbe : (e.toNat == 1) = e := by cases e <;> rfl
  refine ⟨beq_iff_eq.mpr ?_, ?_, ?_, ?_, ?_⟩
  · simp only [v]; omega
  · simp only [v, bitsOf]; omega
  · rw [← hbd]
    exact congrArg (· == 1) (by simp only [v]; omega)
  · rw [← hbe]
    exact congrArg (· == 1) (by simp only [v]; omega)
  · simp only [v]; omega

theorem gives_topkScan {s : State} {m : BitVec 4} {d e : Bool} (h : Direct s RZ_TOPK_CTRL (m.toNat + 16 * d.toNat + 32 * e.toNat + 2 ^ 8)) : Gives (.topkScan m d e) s fun t =>
    t.chip.topk = some (topkScan s m.toNat d e) ∧ flag t RZ_TOPK_CTRL_BUSY = true ∧ flag t RZ_TOPK_CTRL_ABORTED = false ∧ Ok s t := by
  obtain ⟨hgo, hm, hd, he, hv⟩ := topkBits m d e
  generalize hword : m.toNat + 16 * d.toNat + 32 * e.toNat + 2 ^ 8 = v at h hgo hm hd he hv
  obtain ⟨w, hw⟩ := storeAll_setReg regAt_topkCtrl rfl s v
  have happly : applyReg s RZ_TOPK_CTRL ⟨⟨.RZ_TOPK_CTRL, 0x400, 8, 1, 0x3f, 0, 0, 0x100, 0x20⟩, 0, 0⟩ v =
      fsetB (fsetB { setReg s RZ_TOPK_CTRL w with chip := { s.chip with topk := some (topkScan s m.toNat d e) } } RZ_TOPK_CTRL_ABORTED false) RZ_TOPK_CTRL_BUSY true := by
    show topkWrite s v (fun t => storeAll t RZ_TOPK_CTRL v) = _
    unfold topkWrite
    simp only [hw, hgo, hm, hd, he, topkScan_setReg, if_true]
    rfl
  have hx : exec (.topkScan m d e) s = nextOf s (hostWrite s RZ_TOPK_CTRL v) := by rw [← hword]; rfl
  refine gives_direct h hx hv regAt_topkCtrl rfl rfl happly ⟨rfl, rfl, rfl⟩ fun hok => ⟨rfl, (flag_answered _ _).trans (flag_fsetB_bit _ true (by decide) (by decide)), (flag_answered _ _).trans ?_, hok⟩
  rw [flag_fsetB_disj _ _ RZ_TOPK_CTRL_ABORTED true (by decide) (by decide)]
  exact flag_fsetB_bit _ false (by decide) (by decide)

/-! #### Fault records -/

theorem regAt_fltFirst : regAt RZ_FLT_FIRST = some ⟨⟨.RZ_FLT_FIRST, 0x1040, 8, 1, 0, 0x100, 0, 0, 0⟩, 0, 0⟩ := by decide +kernel

theorem regAt_fltNvm : regAt RZ_FLT_NVM = some ⟨⟨.RZ_FLT_NVM, 0x10c0, 8, 1, 0, 0, 0, 0x1000000, 0⟩, 0, 0⟩ := by decide +kernel

theorem gives_firstLatchClear {s : State} (h : Direct s RZ_FLT_FIRST (2 ^ 8)) : Gives .firstLatchClear s fun t =>
    flag t RZ_FLT_FIRST_VALID = false ∧ flag t RZ_FLT_FIRST_OVF = false ∧ Ok s t ∧ t.flt = s.flt := by
  have happly : applyReg s RZ_FLT_FIRST ⟨⟨.RZ_FLT_FIRST, 0x1040, 8, 1, 0, 0x100, 0, 0, 0⟩, 0, 0⟩ (2 ^ 8) = fset (fsetB (fsetB s RZ_FLT_FIRST_VALID false) RZ_FLT_FIRST_OVF false) RZ_FLT_FIRST_SRC 0 :=
    rfl
  refine gives_direct h rfl (by decide) regAt_fltFirst rfl rfl happly ⟨rfl, rfl, rfl⟩ fun hok => ⟨(flag_answered _ _).trans ?_, (flag_answered _ _).trans ?_, hok, rfl⟩
  · rw [flag_congr_fget (fget_fset_disj _ _ RZ_FLT_FIRST_VALID 0 (by decide) (by decide)), flag_fsetB_disj _ _ RZ_FLT_FIRST_VALID false (by decide) (by decide)]
    exact flag_fsetB_bit _ false (by decide) (by decide)
  · rw [flag_congr_fget (fget_fset_disj _ _ RZ_FLT_FIRST_OVF 0 (by decide) (by decide))]
    exact flag_fsetB_bit _ false (by decide) (by decide)

theorem gives_faultNvmClear {s : State} (h : Direct s RZ_FLT_NVM (2 ^ 24)) : Gives .faultNvmClear s fun t =>
    t.flash.fslots = [] ∧ t.flash.pinned = none ∧ fget t RZ_FLT_NVM_USED = 0 ∧ flag t RZ_FLT_NVM_PINNED = false ∧ Ok s t := by
  have happly : applyReg s RZ_FLT_NVM ⟨⟨.RZ_FLT_NVM, 0x10c0, 8, 1, 0, 0, 0, 0x1000000, 0⟩, 0, 0⟩ (2 ^ 24) =
      fsetB (fsetB (fset { s with flash := { s.flash with fslots := [], pinned := none } } RZ_FLT_NVM_USED 0) RZ_FLT_NVM_PINNED false) RZ_FLT_NVM_PENDING (!s.flt.nvmQ.isEmpty) :=
    rfl
  refine gives_direct h rfl (by decide) regAt_fltNvm rfl rfl happly ⟨rfl, rfl, rfl⟩ fun hok => ⟨rfl, rfl, (fget_answered _ _).trans ?_, (flag_answered _ _).trans ?_, hok⟩
  · rw [fget_fsetB_disj _ _ RZ_FLT_NVM_USED _ (by decide) (by decide), fget_fsetB_disj _ _ RZ_FLT_NVM_USED _ (by decide) (by decide)]
    exact fget_fset_same _ _ _ (by decide) (by decide)
  · rw [flag_fsetB_disj _ _ RZ_FLT_NVM_PINNED _ (by decide) (by decide)]
    exact flag_fsetB_bit _ false (by decide) (by decide)

/-! #### Record reads -/

theorem regAt_readCmd : regAt NV_READ_CMD = some ⟨⟨.NV_READ_CMD, 0x210, 8, 1, 0xffffff03ff, 0, 0, 0x10000000000, 0⟩, 0, 0⟩ := by decide +kernel

theorem gives_recordRead {s : State} {a : BitVec 2} {p : BitVec 8} {m : BitVec 24} (h : Direct s NV_READ_CMD (a.toNat + 4 * p.toNat + 2 ^ 16 * m.toNat + 2 ^ 40))
    (hok : readRefused s a.toNat p.toNat m.toNat = false) : Gives (.recordRead a p m) s fun t =>
      t.nv.ops = s.nv.ops ++ [.read a.toNat p.toNat m.toNat] ∧ flag t NV_READ_CMD_BUSY = true ∧ Ok s t ∧ t.flash = s.flash := by
  have hgo : bitOf (a.toNat + 4 * p.toNat + 2 ^ 16 * m.toNat + 2 ^ 40) 40 = true := beq_iff_eq.mpr (by omega)
  have ha : bitsOf (a.toNat + 4 * p.toNat + 2 ^ 16 * m.toNat + 2 ^ 40) 1 0 = a.toNat := by unfold bitsOf; omega
  have hp : bitsOf (a.toNat + 4 * p.toNat + 2 ^ 16 * m.toNat + 2 ^ 40) 9 2 = p.toNat := by unfold bitsOf; omega
  have hm : bitsOf (a.toNat + 4 * p.toNat + 2 ^ 16 * m.toNat + 2 ^ 40) 39 16 = m.toNat := by unfold bitsOf; omega
  have hv : a.toNat + 4 * p.toNat + 2 ^ 16 * m.toNat + 2 ^ 40 < 2 ^ 64 := by omega
  generalize hword : a.toNat + 4 * p.toNat + 2 ^ 16 * m.toNat + 2 ^ 40 = v at h hgo ha hp hm hv
  obtain ⟨w, hw⟩ := storeAll_setReg regAt_readCmd rfl s v
  have happly : applyReg s NV_READ_CMD ⟨⟨.NV_READ_CMD, 0x210, 8, 1, 0xffffff03ff, 0, 0, 0x10000000000, 0⟩, 0, 0⟩ v =
      fsetB { setReg s NV_READ_CMD w with nv := { s.nv with ops := s.nv.ops ++ [.read a.toNat p.toNat m.toNat] } } NV_READ_CMD_BUSY true := by
    show readCmd s v (fun t => storeAll t NV_READ_CMD v) = _
    unfold readCmd
    simp only [hw, hgo, ha, hp, hm, hok, Bool.true_eq_false, Bool.false_eq_true, if_false]
    rfl
  have hx : exec (.recordRead a p m) s = nextOf s (hostWrite s NV_READ_CMD v) := by rw [← hword]; rfl
  exact gives_direct h hx hv regAt_readCmd rfl rfl happly ⟨rfl, rfl, rfl⟩ fun hans => ⟨rfl, (flag_answered _ _).trans (flag_fsetB_bit _ true (by decide) (by decide)), hans, rfl⟩

/-! #### Plain registers -/

/-- A committed write of a register that only stores, held by the Rhizome's own domain. -/
theorem actWrite_plain {s : State} {a v : Nat} {r : RegAt} (hcmd : isFrCmd r.row.name = false) (hbud : isBudget r.row.name = false) (hh : holder a = none) :
    actWrite s a r v true = answerCur (applyReg s a r v) .ok 0 := by
  unfold actWrite
  simp only [hcmd, hbud, hh, Bool.false_eq_true, if_false]
  rfl

/-- Out of sync, a write of a register that only stores acts and is answered at once (R377, R396). -/
theorem gives_registerWrite {s : State} {a : Nat} {d : W64} {r : RegAt} (h : Direct s a d.toNat) (hout : inSync s = false) (hr : regAt a = some r) (hw : r.row.w1c = 0) (hid : a ≠ RZ_ID)
    (hplain : isFrCmd r.row.name = false ∧ isBudget r.row.name = false ∧ journalled r.row.name = true ∧ r.row.name ≠ .RZ_BRIDGE_CMD ∧ r.row.name ≠ .FR_SETPOINT ∧ vidOwned r = false) (hh : holder a = none)
    (happly : ∀ t, applyReg t a r d.toNat = storeAll t a d.toNat) : Gives (.registerWrite (BitVec.ofNat 26 a) d) s fun t =>
      reg t a = (reg s a &&& ~~~(BitVec.ofNat 64 r.row.rw)) ||| (d &&& BitVec.ofNat 64 r.row.rw) ∧ (∀ b, b ≠ a → reg t b = reg s b) ∧ Answered none s t := by
  obtain ⟨hs, ⟨hmem, r', hr', hok⟩, -⟩ := h
  obtain rfl : r' = r := Option.some.inj (hr'.symm.trans hr)
  obtain ⟨hcmd, hbud, hj, hbr, hsp, hvid⟩ := hplain
  obtain ⟨-, hq, -⟩ := id hs
  generalize hword : (reg s a &&& ~~~(BitVec.ofNat 64 r'.row.rw)) ||| (d &&& BitVec.ofNat 64 r'.row.rw) = w
  have hstore : storeAll (committed s a d.toNat) a d.toNat = setReg (committed s a d.toNat) a w := by
    rw [storeAll_eq hr hw, BitVec.ofNat_toNat, BitVec.setWidth_eq, ← hword]
    rfl
  have hx : exec (.registerWrite (BitVec.ofNat 26 a) d) s = nextOf s (hostWrite s a d.toNat) := by
    show nextOf s (hostAccess s true (BitVec.ofNat 26 a) d .clean) = nextOf s (hostAccess s true (BitVec.ofNat 26 a) (BitVec.ofNat 64 d.toNat) .clean)
    rw [BitVec.ofNat_toNat, BitVec.setWidth_eq]
  generalize ht : ({ setReg s a w with bus := { (committed s a d.toNat).bus with cur := none, resp := s.bus.resp ++ [⟨.host, .ok, 0⟩] } } : State) = t
  have hact : actWrite (committed s a d.toNat) a r' d.toNat true = t := by
    rw [actWrite_plain hcmd hbud hh, happly, hstore, ← ht]
    rfl
  have hhost : hostWrite s a d.toNat = pmStep t := by
    rw [hostWrite_atOnce hs hout hmem hr hok d.isLt hj hvid hbr hsp, hact, workN_stop (work_empty (by rw [← ht]; rfl) (by rw [← ht]; exact hq))]
  rw [hhost] at hx
  refine gives_of_exec hx (by rw [← ht]; rfl) (by rw [← ht]; rfl) ?_
  subst ht
  exact ⟨reg_setReg_same s a w hid, fun b hb => reg_setReg_ne s a b w hb, rfl, rfl⟩

/-- Settles O28: each row is the write of its register, which acts and is answered at once. -/
theorem directWrites : Obligations.DirectWrites := by
  intro s
  refine ⟨fun _ _ => gives_islandProbe, fun _ _ => gives_queueProbe, fun _ _ _ => gives_imemWrite, fun _ _ => gives_softTrigger, fun _ _ => gives_dmaEnable, fun _ _ => gives_dmaRdWrite,
    fun _ => gives_lcalCmd, fun _ _ _ => gives_topkScan, gives_firstLatchClear, gives_faultNvmClear, fun _ _ _ => gives_recordRead, ?_⟩
  rintro a d r (rfl | rfl | rfl | rfl) h hout hr
  · obtain rfl : r = ⟨⟨.RZ_DEGRADE, 0x600, 8, 1, 0x3fffff01, 0, 0, 0, 0x30086401⟩, 0, 0⟩ := Option.some.inj (hr.symm.trans (by decide +kernel))
    exact gives_registerWrite h hout hr rfl (by decide) (by decide) rfl fun _ => rfl
  · obtain rfl : r = ⟨⟨.RZ_SAG_CFG, 0x608, 8, 1, 0xff7fffffffff, 0, 0, 0, 0xa100a0a648c⟩, 0, 0⟩ := Option.some.inj (hr.symm.trans (by decide +kernel))
    exact gives_registerWrite h hout hr rfl (by decide) (by decide) rfl fun _ => rfl
  · obtain rfl : r = ⟨⟨.RZ_PAIR_CFG, 0x700, 8, 1, 0x1ff, 0, 0, 0, 0x114⟩, 0, 0⟩ := Option.some.inj (hr.symm.trans (by decide +kernel))
    exact gives_registerWrite h hout hr rfl (by decide) (by decide) rfl fun _ => rfl
  · obtain rfl : r = ⟨⟨.FC_LOAD_SRC, 0x8, 8, 1, 0xffffff, 0, 0, 0, 0⟩, 0, 0⟩ := Option.some.inj (hr.symm.trans (by decide +kernel))
    exact gives_registerWrite h hout hr rfl (by decide) (by decide) rfl fun _ => rfl

end Sys2Proof.Machine
end

section
/-! Fiddlehead: a forecast cycle begins or is skipped (R254, R255, R272). -/
namespace Sys2Proof.Machine
open Sys2Proof.Claims

/-! #### What a cycle leaves alone -/

/-- The parts of the state that the inputs, the counts and the records of a cycle leave alone. -/
structure CycleView where
  member : Member
  pending : List Instr
  fronds : Tbl Frond
  moss : Moss
  seq : Nat
  queue : List (Nat × Nat)

def cycleView (s : State) : CycleView := ⟨s.member, s.pending, s.fronds, s.moss, s.fh.seq, s.fh.queue⟩

/-- The record of a frond in the cycle: a step of the state, and what it appends. -/
def cycleStep (g : State → Nat → State × FcRec) (a : State × List (Nat × FcRec)) (f : Nat) : State × List (Nat × FcRec) := ((g a.1 f).1, a.2 ++ [(f, (g a.1 f).2)])

/-- One record of every frond, in order; what every step keeps, the cycle keeps. -/
theorem foldl_cycleStep {β : Type} {g : State → Nat → State × FcRec} {π : State → β} {P : FcRec → Prop} (hπ : ∀ t f, π (g t f).1 = π t) (hP : ∀ t f, P (g t f).2) (fs : List Nat)
    (a : State × List (Nat × FcRec)) (ha : ∀ p ∈ a.2, P p.2) :
    π (fs.foldl (cycleStep g) a).1 = π a.1 ∧ ((fs.foldl (cycleStep g) a).2.map fun p => p.1) = (a.2.map fun p => p.1) ++ fs ∧ ∀ p ∈ (fs.foldl (cycleStep g) a).2, P p.2 := by
  induction fs generalizing a with
  | nil => exact ⟨rfl, (List.append_nil _).symm, ha⟩
  | cons f fs ih =>
    have hnew : ∀ p ∈ (cycleStep g a f).2, P p.2 := by
      intro p hp
      obtain hp | hp := List.mem_append.mp hp
      · exact ha p hp
      · rw [List.mem_singleton.mp hp]
        exact hP a.1 f
    obtain ⟨h1, h2, h3⟩ := ih (cycleStep g a f) hnew
    refine ⟨h1.trans (hπ a.1 f), h2.trans ?_, h3⟩
    simp [cycleStep]

theorem cycleView_foldl {α : Type} {g : State → α → State} (h : ∀ t x, cycleView (g t x) = cycleView t) (l : List α) (s : State) : cycleView (l.foldl g s) = cycleView s := foldl_proj_eq cycleView g h l s

theorem cycleView_ite {c : Prop} [Decidable c] {s t u : State} (ht : cycleView t = cycleView s) (hu : cycleView u = cycleView s) : cycleView (if c then t else u) = cycleView s := by
  split
  · exact ht
  · exact hu

theorem cycleView_applyToken (s : State) (k : Nat) : cycleView (applyToken s k) = cycleView s := by
  have heach : ∀ (g : FhF → FhF) (fs : List Nat), cycleView (fs.foldl (fun st f => updFhF st f g) s) = cycleView s := fun g fs => cycleView_foldl (g := fun st f => updFhF st f g) (fun _ _ => rfl) fs s
  unfold applyToken
  dsimp only
  split
  · exact heach _ _
  · exact heach _ _
  · exact heach _ _
  · rfl
  · rfl
  · rfl
  · exact heach _ _
  · rfl

/-- The inputs latch: the tokens leave the queue (R254, R257). -/
theorem cycleView_latchInputs (s : State) : cycleView (latchInputs s) = { cycleView s with queue := [] } := by
  unfold latchInputs
  dsimp only
  refine (cycleView_foldl (g := fun t (p : Nat × Nat) => applyToken t p.2) (fun t p => cycleView_applyToken t p.2) _ _).trans ?_
  exact congrArg (fun v : CycleView => { v with queue := [] }) (cycleView_foldl (g := fun t f => updFhF t f _) (fun _ _ => rfl) _ s)

/-- Registers other than FH_STAT have changed, and nothing else. -/
def CountsOnly (s t : State) : Prop := t = { s with regs := t.regs } ∧ reg t FH_STAT = reg s FH_STAT

namespace CountsOnly

variable {s t u : State}

theorem refl (s : State) : CountsOnly s s := ⟨rfl, rfl⟩

theorem trans (h : CountsOnly s t) (k : CountsOnly t u) : CountsOnly s u := by
  obtain ⟨h, hreg⟩ := h
  obtain ⟨k, kreg⟩ := k
  exact ⟨by rw [k, h], kreg.trans hreg⟩

theorem fset (s : State) {x : Fld} (v : Nat) (hx : FH_STAT ≠ x.addr) : CountsOnly s (fset s x v) := ⟨rfl, reg_fset_ne s x v FH_STAT hx⟩

theorem ite {c : Prop} [Decidable c] (ht : CountsOnly s t) (hu : CountsOnly s u) : CountsOnly s (if c then t else u) := by
  split
  · exact ht
  · exact hu

end CountsOnly

/-- A flag and its count (R118, R119, R125). -/
theorem countsOnly_flagCount (s : State) (n : Nat) {x y : Fld} (hx : FH_STAT ≠ x.addr) (hy : FH_STAT ≠ y.addr) : CountsOnly s (bumpBy (fsetB s x true) y n) :=
  (CountsOnly.fset s _ hx).trans (CountsOnly.fset _ _ hy)

theorem countsOnly_arithStat (s : State) (c : Cnt) : CountsOnly s (arithStat s c) := by
  unfold arithStat
  exact ((CountsOnly.ite (countsOnly_flagCount s _ (by decide) (by decide)) (.refl s)).trans (.ite (countsOnly_flagCount _ _ (by decide) (by decide)) (.refl _))).trans
    ((CountsOnly.ite (countsOnly_flagCount _ _ (by decide) (by decide)) (.refl _)).trans (.ite (CountsOnly.fset _ _ (by decide)) (.refl _)))

theorem cycleView_countsOnly {s t : State} (h : CountsOnly s t) : cycleView t = cycleView s := by
  obtain ⟨h, -⟩ := h
  rw [h]
  rfl

theorem cycleView_classStep (s : State) (f : Nat) (l : List Nat) : cycleView (classStep s f l) = cycleView s :=
  cycleView_ite rfl (cycleView_ite rfl (cycleView_ite rfl rfl))

theorem cycleView_errStep (s : State) (f : Nat) : cycleView (errStep s f) = cycleView s := by
  unfold errStep
  split
  · rfl
  · rfl

theorem cycleView_recordOf (e : Eng) (warm : Bool) (seq : Nat) (s : State) (f : Nat) : cycleView (recordOf e warm seq s f).1 = cycleView s :=
  (cycleView_classStep (errStep s f) f _).trans (cycleView_errStep s f)

theorem provSeq_provWord (n i k : Nat) : provSeq (provWord n i k) = n % 2 ^ 32 := by
  unfold provSeq provWord
  omega

theorem provSeq_recordOf (e : Eng) (warm : Bool) (seq : Nat) (s : State) (f : Nat) : provSeq (recordOf e warm seq s f).2.prov = seq % 2 ^ 32 := provSeq_provWord seq 0x42 0

/-! #### The cycle -/

section
variable {s : State}

theorem takeSwitch_none (h : s.fh.switch = none) : takeSwitch s = s := by
  unfold takeSwitch
  rw [h]

/-- A cycle that is due while another runs is skipped (R255). -/
theorem gives_forecastCycle_skipped (hans : answers s 0x42 = true) (hen : flag s FH_CTRL_EN = true) (hload : flag s FH_MODEL_STAT_LOADED = true) (hspore : inSpore s = false)
    (hrun : s.fh.run.isSome = true) : Gives .forecastCycle s fun t =>
      t.fh = s.fh ∧ fget t FH_STAT_SKIPS = min (fget s FH_STAT_SKIPS + 1) (fmax FH_STAT_SKIPS) ∧ Raised 0xC0 none 0 0x42 s t := by
  have hx : exec .forecastCycle s = nextOf s (raiseD (bump s FH_STAT_SKIPS) 0xC0 none 0 0x42) := by
    show execForecastCycle s = _
    unfold execForecastCycle
    simp only [hen, hload, hans, hspore, hrun]
    rfl
  rw [raiseD_eq _ _ _ _ _ (by decide)] at hx
  exact gives_of_exec hx rfl rfl ⟨rfl, fget_bump_same s FH_STAT_SKIPS (by decide) (by decide), rfl⟩

/-- No cycle runs from banks that Fiddlehead does not own (R272). -/
theorem exec_forecastCycle_notOwned (hrun : s.fh.run = none) (hsw : s.fh.switch = none) (hown : slotOwned s (fget s FH_MODEL_STAT_SLOT) (flag s FH_MODEL_STAT_WIDE) = false) :
    exec .forecastCycle s = .next s := by
  show execForecastCycle s = nextOf s s
  unfold execForecastCycle
  simp only [takeSwitch_none hsw, hrun, hown]
  split
  · rfl
  · rfl

/-- The inputs of the cycle that begins. -/
def latched (s : State) : State := latchInputs { s with fh := { s.fh with nlms := some (reg s FH_NLMS_CFG).toNat } }

theorem cycleView_latched (s : State) : cycleView (latched s) = { cycleView s with queue := [] } := cycleView_latchInputs _

/-- The state and the records that the fronds of the cycle leave. -/
def cycleRecords (s : State) : State × List (Nat × FcRec) :=
  let s1 := latched s
  let e := runModel s1
  (List.range (nF s1)).foldl (cycleStep (recordOf e (decide (s1.fh.ran < runRd s1 19)) s1.fh.seq)) (arithStat s1 e.c, [])

/-- What the run keeps for the update of the heads (R270). -/
def cyclePast (s : State) : FhPast :=
  let s1 := latched s
  let e := runModel s1
  { p := (List.range (nF s1)).map fun f => (f, rowOf e 1 f), froz := (List.range (nF s1)).filter fun f => frozenNow s1 f }

theorem exec_forecastCycle (hans : answers s 0x42 = true) (hen : flag s FH_CTRL_EN = true) (hload : flag s FH_MODEL_STAT_LOADED = true) (hspore : inSpore s = false)
    (hrun : s.fh.run = none) (hsw : s.fh.switch = none) (hown : slotOwned s (fget s FH_MODEL_STAT_SLOT) (flag s FH_MODEL_STAT_WIDE) = true) :
    exec .forecastCycle s = nextOf s { (cycleRecords s).1 with fh := { (cycleRecords s).1.fh with
      run := some ⟨(latched s).fh.seq, (cycleRecords s).2, cyclePast s, (runModel (latched s)).head, stateWrites (latched s) (runModel (latched s)), decide ((latched s).fh.ran < runRd (latched s) 19)⟩,
      seq := ((latched s).fh.seq + 1) % 2 ^ 32 } } := by
  have hidle : s.fh.run.isSome = false := by rw [hrun]; rfl
  show execForecastCycle s = _
  unfold execForecastCycle
  simp only [takeSwitch_none hsw, hen, hload, hans, hspore, hidle, hown]
  rfl

theorem gives_forecastCycle (hans : answers s 0x42 = true) (hen : flag s FH_CTRL_EN = true) (hload : flag s FH_MODEL_STAT_LOADED = true) (hspore : inSpore s = false)
    (hrun : s.fh.run = none) (hsw : s.fh.switch = none) (hown : slotOwned s (fget s FH_MODEL_STAT_SLOT) (flag s FH_MODEL_STAT_WIDE) = true) : Gives .forecastCycle s fun t =>
      t.fh.seq = (s.fh.seq + 1) % 2 ^ 32 ∧ t.fh.queue = [] ∧ t.fronds = s.fronds ∧ t.moss = s.moss ∧
      ∃ r, t.fh.run = some r ∧ r.seq = s.fh.seq ∧ (r.recs.map fun p => p.1) = List.range (nF s) ∧ ∀ p ∈ r.recs, provSeq p.2.prov = s.fh.seq % 2 ^ 32 := by
  have hlatched := cycleView_latched s
  have hseq : (latched s).fh.seq = s.fh.seq := congrArg CycleView.seq hlatched
  have hn : nF (latched s) = nF s := congrArg (fun v : CycleView => v.member.fronds) hlatched
  obtain ⟨hview, hfst, hprov⟩ := foldl_cycleStep (g := recordOf (runModel (latched s)) (decide ((latched s).fh.ran < runRd (latched s) 19)) (latched s).fh.seq) (π := cycleView)
    (P := fun x => provSeq x.prov = (latched s).fh.seq % 2 ^ 32) (cycleView_recordOf _ _ _) (provSeq_recordOf _ _ _) (List.range (nF (latched s))) (arithStat (latched s) (runModel (latched s)).c, [])
    (fun _ hp => by cases hp)
  have hview : cycleView (cycleRecords s).1 = { cycleView s with queue := [] } := (hview.trans (cycleView_countsOnly (countsOnly_arithStat _ _))).trans hlatched
  refine gives_of_exec (exec_forecastCycle hans hen hload hspore hrun hsw hown) (congrArg CycleView.member hview) (congrArg CycleView.pending hview)
    ⟨congrArg (fun n => (n + 1) % 2 ^ 32) hseq, congrArg CycleView.queue hview, congrArg CycleView.fronds hview, congrArg CycleView.moss hview, _, rfl, hseq, ?_, ?_⟩
  · exact hfst.trans (congrArg List.range hn)
  · intro p hp
    rw [← hseq]
    exact hprov p hp

end

end Sys2Proof.Machine
end

section
/-! Fiddlehead: the records of a cycle are sent (R255, R256, R263, R270). -/
namespace Sys2Proof.Machine
open Sys2Proof.Claims

/-! #### Reads of model data (R356) -/

/-- A read of Moss moves registers, counts of Moss and raises alone. -/
theorem readEcc_rest (s u : State) (off : Nat) (e : Ecc) : { readEcc s off e with regs := u.regs, moss := u.moss, flt := u.flt } = { s with regs := u.regs, moss := u.moss, flt := u.flt } := by
  cases e with
  | clean => rfl
  | single =>
    show { countCe s (bankOf off) with regs := u.regs, moss := u.moss, flt := u.flt } = _
    unfold countCe
    dsimp only
    split
    · rw [raiseD_rest]
      rfl
    · rfl
  | double =>
    show { countUe s off with regs := u.regs, moss := u.moss, flt := u.flt } = _
    unfold countUe
    rw [raiseD_rest]
    rfl

/-- A register of Moss does not hold a field below its addresses. -/
theorem fget_fset_moss (t : State) {y x : Fld} (v : Nat) (hy : 0x80000 ≤ y.addr) (hx : x.addr < 0x80000) : fget (fset t y v) x = fget t x := fget_fset_addr t y x v (by omega)

theorem fget_raiseD (s : State) (c : Nat) (u : Option Nat) (d i : Nat) (x : Fld) : fget (raiseD s c u d i) x = fget s x :=
  fget_congr (raiseD_member s c u d i) (raiseD_regs s c u d i) x

theorem fget_countCe (s : State) (b : Nat) {x : Fld} (hx : x.addr < 0x80000) : fget (countCe s b) x = fget s x := by
  have hce : fget (bump s (MS_BANK_CE b)) x = fget s x := fget_fset_moss s (y := MS_BANK_CE b) _ (by show 0x80000 ≤ 0x80000 + 8 * b; omega) hx
  unfold countCe
  dsimp only
  split
  · exact (fget_raiseD _ _ _ _ _ x).trans ((fget_congr (s := bump s (MS_BANK_CE b)) rfl rfl x).trans hce)
  · exact (fget_congr (s := bump s (MS_BANK_CE b)) rfl rfl x).trans hce

theorem fget_countUe (s : State) (off : Nat) {x : Fld} (hx : x.addr < 0x80000) : fget (countUe s off) x = fget s x := by
  unfold countUe
  rw [fget_raiseD, fget_fset_moss (y := MS_STAT_LAST_UE) _ off (by decide) hx]
  exact fget_fset_moss s (y := MS_BANK_UE (bankOf off)) _ (by show 0x80000 ≤ 0x80000 + 8 * bankOf off; omega) hx

/-- The registers below those of Moss do not move by a read. -/
theorem fget_readEcc (s : State) (off : Nat) (e : Ecc) {x : Fld} (hx : x.addr < 0x80000) : fget (readEcc s off e) x = fget s x := by
  cases e with
  | clean => rfl
  | single => exact fget_countCe s _ hx
  | double => exact fget_countUe s off hx

theorem modelReads_rest (s : State) (reads : List (BitVec 24 × Ecc)) :
    modelReads s reads = { s with regs := (modelReads s reads).regs, moss := (modelReads s reads).moss, flt := (modelReads s reads).flt } := by
  have h : { modelReads s reads with regs := s.regs, moss := s.moss, flt := s.flt } = s :=
    foldl_proj_eq (fun t : State => { t with regs := s.regs, moss := s.moss, flt := s.flt }) (fun t (p : BitVec 24 × Ecc) => readEcc t p.1.toNat p.2) (fun t p => readEcc_rest t s p.1.toNat p.2) reads s
  exact congrArg (fun t : State => { t with regs := (modelReads s reads).regs, moss := (modelReads s reads).moss, flt := (modelReads s reads).flt }) h

theorem fget_modelReads (s : State) (reads : List (BitVec 24 × Ecc)) {x : Fld} (hx : x.addr < 0x80000) : fget (modelReads s reads) x = fget s x :=
  foldl_proj_eq (fun t => fget t x) _ (fun t (p : BitVec 24 × Ecc) => fget_readEcc t p.1.toNat p.2 hx) reads s

/-! #### What the update of the heads leaves alone -/

/-- The parts of the state in which records wait or are counted, and those that a command must keep. -/
structure SentView where
  member : Member
  pending : List Instr
  run : Option FhRun
  cycle : Nat
  adAir : List (Nat × FcRec)
  fcAir : List (Nat × FcRec)
  fronds : Tbl Frond
  flt : Flt

def sentView (s : State) : SentView := ⟨s.member, s.pending, s.fh.run, fget s FH_STAT_CYCLE, s.fh.adAir, s.rz.fcAir, s.fronds, s.flt⟩

theorem sentView_foldl {α : Type} {g : State → α → State} (h : ∀ t x, sentView (g t x) = sentView t) (l : List α) (s : State) : sentView (l.foldl g s) = sentView s := foldl_proj_eq sentView g h l s

theorem sentView_fset (s : State) {x : Fld} (v : Nat) (hx : FH_STAT ≠ x.addr) : sentView (fset s x v) = sentView s := by
  unfold sentView
  rw [fget_fset_addr s x FH_STAT_CYCLE v hx]
  rfl

theorem sentView_countsOnly {s t : State} (h : CountsOnly s t) : sentView t = sentView s := by
  obtain ⟨h, hreg⟩ := h
  have hcyc : fget t FH_STAT_CYCLE = fget s FH_STAT_CYCLE := by
    unfold fget
    rw [hreg]
  unfold sentView
  rw [hcyc, h]

/-- STATE and WARM_LEFT stand beside the cycle number. -/
theorem sentView_fhStat (s : State) (a b : Nat) : sentView (fset (fset s FH_STAT_STATE a) FH_STAT_WARM_LEFT b) = sentView s := by
  unfold sentView
  rw [fget_fset_disj _ _ FH_STAT_CYCLE b (by decide) (by decide), fget_fset_disj _ _ FH_STAT_CYCLE a (by decide) (by decide)]
  rfl

theorem sentView_showFh (s : State) : sentView (showFh s) = sentView s := by
  unfold showFh
  dsimp only
  split
  · exact sentView_fhStat s _ _
  · split
    · exact sentView_fhStat s _ _
    · exact sentView_fhStat s _ _

theorem frondAddr_ne_stat (f : Nat) : FH_STAT ≠ FH_FROND f := by
  show 0x60008 ≠ 0x60200 + 8 * f
  omega

theorem sentView_ite {c : Prop} [Decidable c] {s t u : State} (ht : sentView t = sentView s) (hu : sentView u = sentView s) : sentView (if c then t else u) = sentView s := by
  split
  · exact ht
  · exact hu

theorem sentView_putRows {α : Type} (off : α → Nat) (n : Nat) (row : α → List Nat) (l : List α) (s : State) :
    sentView (l.foldl (fun t p => mossPutVals t (off p) n (row p)) s) = sentView s := sentView_foldl (g := fun t p => mossPutVals t (off p) n (row p)) (fun _ _ => rfl) l s

theorem sentView_updateHead (s : State) (r : FhRun) (a : State × FhPast) (f : Nat) : sentView (updateHead s r a f).1 = sentView a.1 := by
  have hrows : ∀ (b : Bool) (c : Cnt) (l : List (Nat × List Nat)), sentView (l.foldl (fun t p => mossPutVals t (masterAt (runArea s) (headWidth (runRd s)) f p.1) 4 p.2)
      (arithStat (fsetB a.1 (FH_FROND_FROZEN f) b) c)) = sentView a.1 := fun b c l =>
    ((sentView_putRows _ _ _ l _).trans (sentView_countsOnly (countsOnly_arithStat _ c))).trans (sentView_fset a.1 _ (frondAddr_ne_stat f))
  exact sentView_ite (hrows _ _ _) ((sentView_fset _ _ (frondAddr_ne_stat f)).trans (hrows _ _ _))

theorem foldl_updateHead (s : State) (r : FhRun) (fs : List Nat) (a : State × FhPast) : sentView (fs.foldl (updateHead s r) a).1 = sentView a.1 := by
  induction fs generalizing a with
  | nil => rfl
  | cons f fs ih => exact (ih _).trans (sentView_updateHead s r a f)

theorem sentView_past (s : State) (p : List FhPast) : sentView { s with fh := { s.fh with past := p } } = sentView s := rfl

theorem sentView_updateHeads (s : State) (r : FhRun) : sentView (updateHeads s r) = sentView s := by
  have hheads : sentView (if hasHead (runRd s) = true then (List.range (nF s)).foldl (updateHead s r) (s, r.past) else (s, r.past)).1 = sentView s := by
    split
    · exact foldl_updateHead s r _ _
    · rfl
  unfold updateHeads
  exact (sentView_past _ _).trans ((sentView_ite (sentView_putRows _ _ _ _ _) rfl).trans hheads)

/-! #### Records on their streams -/

/-- The records as they leave on stream k (R263). -/
def onStream (l : List (Nat × FcRec)) (k : Nat) : List (Nat × FcRec) := l.map fun p => (p.1, { p.2 with prov := provWord (provSeq p.2.prov) 0x42 k })

/-- The update that carries a record to its frond's core. -/
def fcUpd (p : Nat × FcRec) : FMsg := .forecast p.2.prov p.2.w1 p.2.w2 p.2.w3

theorem fr_sendUpd_same (s : State) (f : Nat) (m : FMsg) : fr (sendUpd s f m) f = { fr s f with upd := (fr s f).upd ++ [m] } := fr_updFr_same _ _ _

theorem fr_sendUpd_ne (s : State) {f g : Nat} (m : FMsg) (h : g ≠ f) : fr (sendUpd s f m) g = fr s g := fr_updFr_ne _ _ _ _ h

/-- Updates for several fronds: each frond takes its own, in order. -/
theorem upd_foldl_sendUpd (l : List (Nat × FcRec)) (s : State) (f : Nat) :
    (fr (l.foldl (fun t p => sendUpd t p.1 (fcUpd p)) s) f).upd = (fr s f).upd ++ (l.filter fun p => p.1 == f).map fcUpd := by
  induction l generalizing s with
  | nil => exact (List.append_nil _).symm
  | cons p l ih =>
    rw [List.foldl_cons, ih]
    by_cases h : p.1 = f
    · subst h
      rw [fr_sendUpd_same, List.filter_cons_of_pos (by simp), List.map_cons, List.append_assoc]
      rfl
    · rw [fr_sendUpd_ne s _ (Ne.symm h), List.filter_cons_of_neg (by simpa using h)]

/-- The streams of Fiddlehead that the records take have counted them. -/
def countedRecords (s : State) (l : List (Nat × FcRec)) : State := l.foldl (fun t p => [0, 1, 2].foldl (fun u k => sentAs u 0x42 k (provSeq p.2.prov)) t) s

/-- Counting on streams moves the streams alone. -/
theorem countedRecords_rest (s : State) (l : List (Nat × FcRec)) : countedRecords s l = { s with strms := (countedRecords s l).strms } := by
  have h : { countedRecords s l with strms := s.strms } = s :=
    foldl_proj_eq (fun t : State => { t with strms := s.strms }) (fun t (p : Nat × FcRec) => [0, 1, 2].foldl (fun u k => sentAs u 0x42 k (provSeq p.2.prov)) t) (fun _ _ => rfl) l s
  exact congrArg (fun t : State => { t with strms := (countedRecords s l).strms }) h

/-- Sending updates moves the fronds alone. -/
theorem foldl_sendUpd_rest (l : List (Nat × FcRec)) (s : State) :
    l.foldl (fun t p => sendUpd t p.1 (fcUpd p)) s = { s with fronds := (l.foldl (fun t p => sendUpd t p.1 (fcUpd p)) s).fronds } := by
  have h : { l.foldl (fun t p => sendUpd t p.1 (fcUpd p)) s with fronds := s.fronds } = s :=
    foldl_proj_eq (fun t : State => { t with fronds := s.fronds }) (fun t (p : Nat × FcRec) => sendUpd t p.1 (fcUpd p)) (fun _ _ => rfl) l s
  exact congrArg (fun t : State => { t with fronds := (l.foldl (fun t (p : Nat × FcRec) => sendUpd t p.1 (fcUpd p)) s).fronds }) h

/-- What the sending of a cycle's records does: each frond's core, the admission controller and the active Rhizome have theirs in flight (R263). -/
theorem sendRecords_eq (s : State) (l : List (Nat × FcRec)) : ∃ fronds strms, sendRecords s l =
    { s with fronds := fronds, strms := strms, fh := { s.fh with adAir := s.fh.adAir ++ onStream l 1 }, rz := { s.rz with fcAir := s.rz.fcAir ++ onStream l 2 } } ∧
      ∀ f, (tget {} fronds f).upd = (fr s f).upd ++ (l.filter fun p => p.1 == f).map fcUpd := by
  have hupd := upd_foldl_sendUpd l (countedRecords s l)
  have hrest := foldl_sendUpd_rest l (countedRecords s l)
  have hsend : sendRecords s l = (fun u : State => { u with fh := { u.fh with adAir := u.fh.adAir ++ onStream l 1 }, rz := { u.rz with fcAir := u.rz.fcAir ++ onStream l 2 } })
    (l.foldl (fun t p => sendUpd t p.1 (fcUpd p)) (countedRecords s l)) := rfl
  rw [countedRecords_rest s l] at hupd hrest hsend
  rw [hsend, hrest]
  exact ⟨_, _, rfl, hupd⟩

/-! #### The end of a cycle -/

section
variable {s : State} {r : FhRun} {reads : List (BitVec 24 × Ecc)}

/-- The cycle has ended and been counted; its records are still to be sent. -/
def cycleEnded (s : State) (r : FhRun) (reads : List (BitVec 24 × Ecc)) : State :=
  fset { modelReads s reads with fh := { s.fh with run := none, ran := min 255 (s.fh.ran + 1) } } FH_STAT_CYCLE r.seq

/-- Where the state after the end of a cycle stands beside the one before it. -/
theorem sentView_cycleEnded (s : State) (r : FhRun) (reads : List (BitVec 24 × Ecc)) :
    sentView (cycleEnded s r reads) = { sentView s with run := none, cycle := r.seq % 2 ^ 32, flt := (modelReads s reads).flt } := by
  have hmember : (modelReads s reads).member = s.member := by rw [modelReads_rest]
  have hpending : (modelReads s reads).pending = s.pending := by rw [modelReads_rest]
  have hrz : (modelReads s reads).rz = s.rz := by rw [modelReads_rest]
  have hfronds : (modelReads s reads).fronds = s.fronds := by rw [modelReads_rest]
  have hcyc : fget (cycleEnded s r reads) FH_STAT_CYCLE = r.seq % 2 ^ 32 := fget_fset_same _ _ _ (by decide) (by decide)
  unfold sentView
  rw [hcyc]
  show (⟨(modelReads s reads).member, (modelReads s reads).pending, none, r.seq % 2 ^ 32, s.fh.adAir, (modelReads s reads).rz.fcAir, (modelReads s reads).fronds, (modelReads s reads).flt⟩ : SentView) = _
  rw [hmember, hpending, hrz, hfronds]

/-- The records l of cycle r have been sent (R263). -/
def RecordsSent (s : State) (r : FhRun) (l : List (Nat × FcRec)) (t : State) : Prop :=
  t.fh.run = none ∧ fget t FH_STAT_CYCLE = r.seq % 2 ^ 32 ∧ t.fh.adAir = s.fh.adAir ++ onStream l 1 ∧ t.rz.fcAir = s.rz.fcAir ++ onStream l 2 ∧
    ∀ f, (fr t f).upd = (fr s f).upd ++ (l.filter fun p => p.1 == f).map fcUpd

theorem recordsSent_of_view {s1 t : State} {l : List (Nat × FcRec)} {x y : Flt} (h1 : sentView s1 = { sentView s with run := none, cycle := r.seq % 2 ^ 32, flt := x })
    (ht : sentView t = { sentView (sendRecords s1 l) with flt := y }) : t.member = s.member ∧ t.pending = s.pending ∧ t.flt = y ∧ RecordsSent s r l t := by
  obtain ⟨fronds, strms, hsend, hupd⟩ := sendRecords_eq s1 l
  have hview : sentView (sendRecords s1 l) = { sentView s1 with fronds := fronds, adAir := s1.fh.adAir ++ onStream l 1, fcAir := s1.rz.fcAir ++ onStream l 2 } := by
    rw [hsend]
    rfl
  have had : s1.fh.adAir = s.fh.adAir := congrArg SentView.adAir h1
  have hfc : s1.rz.fcAir = s.rz.fcAir := congrArg SentView.fcAir h1
  have hfr : s1.fronds = s.fronds := congrArg SentView.fronds h1
  rw [hview, h1, had, hfc] at ht
  have htfr : t.fronds = fronds := congrArg SentView.fronds ht
  refine ⟨congrArg SentView.member ht, congrArg SentView.pending ht, congrArg SentView.flt ht, congrArg SentView.run ht, congrArg SentView.cycle ht, congrArg SentView.adAir ht, congrArg SentView.fcAir ht, fun f => ?_⟩
  unfold fr at hupd ⊢
  rw [htfr, hupd f, hfr]

/-- The cycle's records are sent, and the heads and the state tensors are updated (R263, R270). -/
theorem gives_recordsSent (hrun : s.fh.run = some r) (hue : firstUe reads = none) : Gives (.forecastRecordsSent reads) s fun t => RecordsSent s r r.recs t ∧ (reads = [] → t.flt = s.flt) := by
  generalize ht : showFh (r.st.foldl (fun t p => mossPutVals t p.1 2 [p.2]) (updateHeads (sendRecords (cycleEnded s r reads) r.recs) r)) = t
  have hx : exec (.forecastRecordsSent reads) s = nextOf s t := by
    show execForecastRecordsSent reads s = _
    unfold execForecastRecordsSent
    simp only [hrun, hue]
    rw [← ht]
    rfl
  have hview : sentView t = sentView (sendRecords (cycleEnded s r reads) r.recs) := by
    rw [← ht]
    exact (sentView_showFh _).trans ((sentView_putRows (fun p : Nat × Nat => p.1) 2 (fun p => [p.2]) r.st _).trans (sentView_updateHeads _ r))
  have hflt : (sendRecords (cycleEnded s r reads) r.recs).flt = (modelReads s reads).flt := by
    obtain ⟨_, _, hsend, -⟩ := sendRecords_eq (cycleEnded s r reads) r.recs
    rw [hsend]
    rfl
  obtain ⟨hm, hp, htf, hsent⟩ := recordsSent_of_view (sentView_cycleEnded s r reads) (hview.trans (congrArg (fun x => { sentView (sendRecords (cycleEnded s r reads) r.recs) with flt := x }) hflt))
  refine gives_of_exec hx hm hp ⟨hsent, fun hreads => ?_⟩
  rw [htf, hreads]
  rfl

/-- An abandoned cycle voids the standing records and points of every frond (R256). -/
def voidFronds (s : State) : State := (List.range (nF s)).foldl (fun t f => updFhF (fsetB t (FH_FROND_VALID f) false) f fun y => { y with p0 := none :: y.p0.drop 1 }) s

theorem sentView_voidFronds (s : State) : sentView (voidFronds s) = sentView s :=
  sentView_foldl (g := fun t f => updFhF (fsetB t (FH_FROND_VALID f) false) f fun y => { y with p0 := none :: y.p0.drop 1 }) (fun t f => sentView_fset t _ (frondAddr_ne_stat f)) _ s

/-- VALID is 0 in the record of an abandoned cycle. -/
theorem valid_voidRec (x : FcRec) : bitOf (voidRec x).w1 22 = false := by
  rw [bitOf_eq_testBit]
  show (putBits x.w1 22 0 0).testBit 22 = false
  rw [testBit_putBits, if_pos (by decide), Nat.zero_testBit]

/-- A read that met an uncorrectable error: the records are sent with VALID 0, and the error is raised (R256). -/
theorem gives_recordsVoid {off : Nat} (hrun : s.fh.run = some r) (hue : firstUe reads = some off) : Gives (.forecastRecordsSent reads) s fun t =>
    RecordsSent s r (r.recs.map fun p => (p.1, voidRec p.2)) t ∧ ⟨0xC1, none, off, 0x42, false⟩ ∈ t.flt.raises ∧ ∀ p ∈ r.recs, bitOf (voidRec p.2).w1 22 = false := by
  generalize hl : (r.recs.map fun p => (p.1, voidRec p.2)) = l
  generalize hu : updateHeads (sendRecords (voidFronds (cycleEnded s r reads)) l) r = u
  have hx : exec (.forecastRecordsSent reads) s = nextOf s (showFh (raiseD u 0xC1 none off 0x42)) := by
    show execForecastRecordsSent reads s = _
    unfold execForecastRecordsSent
    simp only [hrun, hue]
    rw [← hu, ← hl]
    rfl
  rw [raiseD_eq _ _ _ _ _ (by decide)] at hx
  have hview : sentView (showFh { u with flt := { u.flt with raises := u.flt.raises ++ [⟨0xC1, none, off, 0x42, false⟩] } }) =
      { sentView (sendRecords (voidFronds (cycleEnded s r reads)) l) with flt := { u.flt with raises := u.flt.raises ++ [⟨0xC1, none, off, 0x42, false⟩] } } := by
    have hheads : sentView u = sentView (sendRecords (voidFronds (cycleEnded s r reads)) l) := by rw [← hu, sentView_updateHeads]
    rw [sentView_showFh, ← hheads]
    rfl
  obtain ⟨hm, hp, htf, hsent⟩ := recordsSent_of_view ((sentView_voidFronds _).trans (sentView_cycleEnded s r reads)) hview
  refine gives_of_exec hx hm hp ⟨hsent, ?_, fun p _ => valid_voidRec p.2⟩
  rw [htf]
  exact List.mem_append_right _ (List.mem_singleton_self _)

end

end Sys2Proof.Machine
end

section
/-! Fiddlehead: the arrival of records, inputs, tokens and checks (R27, R257, R259, R260, R263, R272, R275). -/
namespace Sys2Proof.Machine
open Sys2Proof.Claims

section
variable {s : State}

/-! #### Forecast records at their receivers -/

/-- The record has arrived at the core of frond f and waits for its boundary (R23, R263). -/
theorem exec_forecastRecord_core {f p a b c : Nat} {rest : List FMsg} (hupd : (fr s f).upd = .forecast p a b c :: rest) (hans : answers s f = true) :
    exec (.forecastRecord .core f false) s = nextOf s (recvSeq (arrived s f (.forecast p a b c) rest) (fcKey 0 f) (32 * 0x42) f (provSeq p)) := by
  show execForecastRecord .core f false s = _
  unfold execForecastRecord
  simp only [hupd, hans]
  rfl

theorem gives_forecastRecord_core {f p a b c : Nat} {rest : List FMsg} (hupd : (fr s f).upd = .forecast p a b c :: rest) (hans : answers s f = true) : let next := (tget {} s.strms (fcKey 0 f)).next
    Gives (.forecastRecord .core f false) s fun t =>
      fr t f = { fr s f with upd := rest, inbox := (fr s f).inbox ++ [(0, .forecast p a b c)] } ∧ (∀ g, g ≠ f → fr t g = fr s g) ∧ t.regs = s.regs ∧
      (next = none ∨ next = some (BitVec.ofNat 32 (provSeq p)) → t.flt = s.flt) ∧
      (next ≠ none → next ≠ some (BitVec.ofNat 32 (provSeq p)) → Raised 0x0E none (32 * 0x42) f s t ∧ (isl t f).gaps = min 0xFFFF ((isl s f).gaps + 1)) := by
  intro next
  have hx := exec_forecastRecord_core hupd hans
  have hfr : fr (arrived s f (.forecast p a b c) rest) f = { fr s f with upd := rest, inbox := (fr s f).inbox ++ [(0, .forecast p a b c)] } := fr_updFr_same s f _
  have hne : ∀ g, g ≠ f → fr (arrived s f (.forecast p a b c) rest) g = fr s g := fun g hg => fr_updFr_ne s f g _ hg
  by_cases hnext : next = none ∨ next = some (BitVec.ofNat 32 (provSeq p))
  · rw [recvSeq_expected (s := arrived s f (.forecast p a b c) rest) hnext] at hx
    exact gives_of_exec hx rfl rfl ⟨hfr, hne, rfl, fun _ => rfl, fun h0 h1 => absurd hnext (not_or.mpr ⟨h0, h1⟩)⟩
  · rw [recvSeq_gap (s := arrived s f (.forecast p a b c) rest) hnext, raiseD_eq _ _ _ _ _ (by decide)] at hx
    refine gives_of_exec hx rfl rfl ⟨hfr, hne, rfl, fun h => absurd h hnext, fun _ _ => ⟨rfl, ?_⟩⟩
    exact congrArg Isl.gaps (show tget {} (tset s.isls f { isl s f with gaps := min 0xFFFF ((isl s f).gaps + 1) }) f = _ from tget_tset_same _ _ _ _)

theorem takeHead_first {α : Type} (f : Nat) (x : α) (rest : List (Nat × α)) : takeHead (fun p : Nat × α => p.1 == f) ((f, x) :: rest) = some ((f, x), rest) := if_pos (beq_self_eq_true f)

/-- The points of a record, in mA. -/
def fcPoints (x : FcRec) : List Nat := (List.range 4).flatMap fun k => [2 * bitsOf x.w2 (16 * k + 15) (16 * k), 2 * bitsOf x.w3 (16 * k + 15) (16 * k)]

theorem gives_forecastRecord_admission {f : Nat} {x : FcRec} {rest : List (Nat × FcRec)} (hair : s.fh.adAir = (f, x) :: rest) : Gives (.forecastRecord .admission f false) s fun t =>
    t.fh.adAir = rest ∧ (tget none t.adm.fc f).isSome = bitOf x.w1 22 ∧ (∀ g, g ≠ f → tget none t.adm.fc g = tget none s.adm.fc g) ∧ t.fronds = s.fronds ∧ t.regs = s.regs := by
  have hx : exec (.forecastRecord .admission f false) s =
      nextOf s (let u := recvSeq { s with fh := { s.fh with adAir := rest } } (fcKey 1 f) (32 * 0x42 + 1) 0x4B (provSeq x.prov)
        { u with adm := { u.adm with fc := tset s.adm.fc f (if bitOf x.w1 22 = true then some (maxOf (fcPoints x)) else none) } }) := by
    show execForecastRecord .admission f false s = _
    unfold execForecastRecord
    simp only [hair, takeHead_first]
    rfl
  rw [recvSeq_rest] at hx
  refine gives_of_exec hx rfl rfl ⟨rfl, ?_, fun g hg => tget_tset_ne _ _ _ _ _ hg, rfl, rfl⟩
  show (tget none (tset s.adm.fc f _) f).isSome = _
  rw [tget_tset_same]
  cases bitOf x.w1 22 with
  | false => rfl
  | true => rfl

theorem gives_forecastRecord_rhizome {f : Nat} {x : FcRec} {rest : List (Nat × FcRec)} (hair : s.rz.fcAir = (f, x) :: rest) : Gives (.forecastRecord .rhizome f false) s fun t =>
    tget? t.rz.fc f = some x ∧ t.rz.fcAir = rest ∧ t.fronds = s.fronds ∧ t.regs = s.regs := by
  have hx : exec (.forecastRecord .rhizome f false) s =
      nextOf s (recvSeq { s with rz := { s.rz with fcAir := rest, fc := tset s.rz.fc f x } } (fcKey 2 f) (32 * 0x42 + 2) (activeIsl s) (provSeq x.prov)) := by
    show execForecastRecord .rhizome f false s = _
    unfold execForecastRecord
    simp only [hair, takeHead_first]
  rw [recvSeq_rest] at hx
  exact gives_of_exec hx rfl rfl ⟨tget?_tset_same _ _ _, rfl, rfl, rfl⟩

/-! #### Inputs and tokens -/

theorem gives_fhInputRecord {f : Nat} {x : FIn} {rest : List (Nat × FIn)} (hans : answers s 0x42 = true) (hair : s.fh.inAir = (f, x) :: rest) : Gives (.fhInputRecord f) s fun t =>
    fhF t f = { fhF s f with got := some x, hist := (x.cur :: (fhF s f).hist).take 8 } ∧ (∀ g, g ≠ f → fhF t g = fhF s g) ∧ t.fh.inAir = rest ∧ t.regs = s.regs := by
  have hx : exec (.fhInputRecord f) s =
      nextOf s (recvRec (updFhF { s with fh := { s.fh with inAir := rest } } f fun y => { y with got := some x, hist := (x.cur :: y.hist).take 8 }) 0x42 x.prov) := by
    show execFhInputRecord f s = _
    unfold execFhInputRecord
    simp only [hair, takeHead_first, hans]
    rfl
  rw [recvRec_rest] at hx
  exact gives_of_exec hx rfl rfl ⟨tget_tset_same _ _ _ _, fun g hg => tget_tset_ne _ _ _ _ _ hg, rfl, rfl⟩

/-- The token and the way onward: both streams of the hint intake count it (R259, R260). -/
def tokenOn (s : State) : State := sendOn (sendOn s 0x4C 0) 0x4C 1

/-- The token goes to the Rhizome's budget, and a token of type 6 sets the progress that the Mat frames carry (Table 12-3). -/
def tokenSent (s s1 : State) (k : Nat) : State :=
  let s2 := { s1 with bud := { s1.bud with tokAir := s1.bud.tokAir ++ [(nextProv s 0x4C 1, k)] } }
  if bitsOf k 3 0 = 6 then { s2 with mat := { s2.mat with prog := some (bitsOf k 59 28, bitsOf k 27 20) } } else s2

theorem tokenSent_rest (s s1 : State) (k : Nat) :
    tokenSent s s1 k = { s1 with bud := { s1.bud with tokAir := s1.bud.tokAir ++ [(nextProv s 0x4C 1, k)] }, mat := (tokenSent s s1 k).mat } := by
  unfold tokenSent
  dsimp only
  split
  · rfl
  · rfl

section
variable {c : BitVec 4} {w : W64} {k : Nat} (hk : putBits w.toNat 7 4 c.toNat = k) (hans : answers s 0x4C = true)
include hk hans

theorem gives_hintToken_bad (hbad : tokenOk k = false) : Gives (.hintToken c w) s fun t =>
    fget t FH_HINT_STAT_BAD = min (fget s FH_HINT_STAT_BAD + 1) (fmax FH_HINT_STAT_BAD) ∧ t.fh = s.fh ∧ t.bud = s.bud := by
  have hx : exec (.hintToken c w) s = nextOf s (bump s FH_HINT_STAT_BAD) := by
    show execHintToken c w s = _
    unfold execHintToken
    simp only [hk, hans, hbad]
    rfl
  exact gives_of_exec hx rfl rfl ⟨fget_bump_same _ _ (by decide) (by decide), rfl, rfl⟩

theorem gives_hintToken_queued (hok : tokenOk k = true) (hkind : bitsOf k 3 0 ≠ 0) (hroom : s.fh.queue.length < 256) : Gives (.hintToken c w) s fun t =>
    t.fh = { s.fh with queue := s.fh.queue ++ [(nextProv s 0x4C 0, k)] } ∧ fget t FH_HINT_STAT_TOKENS = min (fget s FH_HINT_STAT_TOKENS + 1) (fmax FH_HINT_STAT_TOKENS) ∧
      t.bud.tokAir = s.bud.tokAir ++ [(nextProv s 0x4C 1, k)] := by
  have hx : exec (.hintToken c w) s = nextOf s (tokenSent s (bump { tokenOn s with fh := { s.fh with queue := s.fh.queue ++ [(nextProv s 0x4C 0, k)] } } FH_HINT_STAT_TOKENS) k) := by
    show execHintToken c w s = _
    unfold execHintToken
    simp only [hk, hans, hok, hkind, hroom, if_true, if_false]
    rfl
  rw [tokenSent_rest] at hx
  exact gives_of_exec hx rfl rfl ⟨rfl, fget_bump_same { tokenOn s with fh := { s.fh with queue := s.fh.queue ++ [(nextProv s 0x4C 0, k)] } } FH_HINT_STAT_TOKENS (by decide) (by decide), rfl⟩

theorem gives_hintToken_dropped (hok : tokenOk k = true) (hkind : bitsOf k 3 0 ≠ 0) (hfull : 256 ≤ s.fh.queue.length) : Gives (.hintToken c w) s fun t =>
    t.fh = s.fh ∧ fget t FH_HINT_STAT_DROPS = min (fget s FH_HINT_STAT_DROPS + 1) (fmax FH_HINT_STAT_DROPS) ∧ t.bud.tokAir = s.bud.tokAir ++ [(nextProv s 0x4C 1, k)] := by
  have hx : exec (.hintToken c w) s = nextOf s (tokenSent s (bump (tokenOn s) FH_HINT_STAT_DROPS) k) := by
    show execHintToken c w s = _
    unfold execHintToken
    simp only [hk, hans, hok, hkind, Nat.not_lt.mpr hfull, if_false]
    rfl
  rw [tokenSent_rest] at hx
  exact gives_of_exec hx rfl rfl ⟨rfl, fget_bump_same (tokenOn s) FH_HINT_STAT_DROPS (by decide) (by decide), rfl⟩

end

/-! #### Checks of a model -/

/-- A check has completed with code c (R275). -/
def checkEnded (s : State) (reads : List (BitVec 24 × Ecc)) (c : Nat) : State :=
  fsetB (fset { modelReads s reads with fh := { s.fh with check := none } } FH_MODEL_CMD_RESULT c) FH_MODEL_CMD_BUSY false

theorem exec_modelCheckDone {op slot : Nat} {wide : Bool} (reads : List (BitVec 24 × Ecc)) (hcheck : s.fh.check = some (op, slot, wide)) {c : Nat}
    (hc : checkCode s slot wide (firstUe reads).isSome = c) :
    exec (.modelCheckDone reads) s = nextOf s (if c = 0 ∧ op = 2 then switchTo (checkEnded s reads c) slot wide else checkEnded s reads c) := by
  show execModelCheckDone reads s = _
  unfold execModelCheckDone
  simp only [hcheck, hc]
  rfl

/-- The parts of the state that show how a check has ended, and those that a command must keep. -/
structure CheckView where
  member : Member
  pending : List Instr
  check : Option (Nat × Nat × Bool)
  cmd : W64

def checkView (s : State) : CheckView := ⟨s.member, s.pending, s.fh.check, reg s FH_MODEL_CMD⟩

theorem checkView_fset (s : State) {x : Fld} (v : Nat) (hx : FH_MODEL_CMD ≠ x.addr) : checkView (fset s x v) = checkView s := by
  unfold checkView
  rw [reg_fset_ne s x v FH_MODEL_CMD hx]
  rfl

theorem frondAddr_ne_modelCmd (f : Nat) : FH_MODEL_CMD ≠ FH_FROND f := by
  show 0x60040 ≠ 0x60200 + 8 * f
  omega

theorem checkView_showFh (s : State) : checkView (showFh s) = checkView s := by
  have hstat : ∀ a b, checkView (fset (fset s FH_STAT_STATE a) FH_STAT_WARM_LEFT b) = checkView s := fun a b => (checkView_fset _ b (by decide)).trans (checkView_fset s a (by decide))
  unfold showFh
  dsimp only
  split
  · exact hstat _ _
  · split
    · exact hstat _ _
    · exact hstat _ _

/-- The selection of a model shows it in FH_MODEL_STAT, and restarts the counts of the fronds. -/
theorem checkView_selectModel (s : State) (slot : Nat) (wide : Bool) : checkView (selectModel s slot wide) = checkView s := by
  have hfronds : ∀ (l : List Nat) (t : State), checkView (l.foldl (fun t f => fset (fsetB t (FH_FROND_FROZEN f) false) (FH_FROND_UPDATES f) 0) t) = checkView t := fun l t =>
    foldl_proj_eq checkView (fun t f => fset (fsetB t (FH_FROND_FROZEN f) false) (FH_FROND_UPDATES f) 0)
      (fun t f => (checkView_fset _ 0 (frondAddr_ne_modelCmd f)).trans (checkView_fset t _ (frondAddr_ne_modelCmd f))) l t
  have hstat : ∀ (t : State) (hi lo v : Nat), checkView (fset t ⟨FH_MODEL_STAT, hi, lo⟩ v) = checkView t := fun t hi lo v => checkView_fset t v (by show FH_MODEL_CMD ≠ FH_MODEL_STAT; decide)
  have hfh : ∀ (t : State) (x : Fh), x.check = t.fh.check → checkView { t with fh := x } = checkView t := fun t x hx => congrArg (fun y => (⟨t.member, t.pending, y, reg t FH_MODEL_CMD⟩ : CheckView)) hx
  unfold selectModel
  refine (checkView_showFh _).trans ((hfh _ _ rfl).trans ((hfronds _ _).trans ?_))
  exact (hstat _ _ _ _).trans ((hstat _ _ _ _).trans ((hstat _ _ _ _).trans ((hstat _ _ _ _).trans ((hstat _ _ _ _).trans ((hstat _ _ _ _).trans (hstat _ _ _ _))))))

/-- Steps that move Moss alone move Moss alone together. -/
theorem foldl_mossOnly {α : Type} {g : State → α → State} (h : ∀ t x, g t x = { t with moss := (g t x).moss }) (l : List α) (s : State) : l.foldl g s = { s with moss := (l.foldl g s).moss } := by
  induction l generalizing s with
  | nil => rfl
  | cons x l ih => exact (ih (g s x)).trans (congrArg (fun t : State => { t with moss := (l.foldl g (g s x)).moss }) (h s x))

/-- The preparation of a model writes Moss alone (R275 steps 1 and 2). -/
theorem zeroStates_rest (s : State) (slot : Nat) (wide : Bool) : zeroStates s slot wide = { s with moss := (zeroStates s slot wide).moss } := by
  unfold zeroStates
  exact foldl_mossOnly (fun _ _ => rfl) _ s

theorem initHead_rest (s : State) (slot : Nat) (wide : Bool) : initHead s slot wide = { s with moss := (initHead s slot wide).moss } := by
  unfold initHead
  dsimp only
  split
  · rfl
  · split
    · rfl
    · exact foldl_mossOnly (fun _ _ => rfl) _ s

/-- A switch changes neither the check nor the command's register, and waits while cycles run (R275). -/
theorem switchTo_spec (s : State) (slot : Nat) (wide : Bool) :
    checkView (switchTo s slot wide) = checkView s ∧ (flag s FH_CTRL_EN = true → (switchTo s slot wide).fh.switch = some (slot, wide)) := by
  obtain ⟨m, hm⟩ : ∃ m, initHead (zeroStates s slot wide) slot wide = { s with moss := m } :=
    ⟨_, (initHead_rest _ slot wide).trans (congrArg (fun t : State => { t with moss := (initHead (zeroStates s slot wide) slot wide).moss }) (zeroStates_rest s slot wide))⟩
  unfold switchTo
  simp only [hm]
  split
  · exact ⟨rfl, fun _ => rfl⟩
  next hen => exact ⟨(checkView_selectModel _ slot wide).trans rfl, fun h => absurd h hen⟩

theorem checkCode_eq (s : State) (slot : Nat) (wide ue : Bool) :
    checkCode s slot wide ue = if slotOwned s slot wide = false then 6 else if ue = true then 7 else modelCode (slotRd s slot wide) (slotSize wide) := by
  unfold checkCode
  cases slotOwned s slot wide with
  | false => rfl
  | true => rfl

section
variable (s : State) (reads : List (BitVec 24 × Ecc)) (c : Nat)

theorem busy_checkEnded : flag (checkEnded s reads c) FH_MODEL_CMD_BUSY = false := flag_fsetB_bit _ false (by decide) (by decide)

theorem result_checkEnded : fget (checkEnded s reads c) FH_MODEL_CMD_RESULT = c % 16 := by
  unfold checkEnded
  rw [fget_fsetB_disj _ _ FH_MODEL_CMD_RESULT false (by decide) (by decide)]
  exact fget_fset_same _ _ c (by decide) (by decide)

theorem enabled_checkEnded : flag (checkEnded s reads c) FH_CTRL_EN = flag s FH_CTRL_EN := by
  refine flag_congr_fget ?_
  unfold checkEnded
  rw [fget_fsetB_addr _ _ FH_CTRL_EN false (by decide), fget_fset_addr _ _ FH_CTRL_EN c (by decide)]
  exact (fget_congr (s := modelReads s reads) rfl rfl FH_CTRL_EN).trans (fget_modelReads s reads (by decide))

end

theorem gives_modelCheckDone {op slot : Nat} {wide : Bool} (reads : List (BitVec 24 × Ecc)) (hcheck : s.fh.check = some (op, slot, wide)) {c : Nat}
    (hc : checkCode s slot wide (firstUe reads).isSome = c) : Gives (.modelCheckDone reads) s fun t =>
      t.fh.check = none ∧ flag t FH_MODEL_CMD_BUSY = false ∧ fget t FH_MODEL_CMD_RESULT = c % 16 ∧
      (c = 0 → op = 2 → flag s FH_CTRL_EN = true → t.fh.switch = some (slot, wide)) ∧ (c ≠ 0 ∨ op ≠ 2 → t.fh.switch = s.fh.switch ∧ (reads = [] → t.moss = s.moss)) := by
  have hx := exec_modelCheckDone reads hcheck hc
  obtain ⟨hswitch, hwaits⟩ := switchTo_spec (checkEnded s reads c) slot wide
  generalize ht : (if c = 0 ∧ op = 2 then switchTo (checkEnded s reads c) slot wide else checkEnded s reads c) = t at hx
  have hview : checkView t = checkView (checkEnded s reads c) := by
    rw [← ht]
    split
    · exact hswitch
    · rfl
  have hmember : (checkEnded s reads c).member = s.member := by
    show (modelReads s reads).member = s.member
    rw [modelReads_rest]
  have hpending : (checkEnded s reads c).pending = s.pending := by
    show (modelReads s reads).pending = s.pending
    rw [modelReads_rest]
  have hfget : ∀ hi lo, fget t ⟨FH_MODEL_CMD, hi, lo⟩ = fget (checkEnded s reads c) ⟨FH_MODEL_CMD, hi, lo⟩ := fun hi lo => congrArg (fun v : CheckView => bitsOf v.cmd.toNat hi lo) hview
  refine gives_of_exec hx ((congrArg CheckView.member hview).trans hmember) ((congrArg CheckView.pending hview).trans hpending)
    ⟨congrArg CheckView.check hview, (flag_congr_fget (hfget 63 63)).trans (busy_checkEnded s reads c), (hfget 11 8).trans (result_checkEnded s reads c), fun h0 h2 hen => ?_, fun hno => ?_⟩
  · rw [← ht, if_pos ⟨h0, h2⟩]
    exact hwaits ((enabled_checkEnded s reads c).trans hen)
  · rw [← ht, if_neg (not_and_or.mpr hno)]
    refine ⟨rfl, fun hreads => ?_⟩
    rw [hreads]
    rfl

end

/-- Settles O51: the beginning of a cycle, its end, and each arrival by its own lemma. -/
theorem forecastCycles : Obligations.ForecastCycles := by
  intro s _ hans own runs
  refine ⟨fun ⟨hen, hload, hspore⟩ => gives_forecastCycle_skipped hans hen hload hspore, fun ⟨hen, hload, hspore⟩ => gives_forecastCycle hans hen hload hspore, exec_forecastCycle_notOwned,
    fun r reads hrun => ⟨gives_recordsSent hrun, fun off => gives_recordsVoid hrun⟩, fun f p a b c rest => gives_forecastRecord_core, fun f x rest => gives_forecastRecord_admission,
    fun f x rest => gives_forecastRecord_rhizome, fun f x rest => gives_fhInputRecord hans,
    fun c w hintake => ⟨gives_hintToken_bad rfl hintake, gives_hintToken_queued rfl hintake, gives_hintToken_dropped rfl hintake⟩,
    fun op slot wide reads hcheck => gives_modelCheckDone reads hcheck (checkCode_eq s slot wide _)⟩

end Sys2Proof.Machine
end

section
/-! Phase cells: guard, zero-current and strobe-watch events, lost phases (R19, R42 to R44, R75, R179 to R181). -/
namespace Sys2Proof.Machine
open Sys2Proof.Claims

/-! #### The page of one frond -/

theorem inFrond_trans {f : Nat} {s t u : State} (h : InFrond f s t) (k : InFrond f t u) : InFrond f s u := by
  obtain ⟨hrest, hfr, hreg⟩ := h
  obtain ⟨krest, kfr, kreg⟩ := k
  exact ⟨by rw [krest, hrest], fun g hg => (kfr g hg).trans (hfr g hg), fun a ha => (kreg a ha).trans (hreg a ha)⟩

/-- A field of frond f's page is frond f's own. -/
theorem inFrond_fset (s : State) {f : Nat} {x : Fld} (v : Nat) (hx : x.addr / 0x10000 = 0x10 + f) : InFrond f s (fset s x v) :=
  ⟨rfl, fun _ _ => rfl, fun a ha => reg_fset_ne s x v a fun he => ha (he ▸ hx)⟩

theorem inFrond_raiseD (s : State) (f c : Nat) (u : Option Nat) (d i : Nat) : InFrond f s (raiseD s c u d i) := by
  rw [raiseD_rest]
  exact ⟨rfl, fun _ _ => rfl, fun _ _ => rfl⟩

theorem member_pending_of_inFrond {f : Nat} {s t : State} (h : InFrond f s t) : t.member = s.member ∧ t.pending = s.pending := by
  rw [h.1]
  exact ⟨rfl, rfl⟩

/-- A command that keeps to frond f answers the state that it ends in. -/
theorem gives_inFrond {i : Instr} {f : Nat} {s t : State} {P : State → Prop} (hx : exec i s = nextOf s t) (hin : InFrond f s t) (hP : InFrond f s t → P t) : Gives i s P :=
  gives_of_exec hx (member_pending_of_inFrond hin).1 (member_pending_of_inFrond hin).2 (hP hin)

/-- A command that changes nothing but frond f's core. -/
theorem gives_updFr {i : Instr} {f : Nat} {s : State} {g : Frond → Frond} (hx : exec i s = nextOf s (updFr s f g)) :
    Gives i s fun t => fr t f = g (fr s f) ∧ InFrond f s t ∧ t.regs = s.regs ∧ t.flt = s.flt :=
  gives_inFrond hx (inFrond_updFr s f g) fun hin => ⟨fr_updFr_same s f g, hin, rfl, rfl⟩

/-- A raise of a listed source, and no other. -/
theorem raised_raiseD (s : State) (c : Nat) (u : Option Nat) (d i : Nat) (h : (fltRow c).isSome) : Raised c u d i s (raiseD s c u d i) := by
  rw [raiseD_eq _ _ _ _ _ h]
  rfl

theorem ne_id_of_page {a f : Nat} (ha : a / 0x10000 = 0x10 + f) : a ≠ RZ_ID := by
  rintro rfl
  simp only [RZ_ID] at ha
  omega

/-- A field of frond f's page reads what was written to it, cut to its width. -/
theorem fget_fset_page (s : State) {f a hi lo : Nat} (v : Nat) (ha : a / 0x10000 = 0x10 + f) (hh : hi < 64) : fget (fset s ⟨a, hi, lo⟩ v) ⟨a, hi, lo⟩ = v % 2 ^ (hi + 1 - lo) :=
  fget_fset_same s ⟨a, hi, lo⟩ v (ne_id_of_page ha) hh

/-- Another field of the register that was written. -/
theorem fget_fset_bits (s : State) {a hi lo hi' lo' : Nat} (v : Nat) (hh : hi < 64) (h : hi' < lo ∨ hi < lo') :
    fget (fset s ⟨a, hi, lo⟩ v) ⟨a, hi', lo'⟩ = fget s ⟨a, hi', lo'⟩ := fget_fset_disj s ⟨a, hi, lo⟩ ⟨a, hi', lo'⟩ v hh h

/-- A bit of a field after bit n of it has been set. -/
theorem bitOf_fget_setBit (s : State) {f a hi lo : Nat} (n : Nat) {m : Nat} (ha : a / 0x10000 = 0x10 + f) (hh : hi < 64) (hm : m < hi + 1 - lo) :
    bitOf (fget (fset s ⟨a, hi, lo⟩ (fget s ⟨a, hi, lo⟩ ||| 2 ^ n)) ⟨a, hi, lo⟩) m = (bitOf (fget s ⟨a, hi, lo⟩) m || decide (n = m)) := by
  simp only [bitOf_eq_testBit, fget_fset_page s _ ha hh, Nat.testBit_mod_two_pow, hm, decide_true, Bool.true_and, Nat.testBit_or, Nat.testBit_two_pow]

theorem page_guardStat (f : Nat) : FR_GUARD_STAT f / 0x10000 = 0x10 + f := by simp only [FR_GUARD_STAT]; omega
theorem page_phaseHealth (f : Nat) : FR_PHASE_HEALTH f / 0x10000 = 0x10 + f := by simp only [FR_PHASE_HEALTH]; omega

/-! #### Changes of one phase -/

@[simp] theorem phaseOf_setPhase_same (x : Frond) (n : Nat) (p : Phase) : phaseOf (setPhase x n p) n = p := tget_tset_same _ _ _ _
theorem phaseOf_setPhase_ne (x : Frond) {n m : Nat} (p : Phase) (h : m ≠ n) : phaseOf (setPhase x n p) m = phaseOf x m := tget_tset_ne _ _ _ _ _ h

theorem phaseOf_updPhase (s : State) (f n : Nat) (g : Phase → Phase) : phaseOf (fr (updPhase s f n g) f) n = g (phaseOf (fr s f) n) := by
  unfold updPhase
  rw [fr_updFr_same, phaseOf_setPhase_same]

theorem inFrond_updPhase (s : State) (f n : Nat) (g : Phase → Phase) : InFrond f s (updPhase s f n g) := inFrond_updFr s f _

section
variable {i : Instr} {s : State} {f n : Nat} {g : Phase → Phase}

/-- A command that changes nothing but phase n of frond f. -/
theorem gives_updPhase (hx : exec i s = nextOf s (updPhase s f n g)) :
    Gives i s fun t => phaseOf (fr t f) n = g (phaseOf (fr s f) n) ∧ InFrond f s t ∧ t.regs = s.regs ∧ t.flt = s.flt :=
  gives_inFrond hx (inFrond_updPhase s f n g) fun hin => ⟨phaseOf_updPhase s f n g, hin, rfl, rfl⟩

/-- A guard trip changes phase n and shows in TRIPPED (R44). -/
theorem gives_guardTrip (hn : n < 32) (hx : exec i s = nextOf s (countTrip (updPhase s f n g) f n)) :
    Gives i s fun t => phaseOf (fr t f) n = g (phaseOf (fr s f) n) ∧ bitOf (fget t (FR_GUARD_STAT_TRIPPED f)) n = true ∧ InFrond f s t ∧ t.flt = s.flt := by
  have hin : InFrond f s (countTrip (updPhase s f n g) f n) :=
    inFrond_trans (inFrond_updPhase s f n g) (inFrond_trans (inFrond_fset _ _ (page_guardStat f)) (inFrond_fset _ _ (page_guardStat f)))
  have hbit : bitOf (fget (countTrip (updPhase s f n g) f n) (FR_GUARD_STAT_TRIPPED f)) n = true := by
    unfold countTrip bump bumpBy
    rw [fget_fset_bits _ _ (by decide) (by decide), bitOf_fget_setBit _ n (page_guardStat f) (by decide) hn, decide_eq_true rfl, Bool.or_true]
  exact gives_inFrond hx hin fun hin => ⟨phaseOf_updPhase s f n g, hbit, hin, rfl⟩

end

/-! #### Each event of a phase -/

section
variable {s : State} {f n : Nat}

theorem gives_phaseOvercurrentRun (hp : hasPhase s f n = true) (hdue : (phaseOf (fr s f) n).ocDue = true) : Gives (.phaseOvercurrentRun f n) s fun t =>
    (phaseOf (fr t f) n).ocDue = false ∧ Raised 0x28 (some f) n f s t ∧ InFrond f s t ∧ t.regs = s.regs := by
  let t := updPhase s f n fun p => { p with ocDue := false }
  have hx : exec (.phaseOvercurrentRun f n) s = nextOf s (raiseD t 0x28 (some f) n f) := congrArg (nextOf s) (if_pos (by rw [hp, hdue]; rfl))
  have hphase : (phaseOf (fr t f) n).ocDue = false := by rw [phaseOf_updPhase]
  exact gives_inFrond hx (inFrond_trans (inFrond_updPhase s f n _) (inFrond_raiseD _ f _ _ _ _)) fun hin => ⟨hphase, raised_raiseD t _ _ _ _ (by decide), hin, rfl⟩

theorem gives_phaseOpen (hp : hasPhase s f n = true) (hn : n < 32) (hrun : fget s (FR_DEGRADE_CFG_OPEN_RUN f) ≤ (phaseOf (fr s f) n).openRun)
    (hclear : bitOf (fget s (FR_PHASE_HEALTH_OPEN f)) n = false) : Gives (.phaseOpen f n) s fun t => bitOf (fget t (FR_PHASE_HEALTH_OPEN f)) n = true ∧
      (∀ m, m ≠ n → m < 32 → bitOf (fget t (FR_PHASE_HEALTH_OPEN f)) m = bitOf (fget s (FR_PHASE_HEALTH_OPEN f)) m) ∧ Raised 0x2C (some f) n f s t ∧ InFrond f s t := by
  let s1 := fset s (FR_PHASE_HEALTH_OPEN f) (fget s (FR_PHASE_HEALTH_OPEN f) ||| 2 ^ n)
  let t := updPhase s1 f n fun p => { p with openRun := 0 }
  have hx : exec (.phaseOpen f n) s = nextOf s (raiseD t 0x2C (some f) n f) := congrArg (nextOf s) (if_pos (by rw [hp, decide_eq_true hrun, hclear]; rfl))
  have hin : InFrond f s (raiseD t 0x2C (some f) n f) := inFrond_trans (inFrond_fset s _ (page_phaseHealth f)) (inFrond_trans (inFrond_updPhase s1 f n _) (inFrond_raiseD t f _ _ _ _))
  have hbit : ∀ m, m < 32 → bitOf (fget (raiseD t 0x2C (some f) n f) (FR_PHASE_HEALTH_OPEN f)) m = (bitOf (fget s (FR_PHASE_HEALTH_OPEN f)) m || decide (n = m)) :=
    fun m hm => bitOf_fget_setBit s n (page_phaseHealth f) (by decide) hm
  refine gives_inFrond hx hin fun hin => ⟨?_, fun m hne hm => ?_, raised_raiseD t _ _ _ _ (by decide), hin⟩
  · rw [hbit n hn, decide_eq_true rfl, Bool.or_true]
  · rw [hbit m hm, decide_eq_false (Ne.symm hne), Bool.or_false]

theorem gives_leafSenseFail (hp : hasPhase s f n = true) (hrun : fget s (FR_DEGRADE_CFG_SENSE_RUN f) ≤ (phaseOf (fr s f) n).stuck)
    (hclear : bitOf (fget s (FR_PHASE_HEALTH_SENSE_FAIL f)) n = false) : Gives (.leafSenseFail f n) s fun t => bitOf (fr t f).senseDue n = true ∧
      (∀ m, m ≠ n → bitOf (fr t f).senseDue m = bitOf (fr s f).senseDue m) ∧ InFrond f s t ∧ t.regs = s.regs ∧ t.flt = s.flt := by
  have hx : exec (.leafSenseFail f n) s = nextOf s (declareSense s f n) := congrArg (nextOf s) (if_pos (by rw [hp, decide_eq_true hrun, hclear]; rfl))
  refine gives_imp (gives_updFr hx) fun t h => ?_
  obtain ⟨hfr, hframe⟩ := h
  have hbit : ∀ m, bitOf (fr t f).senseDue m = (bitOf (fr s f).senseDue m || decide (n = m)) := fun m => by
    rw [hfr]
    simp only [bitOf_eq_testBit, Nat.testBit_or, Nat.testBit_two_pow]
  refine ⟨?_, fun m hne => ?_, hframe⟩
  · rw [hbit, decide_eq_true rfl, Bool.or_true]
  · rw [hbit, decide_eq_false (Ne.symm hne), Bool.or_false]

theorem bitList_two_pow (hn : n < 32) : bitList 32 (2 ^ n) = [n] := by
  revert n
  decide

/-- The estimate of a sense declared failed starts from the mean m of the sound lanes, or from 0 (R181). -/
def startEstimate (m : Int × Nat) (p : Phase) : Phase := { p with estNum := if m.2 = 0 then 0 else m.1, estDen := max 1 m.2, sumNum := 0, sumDen := 1, stuck := 0 }

/-- The one sense that is due is declared failed at the boundary (R181). -/
theorem bndSense_single (hn : n < 32) (hdue : (fr s f).senseDue = 2 ^ n) (hclear : bitOf (fget s (FR_PHASE_HEALTH_SENSE_FAIL f)) n = false) :
    bitOf (fget (bndSense s f) (FR_PHASE_HEALTH_SENSE_FAIL f)) n = true ∧ (fr (bndSense s f) f).senseDue = 0 ∧ Raised 0x38 (some f) n f s (bndSense s f) := by
  let s1 := updFr (fset s (FR_PHASE_HEALTH_SENSE_FAIL f) (fget s (FR_PHASE_HEALTH_SENSE_FAIL f) ||| 2 ^ n)) f fun x => { x with senseDue := 0 }
  have hl : (bitList 32 (fr s f).senseDue).filter (fun n => !(bitOf (fget s (FR_PHASE_HEALTH_SENSE_FAIL f)) n)) = [n] := by
    rw [hdue, bitList_two_pow hn, List.filter_singleton, hclear]
    rfl
  have hof : ofBits [n] = 2 ^ n := Nat.zero_or _
  let t := updPhase s1 f n (startEstimate (nbrMean s1 f))
  have ht : bndSense s f = raiseD t 0x38 (some f) n f := by
    unfold bndSense
    simp only [hl, hof]
    rfl
  have hbit : bitOf (fget s1 (FR_PHASE_HEALTH_SENSE_FAIL f)) n = true := by
    refine (bitOf_fget_setBit s n (page_phaseHealth f) (by decide) hn).trans ?_
    rw [decide_eq_true rfl, Bool.or_true]
  have hdone : (fr t f).senseDue = 0 := (congrArg Frond.senseDue (fr_updFr_same s1 f _)).trans (congrArg Frond.senseDue (fr_updFr_same _ f _))
  rw [ht]
  exact ⟨hbit, by rw [raiseD_rest]; exact hdone, raised_raiseD t _ _ _ _ (by decide)⟩

end

/-- Settles O1: a trip changes its phase and TRIPPED, a release or cutoff its phase alone, and a lost phase shows in FR_PHASE_HEALTH (R42 to R44, R179 to R181). -/
theorem phaseCellEvents : Obligations.PhaseCellEvents := by
  intro s f n hp hn
  refine ⟨?_, fun hhold => ?_, ?_, fun hhold => ?_, fun hst hzcd => ?_, ?_, gives_phaseOvercurrentRun hp, gives_phaseOpen hp hn, gives_leafSenseFail hp, bndSense_single hn⟩
  · exact gives_imp (gives_guardTrip hn (congrArg (nextOf s) (if_pos hp))) fun t ⟨hph, hbit, hframe⟩ => ⟨by rw [hph], by rw [hph], hbit, hframe⟩
  · exact gives_imp (gives_updPhase (congrArg (nextOf s) (if_pos (by rw [hp, hhold]; rfl)))) fun t ⟨hph, hframe⟩ => ⟨by rw [hph], by rw [hph], hframe⟩
  · exact gives_imp (gives_guardTrip hn (congrArg (nextOf s) (if_pos hp))) fun t ⟨hph, hbit, hframe⟩ => ⟨by rw [hph], by rw [hph], hbit, hframe⟩
  · exact gives_imp (gives_updPhase (congrArg (nextOf s) (if_pos (by rw [hp, hhold]; rfl)))) fun t ⟨hph, hframe⟩ => ⟨by rw [hph], by rw [hph], hframe⟩
  · have hcond : (hasPhase s f n && (phaseOf (fr s f) n).st == 2 && (bitOf (phaseOf (fr s f) n).latched 6 || flag s (FR_LAW_STAT_DE f))) = true := by
      rw [hp, hst, Bool.or_eq_true_iff.mpr hzcd.symm]
      rfl
    exact gives_imp (gives_updPhase (congrArg (nextOf s) (if_pos hcond))) fun t ⟨hph, hframe⟩ => ⟨by rw [hph], hframe⟩
  · exact gives_imp (gives_updPhase (congrArg (nextOf s) (if_pos hp))) fun t ⟨hph, hframe⟩ => ⟨by rw [hph], by rw [hph], hframe⟩

end Sys2Proof.Machine
end

section
/-! Frond cores: activity strobes, overruns, saturation trips and overvoltage (R45, R72, R140, R164, R412). -/
namespace Sys2Proof.Machine
open Sys2Proof.Claims

/-! #### High sides held off (R45) -/

/-- A high side held off: both switches off if the high side was on. -/
def highOff (p : Phase) : Phase := { p with st := if p.st = 1 then 0 else p.st }

theorem st_highOff (p : Phase) : (highOff p).st ≠ 1 := by
  unfold highOff
  split <;> simp [*]

/-- The first k phases of a frond with their high sides held off. -/
def highsOff (k : Nat) (x : Frond) : Frond := (List.range k).foldl (fun y n => setPhase y n (highOff (phaseOf y n))) x

theorem phaseOf_highsOff (k : Nat) (x : Frond) (n : Nat) : phaseOf (highsOff k x) n = if n < k then highOff (phaseOf x n) else phaseOf x n := by
  induction k with
  | zero => rfl
  | succ k ih =>
    have hstep : highsOff (k + 1) x = setPhase (highsOff k x) k (highOff (phaseOf (highsOff k x) k)) := by
      unfold highsOff
      rw [List.range_succ, List.foldl_append]
      rfl
    rw [hstep]
    by_cases hn : n = k
    · subst hn
      rw [phaseOf_setPhase_same, ih, if_neg (lt_irrefl n), if_pos n.lt_succ_self]
    · rw [phaseOf_setPhase_ne _ _ hn, ih]
      simp only [show n < k + 1 ↔ n < k by omega]

theorem holdHigh_eq (s : State) (f : Nat) : holdHigh s f = updFr s f (highsOff (nP s)) := rfl

/-- Steps that move the fronds alone move the fronds alone together. -/
theorem foldl_frondsOnly {α : Type} {g : State → α → State} (h : ∀ t x, g t x = { t with fronds := (g t x).fronds }) (l : List α) (s : State) :
    l.foldl g s = { s with fronds := (l.foldl g s).fronds } := by
  have hback : { l.foldl g s with fronds := s.fronds } = s :=
    foldl_proj_eq (fun t : State => { t with fronds := s.fronds }) g (fun t x => congrArg (fun u : State => { u with fronds := s.fronds }) (h t x)) l s
  exact congrArg (fun t : State => { t with fronds := (l.foldl g s).fronds }) hback

theorem fr_foldl_holdHigh_ne {l : List Nat} {g : Nat} (hg : g ∉ l) (s : State) : fr (l.foldl holdHigh s) g = fr s g := by
  induction l generalizing s with
  | nil => rfl
  | cons f l ih =>
    obtain ⟨hne, hl⟩ := not_or.mp (mt List.mem_cons.mpr hg)
    exact (ih hl (holdHigh s f)).trans (fr_updFr_ne s f g _ hne)

/-- No phase of the listed fronds is left with its high side on. -/
theorem st_foldl_holdHigh {l : List Nat} {g : Nat} (hg : g ∈ l) (s : State) {n : Nat} (hn : n < nP s) : (phaseOf (fr (l.foldl holdHigh s) g) n).st ≠ 1 := by
  induction l generalizing s with
  | nil => cases hg
  | cons f l ih =>
    by_cases hl : g ∈ l
    · exact ih hl (holdHigh s f) hn
    · obtain rfl : g = f := (List.mem_cons.mp hg).resolve_right hl
      rw [List.foldl_cons, fr_foldl_holdHigh_ne hl, holdHigh_eq, fr_updFr_same, phaseOf_highsOff, if_pos hn]
      exact st_highOff _

theorem mem_pairOf (s : State) (f : Nat) : f ∈ pairOf s f := by
  unfold pairOf
  split
  · exact List.mem_singleton_self f
  · exact List.mem_cons_self

/-! #### Each event of a core -/

section
variable {s : State} {f : Nat}

theorem gives_railOvervoltage (hf : hasF s f = true) (hov : (fr s f).ovOwn = false) : Gives (.railOvervoltage f) s fun t =>
    (fr t f).ovOwn = true ∧ (fr t f).ovDue = true ∧ (∀ g ∈ pairOf s f, ∀ n, n < nP s → (phaseOf (fr t g) n).st ≠ 1) ∧ (∀ g, g ∉ pairOf s f → fr t g = fr s g) ∧
    t = { s with fronds := t.fronds } := by
  let u := (pairOf s f).foldl holdHigh s
  let t := updFr u f fun x => { x with ovOwn := true, ovDue := true }
  have hx : exec (.railOvervoltage f) s = nextOf s t := congrArg (nextOf s) (if_pos (by rw [hf, hov]; rfl))
  have hu : u = { s with fronds := u.fronds } := foldl_frondsOnly (fun _ _ => rfl) _ s
  have hsame : fr t f = { fr u f with ovOwn := true, ovDue := true } := fr_updFr_same u f _
  have hne : ∀ g, g ≠ f → fr t g = fr u g := fun g hg => fr_updFr_ne u f g _ hg
  have hphases : ∀ g n, phaseOf (fr t g) n = phaseOf (fr u g) n := fun g n => by
    by_cases hg : g = f
    · rw [hg, hsame]
      rfl
    · rw [hne g hg]
  have hother : ∀ g, g ∉ pairOf s f → fr t g = fr s g := fun g hg =>
    (hne g fun he => hg (he ▸ mem_pairOf s f)).trans (fr_foldl_holdHigh_ne hg s)
  have hrest : t = { s with fronds := t.fronds } := by
    show { u with fronds := t.fronds } = _
    rw [hu]
  refine gives_of_exec hx (by rw [hrest]) (by rw [hrest]) ⟨by rw [hsame], by rw [hsame], fun g hg n hn => ?_, hother, hrest⟩
  rw [hphases]
  exact st_foldl_holdHigh hg s hn

theorem gives_slotOverrun (hf : hasF s f = true) (hdue : (fr s f).ovrDue = true) : Gives (.slotOverrun f) s fun t =>
    (fr t f).ovrDue = false ∧ Raised 0x30 (some f) (fget s (FR_CORE_STAT_LAST_CUT f)) f s t ∧ InFrond f s t ∧ t.regs = s.regs := by
  let u := updFr s f fun x => { x with ovrDue := false }
  have hx : exec (.slotOverrun f) s = nextOf s (raiseD u 0x30 (some f) (fget s (FR_CORE_STAT_LAST_CUT f)) f) := congrArg (nextOf s) (if_pos (by rw [hf, hdue]; rfl))
  have hdone : (fr u f).ovrDue = false := congrArg Frond.ovrDue (fr_updFr_same s f _)
  exact gives_inFrond hx (inFrond_trans (inFrond_updFr s f _) (inFrond_raiseD u f _ _ _ _)) fun hin => ⟨hdone, raised_raiseD u _ _ _ _ (by decide), hin, rfl⟩

theorem page_lawStat (f : Nat) : FR_LAW_STAT f / 0x10000 = 0x10 + f := by simp only [FR_LAW_STAT]; omega

/-- The saturation trip is counted, and is no longer due (R140). -/
def satCounted (s : State) (f : Nat) : State := bump (updFr s f fun x => { x with law := { x.law with satDue := false } }) (FR_LAW_STAT_SAT_TRIPS f)

theorem inFrond_satCounted (s : State) (f : Nat) : InFrond f s (satCounted s f) := inFrond_trans (inFrond_updFr s f _) (inFrond_fset _ _ (page_lawStat f))

theorem satDue_satCounted (s : State) (f : Nat) : (fr (satCounted s f) f).law.satDue = false :=
  congrArg (fun x => x.law.satDue) (fr_updFr_same s f fun x => { x with law := { x.law with satDue := false } })

theorem exec_saturationTrip (hf : hasF s f = true) (hdue : (fr s f).law.satDue = true) : exec (.saturationTrip f) s = nextOf s
    (if railSt s f = 2 then updFr (satCounted s f) f fun x => { x with rail := { x.rail with abortDue := true } } else raiseD (satCounted s f) 0x2A (some f) 0 f) :=
  congrArg (nextOf s) (if_pos (by rw [hf, hdue]; rfl))

/-- Outside Soft start a saturation trip raises its source (R140). -/
theorem gives_saturationTrip_raised (hf : hasF s f = true) (hdue : (fr s f).law.satDue = true) (hst : railSt s f ≠ 2) : Gives (.saturationTrip f) s fun t =>
    (fr t f).law.satDue = false ∧ Raised 0x2A (some f) 0 f s t ∧ InFrond f s t := by
  have hx := exec_saturationTrip hf hdue
  rw [if_neg hst] at hx
  exact gives_inFrond hx (inFrond_trans (inFrond_satCounted s f) (inFrond_raiseD _ f _ _ _ _)) fun hin =>
    ⟨satDue_satCounted s f, raised_raiseD (satCounted s f) _ _ _ _ (by decide), hin⟩

/-- In Soft start it makes the abort due instead (R164). -/
theorem gives_saturationTrip_abort (hf : hasF s f = true) (hdue : (fr s f).law.satDue = true) (hst : railSt s f = 2) : Gives (.saturationTrip f) s fun t =>
    (fr t f).rail.abortDue = true ∧ InFrond f s t ∧ t.flt = s.flt := by
  have hx := exec_saturationTrip hf hdue
  rw [if_pos hst] at hx
  exact gives_inFrond hx (inFrond_trans (inFrond_satCounted s f) (inFrond_updFr _ f _)) fun hin =>
    ⟨congrArg (fun x => x.rail.abortDue) (fr_updFr_same (satCounted s f) f _), hin, rfl⟩

end

/-- Settles O2: strobes and the release change the core alone, an overrun and a trip raise their sources, and a crossing holds off the high sides of the pair (R45, R72, R140, R164, R412). -/
theorem frondCoreEvents : Obligations.FrondCoreEvents := by
  intro s f hf
  have hrun : answers s f = true → ¬ (!(hasF s f) || !(answers s f)) = true := fun hans => by rw [hf, hans]; decide
  refine ⟨fun a0 rest hans => ?_, fun hans => ?_, gives_slotOverrun hf, gives_saturationTrip_raised hf, gives_saturationTrip_abort hf, gives_railOvervoltage hf, fun hov => ?_⟩
  · exact gives_imp (gives_updFr (congrArg (nextOf s) (if_neg (hrun hans)))) fun t ⟨hfr, hframe⟩ => ⟨by rw [hfr], by rw [hfr], hframe⟩
  · exact gives_imp (gives_updFr (congrArg (nextOf s) (if_neg (hrun hans)))) fun t ⟨hfr, hframe⟩ => ⟨by rw [hfr], by rw [hfr], hframe⟩
  · exact gives_imp (gives_updFr (congrArg (nextOf s) (if_pos (by rw [hf, hov]; rfl)))) fun t ⟨hfr, hframe⟩ => ⟨by rw [hfr], hframe⟩

end Sys2Proof.Machine
end

section
/-! Bridges: the end of a close, its abort, and the causes that open a bridge (R54, R56, Table 2-12). -/
namespace Sys2Proof.Machine
open Sys2Proof.Claims

/-! #### The state of a bridge in FR_BRIDGE_STAT -/

/-- STATE_E or STATE_S. -/
def brFld (f d : Nat) : Fld := ⟨FR_BRIDGE_STAT f, if d = 0 then 1 else 3, if d = 0 then 0 else 2⟩

theorem brState_eq (s : State) (f d : Nat) : brState s f d = fget s (brFld f d) := by
  unfold brState brFld
  split <;> rfl

theorem setBrState_eq (s : State) (f d v : Nat) : setBrState s f d v = fset s (brFld f d) v := by
  unfold setBrState brFld
  split <;> rfl

theorem brFld_bits (f d : Nat) : (brFld f d).hi ≤ 3 ∧ (brFld f d).hi + 1 - (brFld f d).lo = 2 := by
  unfold brFld
  split <;> exact ⟨by simp, by simp⟩

theorem page_bridgeStat (f : Nat) : FR_BRIDGE_STAT f / 0x10000 = 0x10 + f := by simp only [FR_BRIDGE_STAT]; omega

theorem page_brFld (f d : Nat) : (brFld f d).addr / 0x10000 = 0x10 + f := page_bridgeStat f

theorem brState_setBrState (s : State) (f d : Nat) {v : Nat} (hv : v < 4) : brState (setBrState s f d v) f d = v := by
  obtain ⟨hhi, hw⟩ := brFld_bits f d
  rw [brState_eq, setBrState_eq, fget_fset_same s _ v (ne_id_of_page (page_brFld f d)) (by omega), hw]
  exact Nat.mod_eq_of_lt hv

/-- The fields above the two states keep their values. -/
theorem fget_setBrState (s : State) (f d v : Nat) {hi lo : Nat} (hl : 3 < lo) : fget (setBrState s f d v) ⟨FR_BRIDGE_STAT f, hi, lo⟩ = fget s ⟨FR_BRIDGE_STAT f, hi, lo⟩ := by
  have hhi := (brFld_bits f d).1
  rw [setBrState_eq]
  exact fget_fset_disj s _ _ v (by omega) (.inr (by show _ < lo; omega))

/-- A write of a field above them keeps both states. -/
theorem brState_fset_above (s : State) (f d v : Nat) {hi lo : Nat} (hh : hi < 64) (hl : 3 < lo) : brState (fset s ⟨FR_BRIDGE_STAT f, hi, lo⟩ v) f d = brState s f d := by
  have hhi := (brFld_bits f d).1
  rw [brState_eq, brState_eq]
  exact fget_fset_disj s _ _ v hh (.inl (by show _ < lo; omega))

theorem brState_congr {s t : State} (h1 : t.member = s.member) (h2 : t.regs = s.regs) (f d : Nat) : brState t f d = brState s f d := by
  rw [brState_eq, brState_eq, fget_congr h1 h2]

theorem scal_congr {s t : State} (h1 : t.member = s.member) (h2 : t.regs = s.regs) (f k : Nat) : scal t f k = scal s f k := by
  unfold scal
  rw [reg_congr h1 h2]

theorem inFrond_setBrState (s : State) (f d v : Nat) : InFrond f s (setBrState s f d v) := by
  rw [setBrState_eq]
  exact inFrond_fset s v (page_brFld f d)

/-! #### Another frond's page -/

section
variable {f g : Nat} {s t : State}

/-- What keeps to frond g's page leaves the fields of frond f's. -/
theorem fget_of_inFrond (h : InFrond g s t) {x : Fld} (hx : x.addr / 0x10000 = 0x10 + f) (hne : g ≠ f) : fget t x = fget s x := by
  unfold fget
  rw [h.2.2 _ (by omega)]

theorem brState_of_inFrond (h : InFrond g s t) (hne : g ≠ f) (d : Nat) : brState t f d = brState s f d := by
  rw [brState_eq, brState_eq, fget_of_inFrond h (page_brFld f d) hne]

end

/-! #### A frond leaves its bridge (R56) -/

section
variable (s : State) (f cause : Nat)

/-- FR_BRIDGE_STAT of a frond that leaves its bridge: the cause, the role and the current. -/
def leaveStat : State := fset (fset (fset s (FR_BRIDGE_STAT_OPEN_CAUSE f) cause) (FR_BRIDGE_STAT_ROLE f) 0) (FR_BRIDGE_STAT_I_BR f) 0

/-- What a core forgets of its bridge, and the cause for its injection. -/
def leaveCore (x : Frond) : Frond := { x with closing := {}, bxIn := 0, inj := { x.inj with causes := x.inj.causes ++ [4] } }

theorem leaveBridge_eq : leaveBridge s f cause = updFr (setScal (leaveStat s f cause) f 5 0) f leaveCore := rfl

theorem page_scalar5 : FR_SCALAR f 5 / 0x10000 = 0x10 + f := by simp only [FR_SCALAR]; omega

theorem bridgeStat_ne_scalar5 : FR_BRIDGE_STAT f ≠ FR_SCALAR f 5 := by simp only [FR_BRIDGE_STAT, FR_SCALAR]; omega

theorem fget_leaveBridge (hi lo : Nat) : fget (leaveBridge s f cause) ⟨FR_BRIDGE_STAT f, hi, lo⟩ = fget (leaveStat s f cause) ⟨FR_BRIDGE_STAT f, hi, lo⟩ := by
  rw [leaveBridge_eq, fget_congr (updFr_member _ f leaveCore) (updFr_regs _ f leaveCore)]
  exact fget_setReg_addr _ (bridgeStat_ne_scalar5 f)

theorem brState_leaveBridge (d : Nat) : brState (leaveBridge s f cause) f d = brState s f d := by
  have hstat : brState (leaveBridge s f cause) f d = brState (leaveStat s f cause) f d := by
    rw [brState_eq, brState_eq]
    exact fget_leaveBridge s f cause _ _
  rw [hstat, leaveStat, brState_fset_above _ f d _ (by decide) (by decide), brState_fset_above _ f d _ (by decide) (by decide), brState_fset_above _ f d _ (by decide) (by decide)]

theorem cause_leaveBridge : fget (leaveBridge s f cause) (FR_BRIDGE_STAT_OPEN_CAUSE f) = cause % 16 := by
  rw [fget_leaveBridge, leaveStat, fget_fset_bits _ _ (by decide) (by decide), fget_fset_bits _ _ (by decide) (by decide)]
  exact fget_fset_page s cause (page_bridgeStat f) (by decide)

theorem role_leaveBridge : fget (leaveBridge s f cause) (FR_BRIDGE_STAT_ROLE f) = 0 := by
  rw [fget_leaveBridge, leaveStat, fget_fset_bits _ _ (by decide) (by decide)]
  exact fget_fset_page _ 0 (page_bridgeStat f) (by decide)

theorem scal5_leaveBridge : scal (leaveBridge s f cause) f 5 = 0 := by
  rw [leaveBridge_eq, scal_congr (updFr_member _ f leaveCore) (updFr_regs _ f leaveCore)]
  unfold scal setScal
  rw [reg_setReg_same _ _ _ (ne_id_of_page (page_scalar5 f))]
  rfl

end

/-! #### A hardware cause (R56) -/

section
variable {s : State} {f g d c : Nat}

/-- An update that a hardware cause leaves waiting: any but an open command of its bridge. -/
def staysWaiting (d : Nat) : FMsg → Bool
  | .bridgeOpen k _ => k != d
  | _ => true

/-- The owner f has left its bridge for cause c, and the other frond's register shows the cause. -/
def hwLeft (s : State) (f g d c : Nat) : State := fset (leaveBridge (setBrState s f d 0) f c) (FR_BRIDGE_STAT_OPEN_CAUSE g) c

/-- The updates and the inbox of the owner without the open commands of its bridge d. -/
def withoutOpens (d : Nat) (x : Frond) : Frond := { x with upd := x.upd.filter (staysWaiting d), inbox := x.inbox.filter fun q => staysWaiting d q.2 }

theorem hwOpen_eq (hg : acrossOf s f d = some g) (hst : brState s f d ≠ 0) (hc : 3 ≤ c) :
    hwOpen f d c s = sendUpd (updFr (hwLeft s f g d c) f (withoutOpens d)) g (.bridgeLeft c) := by
  unfold hwOpen
  rw [hg]
  exact if_pos ⟨hst, hc⟩

theorem not_mem_withoutOpens (x : Frond) (q k : Nat) : (q, .bridgeOpen d k) ∉ (withoutOpens d x).inbox := fun hin => by
  have hstay := (List.mem_filter.mp hin).2
  simp [staysWaiting] at hstay

theorem hwLeft_rest (s : State) (f g d c : Nat) : (hwLeft s f g d c).flt = s.flt ∧ (hwLeft s f g d c).member = s.member ∧ (hwLeft s f g d c).pending = s.pending := by
  unfold hwLeft
  rw [setBrState_eq]
  exact ⟨rfl, rfl, rfl⟩

/-- The owner's fields once the cause shows at both fronds. -/
theorem hwLeft_fields (hne : g ≠ f) (hc : c < 16) : brState (hwLeft s f g d c) f d = 0 ∧ fget (hwLeft s f g d c) (FR_BRIDGE_STAT_ROLE f) = 0 ∧
    fget (hwLeft s f g d c) (FR_BRIDGE_STAT_OPEN_CAUSE f) = c ∧ fget (hwLeft s f g d c) (FR_BRIDGE_STAT_OPEN_CAUSE g) = c ∧ scal (hwLeft s f g d c) f 5 = 0 := by
  let s1 := leaveBridge (setBrState s f d 0) f c
  have hin : InFrond g s1 (hwLeft s f g d c) := inFrond_fset s1 c (page_bridgeStat g)
  refine ⟨?_, ?_, ?_, ?_, ?_⟩
  · rw [brState_of_inFrond hin hne, brState_leaveBridge, brState_setBrState _ _ _ (by decide)]
  · rw [fget_of_inFrond hin (page_bridgeStat f) hne, role_leaveBridge]
  · rw [fget_of_inFrond hin (page_bridgeStat f) hne, cause_leaveBridge, Nat.mod_eq_of_lt hc]
  · exact (fget_fset_page s1 c (page_bridgeStat g) (by decide)).trans (Nat.mod_eq_of_lt hc)
  · unfold scal
    rw [hin.2.2 _ (by have := page_scalar5 f; omega)]
    exact scal5_leaveBridge _ f c

/-- What the two cores do once the registers show the cause: the owner f drops the open commands of its bridge, and g is told (R56). -/
def hwTold (w : State) (f g d c : Nat) : State := sendUpd (updFr w f (withoutOpens d)) g (.bridgeLeft c)

theorem fr_hwTold (w : State) (hne : g ≠ f) : fr (hwTold w f g d c) f = withoutOpens d (fr w f) ∧ .bridgeLeft c ∈ (fr (hwTold w f g d c) g).upd := by
  unfold hwTold
  rw [fr_sendUpd_ne _ _ hne.symm, fr_updFr_same, fr_sendUpd_same]
  exact ⟨rfl, List.mem_append_right _ (List.mem_singleton_self _)⟩

theorem hwTold_member (w : State) : (hwTold w f g d c).member = w.member := rfl
theorem hwTold_regs (w : State) : (hwTold w f g d c).regs = w.regs := rfl
theorem hwTold_pending (w : State) : (hwTold w f g d c).pending = w.pending := rfl
theorem hwTold_flt (w : State) : (hwTold w f g d c).flt = w.flt := rfl

theorem fget_hwTold (w : State) (x : Fld) : fget (hwTold w f g d c) x = fget w x := fget_congr (hwTold_member w) (hwTold_regs w) x

theorem gives_hwOpen {i : Instr} (hx : exec i s = nextOf s (hwOpen f d c s)) (hg : acrossOf s f d = some g) (hne : g ≠ f) (hst : brState s f d ≠ 0) (hc : 3 ≤ c) (hlt : c < 16) :
    Gives i s fun t => brState t f d = 0 ∧ fget t (FR_BRIDGE_STAT_ROLE f) = 0 ∧ fget t (FR_BRIDGE_STAT_OPEN_CAUSE f) = c ∧ fget t (FR_BRIDGE_STAT_OPEN_CAUSE g) = c ∧ scal t f 5 = 0 ∧
      (∀ q k, (q, .bridgeOpen d k) ∉ (fr t f).inbox) ∧ .bridgeLeft c ∈ (fr t g).upd ∧ t.flt = s.flt := by
  obtain ⟨hbr, hrole, hcf, hcg, hscal⟩ := hwLeft_fields (s := s) (d := d) hne hlt
  obtain ⟨hflt, hmem, hpend⟩ := hwLeft_rest s f g d c
  have hto : hwOpen f d c s = hwTold (hwLeft s f g d c) f g d c := hwOpen_eq hg hst hc
  obtain ⟨howner, htold⟩ := fr_hwTold (d := d) (c := c) (hwLeft s f g d c) hne
  refine gives_of_exec (hx.trans (congrArg (nextOf s) hto)) ((hwTold_member _).trans hmem) ((hwTold_pending _).trans hpend)
    ⟨?_, ?_, ?_, ?_, ?_, fun q k => ?_, htold, (hwTold_flt _).trans hflt⟩
  · exact (brState_congr (hwTold_member _) (hwTold_regs _) f d).trans hbr
  · rw [fget_hwTold, hrole]
  · rw [fget_hwTold, hcf]
  · rw [fget_hwTold, hcg]
  · exact (scal_congr (hwTold_member _) (hwTold_regs _) f 5).trans hscal
  · rw [howner]
    exact not_mem_withoutOpens _ q k

end

/-! #### The end of a close (R54) -/

section
variable {s : State} {f g : Nat} {dir : Bool}

/-- An open command of the bridge d. -/
def opensBridge (d : Nat) : FMsg → Bool
  | .bridgeOpen k _ => k == d
  | _ => false

theorem any_opensBridge {l : List (Nat × FMsg)} {d : Nat} (h : ∀ q c, (q, .bridgeOpen d c) ∉ l) : (l.any fun q => opensBridge d q.2) = false := by
  refine List.any_eq_false.mpr fun q hq hopen => ?_
  obtain ⟨n, m⟩ := q
  cases m with
  | bridgeOpen k c =>
    obtain rfl : k = d := beq_iff_eq.mp hopen
    exact h n c hq
  | _ => cases hopen

/-- The bridge that f owns toward g is closed, and both fronds count it. -/
def bridgeClosed (s : State) (f g d : Nat) : State := injCause4 (bump (bump (setBrState s f d 2) (FR_BRIDGE_STAT_CLOSES f)) (FR_BRIDGE_STAT_CLOSES g)) f

theorem exec_bridgeClosed (hg : acrossOf s f dir.toNat = some g) (hw : Bool) (c : BitVec 2) : exec (.bridgeClosed f dir hw c) s = nextOf s
    (if hw && c != 0 then hwOpen f dir.toNat (c.toNat + 2) s
     else if brState s f dir.toNat = 1 ∧ answers s f = true ∧ (fr s f).closing.seg = 4 ∧ fget s (FR_BRIDGE_STAT_ROLE g) = 2 ∧ ((fr s f).inbox.any fun q => opensBridge dir.toNat q.2) = false
       then bridgeClosed s f g dir.toNat
     else s) := by
  show execBridgeClosed f dir hw c s = _
  unfold execBridgeClosed
  simp only [hg]
  rfl

theorem gives_bridgeClosed (hg : acrossOf s f dir.toNat = some g) (hne : g ≠ f) (hst : brState s f dir.toNat = 1) (hans : answers s f = true) (hseg : (fr s f).closing.seg = 4)
    (hrole : fget s (FR_BRIDGE_STAT_ROLE g) = 2) (hno : ∀ q c, (q, .bridgeOpen dir.toNat c) ∉ (fr s f).inbox) (c : BitVec 2) : Gives (.bridgeClosed f dir false c) s fun t =>
      brState t f dir.toNat = 2 ∧ fget t (FR_BRIDGE_STAT_ROLE f) = fget s (FR_BRIDGE_STAT_ROLE f) ∧ fget t (FR_BRIDGE_STAT_ROLE g) = 2 ∧ 4 ∈ (fr t f).inj.causes ∧
      (∀ h, h ≠ f → fr t h = fr s h) ∧ t.flt = s.flt ∧ t.bus = s.bus := by
  have hx := exec_bridgeClosed hg false c
  rw [if_neg (by simp), if_pos ⟨hst, hans, hseg, hrole, any_opensBridge hno⟩] at hx
  let s1 := setBrState s f dir.toNat 2
  let s2 := bump s1 (FR_BRIDGE_STAT_CLOSES f)
  let s3 := bump s2 (FR_BRIDGE_STAT_CLOSES g)
  have h1 : InFrond f s s1 := inFrond_setBrState s f _ 2
  have h2 : InFrond f s1 s2 := inFrond_fset s1 _ (page_bridgeStat f)
  have h3 : InFrond g s2 s3 := inFrond_fset s2 _ (page_bridgeStat g)
  have hrest : s1.fronds = s.fronds ∧ s1.flt = s.flt ∧ s1.bus = s.bus ∧ s1.member = s.member ∧ s1.pending = s.pending := by
    show (setBrState s f dir.toNat 2).fronds = _ ∧ _
    simp only [s1, setBrState_eq]
    exact ⟨rfl, rfl, rfl, rfl, rfl⟩
  obtain ⟨hfronds, hflt, hbus, hmem, hpend⟩ := hrest
  have hfr : ∀ h, fr s3 h = fr s h := fun h => by
    show tget {} s1.fronds h = _
    rw [hfronds]
    rfl
  have hbr : brState s3 f dir.toNat = 2 := by
    rw [brState_of_inFrond h3 hne]
    exact (brState_fset_above s1 f _ _ (by decide) (by decide)).trans (brState_setBrState s f _ (by decide))
  have hrolef : fget s3 (FR_BRIDGE_STAT_ROLE f) = fget s (FR_BRIDGE_STAT_ROLE f) := by
    rw [fget_of_inFrond h3 (page_bridgeStat f) hne]
    exact (fget_fset_bits s1 _ (by decide) (by decide)).trans (fget_setBrState s f _ _ (by decide))
  have hroleg : fget s3 (FR_BRIDGE_STAT_ROLE g) = 2 := by
    refine (fget_fset_bits s2 _ (by decide) (by decide)).trans ?_
    rw [fget_of_inFrond (inFrond_trans h1 h2) (page_bridgeStat g) hne.symm, hrole]
  refine gives_of_exec hx hmem hpend ⟨hbr, hrolef, hroleg, ?_, fun h hh => ?_, hflt, hbus⟩
  · have hcauses : (fr (injCause4 s3 f) f).inj.causes = (fr s3 f).inj.causes ++ [4] := congrArg (fun x => x.inj.causes) (fr_updFr_same s3 f _)
    exact hcauses ▸ List.mem_append_right _ (List.mem_singleton_self 4)
  · exact (fr_updFr_ne s3 f h _ hh).trans (hfr h)

end

/-! #### Firmware causes (R56) -/

section
variable {s : State} {f g : Nat} {dir : Bool} {c : BitVec 4}

/-- A firmware cause that holds waits for the leader's boundary: cause 6 in the leader itself, another one as an update on its way. -/
theorem exec_bridgeFwOpen (hg : acrossOf s f dir.toNat = some g) (ht : inTakeover s = false) (hc : fwCause s f g dir.toNat c.toNat = true) :
    exec (.bridgeFwOpen f dir c) s = nextOf s (if c.toNat = 6 then openOwn s f dir.toNat c.toNat else openFw s f dir.toNat c.toNat) := by
  show execBridgeFwOpen f dir c s = _
  unfold execBridgeFwOpen
  rw [hg]
  exact congrArg (nextOf s) (if_pos (by rw [hc, ht]; rfl))

theorem gives_openFw (hg : acrossOf s f dir.toNat = some g) (ht : inTakeover s = false) (hc : fwCause s f g dir.toNat c.toNat = true) (h6 : c.toNat ≠ 6) :
    Gives (.bridgeFwOpen f dir c) s fun t => (fr t f).upd = (fr s f).upd ++ [.bridgeOpen dir.toNat c.toNat] ∧ InFrond f s t ∧ t.regs = s.regs ∧ t.flt = s.flt := by
  have hx := exec_bridgeFwOpen hg ht hc
  rw [if_neg h6] at hx
  exact gives_imp (gives_updFr hx) fun t ⟨hfr, hframe⟩ => ⟨by rw [hfr], hframe⟩

/-- An open command that the leader f finds itself waits for its boundary. -/
theorem gives_openOwn {i : Instr} {d k : Nat} (hx : exec i s = nextOf s (openOwn s f d k)) :
    Gives i s fun t => (fr t f).inbox = (fr s f).inbox ++ [(0, .bridgeOpen d k)] ∧ InFrond f s t ∧ t.regs = s.regs ∧ t.flt = s.flt :=
  gives_imp (gives_updFr hx) fun t ⟨hfr, hframe⟩ => ⟨by rw [hfr], hframe⟩

end

/-- Settles O7: the close by the state that it ends in, a hardware cause by what it takes from the owner, and a firmware cause by the command that waits (R54, R56). -/
theorem bridgeEvents : Obligations.BridgeEvents := by
  intro s f g dir _ hg hne
  refine ⟨gives_bridgeClosed hg hne, fun hst hfar hseg => gives_openOwn (congrArg (nextOf s) (if_pos ⟨hst, hfar, hseg⟩)), fun c i hi hst hc => ?_,
    fun c ht => ⟨fun hcause => ?_, fun hc hst => ?_⟩⟩
  · have hpos : c.toNat ≠ 0 := fun h => hc (BitVec.eq_of_toNat_eq h)
    have hx : exec i s = nextOf s (hwOpen f dir.toNat (c.toNat + 2) s) := by
      rcases hi with rfl | rfl
      · rfl
      · rw [exec_bridgeClosed hg, if_pos (by simpa using hc)]
    exact gives_hwOpen hx hg hne hst (by omega) (by omega)
  · rcases hcause with ⟨rfl, hst, hhealth⟩ | ⟨rfl, hst, hen⟩
    · exact gives_openFw hg ht (by simp [fwCause, hst, hhealth]) (by decide)
    · exact gives_openFw hg ht (by simp [fwCause, hst, hen]) (by decide)
  · subst hc
    have hx := exec_bridgeFwOpen (c := 6) hg ht (by simp [fwCause, hst])
    exact gives_openOwn (hx.trans (congrArg (nextOf s) (if_pos (by decide))))

end Sys2Proof.Machine
end

section
/-! Host writes while the standby is in sync: the journal entry leaves, and the access waits for its commit (R376); set-points and bridge commands (R53, R153, R155). -/
namespace Sys2Proof.Machine
open Sys2Proof.Claims

/-! #### A journalled write in sync -/

/-- The entry of operation op is on its way to the standby, and the write of v at a waits for its commit (R376). -/
def entrySent (t : State) (a v : Nat) (op : JOp) : State := { t with bus := { t.bus with
  cur := some (wr a v, .commit t.bus.jSeq), jSeq := t.bus.jSeq + 1, jAir := t.bus.jAir ++ [entryOf t op true], jWait := t.bus.jWait ++ [entryOf t op true] } }

section
variable {s t : State} {a v : Nat} {r : RegAt} {op : JOp}

/-- In sync, a journalled write leaves as an entry of its own, whatever it marks before that. -/
theorem hostWrite_inSync (hs : Ready s) (hmem : a < 0x100000 ∨ a < 0x100000 + 0x10000 * nF s) (hr : regAt a = some r) (hv : v < 2 ^ 64)
    (hstart : startWrite s (wr a v) r v = journal (waitFor t (wr a v) (.commit t.bus.jSeq)) op true) (hsync : inSync t = true) (hready : t.bus.ready = []) :
    hostWrite s a v = pmStep (entrySent t a v op) := by
  rw [ready_hostWrite hs hr hv, startAccess_wr hmem hr, hstart, journal_inSync (show inSync (waitFor t _ _) = true from hsync)]
  have hstop : work (entrySent t a v op) = none := work_busy hready rfl
  exact congrArg pmStep (workN_stop hstop 1027)

/-- The entry is in flight, and no operation has acted. -/
theorem journalled_entrySent (hseq : t.bus = s.bus) (hact : activeIsl t = activeIsl s) (hready : s.bus.ready = []) : Journalled op true s (pmStep (entrySent t a v op)) := by
  have he : entryOf t op true = entryOf s op true := by
    unfold entryOf
    rw [hseq, hact]
  refine ⟨congrArg (·.jSeq + 1) hseq, ?_, ?_, (congrArg Bus.ready hseq).trans hready⟩
  · show t.bus.jAir ++ [entryOf t op true] = _
    rw [hseq, he]
  · show t.bus.jWait ++ [entryOf t op true] = _
    rw [hseq, he]

end

/-! #### Set-points (R153, R155) -/

/-- The row of FR_SETPOINT. -/
def setpointRow : RegRow := ⟨.FR_SETPOINT, 0x90, 8, 1, 0xfffff1, 0, 0, 0, 0xaf00⟩

theorem regAt_setpoint (f : BitVec 6) : regAt (FR_SETPOINT f.toNat) = some ⟨setpointRow, f.toNat, 0⟩ := by
  simp only [regAt, FR_SETPOINT]
  have hrow : findRow rowsFR 0x90 = some (setpointRow, 0) := by decide
  have ho : (0x100090 + 0x10000 * f.toNat - 0x100000) % 0x10000 = 0x90 := by omega
  have hf : (0x100090 + 0x10000 * f.toNat - 0x100000) / 0x10000 = f.toNat := by omega
  rw [if_neg (by omega), if_pos (by omega), ho, hf, hrow]

section
variable {s : State} {f : BitVec 6} {v : Nat}

theorem startWrite_setpoint (hok : frCmdRefused s f.toNat .FR_SETPOINT 0 v = false) : startWrite s (wr (FR_SETPOINT f.toNat) v) ⟨setpointRow, f.toNat, 0⟩ v =
    journal (waitFor s (wr (FR_SETPOINT f.toNat) v) (.commit s.bus.jSeq)) (.setpoint f.toNat v (setpointE s f.toNat v)) true := by
  have hreg : regRefused s ⟨setpointRow, f.toNat, 0⟩ v = false := hok
  unfold startWrite
  rw [hreg]
  rfl

theorem gives_setpoint {i : Instr} (hs : Ready s) (hsync : inSync s = true) (hf : f.toNat < nF s) (hv : v < 2 ^ 64) (hx : exec i s = nextOf s (hostWrite s (FR_SETPOINT f.toNat) v))
    (hok : frCmdRefused s f.toNat .FR_SETPOINT 0 v = false) : Gives i s fun t => Journalled (.setpoint f.toNat v (setpointE s f.toNat v)) true s t ∧
      t.bus.cur = some (wr (FR_SETPOINT f.toNat) v, .commit s.bus.jSeq) ∧ t = { s with bus := t.bus, pm := t.pm } := by
  have hmem : FR_SETPOINT f.toNat < 0x100000 ∨ FR_SETPOINT f.toNat < 0x100000 + 0x10000 * nF s := by simp only [FR_SETPOINT]; omega
  have hready : s.bus.ready = [] := hs.1
  have hw := hostWrite_inSync hs hmem (regAt_setpoint f) hv (startWrite_setpoint hok) hsync hready
  exact gives_of_exec (hx.trans (congrArg (nextOf s) hw)) rfl rfl ⟨journalled_entrySent rfl rfl hready, rfl, rfl⟩

end

/-! #### Bridge commands (R53) -/

/-- The row of RZ_BRIDGE_CMD. -/
def bridgeCmdRow : RegRow := ⟨.RZ_BRIDGE_CMD, 0x300, 8, 1, 0x13f, 0, 0, 0x3000, 0⟩

theorem regAt_bridgeCmd : regAt RZ_BRIDGE_CMD = some ⟨bridgeCmdRow, 0, 0⟩ := by decide +kernel

section
variable {s : State} {v : Nat}

/-- A command is refused while BUSY is 1, for OP = 3 and for a frond that the member does not have (R57). -/
theorem regRefused_bridgeCmd : regRefused s ⟨bridgeCmdRow, 0, 0⟩ v = (flag s RZ_BRIDGE_CMD_BUSY || bitsOf v 13 12 == 3 || decide (nF s ≤ bitsOf v 5 0)) := by
  show (false || rzRefused s .RZ_BRIDGE_CMD v || false || false || false || false || false || false || false || false || false) = _
  simp only [Bool.false_or, Bool.or_false]
  rfl

theorem startWrite_bridgeCmd (hok : regRefused s ⟨bridgeCmdRow, 0, 0⟩ v = false) (hop : bitsOf v 13 12 ≠ 0) : startWrite s (wr RZ_BRIDGE_CMD v) ⟨bridgeCmdRow, 0, 0⟩ v =
    journal (waitFor (fsetB s RZ_BRIDGE_CMD_BUSY true) (wr RZ_BRIDGE_CMD v) (.commit s.bus.jSeq)) (.write RZ_BRIDGE_CMD v) true := by
  have hbusy : (if bridgeCmdRow.name = .RZ_BRIDGE_CMD ∧ bitsOf v 13 12 ≠ 0 then fsetB s RZ_BRIDGE_CMD_BUSY true else s) = fsetB s RZ_BRIDGE_CMD_BUSY true := if_pos ⟨rfl, hop⟩
  rw [← hbusy]
  unfold startWrite
  rw [hok]
  rfl

theorem gives_bridgeCmd {i : Instr} (hs : Ready s) (hsync : inSync s = true) (hv : v < 2 ^ 64) (hf : bitsOf v 5 0 < nF s) (hop : bitsOf v 13 12 = 1 ∨ bitsOf v 13 12 = 2)
    (hx : exec i s = nextOf s (hostWrite s RZ_BRIDGE_CMD v)) (hbusy : flag s RZ_BRIDGE_CMD_BUSY = false) : Gives i s fun t => Journalled (.write RZ_BRIDGE_CMD v) true s t ∧
      flag t RZ_BRIDGE_CMD_BUSY = true ∧ (∀ a, a ≠ RZ_BRIDGE_CMD → reg t a = reg s a) ∧ t = { s with regs := t.regs, bus := t.bus, pm := t.pm } := by
  have hok : regRefused s ⟨bridgeCmdRow, 0, 0⟩ v = false := by
    rw [regRefused_bridgeCmd, hbusy, decide_eq_false (by omega), beq_eq_false_iff_ne.mpr (by omega)]
    rfl
  let u := fsetB s RZ_BRIDGE_CMD_BUSY true
  have hready : s.bus.ready = [] := hs.1
  have hact : activeIsl u = activeIsl s := congrArg (0x40 + ·) (fget_fsetB_addr s _ RZ_PAIR_STAT_ACTIVE true (by decide))
  have hin : inSync u = true := (flag_fsetB_addr s _ RZ_PAIR_STAT_SYNC true (by decide)).trans hsync
  have hw := hostWrite_inSync (t := u) hs (.inl (by decide)) regAt_bridgeCmd hv (startWrite_bridgeCmd hok (by omega)) hin hready
  exact gives_of_exec (hx.trans (congrArg (nextOf s) hw)) rfl rfl
    ⟨journalled_entrySent rfl hact hready, flag_fsetB_bit s true (by decide) (by decide), fun a ha => reg_fsetB_ne s _ true a ha, rfl⟩

end

/-- The fields of a bridge command (R57). -/
theorem bridgeWord_fields (f : BitVec 6) (d : Bool) {k : Nat} (hk : k < 4) :
    bitsOf (f.toNat + 256 * d.toNat + 2 ^ 12 * k) 5 0 = f.toNat ∧ bitsOf (f.toNat + 256 * d.toNat + 2 ^ 12 * k) 13 12 = k := by
  have hd := Bool.toNat_le d
  have hf := f.isLt
  constructor <;> simp only [bitsOf] <;> omega

/-- Settles O24: each row is a host write whose entry leaves; a bridge row's command is its frond and its OP (R53, R153, R155). -/
theorem setpointAndBridgeRows : Obligations.SetpointAndBridgeRows := by
  intro s f hs hsync hf
  have hd := fun d : Bool => Bool.toNat_le d
  refine ⟨fun c => gives_setpoint hs hsync hf (by omega) rfl, fun q => gives_setpoint hs hsync hf (by omega) rfl, fun d => ⟨?_, ?_⟩⟩
  · obtain ⟨h5, h13⟩ := bridgeWord_fields f d (k := 1) (by decide)
    exact gives_bridgeCmd hs hsync (by have := hd d; omega) (h5.trans_lt hf) (.inl h13) rfl
  · obtain ⟨h5, h13⟩ := bridgeWord_fields f d (k := 2) (by decide)
    exact gives_bridgeCmd hs hsync (by have := hd d; omega) (h5.trans_lt hf) (.inr h13) rfl

end Sys2Proof.Machine
end

section
/-! The active Rhizome's own events: the bus optimiser, performance modes, band reports and sags (R36, R155, R170, R186, R187, R248). -/
namespace Sys2Proof.Machine
open Sys2Proof.Claims

/-! #### Events of its own -/

theorem inSync_of_quiet {s : State} (hs : Quiet s) : inSync s = true := by
  obtain ⟨-, -, -, -, -, -, hsync, -⟩ := hs
  exact hsync

/-- An event of the active Rhizome that commits nothing at once and queues no access ends in the state that it makes. -/
theorem rzEvent_quiet {s t : State} {g : State → State} (hs : Quiet s) (ht : g s = t) (hready : t.bus.ready = s.bus.ready) (hqueue : t.bus.queue = s.bus.queue) : rzEvent s g = pmStep t := by
  obtain ⟨hr, hq, -, -, hans, htake, -⟩ := hs
  unfold rzEvent settle
  rw [if_pos (by rw [hans, htake]; rfl), ht, flush_stop (work_empty (hready.trans hr) (hqueue.trans hq))]

/-- Entries have left for the standby, and nothing else has happened. -/
structure OnJournal (s t : State) : Prop where
  rest : t = { s with bus := t.bus }
  ready : t.bus.ready = s.bus.ready
  queue : t.bus.queue = s.bus.queue

namespace OnJournal
variable {s t u : State}

theorem refl (s : State) : OnJournal s s := ⟨rfl, rfl, rfl⟩

theorem trans (h : OnJournal s t) (k : OnJournal t u) : OnJournal s u := ⟨by rw [k.rest, h.rest], k.ready.trans h.ready, k.queue.trans h.queue⟩

theorem member (h : OnJournal s t) : t.member = s.member := by rw [h.rest]
theorem regs (h : OnJournal s t) : t.regs = s.regs := by rw [h.rest]
theorem fronds (h : OnJournal s t) : t.fronds = s.fronds := by rw [h.rest]
theorem flt (h : OnJournal s t) : t.flt = s.flt := by rw [h.rest]
theorem th (h : OnJournal s t) : t.th = s.th := by rw [h.rest]
theorem rz (h : OnJournal s t) : t.rz = s.rz := by rw [h.rest]
theorem pending (h : OnJournal s t) : t.pending = s.pending := by rw [h.rest]

theorem fget (h : OnJournal s t) (x : Fld) : Machine.fget t x = Machine.fget s x := fget_congr h.member h.regs x
theorem flag (h : OnJournal s t) (x : Fld) : Machine.flag t x = Machine.flag s x := flag_congr h.member h.regs x

end OnJournal

/-- In sync, a journalled operation only leaves for the standby (R376). -/
theorem onJournal_journal {s : State} (h : inSync s = true) (op : JOp) (w : Bool) : OnJournal s (journal s op w) := by
  rw [journal_inSync h]
  exact ⟨rfl, rfl, rfl⟩

/-! #### The bus optimiser (R35 to R37) -/

/-- What may follow the record of the greatest duty in a step of the optimiser: its counters, and the entry of a new target. -/
structure AfterDuty (s t : State) : Prop where
  rest : t = { s with regs := t.regs, bus := t.bus }
  dhi : fget t RZ_IBUS_STAT_DHI = fget s RZ_IBUS_STAT_DHI
  frond : fget t RZ_IBUS_STAT_DHI_FROND = fget s RZ_IBUS_STAT_DHI_FROND
  sync : inSync t = inSync s
  ready : t.bus.ready = s.bus.ready
  queue : t.bus.queue = s.bus.queue

namespace AfterDuty
variable {s t u : State}

theorem refl (s : State) : AfterDuty s s := ⟨rfl, rfl, rfl, rfl, rfl, rfl⟩

theorem trans (h : AfterDuty s t) (k : AfterDuty t u) : AfterDuty s u :=
  ⟨by rw [k.rest, h.rest], k.dhi.trans h.dhi, k.frond.trans h.frond, k.sync.trans h.sync, k.ready.trans h.ready, k.queue.trans h.queue⟩

theorem bump (s : State) {hi lo : Nat} (hh : hi < 64) (hl : 21 < lo) : AfterDuty s (bump s ⟨RZ_IBUS_STAT, hi, lo⟩) where
  rest := rfl
  dhi := fget_fset_bits s _ hh (.inl (by omega))
  frond := fget_fset_bits s _ hh (.inl (by omega))
  sync := flag_congr_fget (fget_fset_addr s _ RZ_PAIR_STAT_SYNC _ (by simp))
  ready := rfl
  queue := rfl

theorem journal (h : inSync s = true) (op : JOp) (w : Bool) : AfterDuty s (journal s op w) := by
  have hj := onJournal_journal h op w
  exact ⟨by rw [hj.rest], hj.fget _, hj.fget _, hj.flag _, hj.ready, hj.queue⟩

end AfterDuty

/-- The step has recorded the greatest mean duty d, its frond f and whether the forecast holds the target; the committed configuration is in force from now on. -/
def dutyRecorded (s : State) (f d : Nat) (hold : Bool) : State :=
  fsetB (fset (fset { s with rz := { s.rz with opt := some (reg s RZ_IBUS_OPT).toNat } } RZ_IBUS_STAT_DHI d) RZ_IBUS_STAT_DHI_FROND f) RZ_IBUS_STAT_HOLD hold

theorem dutyRecorded_fields (s : State) (f d : Nat) (hold : Bool) :
    fget (dutyRecorded s f d hold) RZ_IBUS_STAT_DHI = d % 256 ∧ fget (dutyRecorded s f d hold) RZ_IBUS_STAT_DHI_FROND = f % 64 ∧ inSync (dutyRecorded s f d hold) = inSync s := by
  unfold dutyRecorded
  refine ⟨?_, ?_, ?_⟩
  · rw [fget_fsetB_disj _ _ RZ_IBUS_STAT_DHI hold (by decide) (by decide), fget_fset_bits _ _ (by decide) (by decide)]
    exact fget_fset_same _ _ d (by decide) (by decide)
  · rw [fget_fsetB_disj _ _ RZ_IBUS_STAT_DHI_FROND hold (by decide) (by decide)]
    exact fget_fset_same _ _ f (by decide) (by decide)
  · refine flag_congr_fget ?_
    rw [fget_fsetB_addr _ _ RZ_PAIR_STAT_SYNC hold (by decide), fget_fset_addr _ _ RZ_PAIR_STAT_SYNC f (by decide), fget_fset_addr _ _ RZ_PAIR_STAT_SYNC d (by decide)]
    exact fget_congr rfl rfl _

/-- The target moves from v to v': the counter of raises or of lowers rises, and the new target is journalled as G0's VID (R36). -/
def targetMoved (s : State) (v v' : Nat) : State :=
  let t := if v < v' then bump s RZ_IBUS_STAT_RAISES else if v' < v then bump s RZ_IBUS_STAT_LOWERS else s
  if v' = v then t else journal t (.vid 0 (6400 + 20 * v')) false

theorem afterDuty_targetMoved {s : State} (hsync : inSync s = true) (v v' : Nat) : AfterDuty s (targetMoved s v v') := by
  unfold targetMoved
  have hcount : AfterDuty s (if v < v' then bump s RZ_IBUS_STAT_RAISES else if v' < v then bump s RZ_IBUS_STAT_LOWERS else s) := by
    split
    · exact .bump s (by decide) (by decide)
    · split
      · exact .bump s (by decide) (by decide)
      · exact .refl s
  generalize (if v < v' then bump s RZ_IBUS_STAT_RAISES else if v' < v then bump s RZ_IBUS_STAT_LOWERS else s) = t at hcount ⊢
  show AfterDuty s (if v' = v then t else _)
  split
  · exact hcount
  · exact hcount.trans (.journal (hcount.sync.trans hsync) _ _)

section
variable {s : State} {duty : List (BitVec 8)} {f d : Nat}

/-- A step of the optimiser records the greatest duty, and moves the target or keeps it (R36, R37). -/
theorem ibusOptPeriod_eq (hopt : s.rz.opt = none) (hen : flag s RZ_IBUS_OPT_EN = true) (hspore : inSpore s = false)
    (hbest : bestDuty s (fun k => (duty.getD k 0).toNat) = some (f, d)) : ∃ hold v v', ibusOptPeriod duty s = targetMoved (dutyRecorded s f d hold) v v' := by
  have hen0 : bitOf (reg s RZ_IBUS_OPT).toNat 0 = true := hen
  unfold ibusOptPeriod
  simp only [hopt, hen0, hspore, hbest, Bool.not_true, Bool.or_false, Bool.false_eq_true, if_false]
  exact ⟨_, _, _, rfl⟩

theorem gives_ibusOptPeriod (hs : Quiet s) (hopt : s.rz.opt = none) (hen : flag s RZ_IBUS_OPT_EN = true) (hspore : inSpore s = false)
    (hbest : bestDuty s (fun k => (duty.getD k 0).toNat) = some (f, d)) : Gives (.ibusOptPeriod duty) s fun t =>
      fget t RZ_IBUS_STAT_DHI = d % 256 ∧ fget t RZ_IBUS_STAT_DHI_FROND = f % 64 ∧ t.fronds = s.fronds ∧ t.flt = s.flt := by
  obtain ⟨hold, v, v', ht⟩ := ibusOptPeriod_eq hopt hen hspore hbest
  have hsync := inSync_of_quiet hs
  obtain ⟨hdhi, hfrond, hrec⟩ := dutyRecorded_fields s f d hold
  have hafter := afterDuty_targetMoved (hrec.trans hsync) v v'
  have hx : exec (.ibusOptPeriod duty) s = nextOf s (pmStep (targetMoved (dutyRecorded s f d hold) v v')) := congrArg (nextOf s) (rzEvent_quiet hs ht hafter.ready hafter.queue)
  generalize targetMoved (dutyRecorded s f d hold) v v' = t at hx hafter
  have hrest : t = { s with regs := t.regs, bus := t.bus, rz := { s.rz with opt := some (reg s RZ_IBUS_OPT).toNat } } := hafter.rest
  exact gives_of_exec hx (by rw [hrest]; rfl) (by rw [hrest]; rfl) ⟨hafter.dhi.trans hdhi, hafter.frond.trans hfrond, by rw [hrest]; rfl, by rw [hrest]; rfl⟩

end


/-! #### Performance modes (R169, R170) -/

/-- Entry to fixed frequency journals the commands of the fronds in service (R169). -/
theorem onJournal_enterFixed {s : State} (hsync : inSync s = true) : OnJournal s (enterFixed s) := by
  unfold enterFixed
  generalize fget s RZ_PERF_CTRL_FFIX = ffix
  generalize serviceFronds s = fs
  induction fs generalizing s with
  | nil => exact .refl s
  | cons f fs ih =>
    rw [List.foldl_cons]
    split
    · exact ih hsync
    · have hj := onJournal_journal hsync (.setpoint f (freqWord ffix) ‹Nat›) false
      exact hj.trans (ih ((hj.flag _).trans hsync))

theorem gives_perfFallback {s : State} {thermal : Bool} (hst : fget s RZ_PERF_STAT_STATE = 1) (hwhy : (if thermal then s.rz.hot == 7 else (serviceFronds s).any (capped s)) = true) :
    Gives (.perfFallback thermal) s fun t => fget t RZ_PERF_STAT_STATE = 2 ∧ fget t RZ_PERF_STAT_CAUSE = (if thermal then 2 else 1) ∧
      t = { s with regs := t.regs } ∧ ∀ a, a ≠ RZ_PERF_STAT → reg t a = reg s a := by
  let s1 := fset s RZ_PERF_STAT_STATE 2
  let s2 := fset s1 RZ_PERF_STAT_CAUSE (if thermal then 2 else 1)
  let t := bump s2 RZ_PERF_STAT_FALLBACKS
  have hx : exec (.perfFallback thermal) s = nextOf s t := congrArg (nextOf s) (if_pos ⟨hst, hwhy⟩)
  have hstate : fget t RZ_PERF_STAT_STATE = 2 :=
    (fget_fset_bits s2 _ (by decide) (by decide)).trans ((fget_fset_bits s1 _ (by decide) (by decide)).trans (fget_fset_same s _ 2 (by decide) (by decide)))
  have hcause : fget t RZ_PERF_STAT_CAUSE = (if thermal then 2 else 1) := by
    refine (fget_fset_bits s2 _ (by decide) (by decide)).trans ((fget_fset_same s1 _ _ (by decide) (by decide)).trans ?_)
    cases thermal <;> rfl
  have hreg : ∀ a, a ≠ RZ_PERF_STAT → reg t a = reg s a := fun a ha => (reg_fset_ne s2 _ _ a ha).trans ((reg_fset_ne s1 _ _ a ha).trans (reg_fset_ne s _ _ a ha))
  exact gives_of_exec hx rfl rfl ⟨hstate, hcause, rfl, hreg⟩

/-- Fixed frequency is in force again, and its return is counted (R170). -/
def fixedAgain (s : State) : State := fsetB (bump (fset s RZ_PERF_STAT_STATE 1) RZ_PERF_STAT_RETURNS) RZ_PERF_STAT_SHORT false

theorem fixedAgain_fields (s : State) : fget (fixedAgain s) RZ_PERF_STAT_STATE = 1 ∧ flag (fixedAgain s) RZ_PERF_STAT_SHORT = false ∧ inSync (fixedAgain s) = inSync s := by
  unfold fixedAgain bump bumpBy
  refine ⟨?_, flag_fsetB_bit _ false (by decide) (by decide), flag_congr_fget ?_⟩
  · rw [fget_fsetB_disj _ _ RZ_PERF_STAT_STATE false (by decide) (by decide), fget_fset_bits _ _ (by decide) (by decide)]
    exact fget_fset_same s _ 1 (by decide) (by decide)
  · rw [fget_fsetB_addr _ _ RZ_PAIR_STAT_SYNC false (by decide), fget_fset_addr _ _ RZ_PAIR_STAT_SYNC _ (by decide), fget_fset_addr _ _ RZ_PAIR_STAT_SYNC 1 (by decide)]

theorem perfReturn_eq {s : State} (hst : fget s RZ_PERF_STAT_STATE = 2) (hhot : s.rz.hot ≠ 7)
    (hroom : ∀ f ∈ serviceFronds s, fixedPower s f ≤ 95 / 100 * tget 0 s.bud.share f) : perfReturn s = enterFixed (fixedAgain s) :=
  if_pos ⟨hst, hhot, List.all_eq_true.mpr fun f hf => decide_eq_true (hroom f hf)⟩

theorem gives_perfReturn {s : State} (hs : Quiet s) (hst : fget s RZ_PERF_STAT_STATE = 2) (hhot : s.rz.hot ≠ 7)
    (hroom : ∀ f ∈ serviceFronds s, fixedPower s f ≤ 95 / 100 * tget 0 s.bud.share f) : Gives .perfReturn s fun t =>
      fget t RZ_PERF_STAT_STATE = 1 ∧ flag t RZ_PERF_STAT_SHORT = false ∧ t.fronds = s.fronds ∧ t.flt = s.flt := by
  have hsync := inSync_of_quiet hs
  obtain ⟨hstate, hshort, hfix⟩ := fixedAgain_fields s
  have hj := onJournal_enterFixed (hfix.trans hsync)
  have hx : exec .perfReturn s = nextOf s (pmStep (enterFixed (fixedAgain s))) := congrArg (nextOf s) (rzEvent_quiet hs (perfReturn_eq hst hhot hroom) hj.ready hj.queue)
  generalize enterFixed (fixedAgain s) = t at hx hj
  exact gives_of_exec hx hj.member hj.pending ⟨(hj.fget _).trans hstate, (hj.flag _).trans hshort, hj.fronds, hj.flt⟩

/-! #### Band reports (R155, R248) -/

theorem onJournal_reissueFreq {s : State} (hsync : inSync s = true) (f : Nat) : OnJournal s (reissueFreq s f) := by
  unfold reissueFreq
  split
  · exact .refl s
  · split
    · split
      · exact .refl s
      · exact onJournal_journal hsync _ _
    · exact .refl s

/-- The oldest band report is kept (R248). -/
def bandKept (s : State) (m : BandMsg) (rest : List BandMsg) : State :=
  { s with th := { s.th with air := rest }, rz := { s.rz with band := tset s.rz.band m.f m.band, gt := tset s.rz.gt m.f m.guard, hot := m.hot } }

/-- What the active Rhizome makes of the report: the frond's command is issued again if its guard has changed (R155). -/
def bandTaken (s : State) (m : BandMsg) (rest : List BandMsg) : State :=
  if rzGuard s m.f = m.guard then bandKept s m rest else reissueFreq (bandKept s m rest) m.f

theorem onJournal_bandTaken {s : State} (hsync : inSync s = true) (m : BandMsg) (rest : List BandMsg) : OnJournal (bandKept s m rest) (bandTaken s m rest) := by
  have hkept : inSync (bandKept s m rest) = true := (flag_congr rfl rfl _).trans hsync
  unfold bandTaken
  split
  · exact .refl _
  · exact onJournal_reissueFreq hkept m.f

theorem gives_bandReport {s : State} {m : BandMsg} {rest : List BandMsg} (hs : Quiet s) (hair : s.th.air = m :: rest) : Gives .bandReport s fun t =>
    t.th.air = rest ∧ tget 0 t.rz.band m.f = m.band ∧ t.rz.hot = m.hot ∧ t.regs = s.regs ∧ t.fronds = s.fronds ∧ t.flt = s.flt := by
  have hsync := inSync_of_quiet hs
  have hj := onJournal_bandTaken hsync m rest
  have hx : exec .bandReport s = nextOf s (pmStep (bandTaken s m rest)) := by
    show execBandReport s = _
    unfold execBandReport
    refine congrArg (nextOf s) (rzEvent_quiet hs ?_ hj.ready hj.queue)
    rw [hair]
    rfl
  generalize bandTaken s m rest = t at hx hj
  exact gives_of_exec hx hj.member hj.pending
    ⟨congrArg (·.air) hj.th, (congrArg (fun r => tget 0 r.band m.f) hj.rz).trans (tget_tset_same _ _ _ _), congrArg (·.hot) hj.rz, hj.regs, hj.fronds, hj.flt⟩

/-! #### Sags (R186, R187) -/

/-- An update for every frond changes the fronds alone. -/
theorem broadcast_rest (s : State) (m : FMsg) : broadcast s m = { s with fronds := (broadcast s m).fronds } := foldl_frondsOnly (fun _ _ => rfl) _ s

theorem mem_upd_foldl_sendUpd {l : List Nat} {s : State} {f : Nat} {m : FMsg} (h : f ∈ l ∨ m ∈ (fr s f).upd) : m ∈ (fr (l.foldl (fun t f => sendUpd t f m) s) f).upd := by
  induction l generalizing s with
  | nil => exact h.resolve_left List.not_mem_nil
  | cons g l ih =>
    refine ih ?_
    by_cases hg : f = g
    · subst hg
      rw [fr_sendUpd_same]
      exact .inr (List.mem_append_right _ (List.mem_singleton_self m))
    · rw [fr_sendUpd_ne s m hg]
      exact h.imp_left fun hl => (List.mem_cons.mp hl).resolve_left hg

/-- Every frond of the member is signalled (R24). -/
theorem mem_upd_broadcast {s : State} {f : Nat} (hf : f < nF s) (m : FMsg) : m ∈ (fr (broadcast s m) f).upd := mem_upd_foldl_sendUpd (.inl (List.mem_range.mpr hf))

/-- RZ_HARD_STAT shows sag level l, and a sag that begins is counted (R186). -/
def sagShown (s : State) (l : Nat) : State := fset (if fget s RZ_HARD_STAT_SAG = 0 then bump s RZ_HARD_STAT_SAGS else s) RZ_HARD_STAT_SAG l

theorem sagShown_rest (s : State) (l : Nat) : sagShown s l = { s with regs := (sagShown s l).regs } := by
  unfold sagShown
  split <;> rfl

theorem fget_sagShown (s : State) {l : Nat} (hl : l < 4) : fget (sagShown s l) RZ_HARD_STAT_SAG = l :=
  (fget_fset_same _ _ l (by decide) (by decide)).trans (Nat.mod_eq_of_lt hl)

/-- A signal to every frond from a state that differs from s in registers alone. -/
theorem broadcast_of_regs {s u : State} (hu : u = { s with regs := u.regs }) (m : FMsg) :
    (broadcast u m).member = s.member ∧ (broadcast u m).pending = s.pending ∧ (broadcast u m).flt = s.flt ∧ (∀ x, fget (broadcast u m) x = fget u x) ∧
      ∀ f, f < nF s → m ∈ (fr (broadcast u m) f).upd := by
  have hb := broadcast_rest u m
  have hmem : u.member = s.member := by rw [hu]
  have hfronds : ∀ f, f < nF s → m ∈ (fr (broadcast u m) f).upd := fun f hf => mem_upd_broadcast (by rw [nF, hmem]; exact hf) m
  generalize broadcast u m = t at hb hfronds
  exact ⟨by rw [hb, hmem], by rw [hb, hu], by rw [hb, hu], fget_congr (by rw [hb]) (by rw [hb]), hfronds⟩

theorem gives_sagDetect {s : State} {deep : Bool} (hlow : fget s RZ_HARD_STAT_SAG < (if deep then 2 else 1)) : Gives (.sagDetect deep) s fun t =>
    fget t RZ_HARD_STAT_SAG = (if deep then 2 else 1) ∧ (∀ f, f < nF s → .sag (if deep then 2 else 1) (fget s RZ_SAG_CFG_SAG_ISSUE) ∈ (fr t f).upd) ∧ Raised 0xAA none 0 0x43 s t := by
  have hx : exec (.sagDetect deep) s = nextOf s (pmStep (raiseD (broadcast (sagShown s (if deep then 2 else 1)) (.sag (if deep then 2 else 1) (fget s RZ_SAG_CFG_SAG_ISSUE))) 0xAA none 0 0x43)) :=
    congrArg (nextOf s) (if_neg (Nat.not_le.mpr hlow))
  have hlevel : (if deep then 2 else 1) < 4 := by cases deep <;> decide
  generalize (if deep then 2 else 1) = l at hx hlevel ⊢
  obtain ⟨hmem, hpend, hflt, hfget, hsent⟩ := broadcast_of_regs (sagShown_rest s l) (.sag l (fget s RZ_SAG_CFG_SAG_ISSUE))
  rw [raiseD_eq _ _ _ _ _ (by decide)] at hx
  generalize broadcast (sagShown s l) (.sag l (fget s RZ_SAG_CFG_SAG_ISSUE)) = t at hx hmem hpend hflt hfget hsent
  refine gives_of_exec hx hmem hpend ⟨(hfget _).trans (fget_sagShown s hlevel), hsent, ?_⟩
  show ({ t.flt with raises := t.flt.raises ++ [⟨0xAA, none, 0, 0x43, false⟩] } : Flt) = _
  rw [hflt]

theorem gives_sagEnd {s : State} (hsag : fget s RZ_HARD_STAT_SAG ≠ 0) : Gives (.sagEnd false) s fun t =>
    fget t RZ_HARD_STAT_SAG = 0 ∧ (∀ f, f < nF s → .sag 0 64 ∈ (fr t f).upd) ∧ t.flt = s.flt := by
  have hcond : ¬ (fget s RZ_HARD_STAT_SAG = 0 ∨ (false = true ∧ fget s RZ_HARD_STAT_SAG ≠ 2)) := fun h => h.elim hsag fun h => by cases h.1
  have hx : exec (.sagEnd false) s = nextOf s (pmStep (broadcast (fset s RZ_HARD_STAT_SAG 0) (.sag 0 64))) := congrArg (nextOf s) (if_neg hcond)
  have hzero : fget (fset s RZ_HARD_STAT_SAG 0) RZ_HARD_STAT_SAG = 0 := fget_fset_same s _ 0 (by decide) (by decide)
  obtain ⟨hmem, hpend, hflt, hfget, hsent⟩ := broadcast_of_regs (u := fset s RZ_HARD_STAT_SAG 0) rfl (.sag 0 64)
  generalize broadcast (fset s RZ_HARD_STAT_SAG 0) (.sag 0 64) = t at hx hmem hpend hflt hfget hsent
  exact gives_of_exec hx hmem hpend ⟨(hfget _).trans hzero, hsent, hflt⟩

/-- Settles O9: each period and arrival by its own lemma (R36, R155, R170, R186, R187, R248). -/
theorem performanceAndSag : Obligations.PerformanceAndSag := fun _ =>
  ⟨fun _ _ _ => gives_ibusOptPeriod, fun _ => gives_perfFallback, gives_perfReturn, fun _ _ => gives_bandReport, fun _ => gives_sagDetect, gives_sagEnd⟩

end Sys2Proof.Machine
end

section
/-! Reset: what RST_N leaves, and the state after it (R398, R401, R420). -/
namespace Sys2Proof.Machine
open Sys2Proof.Claims

/-- The registers of the frond blocks have the same reset value in every member. -/
theorem memberReset_frond (m : Member) {a : Nat} (ha : 0x100000 ≤ a) : memberReset m a = regReset a := by
  unfold memberReset
  rw [if_neg (by simp only [AD_CFG]; omega), if_neg (by simp only [TH_SENS, TH_SCAL]; omega)]

/-- The reset value of a register of a frond block is that of its offset, whatever the frond. -/
theorem regReset_frond {f o : Nat} (hf : f < 64) (ho : o < 0x10000) :
    regReset (0x100000 + 0x10000 * f + o) = match findRow rowsFR o with | none => 0 | some p => rowReset p.1 p.2 := by
  have hoff : (0x100000 + 0x10000 * f + o - 0x100000) % 0x10000 = o := by omega
  unfold regReset regAt
  rw [if_neg (by omega), if_pos (by omega), hoff]
  cases findRow rowsFR o <;> rfl

/-- The scalar shadow starts from 0 (R76). -/
theorem regReset_scalar {f k : Nat} (hf : f < 64) (hk : k < 64) : regReset (FR_SCALAR f k) = 0 := by
  have hrow : ∀ k, k < 64 → (match findRow rowsFR (0x200 + 8 * k) with | none => 0 | some p => rowReset p.1 p.2) = 0 := by decide +kernel
  have haddr : FR_SCALAR f k = 0x100000 + 0x10000 * f + (0x200 + 8 * k) := by simp only [FR_SCALAR]; omega
  rw [haddr, regReset_frond hf (by omega)]
  exact hrow k hk

/-- With no register written, each but RZ_ID reads its reset value (R398). -/
theorem reg_of_noRegs {t : State} (h : t.regs = []) {a : Nat} (ha : a ≠ RZ_ID) : reg t a = BitVec.ofNat 64 (memberReset t.member a) := by
  unfold reg
  rw [if_neg ha, h]
  rfl

theorem scal_of_noRegs {t : State} (h : t.regs = []) {f k : Nat} (hf : f < 64) (hk : k < 64) : scal t f k = 0 := by
  have hid : FR_SCALAR f k ≠ RZ_ID := by simp only [FR_SCALAR, RZ_ID]; omega
  unfold scal
  rw [reg_of_noRegs h hid, memberReset_frond _ (by simp only [FR_SCALAR]; omega), regReset_scalar hf hk]
  rfl

/-- Moss without a cell reads 0 (R401). -/
theorem mossWord_of_empty {t : State} (h : t.moss.mem = []) (off : Nat) : mossWord t off = 0 := by
  unfold mossWord mvalue
  rw [h]
  rfl

/-- A fold that sets the listed keys that satisfy p leaves d under every other key. -/
theorem tget_foldl_tset_if {α : Type} (d v : α) (p : Nat → Bool) (l : List Nat) (t : Tbl α) (n : Nat) :
    tget d (l.foldl (fun t k => if p k then tset t k v else t) t) n = if n ∈ l ∧ p n = true then v else tget d t n := by
  induction l generalizing t with
  | nil => simp
  | cons k l ih =>
    rw [List.foldl_cons, ih]
    by_cases hn : n = k
    · subst hn
      cases hp : p n <;> simp
    · by_cases hk : p k = true <;> simp [hk, hn, tget_tset_ne]

/-- The levels of the stages' fault lines outlast a reset (R420). -/
theorem flt_stg_resetAll (s : State) {n : Nat} (hn : n < 48) : (stg (resetAll s) n).flt = (stg s n).flt := by
  have hstg : stg (resetAll s) n = if n ∈ List.range 48 ∧ (stg s n).flt = true then { flt := true } else {} := tget_foldl_tset_if ({} : Stage) { flt := true } (fun n => (stg s n).flt) (List.range 48) [] n
  rw [hstg]
  cases h : (stg s n).flt <;> simp [hn]

theorem gives_resetAssert (s : State) : Gives .resetAssert s fun t =>
    (∀ a, a ≠ RZ_ID → reg t a = BitVec.ofNat 64 (memberReset s.member a)) ∧ (∀ f k, f < 64 → k < 64 → scal t f k = 0) ∧ (∀ off, mossWord t off = 0) ∧ (∀ f, fr t f = {}) ∧ t.bus = {} ∧
    t.otp = s.otp ∧ t.flash = s.flash ∧ t.pm.addr = s.pm.addr ∧ t.adm.lines = s.adm.lines ∧ hostReady t = false ∧ ∀ n, n < 48 → (stg t n).flt = (stg s n).flt :=
  gives_of_exec (u := resetAll s) rfl rfl rfl ⟨fun _ => reg_of_noRegs rfl, fun _ _ => scal_of_noRegs rfl, mossWord_of_empty rfl, fun _ => rfl, rfl, rfl, rfl, rfl, rfl, rfl, fun _ => flt_stg_resetAll s⟩

/-- A rail is Dark and its core off as soon as no register of their status has been written (R153, R164). -/
theorem stat_reset {f : Nat} (hf : f < 64) : railSt State.reset f = 0 ∧ coreSt State.reset f = 0 := by
  have h : ∀ f, f < 64 → railSt State.reset f = 0 ∧ coreSt State.reset f = 0 := by decide +kernel
  exact h f hf

theorem ownerOf_reset {b : Nat} (hb : b < 32) : ownerOf State.reset b = bankOwnerReset b := by
  have h : ∀ b, b < 32 → ownerOf State.reset b = bankOwnerReset b := by decide +kernel
  exact h b hb

/-- Settles O34: every register's word is its reset value, as none is written, and the levels outlast the reset; the state after reset by evaluation (R398, R401, R420). -/
theorem resetState : Obligations.ResetState :=
  ⟨gives_resetAssert, by decide +kernel, by decide +kernel, by decide +kernel, fun _ hf => ⟨(stat_reset hf).1, (stat_reset hf).2, fun _ => scal_of_noRegs rfl hf⟩, fun _ => ownerOf_reset,
    mossWord_of_empty rfl 0, rfl, by decide +kernel⟩

end Sys2Proof.Machine
end

section
/-! The slot of a frond core: what a boundary publishes, leaf samples, profile ticks and the end of an injection (R67, R73, R127, R148, R159, R165, R166, R292). -/
namespace Sys2Proof.Machine
open Sys2Proof.Claims

/-! #### What a boundary publishes (R165, R292) -/

/-- A register of a frond block depends on the register file alone, as its reset value is that of every member. -/
theorem reg_congr_frond {s t : State} (h : t.regs = s.regs) {a : Nat} (ha : 0x100000 ≤ a) : reg t a = reg s a := by
  have hid : a ≠ RZ_ID := by simp only [RZ_ID]; omega
  unfold reg
  rw [if_neg hid, if_neg hid, h, memberReset_frond _ ha, memberReset_frond _ ha]

/-- The published point and hold line are what the profile and the governor hold, and the sums of A0 have begun again. -/
def SlotShown (f : Nat) (t : State) : Prop :=
  fget t (FR_RAIL_STAT_POINT f) = pointP t f ∧ flag t (FR_RAIL_STAT_HOLD f) = (fr t f).gov.hold ∧ (fr t f).gov.a0Sum = 0 ∧ (fr t f).gov.a0N = 0

/-- What a state shows at a boundary depends on two registers and on the governor. -/
theorem slotShown_congr {f : Nat} {s t : State} (hstat : reg t (FR_RAIL_STAT f) = reg s (FR_RAIL_STAT f)) (hscal : reg t (FR_SCALAR f 0) = reg s (FR_SCALAR f 0))
    (hhold : (fr t f).gov.hold = (fr s f).gov.hold) (hsum : (fr t f).gov.a0Sum = (fr s f).gov.a0Sum) (hnum : (fr t f).gov.a0N = (fr s f).gov.a0N) (h : SlotShown f s) : SlotShown f t := by
  unfold SlotShown flag fget pointP scal at h ⊢
  rw [hstat, hscal, hhold, hsum, hnum]
  exact h

theorem slotShown_of_regs {f : Nat} {s t : State} (hregs : t.regs = s.regs) (hhold : (fr t f).gov.hold = (fr s f).gov.hold) (hsum : (fr t f).gov.a0Sum = (fr s f).gov.a0Sum)
    (hnum : (fr t f).gov.a0N = (fr s f).gov.a0N) (h : SlotShown f s) : SlotShown f t :=
  slotShown_congr (reg_congr_frond hregs (by simp only [FR_RAIL_STAT]; omega)) (reg_congr_frond hregs (by simp only [FR_SCALAR]; omega)) hhold hsum hnum h

/-- What every meaning ends with leaves what is shown: a frond's registers do not depend on the member. -/
theorem slotShown_nextOf (s : State) {f : Nat} {u : State} (h : SlotShown f u) : ∃ t, nextOf s u = .next t ∧ SlotShown f t := ⟨_, rfl, slotShown_of_regs (s := u) rfl rfl rfl rfl h⟩

@[simp] theorem reg_updFr (s : State) (f : Nat) (g : Frond → Frond) (a : Nat) : reg (updFr s f g) a = reg s a := reg_congr rfl rfl a
@[simp] theorem fget_updFr (s : State) (f : Nat) (g : Frond → Frond) (x : Fld) : fget (updFr s f g) x = fget s x := fget_congr rfl rfl x
@[simp] theorem flag_updFr (s : State) (f : Nat) (g : Frond → Frond) (x : Fld) : flag (updFr s f g) x = flag s x := flag_congr rfl rfl x
@[simp] theorem pointP_updFr (s : State) (f : Nat) (g : Frond → Frond) (h : Nat) : pointP (updFr s f g) h = pointP s h := by unfold pointP scal; rw [reg_updFr]

theorem page_railStat (f : Nat) : FR_RAIL_STAT f / 0x10000 = 0x10 + f := by simp only [FR_RAIL_STAT]; omega
theorem page_leafStat (f : Nat) : FR_LEAF_STAT f / 0x10000 = 0x10 + f := by simp only [FR_LEAF_STAT]; omega
theorem page_injStat (f : Nat) : FR_INJ_STAT f / 0x10000 = 0x10 + f := by simp only [FR_INJ_STAT]; omega

/-- FR_RAIL_STAT shows FCODE, POINT and HOLD. -/
def railShown (s : State) (f fcode p : Nat) (hold : Bool) : State := fsetB (fset (fset s (FR_RAIL_STAT_FCODE f) fcode) (FR_RAIL_STAT_POINT f) p) (FR_RAIL_STAT_HOLD f) hold

theorem point_railShown (s : State) (f fcode p : Nat) (hold : Bool) : fget (railShown s f fcode p hold) (FR_RAIL_STAT_POINT f) = p % 2 ^ 12 :=
  (fget_fset_bits _ _ (by decide) (by decide)).trans (fget_fset_page _ p (page_railStat f) (by decide))

theorem hold_railShown (s : State) (f fcode p : Nat) (hold : Bool) : flag (railShown s f fcode p hold) (FR_RAIL_STAT_HOLD f) = hold :=
  flag_fsetB_bit _ hold (ne_id_of_page (page_railStat f)) (by decide)

theorem pointP_railShown (s : State) (f fcode p : Nat) (hold : Bool) : pointP (railShown s f fcode p hold) f = pointP s f := by
  have hne : FR_SCALAR f 0 ≠ FR_RAIL_STAT f := by simp only [FR_SCALAR, FR_RAIL_STAT]; omega
  unfold railShown pointP scal
  rw [reg_fsetB_ne _ _ _ _ hne, reg_fset_ne _ _ _ _ hne, reg_fset_ne _ _ _ _ hne]

theorem fr_railShown (s : State) (f fcode p : Nat) (hold : Bool) (g : Nat) : fr (railShown s f fcode p hold) g = fr s g := by
  unfold fr
  rfl

theorem pointP_lt (s : State) (f : Nat) : pointP s f < 2 ^ 12 := bitsOf_lt _ 11 0

/-- A boundary publishes through FR_RAIL_STAT, and the governor keeps the hold line. -/
theorem bndPublish_eq (before s : State) (f : Nat) : ∃ (fcode : Nat) (hold : Bool) (k : Gov → Gov), (∀ y, (k y).hold = hold ∧ (k y).a0Sum = y.a0Sum ∧ (k y).a0N = y.a0N) ∧
    bndPublish before s f = updFr (railShown s f fcode (pointP s f) hold) f fun x => { x with gov := k x.gov } := by
  unfold bndPublish
  simp only
  exact ⟨_, _, fun y => { y with hold := _, stb := _ }, fun y => ⟨rfl, rfl, rfl⟩, rfl⟩

/-- R165: what is published is the profile's P and the governor's hold line. -/
theorem slotShown_bndPublish (before s : State) {f : Nat} (hsum : (fr s f).gov.a0Sum = 0) (hnum : (fr s f).gov.a0N = 0) : SlotShown f (bndPublish before s f) := by
  obtain ⟨fcode, hold, k, hk, heq⟩ := bndPublish_eq before s f
  obtain ⟨hk1, hk2, hk3⟩ := hk (fr s f).gov
  rw [heq]
  unfold SlotShown
  rw [fr_updFr_same, fr_railShown, fget_updFr, flag_updFr, pointP_updFr]
  refine ⟨?_, (hold_railShown s f _ _ _).trans hk1.symm, hk2.trans hsum, hk3.trans hnum⟩
  calc fget (railShown s f fcode (pointP s f) hold) (FR_RAIL_STAT_POINT f) = pointP s f := (point_railShown s f _ _ _).trans (Nat.mod_eq_of_lt (pointP_lt s f))
    _ = pointP (railShown s f fcode (pointP s f) hold) f := (pointP_railShown s f _ _ _).symm

/-- R292: the governor takes the sums of A0 at the boundary and begins them again. -/
theorem sums_bndGov (s : State) (f : Nat) : (fr (bndGov s f) f).gov.a0Sum = 0 ∧ (fr (bndGov s f) f).gov.a0N = 0 := by
  unfold bndGov
  rw [fr_updFr_same]
  exact ⟨rfl, rfl⟩

theorem slotShown_bndBase {s : State} {f : Nat} (h : SlotShown f s) : SlotShown f (bndBase s f) := by
  have hgov : (fr (bndBase s f) f).gov = (fr s f).gov := by unfold bndBase; rw [fr_updFr_same]; rfl
  have hreg : ∀ a, a ≠ FR_LEAF_STAT f → reg (bndBase s f) a = reg s a := fun a ha => (reg_congr rfl rfl a).trans (reg_fset_ne s (FR_LEAF_STAT_BASE f) _ a ha)
  exact slotShown_congr (hreg _ (by simp only [FR_LEAF_STAT, FR_RAIL_STAT]; omega)) (hreg _ (by simp only [FR_LEAF_STAT, FR_SCALAR]; omega)) (by rw [hgov]) (by rw [hgov]) (by rw [hgov]) h

theorem bndShed_gov (s : State) (f : Nat) : (fr (bndShed s f) f).gov = (fr s f).gov := by
  unfold bndShed
  rw [fr_updFr_same, fr_updFr_same, fr_updFr_same]

/-- Telemetry writes no register, and of the governor only what the record counts (R81, R280). -/
theorem slotShown_bndTel {s : State} {f : Nat} (h : SlotShown f s) : SlotShown f (bndTel s f) := by
  unfold bndTel
  split
  · exact h
  · have hgov := bndShed_gov s f
    have hhold : (fr (bndShed s f) f).gov.hold = (fr s f).gov.hold := by rw [hgov]
    have hsum : (fr (bndShed s f) f).gov.a0Sum = (fr s f).gov.a0Sum := by rw [hgov]
    have hnum : (fr (bndShed s f) f).gov.a0N = (fr s f).gov.a0N := by rw [hgov]
    refine slotShown_of_regs (s := s) rfl ?_ ?_ ?_ h <;> rw [fr_updFr_same]
    · exact hhold
    · exact hsum
    · exact hnum

theorem gives_slotBoundary {s : State} {f : Nat} (hf : hasF s f = true) (hans : answers s f = true) : Gives (.slotBoundary f) s (SlotShown f) := by
  obtain ⟨g, hx⟩ : ∃ g, exec (.slotBoundary f) s = nextOf s (bndTel (bndBase (bndPublish s (bndGov g f) f) f) f) := by
    have hrun : (!(hasF s f) || !(answers s f)) = false := by rw [hf, hans]; rfl
    have hx : exec (.slotBoundary f) s = execSlotBoundary f s := rfl
    unfold execSlotBoundary at hx
    simp only [hrun, Bool.false_eq_true, if_false] at hx
    exact ⟨_, hx⟩
  obtain ⟨hsum, hnum⟩ := sums_bndGov g f
  obtain ⟨t, ht, hshown⟩ := slotShown_nextOf s (slotShown_bndTel (slotShown_bndBase (slotShown_bndPublish s (bndGov g f) hsum hnum)))
  exact ⟨t, hx.trans ht, hshown⟩

/-! #### Leaf samples, profile ticks and the end of an injection -/

section
variable {s : State} {f : Nat}

/-- What the registers show of a leaf sample: the codes at the edge of their range, and the bridge current while the frond has a role (R216, R217). -/
def sampleShown (s : State) (f edge : Nat) (ibr : BitVec 17) : State :=
  let s0 := bumpBy s (FR_LEAF_STAT_VRANGE f) edge
  if fget s (FR_BRIDGE_STAT_ROLE f) = 0 then s0 else fsetB (fset s0 (FR_BRIDGE_STAT_I_BR f) (bitsOf ibr.toNat 15 0)) (FR_BRIDGE_STAT_I_DIR f) (bitOf ibr.toNat 16)

theorem inFrond_sampleShown (s : State) (f edge : Nat) (ibr : BitVec 17) :
    InFrond f s (sampleShown s f edge ibr) ∧ fr (sampleShown s f edge ibr) f = fr s f ∧ (sampleShown s f edge ibr).flt = s.flt := by
  have hv : InFrond f s (bumpBy s (FR_LEAF_STAT_VRANGE f) edge) := inFrond_fset s _ (page_leafStat f)
  unfold sampleShown
  simp only
  split
  · exact ⟨hv, rfl, rfl⟩
  · exact ⟨inFrond_trans hv (inFrond_trans (inFrond_fset _ _ (page_bridgeStat f)) (inFrond_fset _ _ (page_bridgeStat f))), rfl, rfl⟩

/-- A leaf sample is one more of its slot and of the telemetry period, and its registers lie in the frond's page (R73, R127). -/
theorem gives_leafSample (hf : hasF s f = true) (hans : answers s f = true) (raw : List (BitVec 8)) (volt : List (BitVec 10)) (ibr : BitVec 17) : Gives (.leafSample f raw volt ibr) s fun t =>
    (fr t f).intake.n = (fr s f).intake.n + 1 ∧ (fr t f).law.iN = (fr s f).law.iN + 1 ∧ InFrond f s t ∧ t.flt = s.flt := by
  obtain ⟨edge, g, hx, hg⟩ : ∃ edge g, exec (.leafSample f raw volt ibr) s = nextOf s (updFr (sampleShown s f edge ibr) f g) ∧
      ∀ x : Frond, (g x).intake.n = x.intake.n + 1 ∧ (g x).law.iN = x.law.iN + 1 :=
    ⟨_, _, congrArg (nextOf s) (if_neg (by simp [hf, hans])), fun x => ⟨rfl, rfl⟩⟩
  obtain ⟨hin, hfr, hflt⟩ := inFrond_sampleShown s f edge ibr
  refine gives_inFrond hx (inFrond_trans hin (inFrond_updFr _ f g)) fun hin => ?_
  rw [fr_updFr_same, hfr]
  exact ⟨(hg _).1, (hg _).2, hin, hflt⟩

/-- A tick forms the next code of the move (R159). -/
theorem gives_profileTick_code (hf : hasF s f = true) {p : Plan} (hp : (fr s f).rail.plan = some p) (hend : (fr s f).rail.ending = false) (hw : p.wait = 0) : Gives (.profileTick f) s fun t =>
    (fr t f).rail.code = some (planCode p (p.tick + 1)) ∧ (fr t f).rail.ending = planDone p (p.tick + 1) ∧ InFrond f s t ∧ t.regs = s.regs ∧ t.flt = s.flt := by
  have hx : exec (.profileTick f) s = nextOf s (updFr s f fun x => { x with rail := { x.rail with
      plan := some { p with tick := p.tick + 1, last := planCode p (p.tick + 1) }, code := some (planCode p (p.tick + 1)), ending := planDone p (p.tick + 1) } }) := by
    show execProfileTick f s = _
    unfold execProfileTick
    simp only [hp, hf, hend, hw, Bool.not_true, Bool.or_self, Bool.false_eq_true, if_false, Nat.lt_irrefl]
  refine gives_imp (gives_updFr hx) fun t ⟨hfr, hin, hregs, hflt⟩ => ?_
  rw [hfr]
  exact ⟨rfl, rfl, hin, hregs, hflt⟩

/-- A falling move lets one tick of FDROP_WAIT pass (R166). -/
theorem gives_profileTick_wait (hf : hasF s f = true) {p : Plan} (hp : (fr s f).rail.plan = some p) (hend : (fr s f).rail.ending = false) (hw : 0 < p.wait) : Gives (.profileTick f) s fun t =>
    (fr t f).rail.plan = some { p with wait := p.wait - 1 } ∧ (fr t f).rail.code = (fr s f).rail.code ∧ InFrond f s t ∧ t.regs = s.regs ∧ t.flt = s.flt := by
  have hx : exec (.profileTick f) s = nextOf s (updFr s f fun x => { x with rail := { x.rail with plan := some { p with wait := p.wait - 1 } } }) := by
    show execProfileTick f s = _
    unfold execProfileTick
    simp only [hp, hf, hend, hw, Bool.not_true, Bool.or_self, Bool.false_eq_true, if_false, if_true]
  refine gives_imp (gives_updFr hx) fun t ⟨hfr, hin, hregs, hflt⟩ => ?_
  rw [hfr]
  exact ⟨rfl, rfl, hin, hregs, hflt⟩

/-- FR_INJ_STAT after an injection has ended for cause c, before a capture that is open shows as done. -/
def injEnded (s : State) (f c : Nat) : State := fset (fsetB s (FR_INJ_STAT_ACTIVE f) false) (FR_INJ_STAT_END_CAUSE f) c

theorem injEnded_fields (s : State) (f c : Nat) : flag (injEnded s f c) (FR_INJ_STAT_ACTIVE f) = false ∧ fget (injEnded s f c) (FR_INJ_STAT_END_CAUSE f) = c % 2 ^ 4 :=
  ⟨(flag_congr_fget (fget_fset_bits _ c (by decide) (by decide))).trans (flag_fsetB_bit s false (ne_id_of_page (page_injStat f)) (by decide)), fget_fset_page _ c (page_injStat f) (by decide)⟩

/-- CAP_DONE stands beside the fields of an injection that has ended. -/
theorem capDone_fields (s : State) (f : Nat) : flag (fsetB s (FR_INJ_STAT_CAP_DONE f) true) (FR_INJ_STAT_ACTIVE f) = flag s (FR_INJ_STAT_ACTIVE f) ∧
    fget (fsetB s (FR_INJ_STAT_CAP_DONE f) true) (FR_INJ_STAT_END_CAUSE f) = fget s (FR_INJ_STAT_END_CAUSE f) :=
  ⟨flag_congr_fget (fget_fset_bits s _ (by decide) (by decide)), fget_fset_bits s _ (by decide) (by decide)⟩

theorem inFrond_injEnded (s : State) (f c : Nat) : InFrond f s (injEnded s f c) := inFrond_trans (inFrond_fset s _ (page_injStat f)) (inFrond_fset _ _ (page_injStat f))

/-- An injection ends with the lowest cause that has occurred (R148). -/
theorem gives_injectionEnd (hf : hasF s f = true) {c : Nat} (hc : lowestCode (fr s f).inj.causes = some c) (hact : flag s (FR_INJ_STAT_ACTIVE f) = true) : Gives (.injectionEnd f) s fun t =>
    flag t (FR_INJ_STAT_ACTIVE f) = false ∧ fget t (FR_INJ_STAT_END_CAUSE f) = c % 2 ^ 4 ∧ (fr t f).inj.d = 0 ∧ (fr t f).inj.causes = [] ∧ InFrond f s t ∧ t.flt = s.flt := by
  have hx : exec (.injectionEnd f) s = nextOf s (updFr (if (fr s f).inj.capOpen = true then fsetB (injEnded s f c) (FR_INJ_STAT_CAP_DONE f) true else injEnded s f c) f fun y =>
      { y with inj := { y.inj with d := 0, causes := [], capOpen := false } }) := by
    show execInjectionEnd f s = _
    unfold execInjectionEnd
    rw [hc, hf, hact]
    rfl
  obtain ⟨hactive, hcause⟩ := injEnded_fields s f c
  have hu : ∀ u : State, u = (if (fr s f).inj.capOpen = true then fsetB (injEnded s f c) (FR_INJ_STAT_CAP_DONE f) true else injEnded s f c) →
      flag u (FR_INJ_STAT_ACTIVE f) = false ∧ fget u (FR_INJ_STAT_END_CAUSE f) = c % 2 ^ 4 ∧ InFrond f s u ∧ u.flt = s.flt := by
    rintro u rfl
    split
    · obtain ⟨ha, he⟩ := capDone_fields (injEnded s f c) f
      exact ⟨ha.trans hactive, he.trans hcause, inFrond_trans (inFrond_injEnded s f c) (inFrond_fset _ _ (page_injStat f)), rfl⟩
    · exact ⟨hactive, hcause, inFrond_injEnded s f c, rfl⟩
  obtain ⟨ha, he, hin, hflt⟩ := hu _ rfl
  refine gives_inFrond hx (inFrond_trans hin (inFrond_updFr _ f _)) fun hin => ?_
  rw [fr_updFr_same]
  exact ⟨ha, he, rfl, rfl, hin, hflt⟩

end

/-- Settles O5: a boundary by what it publishes last, a sample by its counts, a tick by the code or the wait, and an injection by its lowest cause (R67, R127, R148, R159, R165, R292). -/
theorem frondSlots : Obligations.FrondSlots := fun _ _ hf =>
  ⟨gives_slotBoundary hf, fun raw volt ibr hans => gives_leafSample hf hans raw volt ibr, fun _ => gives_profileTick_code hf, fun _ => gives_profileTick_wait hf, fun _ => gives_injectionEnd hf⟩

end Sys2Proof.Machine
end

section
/-! Issuing one instruction of a loop program that waits for a pending write (R69, R70, R72, R95). -/
namespace Sys2Proof.Machine
open Sys2Proof.Claims

/-! #### The scoreboard -/

/-- The pending marks that an instruction waits for: its sources in the lanes that it reads, and its destination in the lanes that it writes (R70). -/
def waitsFor (sp : OpSpec) (d a b : Nat) (src dst : List Nat) (outHit : Dest → Bool) : Dest → Bool
  | .reg c n => (src.contains n && ((sp.usesA && c == a) || (sp.usesB && c == b) || (sp.pair && c == b + 1))) || (dst.contains n && ((sp.usesD && c == d) || (sp.second && c == d + 1)))
  | t => outHit t

/-- The lanes that D may be written in. -/
def dstLanes (sp : OpSpec) (r : Run) : List Nat := bitList 32 (match sp.within with | none => r.m | some k => r.m &&& k)

/-- The cycle in which the instruction issues: the first one, not before the present, at which nothing that it waits for is pending (R70, R95). -/
def issueCycle (x : Slot) (sp : OpSpec) (d a b : Nat) (src : List Nat) (outHit : Dest → Bool) (r : Run) : Nat :=
  max (readyAt x.infl (waitsFor sp d a b src (dstLanes sp r) outHit) x.cyc) (if sp.sx then r.sxAt else 0)

/-- The present cycle is the slot's last. -/
def slotSpent (s : State) (f : Nat) : State := updFr s f fun x => { x with slot := { x.slot with cyc := slotC s f, used := slotC s f } }

/-- The slot has ended before the instruction could issue: the cycles that are left are stalls, and the group is cut (R70, R72). -/
def stalledOut (s : State) (f grp : Nat) : State :=
  cutRun (bumpBy (slotSpent s f) (FR_SCHED_STAT_STALLS f) (slotC s f - (fr s f).slot.cyc)) f grp

/-- The core has waited until cycle c: what is pending until then has landed, and each cycle is counted as a stall (R70). -/
def waited (s : State) (f c : Nat) : State := bumpBy (updFr s f fun x => landBy x c) (FR_SCHED_STAT_STALLS f) (c - (fr s f).slot.cyc)

/-- The instruction's writes become pending; they land with the latency of its row (R95). -/
def pendingAfter (s : State) (f c lat grp : Nat) (ws : List (Dest × Nat)) : State :=
  updFr s f fun x => { x with slot := { x.slot with infl := x.slot.infl ++ ws.map fun w => ⟨c + lat, grp, w.1, w.2⟩ } }

/-- What the lanes answer is carried out, and the run goes on (R69, R95, R106). -/
def issueAt (s : State) (f c : Nat) (e : Bool) (sp : OpSpec) (r : Run) (bd : Binding) (o : LaneOut) : State :=
  let s1 := pendingAfter s f c sp.lat r.grp o.writes
  let s2 := match o.range with
    | l :: _ => progFault s1 f r.grp r.pc (.range l)
    | [] => match o.arith with
      | l :: _ => progFault s1 f r.grp r.pc (.arith l)
      | [] => s1
  finishIssue s2 f { r with m := o.m.getD r.m, sx := o.sx.getD r.sx, sf := o.sf.getD r.sf, sxAt := if sp.sx then c + sp.lat else r.sxAt } c (o.jump.getD (r.pc + 1)) e bd

section
variable {s : State} {f word d a b m : Nat} {e : Bool} {sp : OpSpec} {srcLanes : Run → Binding → List Nat} {outHit : Dest → Bool} {body : State → Run → Binding → LaneOut} {r : Run}

/-- An instruction of a clean word without a program fault that still waits when the slot ends cuts its group (R72). -/
theorem issueOp_stalledOut (hf : hasF s f = true) (hr : runsGroups s f = true) (hrun : (fr s f).slot.run = some r) (hw : imem s f r.pc = word) (hfe : tget Ecc.clean r.fetch r.pc = .clean)
    (hc : (fr s f).slot.cyc < slotC s f) (hp : lowestCode (progCodes (binding s f r.grp) sp d a b m) = none)
    (hlate : slotC s f ≤ issueCycle (fr s f).slot sp d a b (srcLanes r (binding s f r.grp)) outHit r) :
    issueOp s f word e sp d a b m srcLanes outHit body = stalledOut s f r.grp := by
  unfold issueOp
  rw [hrun]
  simp only [hf, hr, hw, bne_self_eq_false, Bool.not_true, Bool.or_false, Bool.false_eq_true, if_false, if_neg (Nat.not_le.mpr hc), fetchWord_clean hfe, hp]
  exact if_pos hlate

/-- One that can still issue in the slot does so at that cycle, on what has landed until then. -/
theorem issueOp_issues (hf : hasF s f = true) (hr : runsGroups s f = true) (hrun : (fr s f).slot.run = some r) (hw : imem s f r.pc = word) (hfe : tget Ecc.clean r.fetch r.pc = .clean)
    (hc : (fr s f).slot.cyc < slotC s f) (hp : lowestCode (progCodes (binding s f r.grp) sp d a b m) = none) {c : Nat}
    (hissue : issueCycle (fr s f).slot sp d a b (srcLanes r (binding s f r.grp)) outHit r = c) (hin : c < slotC s f) :
    issueOp s f word e sp d a b m srcLanes outHit body = issueAt (waited s f c) f c e sp r (binding s f r.grp) (body (waited s f c) r (binding s f r.grp)) := by
  unfold issueOp
  rw [hrun]
  simp only [hf, hr, hw, bne_self_eq_false, Bool.not_true, Bool.or_false, Bool.false_eq_true, if_false, if_neg (Nat.not_le.mpr hc), fetchWord_clean hfe, hp]
  subst hissue
  exact (if_neg (Nat.not_le.mpr hin)).trans rfl

end

/-- What an instruction with the E bit that only writes lanes makes of its frond: its writes are pending, and the group has ended (R90, R95). -/
def issuedLast (c lat grp : Nat) (ws : List (Dest × Nat)) (x : Frond) : Frond :=
  { x with slot := { x.slot with infl := x.slot.infl ++ ws.map fun w => ⟨c + lat, grp, w.1, w.2⟩, cyc := c + 1, used := max x.slot.used (c + 1), run := none } }

theorem issueAt_last (s : State) (f c : Nat) (sp : OpSpec) (r : Run) (bd : Binding) (ws : List (Dest × Nat)) :
    fr (issueAt s f c true sp r bd { writes := ws }) f = issuedLast c sp.lat r.grp ws (fr s f) ∧ InFrond f s (issueAt s f c true sp r bd { writes := ws }) ∧
      (issueAt s f c true sp r bd { writes := ws }).regs = s.regs ∧ (issueAt s f c true sp r bd { writes := ws }).flt = s.flt := by
  unfold issueAt
  simp only
  rw [finishIssue_goes (.inl rfl)]
  unfold pendingAfter
  refine ⟨?_, inFrond_trans (inFrond_updFr _ f _) (inFrond_updFr _ f _), rfl, rfl⟩
  rw [fr_updFr_same, fr_updFr_same]
  rfl

/-! #### What the core waits for lands (R70) -/

theorem page_schedStat (f : Nat) : FR_SCHED_STAT f / 0x10000 = 0x10 + f := by simp only [FR_SCHED_STAT]; omega

theorem inFrond_cutRun (s : State) (f grp : Nat) : InFrond f s (cutRun s f grp) := inFrond_updFr s f _

theorem inFrond_stalledOut (s : State) (f grp : Nat) : InFrond f s (stalledOut s f grp) := by
  have hspent : InFrond f s (slotSpent s f) := inFrond_updFr s f _
  have hstalls : InFrond f (slotSpent s f) (bumpBy (slotSpent s f) (FR_SCHED_STAT_STALLS f) (slotC s f - (fr s f).slot.cyc)) := inFrond_fset _ _ (page_schedStat f)
  exact inFrond_trans (inFrond_trans hspent hstalls) (inFrond_cutRun _ f grp)

theorem fr_stalledOut (s : State) (f grp : Nat) :
    fr (stalledOut s f grp) f = { fr s f with slot := { (fr s f).slot with cyc := slotC s f, used := slotC s f, run := none, cut := (fr s f).slot.cut ++ [grp] } } := by
  have hspent : fr (slotSpent s f) f = { fr s f with slot := { (fr s f).slot with cyc := slotC s f, used := slotC s f } } := fr_updFr_same s f _
  calc fr (stalledOut s f grp) f = { fr (slotSpent s f) f with slot := { (fr (slotSpent s f) f).slot with run := none, cut := (fr (slotSpent s f) f).slot.cut ++ [grp] } } := fr_updFr_same _ f _
    _ = _ := by rw [hspent]

section
variable (s : State) (f c : Nat)

theorem inFrond_waited : InFrond f s (waited s f c) := inFrond_trans (inFrond_updFr s f _) (inFrond_fset _ _ (page_schedStat f))

theorem fr_waited : fr (waited s f c) f = landBy (fr s f) c := fr_updFr_same s f (landBy · c)

theorem flt_waited : (waited s f c).flt = s.flt := rfl

/-- Each cycle of the wait is a stall (R70). -/
theorem stalls_waited : fget (waited s f c) (FR_SCHED_STAT_STALLS f) = min (fget s (FR_SCHED_STAT_STALLS f) + (c - (fr s f).slot.cyc)) (fmax (FR_SCHED_STAT_STALLS f)) := by
  unfold waited
  rw [fget_bumpBy_same _ _ _ (ne_id_of_page (page_schedStat f)) (show 63 < 64 by decide), fget_updFr]

theorem reg_waited {a : Nat} (ha : a ≠ FR_SCHED_STAT f) : reg (waited s f c) a = reg s a := (reg_fset_ne _ _ _ _ ha).trans (reg_updFr s f _ a)

/-- The values outside the lanes that an instruction reads do not move while it waits. -/
theorem operand_waited {k n : Nat} (hlanes : tget 0 (landBy (fr s f) c).lanes (k * 32 + n) = tget 0 (fr s f).lanes (k * 32 + n)) (hsat : (landBy (fr s f) c).law.sat = (fr s f).law.sat) :
    operand (waited s f c) f k n = operand s f k n := by
  have hscal : ∀ j, scal (waited s f c) f j = scal s f j := fun j => congrArg BitVec.toNat (reg_waited s f c (by simp only [FR_SCALAR, FR_SCHED_STAT]; omega))
  have hcount : reg (waited s f c) (FR_SLOT_COUNT f) = reg s (FR_SLOT_COUNT f) := reg_waited s f c (by simp only [FR_SLOT_COUNT, FR_SCHED_STAT]; omega)
  unfold operand effMask
  rw [fr_waited, hlanes, hsat, hscal, hscal, hcount]

end

/-- The one pending write lands in its register (R95). -/
theorem landBy_single {x : Frond} {c g k n v : Nat} (h : x.slot.infl = [⟨c, g, .reg k n, v⟩]) {c' : Nat} (hc : c ≤ c') :
    landBy x c' = { x with lanes := tset x.lanes (k * 32 + n) (BitVec.ofNat 32 v), slot := { x.slot with infl := [] } } := by
  unfold landBy
  simp only [h, List.filter_cons, hc, decide_true, if_true, List.filter_nil, List.foldl_cons, List.foldl_nil, landOne, not_true, decide_false, Bool.false_eq_true, if_false]

/-! #### MIN (R99) -/

/-- What a form-R row of A, B and D uses. -/
def aluSpec : OpSpec := { usesD := true, usesA := true, usesB := true }

/-- Legal operands are no program fault (R106). -/
theorem progCodes_aluSpec {s : State} {f : Nat} {r : Run} {w : RForm} (h : LegalR s f r w 0) :
    lowestCode (progCodes (binding s f r.grp) aluSpec w.d.toNat w.a.toNat w.b.toNat w.m.toNat) = none := by
  obtain ⟨hd, ha, hb, hm⟩ := h
  simp [progCodes, aluSpec, hd, ha, hb, hm, lowestCode]

/-- What MIN writes in the lanes of a run. -/
def minWrites (s : State) (f : Nat) (w : RForm) (r : Run) : List (Dest × Nat) := writeLanes w.d.toNat ((lanesM r).map fun n =>
  (n, if s32 (operand s f w.a.toNat n) ≤ s32 (operand s f w.b.toNat n) then operand s f w.a.toNat n else operand s f w.b.toNat n))

theorem exec_min (f : Nat) (w : RForm) (s : State) : exec (.min f w) s = nextOf s (issueOp s f (encR 0x07 w) w.e aluSpec w.d.toNat w.a.toNat w.b.toNat w.m.toNat (fun r _ => lanesM r) (fun _ => false)
    fun t r _ => { writes := minWrites t f w r }) := rfl

/-- With one write of a source in a lane of M pending, the row issues when it has landed (R70, R95). -/
theorem issueCycle_source {x : Slot} {r : Run} {d a b c g n v : Nat} {outHit : Dest → Bool} (h : x.infl = [⟨c, g, .reg a n, v⟩]) (hc : x.cyc < c) (hm : bitOf r.m n = true) (hn : n < 32) :
    issueCycle x aluSpec d a b (lanesM r) outHit r = c := by
  have hlane : (lanesM r).contains n = true := by simp [lanesM, bitList, hm, hn]
  have hwaits : waitsFor aluSpec d a b (lanesM r) (dstLanes aluSpec r) outHit (.reg a n) = true := by simp only [waitsFor, hlane, aluSpec, beq_self_eq_true, Bool.and_self, Bool.true_or]
  unfold issueCycle readyAt
  rw [h]
  simp only [List.foldl_cons, List.foldl_nil, hwaits, if_true]
  show max (max x.cyc c) 0 = c
  omega

section
variable {s : State} {f n v c g : Nat} {w : RForm} {r : Run}

/-- Past the slot's last cycle the waiting group is cut, and nothing lands (R72). -/
theorem gives_min_cut (hf : hasF s f = true) (hr : runsGroups s f = true) (hrun : (fr s f).slot.run = some r) (hw : imem s f r.pc = encR 0x07 w) (hfe : tget Ecc.clean r.fetch r.pc = .clean)
    (hlegal : LegalR s f r w 0) (hpend : (fr s f).slot.infl = [⟨c, g, .reg w.a.toNat n, v⟩]) (hwait : (fr s f).slot.cyc < c) (hm : bitOf r.m n = true) (hn : n < 32)
    (hc : (fr s f).slot.cyc < slotC s f) (hlate : slotC s f ≤ c) : Gives (.min f w) s fun t =>
      (fr t f).slot.run = none ∧ (fr t f).slot.cut = (fr s f).slot.cut ++ [r.grp] ∧ (fr t f).lanes = (fr s f).lanes ∧ (fr t f).slot.infl = (fr s f).slot.infl ∧ InFrond f s t := by
  have hissue : slotC s f ≤ issueCycle (fr s f).slot aluSpec w.d.toNat w.a.toNat w.b.toNat (lanesM r) (fun _ => false) r := (issueCycle_source hpend hwait hm hn).symm ▸ hlate
  have hx := (exec_min f w s).trans (congrArg (nextOf s) (issueOp_stalledOut hf hr hrun hw hfe hc (progCodes_aluSpec hlegal) hissue))
  refine gives_inFrond hx (inFrond_stalledOut s f r.grp) fun hin => ?_
  rw [fr_stalledOut]
  exact ⟨rfl, rfl, rfl, rfl, hin⟩

/-- Until then the row waits for the write to land, reads the landed value, and issues (R70, R95). -/
theorem gives_min_waits (hf : hasF s f = true) (hr : runsGroups s f = true) (hrun : (fr s f).slot.run = some r) (hw : imem s f r.pc = encR 0x07 w) (hfe : tget Ecc.clean r.fetch r.pc = .clean)
    (hlegal : LegalR s f r w 0) (hpend : (fr s f).slot.infl = [⟨c, g, .reg w.a.toNat n, v⟩]) (hwait : (fr s f).slot.cyc < c) (hm : bitOf r.m n = true) (hn : n < 32) (hab : w.a ≠ w.b)
    (hin : c < slotC s f) (ha : w.a.toNat < 0x35) (he : w.e = true) : Gives (.min f w) s fun t =>
      (fr t f).slot.cyc = c + 1 ∧ (fr t f).slot.run = none ∧ t.flt = s.flt ∧ tget 0 (fr t f).lanes (w.a.toNat * 32 + n) = BitVec.ofNat 32 v ∧
      (⟨c + 1, r.grp, .reg w.d.toNat n, if s32 (operand s f w.b.toNat n) < s32 (v % 2 ^ 32) then operand s f w.b.toNat n else v % 2 ^ 32⟩ ∈ (fr t f).slot.infl) ∧
      fget t (FR_SCHED_STAT_STALLS f) = min (fget s (FR_SCHED_STAT_STALLS f) + (c - (fr s f).slot.cyc)) (fmax (FR_SCHED_STAT_STALLS f)) := by
  have hx := (exec_min f w s).trans (congrArg (nextOf s) (issueOp_issues hf hr hrun hw hfe (hwait.trans hin) (progCodes_aluSpec hlegal) (issueCycle_source hpend hwait hm hn) hin))
  rw [he] at hx
  have hland := landBy_single hpend (Nat.le_refl c)
  obtain ⟨hfr, hinf, hregs, hflt⟩ := issueAt_last (waited s f c) f c aluSpec r (binding s f r.grp) (minWrites (waited s f c) f w r)
  have hA : operand (waited s f c) f w.a.toNat n = v % 2 ^ 32 := by
    unfold operand
    rw [if_pos ha, fr_waited, hland, tget_tset_same, BitVec.toNat_ofNat]
  have hB : operand (waited s f c) f w.b.toNat n = operand s f w.b.toNat n := by
    have hne : w.b.toNat * 32 + n ≠ w.a.toNat * 32 + n := fun h => hab (BitVec.eq_of_toNat_eq (by omega))
    exact operand_waited s f c (by rw [hland]; exact tget_tset_ne _ _ _ _ _ hne) (by rw [hland])
  have hmem : (Dest.reg w.d.toNat n, if s32 (operand s f w.b.toNat n) < s32 (v % 2 ^ 32) then operand s f w.b.toNat n else v % 2 ^ 32) ∈ minWrites (waited s f c) f w r := by
    refine List.mem_map.mpr ⟨(n, _), List.mem_map.mpr ⟨n, by simp [lanesM, bitList, hm, hn], rfl⟩, ?_⟩
    simp only [hA, hB, ← Int.not_lt, ite_not]
  refine gives_inFrond hx (inFrond_trans (inFrond_waited s f c) hinf) fun _ => ?_
  rw [fget_congr (member_pending_of_inFrond hinf).1 hregs, stalls_waited, hfr, fr_waited, hland]
  exact ⟨rfl, rfl, hflt, tget_tset_same _ _ _ _, List.mem_append_right _ (List.mem_map.mpr ⟨_, hmem, rfl⟩), rfl⟩

end

/-- Settles O21: the wait for the landing of a pending source, and the cut of a wait that outlasts the slot (R69, R70, R72, R95). -/
theorem scoreboardStalls : Obligations.ScoreboardStalls := fun _ _ _ _ _ _ _ _ hf hr hrun hw hfe hlegal hpend hwait hm hn hab =>
  ⟨gives_min_waits hf hr hrun hw hfe hlegal hpend hwait hm hn hab, gives_min_cut hf hr hrun hw hfe hlegal hpend hwait hm hn⟩

end Sys2Proof.Machine
end

section
/-! The row NOP before a word of another row (R82, R99). -/
namespace Sys2Proof.Machine
open Sys2Proof.Claims

/-- The first word of the Spore phase program (Table 4-11), whose opcode 0x12 Table 4-3 lists: its row is not NOP. -/
def sporeWord : W32 := 0x48033200

/-- Right after reset, the Spore phase program of frond 0 is about to fetch its first word, whose check bits show an uncorrectable error. -/
def sporeFetch : State := setFr State.reset 0 { slot := { run := some ⟨0, 0xE01, 1, 1, 0, 0, 0, [(0xE01, .double)]⟩ } }

/-- Only a word of opcode 0 or of a reserved opcode is issued by the row NOP (R99); before any other it changes nothing. -/
theorem execNop_of_listed (f : Nat) (s : State) {word : W32} (hne : bitsOf word.toNat 31 26 ≠ 0) (hlegal : legalOpc (bitsOf word.toNat 31 26) = true) : exec (.nop f word) s = nextOf s s :=
  congrArg (nextOf s) (if_neg fun h => h.elim hne fun h => h hlegal)

theorem imem_sporeFetch : imem sporeFetch 0 0xE01 = sporeWord.toNat := by decide +kernel

theorem slotC_sporeFetch : (fr sporeFetch 0).slot.cyc < slotC sporeFetch 0 := by decide +kernel

/-- Refutes O22: its clause on the fetch names no opcode, and the row NOP acts only on a word of opcode 0 or of a reserved one (R99). The first word of the Spore phase program has opcode 0x12, so NOP leaves
its group running, however its check bits read; the row of that opcode is the one that finds the uncorrectable error (R82). -/
theorem not_dispatchAndLanding : ¬ Obligations.DispatchAndLanding := by
  unfold Obligations.DispatchAndLanding
  intro h
  obtain ⟨_, hfetch, _⟩ := h sporeFetch 0 (by decide)
  obtain ⟨t, ht, hrun, _⟩ := (hfetch ⟨0, 0xE01, 1, 1, 0, 0, 0, [(0xE01, .double)]⟩ sporeWord (by decide +kernel) rfl imem_sporeFetch slotC_sporeFetch).1 rfl
  have hsame : exec (.nop 0 sporeWord) sporeFetch = .next sporeFetch := execNop_of_listed 0 sporeFetch (by decide) (by decide)
  cases ht.symm.trans hsame
  cases hrun

end Sys2Proof.Machine
end

section
/-! Acknowledgements of frond commands, and island restarts (R27, R88, R396, R404). -/
namespace Sys2Proof.Machine
open Sys2Proof.Claims

/-! #### Acknowledged commands (R88, R396) -/

/-- The parts of the state that an acknowledgement is answered from, and those that a command must keep. -/
structure AckKept (s t : State) : Prop where
  member : t.member = s.member
  pending : t.pending = s.pending
  regs : t.regs = s.regs
  cur : t.bus.cur = s.bus.cur
  resp : t.bus.resp = s.bus.resp
  acks : t.bus.acks = s.bus.acks
  ready : t.bus.ready = s.bus.ready
  queue : t.bus.queue = s.bus.queue

namespace AckKept
variable {s t u : State}

theorem trans (h : AckKept s t) (k : AckKept t u) : AckKept s u :=
  ⟨k.member.trans h.member, k.pending.trans h.pending, k.regs.trans h.regs, k.cur.trans h.cur, k.resp.trans h.resp, k.acks.trans h.acks, k.ready.trans h.ready, k.queue.trans h.queue⟩

theorem inSync (h : AckKept s t) : Machine.inSync t = Machine.inSync s := flag_congr h.member h.regs _

theorem of_journal (h : Machine.inSync s = true) (op : JOp) (w : Bool) : AckKept s (journal s op w) := by
  rw [journal_inSync h]
  exact ⟨rfl, rfl, rfl, rfl, rfl, rfl, rfl, rfl⟩

end AckKept

theorem journal_fronds (s : State) (op : JOp) (w : Bool) : (journal s op w).fronds = s.fronds := by
  unfold journal
  dsimp only
  split <;> rfl

/-- The sender drops a command once it is acknowledged (R27). -/
def dropAcked (s : State) (f : Nat) (c : FCmd) (old : Bool) : State := if old then s else updFr s f fun x => { x with unacked := x.unacked.filter fun d => d.seq != c.seq }

theorem dropAcked_spec (s : State) (f : Nat) (c : FCmd) (old : Bool) : AckKept s (dropAcked s f c old) ∧ (dropAcked s f c old).bus = s.bus ∧
    (fr (dropAcked s f c old) f).unacked = if old then (fr s f).unacked else (fr s f).unacked.filter fun d => d.seq != c.seq := by
  unfold dropAcked
  cases old
  · refine ⟨⟨rfl, rfl, rfl, rfl, rfl, rfl, rfl, rfl⟩, rfl, ?_⟩
    exact congrArg Frond.unacked (fr_updFr_same s f fun x => { x with unacked := x.unacked.filter fun d => d.seq != c.seq })
  · exact ⟨⟨rfl, rfl, rfl, rfl, rfl, rfl, rfl, rfl⟩, rfl, rfl⟩

/-- A refused set-point leaves the record of the frond's commands, and nothing else moves (R396). -/
theorem unsetCmd_rest (s : State) (f v e : Nat) : unsetCmd s f v e = { s with rz := (unsetCmd s f v e).rz } := by
  unfold unsetCmd
  split <;> rfl

/-- The outcome of a command that is neither a Spore exit nor a push: the sender drops it, and a refused set-point that no access waits for is withdrawn (R27, R396). -/
theorem cmdAcked_spec {s : State} {f : Nat} {c : FCmd} (ok old : Bool) (hspore : ∀ l, c.msg ≠ .sporeExit l) (hscalar : isScalarCmd c.msg = false) (hsync : inSync s = true) :
    AckKept s (cmdAcked s f c ok old) ∧ (cmdAcked s f c ok old).fronds = (dropAcked s f c old).fronds ∧ (ok = true ∨ c.wait = true → (cmdAcked s f c ok old).bus = s.bus) := by
  obtain ⟨hkept, hbus, _⟩ := dropAcked_spec s f c old
  have hplain : ∀ t, t = dropAcked s f c old → AckKept s t ∧ t.fronds = (dropAcked s f c old).fronds ∧ (ok = true ∨ c.wait = true → t.bus = s.bus) := by
    rintro t rfl
    exact ⟨hkept, rfl, fun _ => hbus⟩
  have hdrop : (if old then s else updFr s f fun x => { x with unacked := x.unacked.filter fun d => d.seq != c.seq }) = dropAcked s f c old := rfl
  generalize hu : cmdAcked s f c ok old = u
  unfold cmdAcked at hu
  rw [hdrop] at hu
  dsimp only at hu
  split at hu
  next l hmsg => exact absurd hmsg (hspore l)
  next k w hmsg =>
    rw [hmsg] at hscalar
    cases hscalar
  next v e hmsg =>
    cases ok with
    | true => exact hplain _ hu.symm
    | false =>
      have hunset : AckKept s (unsetCmd (dropAcked s f c old) f v e) := by
        rw [unsetCmd_rest]
        exact ⟨hkept.member, hkept.pending, hkept.regs, hkept.cur, hkept.resp, hkept.acks, hkept.ready, hkept.queue⟩
      have hfronds : (unsetCmd (dropAcked s f c old) f v e).fronds = (dropAcked s f c old).fronds := by rw [unsetCmd_rest]
      have hsame : (unsetCmd (dropAcked s f c old) f v e).bus = s.bus := by rw [unsetCmd_rest]; exact hbus
      cases hw : c.wait with
      | true =>
        rw [hw] at hu
        subst hu
        exact ⟨hunset, hfronds, fun _ => hsame⟩
      | false =>
        rw [hw] at hu
        subst hu
        exact ⟨hunset.trans (.of_journal (hunset.inSync.trans hsync) _ _), (journal_fronds _ _ _).trans hfronds, fun h => by simp at h⟩
  next => exact hplain _ hu.symm

/-- What an acknowledgement leaves of the access that waited for it: it is answered, and a refused write is withdrawn from the standby (R396). -/
structure AckDone (s t : State) (ok : Bool) (a : Nat) : Prop where
  member : t.member = s.member
  pending : t.pending = s.pending
  regs : t.regs = s.regs
  fronds : t.fronds = s.fronds
  cur : t.bus.cur = none
  resp : t.bus.resp = s.bus.resp ++ [⟨.host, if ok then .ok else .err, 0⟩]
  acks : t.bus.acks = s.bus.acks
  ready : t.bus.ready = s.bus.ready
  queue : t.bus.queue = s.bus.queue
  air : t.bus.jAir = if ok then s.bus.jAir else s.bus.jAir ++ [entryOf s (.withdraw a) false]

theorem answerCur_host {s : State} {x : Access} {p : Phase3} (hcur : s.bus.cur = some (x, p)) (hsrc : x.src = .host) (hwe : x.we = true) (st : Status) :
    answerCur s st 0 = { s with bus := { s.bus with cur := none, resp := s.bus.resp ++ [⟨.host, st, 0⟩] } } := by
  unfold answerCur
  rw [hcur]
  show respond { s with bus := { s.bus with cur := none } } x st 0 = _
  rw [respond_host hsrc]
  simp [hwe]

theorem ackDone_ackAnswer {s : State} {x : Access} {i : Nat} (hcur : s.bus.cur = some (x, .island i)) (hsrc : x.src = .host) (hwe : x.we = true) (hsync : inSync s = true) (ok : Bool) :
    AckDone s (ackAnswer s i ok) ok x.addr := by
  have hanswer := answerCur_host hcur hsrc hwe
  have hx : ackAnswer s i ok = if ok then answerCur s .ok 0 else journal (answerCur s .err 0) (.withdraw x.addr) false := by
    unfold ackAnswer
    rw [hcur]
    cases ok <;> simp
  rw [hx]
  cases ok with
  | true =>
    rw [if_pos rfl, hanswer .ok]
    exact ⟨rfl, rfl, rfl, rfl, rfl, rfl, rfl, rfl, rfl, rfl⟩
  | false =>
    have hs : inSync (answerCur s .err 0) = true := by rw [hanswer .err]; exact hsync
    rw [if_neg Bool.false_ne_true, journal_inSync hs, hanswer .err]
    exact ⟨rfl, rfl, rfl, rfl, rfl, rfl, rfl, rfl, rfl, rfl⟩

theorem gives_commandAck {s : State} {f : BitVec 8} {ok old : Bool} {x : Access} {c : FCmd} {rest : List Ack}
    (hack : takeFirst (fun a : Ack => a.isl == f.toNat) s.bus.acks = some (⟨f.toNat, ok, true, some c, old⟩, rest)) (hact : answers s (activeIsl s) = true) (ht : inTakeover s = false)
    (hready : s.bus.ready = []) (hqueue : s.bus.queue = []) (hcur : s.bus.cur = some (x, .island f.toNat)) (hsrc : x.src = .host) (hwe : x.we = true)
    (hspore : ∀ l, c.msg ≠ .sporeExit l) (hscalar : isScalarCmd c.msg = false) (hsync : inSync s = true) : Gives (.commandAck f false) s fun t =>
      t.bus.resp = s.bus.resp ++ [⟨.host, if ok then .ok else .err, 0⟩] ∧ t.bus.acks = rest ∧ t.bus.cur = none ∧
      (fr t f.toNat).unacked = (if old then (fr s f.toNat).unacked else (fr s f.toNat).unacked.filter fun d => d.seq != c.seq) ∧ t.regs = s.regs ∧
      (ok = false → c.wait = true → t.bus.jAir = s.bus.jAir ++ [entryOf s (.withdraw x.addr) false]) ∧ (ok = true → t.bus.jAir = s.bus.jAir) := by
  let s1 : State := { s with bus := { s.bus with acks := rest } }
  obtain ⟨hkept, hfronds, hbus⟩ := cmdAcked_spec (s := s1) (f := f.toNat) (c := c) ok old hspore hscalar hsync
  obtain ⟨_, _, hunacked⟩ := dropAcked_spec s1 f.toNat c old
  have hx : exec (.commandAck f false) s = nextOf s (pmStep (flush (ackAnswer (cmdAcked s1 f.toNat c ok old) f.toNat ok))) := by
    show execCommandAck f false s = _
    unfold execCommandAck
    rw [hack]
    simp only [hact, ht, Bool.not_false, Bool.and_self, if_true, Bool.false_and]
    rfl
  generalize cmdAcked s1 f.toNat c ok old = u at hx hkept hfronds hbus
  have hfr : fr u f.toNat = fr (dropAcked s1 f.toNat c old) f.toNat := by unfold fr; rw [hfronds]
  have hdone : AckDone u (ackAnswer u f.toNat ok) ok x.addr := ackDone_ackAnswer (hkept.cur.trans hcur) hsrc hwe (hkept.inSync.trans hsync) ok
  have hentry : ok = true ∨ c.wait = true → entryOf u (.withdraw x.addr) false = entryOf s (.withdraw x.addr) false := fun h => by
    unfold entryOf activeIsl
    rw [fget_congr hkept.member hkept.regs, hbus h]
    rfl
  have hjair : ok = true ∨ c.wait = true → u.bus.jAir = s.bus.jAir := fun h => by rw [hbus h]
  generalize ackAnswer u f.toNat ok = v at hx hdone
  have hvfr : fr v f.toNat = fr u f.toNat := by unfold fr; rw [hdone.fronds]
  rw [flush_stop (work_empty (s := v) (hdone.ready.trans (hkept.ready.trans hready)) (hdone.queue.trans (hkept.queue.trans hqueue)))] at hx
  have hresp : v.bus.resp = s.bus.resp ++ [⟨.host, if ok then .ok else .err, 0⟩] := hdone.resp.trans (congrArg (· ++ _) hkept.resp)
  have hdrops : (fr v f.toNat).unacked = if old then (fr s f.toNat).unacked else (fr s f.toNat).unacked.filter fun d => d.seq != c.seq :=
    (congrArg Frond.unacked (hvfr.trans hfr)).trans hunacked
  refine gives_of_exec hx (hdone.member.trans hkept.member) (hdone.pending.trans hkept.pending)
    ⟨hresp, hdone.acks.trans hkept.acks, hdone.cur, hdrops, hdone.regs.trans hkept.regs, fun hok hw => ?_, fun hok => ?_⟩
  · have hair := hdone.air
    rw [hok, if_neg Bool.false_ne_true, hjair (.inr hw), hentry (.inr hw)] at hair
    exact hair
  · have hair := hdone.air
    rw [if_pos hok, hjair (.inl hok)] at hair
    exact hair

/-! #### The end of a restart (R404) -/

theorem islandRst_field_result (s : State) (v : Nat) (hv : v < 16) : fget (fsetB (fset s RZ_ISLAND_RST_RESULT v) RZ_ISLAND_RST_BUSY false) RZ_ISLAND_RST_RESULT = v :=
  (fget_fsetB_disj _ _ _ _ (by decide) (by decide)).trans ((fget_fset_same s _ v (by decide) (by decide)).trans (Nat.mod_eq_of_lt hv))

theorem islandRst_field_busy (s : State) (v : Nat) : flag (fsetB (fset s RZ_ISLAND_RST_RESULT v) RZ_ISLAND_RST_BUSY false) RZ_ISLAND_RST_BUSY = false := flag_fsetB_bit _ false (by decide) (by decide)

/-- Without a committed value nothing is written again (R404 step 4). -/
theorem rewrite_nil {s : State} (h : s.bus.commits = []) (i : Nat) : rewrite s i = (s, false) := by
  have hnone : committedOf s i = [] := by unfold committedOf; rw [h]; rfl
  unfold rewrite
  rw [hnone]
  rfl

/-- The converter cluster, the thermal unit and the Mat engine have no loaded values to restore: without a committed one only TH_STAT may move (Table 19-4). -/
theorem restore_nil {s : State} (h : s.bus.commits = []) {i : Nat} (hlo : 0x44 ≤ i) (hhi : i ≤ 0x46) : ∃ v, restore s i = (v, false) ∧ (v = s ∨ ∃ b, v = fsetB s TH_STAT_TRIPPED b) := by
  obtain rfl | rfl | rfl : i = 0x44 ∨ i = 0x45 ∨ i = 0x46 := by omega
  · exact ⟨s, rewrite_nil h 0x44, .inl rfl⟩
  · refine ⟨fsetB s TH_STAT_TRIPPED (!(s.th.trips.isEmpty && s.th.remTrips.isEmpty)), ?_, .inr ⟨_, rfl⟩⟩
    show (fsetB (rewrite s 0x45).1 TH_STAT_TRIPPED (!((rewrite s 0x45).1.th.trips.isEmpty && (rewrite s 0x45).1.th.remTrips.isEmpty)), (rewrite s 0x45).2) = _
    rw [rewrite_nil h]
  · exact ⟨s, rewrite_nil h 0x46, .inl rfl⟩

theorem gives_restartHeartbeat {s : State} {r : Restart} (hr : s.chip.restart = some r) (hlo : 0x44 ≤ r.isl) (hhi : r.isl ≤ 0x46) (hready : s.bus.ready = []) (hqueue : s.bus.queue = [])
    (hcommits : s.bus.commits = []) : Gives .restartHeartbeat s fun t =>
      t.chip.restart = none ∧ answers t r.isl = true ∧ fget t RZ_ISLAND_RST_RESULT = 0 ∧ flag t RZ_ISLAND_RST_BUSY = false ∧ t.fronds = s.fronds ∧ t.bus = s.bus := by
  let s1 : State := setIsl { s with chip := { s.chip with restart := none } } r.isl { isl s r.isl with beat := !(isl s r.isl).beat, halted := false, stopped := false, inReset := false }
  obtain ⟨v, hv, hrest⟩ := restore_nil (s := s1) hcommits hlo hhi
  have hv1 : v = { s1 with regs := v.regs } := by
    obtain rfl | ⟨b, rfl⟩ := hrest <;> rfl
  have hx : exec .restartHeartbeat s = nextOf s (pmStep (flush (fsetB (fset v RZ_ISLAND_RST_RESULT 0) RZ_ISLAND_RST_BUSY false))) := by
    show execRestartHeartbeat s = _
    unfold execRestartHeartbeat
    rw [hr]
    dsimp only
    rw [show restore _ r.isl = (v, false) from hv]
    rfl
  have hisl : isl v r.isl = { isl s r.isl with beat := !(isl s r.isl).beat, halted := false, stopped := false, inReset := false } := by rw [hv1]; exact isl_setIsl_same _ _ _
  obtain ⟨hmember, hpending, hbus, hchip, hfronds⟩ : v.member = s.member ∧ v.pending = s.pending ∧ v.bus = s.bus ∧ v.chip.restart = none ∧ v.fronds = s.fronds := by
    rw [hv1]; exact ⟨rfl, rfl, rfl, rfl, rfl⟩
  have hans : answers v r.isl = true := by unfold answers; rw [hisl]; rfl
  clear hv hv1 hrest hisl
  have hresult := islandRst_field_result v 0 (by decide)
  have hbusy := islandRst_field_busy v 0
  have hsame : ∃ regs, fsetB (fset v RZ_ISLAND_RST_RESULT 0) RZ_ISLAND_RST_BUSY false = { v with regs := regs } := ⟨_, rfl⟩
  generalize fsetB (fset v RZ_ISLAND_RST_RESULT 0) RZ_ISLAND_RST_BUSY false = w at hx hresult hbusy hsame
  obtain ⟨regs, rfl⟩ := hsame
  rw [flush_stop (work_empty (by rw [hbus, hready]) (by rw [hbus, hqueue]))] at hx
  exact gives_of_exec hx hmember hpending ⟨hchip, hans, hresult, hbusy, hfronds, hbus⟩

theorem gives_restartTimeout {s : State} {r : Restart} (hr : s.chip.restart = some r) : Gives .restartTimeout s fun t =>
    t.chip.restart = none ∧ answers t r.isl = false ∧ (isl t r.isl).inReset = true ∧ fget t RZ_ISLAND_RST_RESULT = 2 ∧
    flag t RZ_ISLAND_RST_BUSY = false ∧ (∀ j, j ≠ r.isl → isl t j = isl s j) ∧ (∀ a, a ≠ RZ_ISLAND_RST → reg t a = reg s a) ∧ t.fronds = s.fronds := by
  let s1 : State := setIsl { s with chip := { s.chip with restart := none } } r.isl { isl s r.isl with halted := true, inReset := true }
  have hx : exec .restartTimeout s = nextOf s (fsetB (fset s1 RZ_ISLAND_RST_RESULT 2) RZ_ISLAND_RST_BUSY false) := by
    show execRestartTimeout s = _
    unfold execRestartTimeout
    rw [hr]
  have hisl : isl s1 r.isl = { isl s r.isl with halted := true, inReset := true } := isl_setIsl_same _ _ _
  have hreset : (isl s1 r.isl).inReset = true := by rw [hisl]
  have hans : answers s1 r.isl = false := by unfold answers; rw [hisl]; rfl
  have hne : ∀ j, j ≠ r.isl → isl s1 j = isl s j := fun j hj => isl_setIsl_ne _ _ _ _ hj
  have hreg : ∀ a, a ≠ RZ_ISLAND_RST → reg (fsetB (fset s1 RZ_ISLAND_RST_RESULT 2) RZ_ISLAND_RST_BUSY false) a = reg s a := fun a ha =>
    (reg_fsetB_ne _ _ _ a ha).trans ((reg_fset_ne _ _ _ a ha).trans (reg_congr rfl rfl a))
  exact gives_of_exec hx rfl rfl ⟨rfl, hans, hreset, islandRst_field_result s1 2 (by decide), islandRst_field_busy s1 2, hne, hreg, rfl⟩

end Sys2Proof.Machine
end

section
/-! The end of a takeover (R355, R379, R380, R404). -/
namespace Sys2Proof.Machine
open Sys2Proof.Claims

/-- What the last steps of a takeover keep: the pair's state, the banks' owners, the bus, the islands, and every raise that is on its way. -/
structure PairKept (s t : State) : Prop where
  member : t.member = s.member
  pending : t.pending = s.pending
  bus : t.bus = s.bus
  rz : t.rz = s.rz
  isls : t.isls = s.isls
  takeover : fget t RZ_PAIR_STAT_TAKEOVER = fget s RZ_PAIR_STAT_TAKEOVER
  takeovers : fget t RZ_PAIR_STAT_TAKEOVERS = fget s RZ_PAIR_STAT_TAKEOVERS
  owner : ∀ b, b < 32 → ownerOf t b = ownerOf s b
  raises : ∀ r, r ∈ s.flt.raises → r ∈ t.flt.raises

namespace PairKept
variable {s t u : State}

theorem refl (s : State) : PairKept s s := ⟨rfl, rfl, rfl, rfl, rfl, rfl, rfl, fun _ _ => rfl, fun _ h => h⟩

theorem trans (h : PairKept s t) (k : PairKept t u) : PairKept s u :=
  ⟨k.member.trans h.member, k.pending.trans h.pending, k.bus.trans h.bus, k.rz.trans h.rz, k.isls.trans h.isls, k.takeover.trans h.takeover, k.takeovers.trans h.takeovers,
    fun b hb => (k.owner b hb).trans (h.owner b hb), fun r hr => k.raises r (h.raises r hr)⟩

/-- A change outside the registers that this view reads. -/
theorem of_regs (hm : t.member = s.member) (hp : t.pending = s.pending) (hr : t.regs = s.regs) (hb : t.bus = s.bus) (hz : t.rz = s.rz) (hi : t.isls = s.isls) (hf : t.flt = s.flt) : PairKept s t :=
  ⟨hm, hp, hb, hz, hi, fget_congr hm hr _, fget_congr hm hr _, fun _ _ => fget_congr hm hr _, fun _ h => by rw [hf]; exact h⟩

theorem setReg (h : PairKept s t) {a : Nat} (w : W64) (hpair : RZ_PAIR_STAT ≠ a) (hbank : ∀ b, b < 32 → MS_BANK b ≠ a) : PairKept s (setReg t a w) :=
  h.trans ⟨rfl, rfl, rfl, rfl, rfl, fget_setReg_addr w hpair, fget_setReg_addr w hpair, fun b hb => fget_setReg_addr w (hbank b hb), fun _ h => h⟩

theorem fsetB (h : PairKept s t) (x : Fld) (v : Bool) (hpair : RZ_PAIR_STAT ≠ x.addr) (hbank : ∀ b, b < 32 → MS_BANK b ≠ x.addr) : PairKept s (fsetB t x v) := h.setReg _ hpair hbank

theorem fset_bank (a hi lo v : Nat) (hpair : RZ_PAIR_STAT ≠ a) (hh : hi < 64) (hlo : 2 < lo) : PairKept s (fset s ⟨a, hi, lo⟩ v) :=
  ⟨rfl, rfl, rfl, rfl, rfl, fget_fset_addr s _ _ v hpair, fget_fset_addr s _ _ v hpair, fun _ _ => fget_fset_disj s _ _ v hh (.inl hlo), fun _ h => h⟩

theorem raiseD (c : Nat) (w : Option Nat) (d i : Nat) : PairKept s (raiseD s c w d i) := by
  refine ⟨by simp, by simp, by simp, by simp, by simp, fget_raiseD .., fget_raiseD .., fun _ _ => fget_raiseD .., fun r hr => ?_⟩
  unfold Machine.raiseD
  split
  · exact hr
  · exact List.mem_append_left _ hr

theorem probeStale (s : State) : PairKept s (probeStale s) := by
  unfold Machine.probeStale
  split
  · exact refl s
  · have hnone : PairKept s { s with probe := none } := of_regs rfl rfl rfl rfl rfl rfl rfl
    exact (((hnone.fsetB RZ_ISLAND_PROBE_STALE true (by decide) (by decide)).fsetB RZ_ISLAND_PROBE_BUSY false (by decide) (by decide)).setReg 0 (by decide) (by decide)).setReg 0 (by decide) (by decide)

theorem qProbeStale (s : State) : PairKept s (qProbeStale s) := by
  unfold Machine.qProbeStale
  split
  · exact refl s
  · have hnone : PairKept s { s with qProbe := none } := of_regs rfl rfl rfl rfl rfl rfl rfl
    exact ((hnone.fsetB MS_Q_SEL_STALE true (by decide) (by decide)).fsetB MS_Q_SEL_BUSY false (by decide) (by decide)).setReg 0 (by decide) (by decide)

theorem startResync (s : State) : PairKept s (startResync s) :=
  ⟨rfl, rfl, rfl, rfl, rfl, fget_fsetB_disj s _ _ _ (by decide) (by decide), fget_fsetB_disj s _ _ _ (by decide) (by decide),
    fun b _ => fget_fsetB_addr s _ _ _ (by show MS_BANK b ≠ RZ_PAIR_STAT; unfold MS_BANK RZ_PAIR_STAT; omega), fun _ h => h⟩

theorem resend_all (l : List Nat) (s : State) : PairKept s (l.foldl resend s) := by
  rw [foldl_frondsOnly (g := resend) (fun _ _ => rfl)]
  exact of_regs rfl rfl rfl rfl rfl rfl rfl

theorem wakeBank (s : State) (b : Nat) : PairKept s (wakeBank s b) := by
  have hne : RZ_PAIR_STAT ≠ MS_BANK b := by unfold RZ_PAIR_STAT MS_BANK; omega
  unfold Machine.wakeBank
  dsimp only
  split
  · refine ((fset_bank (MS_BANK b) 6 5 3 hne ?_ ?_).trans (fset_bank (MS_BANK b) 4 4 _ hne ?_ ?_)).trans (fset_bank (MS_BANK b) 31 16 _ hne ?_ ?_) <;> decide
  · exact refl s

theorem mossServe (s : State) (m kind off v : Nat) : PairKept s (mossServe s m kind off v) := by
  unfold Machine.mossServe
  split
  · exact of_regs rfl rfl rfl rfl rfl rfl rfl
  · exact raiseD _ _ _ _

theorem mossAccess (s : State) (m kind off v : Nat) : PairKept s (mossAccess s m kind off v) := by
  unfold Machine.mossAccess
  split
  · exact mossServe s m kind off v
  · exact (wakeBank s _).trans (of_regs rfl rfl rfl rfl rfl rfl rfl)

theorem lifeSat (s : State) (j : Nat) : PairKept s (lifeSat s j) :=
  (mossAccess s _ _ _ _).trans (fset_bank NV_LIFE_STAT 33 33 _ (by decide) (by decide) (by decide))

theorem lifeBump (s : State) (b : Nat) : PairKept s (lifeBump s b) := by
  have hput : PairKept s (if lifeU32 s b < 0xFFFFFFFF then lifePut32 s b (lifeU32 s b + 1) else s) := by
    split
    · exact mossAccess s _ _ _ _
    · exact refl s
  unfold Machine.lifeBump
  dsimp only
  split
  · exact hput.trans (lifeSat _ _)
  · exact hput

end PairKept

/-- Without a kept set-point command no frond's command is issued again (R155). -/
theorem reissueIfMoved_none {s : State} (h : s.rz.cmd = []) (l : List Nat) : l.foldl reissueIfMoved s = s := by
  have hone : ∀ f, reissueIfMoved s f = s := fun f => by unfold reissueIfMoved; rw [h]; rfl
  induction l with
  | nil => rfl
  | cons f l ih => rw [List.foldl_cons, hone f, ih]

/-! #### The banks of the failed Rhizome (R355) -/

/-- A bank of the failed Rhizome passes to the new active one. -/
def passBank (new : Nat) (s : State) (b : Nat) : State := if ownerOf s b = 3 - new then setOwner s b new else s

theorem passBanks_eq (s : State) : passBanks s = (List.range 32).foldl (passBank (rzMaster s)) s := rfl

theorem passBank_rest (new : Nat) (s : State) (b : Nat) : passBank new s b = { s with regs := (passBank new s b).regs } := by
  unfold passBank
  split <;> rfl

theorem fget_passBank (new : Nat) (s : State) (b : Nat) {x : Fld} (h : x.addr = RZ_PAIR_STAT) : fget (passBank new s b) x = fget s x := by
  unfold passBank
  split
  · exact fget_fset_addr s _ x new (by rw [h]; show RZ_PAIR_STAT ≠ MS_BANK b; unfold RZ_PAIR_STAT MS_BANK; omega)
  · rfl

theorem ownerOf_passBank_ne (new : Nat) (s : State) {b c : Nat} (h : c ≠ b) : ownerOf (passBank new s b) c = ownerOf s c := by
  unfold passBank
  split
  · exact fget_fset_addr s _ _ new (by show MS_BANK c ≠ MS_BANK b; unfold MS_BANK; omega)
  · rfl

theorem ownerOf_passBank_same {new : Nat} (hnew : new < 8) (s : State) (b : Nat) : ownerOf (passBank new s b) b = if ownerOf s b = 3 - new then new else ownerOf s b := by
  unfold passBank
  split
  next h =>
    have hid : MS_BANK b ≠ RZ_ID := by unfold MS_BANK RZ_ID; omega
    exact (fget_fset_same s (MS_BANK_OWNER b) new hid (show 2 < 64 by decide)).trans (Nat.mod_eq_of_lt hnew)
  next h => rfl

theorem passBank_foldl_rest (new : Nat) (l : List Nat) (s : State) : ∃ regs, l.foldl (passBank new) s = { s with regs := regs } := by
  induction l generalizing s with
  | nil => exact ⟨_, rfl⟩
  | cons b l ih =>
    obtain ⟨regs, h⟩ := ih (passBank new s b)
    rw [List.foldl_cons, h, passBank_rest]
    exact ⟨regs, rfl⟩

theorem ownerOf_passBank_foldl_of_notMem (new : Nat) (l : List Nat) (s : State) {c : Nat} (h : c ∉ l) : ownerOf (l.foldl (passBank new) s) c = ownerOf s c := by
  induction l generalizing s with
  | nil => rfl
  | cons b l ih =>
    obtain ⟨hne, hl⟩ := not_or.mp (mt List.mem_cons.mpr h)
    exact (ih _ hl).trans (ownerOf_passBank_ne new s hne)

theorem ownerOf_passBank_foldl {new : Nat} (hnew : new < 8) (l : List Nat) (s : State) (hnodup : l.Nodup) {c : Nat} (h : c ∈ l) :
    ownerOf (l.foldl (passBank new) s) c = if ownerOf s c = 3 - new then new else ownerOf s c := by
  induction l generalizing s with
  | nil => cases h
  | cons b l ih =>
    obtain ⟨hb, hl⟩ := List.nodup_cons.mp hnodup
    rw [List.foldl_cons]
    by_cases hc : c = b
    · subst hc
      exact (ownerOf_passBank_foldl_of_notMem new l _ hb).trans (ownerOf_passBank_same hnew s c)
    · rw [ih _ hl ((List.mem_cons.mp h).resolve_left hc), ownerOf_passBank_ne new s hc]

theorem rzMaster_lt (s : State) : rzMaster s < 8 := by
  have h : fget s RZ_PAIR_STAT_ACTIVE < 2 := fget_lt s RZ_PAIR_STAT_ACTIVE
  unfold rzMaster
  omega

/-- The banks of the failed Rhizome pass, and no field of the pair's state moves (R355). -/
theorem passBanks_spec (s : State) : (∃ regs, passBanks s = { s with regs := regs }) ∧ (∀ x : Fld, x.addr = RZ_PAIR_STAT → fget (passBanks s) x = fget s x) ∧
    ∀ b, b < 32 → ownerOf (passBanks s) b = if ownerOf s b = 3 - rzMaster s then rzMaster s else ownerOf s b := by
  rw [passBanks_eq]
  exact ⟨passBank_foldl_rest _ _ s, fun x hx => foldl_proj_eq (fun t => fget t x) _ (fun t b => fget_passBank _ t b hx) _ s,
    fun b hb => ownerOf_passBank_foldl (rzMaster_lt s) _ s List.nodup_range (List.mem_range.mpr hb)⟩

/-! #### The takeover's end -/

/-- The state in which the takeover is over, the banks have passed and the copied budget holds (R283, R355, R379). -/
def passedOver (s : State) : State :=
  let s1 := passBanks (bump (fsetB s RZ_PAIR_STAT_TAKEOVER false) RZ_PAIR_STAT_TAKEOVERS)
  let c := s1.bud.copy
  { s1 with flt := { s1.flt with takeTrig := false }, bus := { s1.bus with lost := [] }, bud := { s1.bud with lateTok := [], w := c.w, b := c.b, d := c.d } }

/-- What has changed of the pair, the bus and the banks when a takeover is over. -/
structure PassedOver (s t : State) : Prop where
  member : t.member = s.member
  pending : t.pending = s.pending
  ready : t.bus.ready = s.bus.ready
  queue : t.bus.queue = s.bus.queue
  resp : t.bus.resp = s.bus.resp
  lost : t.bus.lost = []
  rz : t.rz = s.rz
  ended : inTakeover t = false
  takeovers : fget t RZ_PAIR_STAT_TAKEOVERS = min (fget s RZ_PAIR_STAT_TAKEOVERS + 1) (fmax RZ_PAIR_STAT_TAKEOVERS)
  owner : ∀ b, b < 32 → ownerOf t b = if ownerOf s b = 3 - rzMaster s then rzMaster s else ownerOf s b

theorem passedOver_spec (s : State) : PassedOver s (passedOver s) := by
  let a : State := fsetB s RZ_PAIR_STAT_TAKEOVER false
  let c : State := bump a RZ_PAIR_STAT_TAKEOVERS
  obtain ⟨⟨regs, hrest⟩, hpair, howner⟩ := passBanks_spec c
  have hview : passedOver s = { c with regs := regs, flt := { c.flt with takeTrig := false }, bus := { c.bus with lost := [] }, bud := (passedOver s).bud } := by
    unfold passedOver
    dsimp only
    rw [show passBanks (bump (fsetB s RZ_PAIR_STAT_TAKEOVER false) RZ_PAIR_STAT_TAKEOVERS) = { c with regs := regs } from hrest]
  have hfget : ∀ x, fget (passedOver s) x = fget (passBanks c) x := fun x => (fget_congr (s := { c with regs := regs }) (by rw [hview]) (by rw [hview]) x).trans (by rw [hrest])
  have hbank : ∀ b, ownerOf c b = ownerOf s b := fun b =>
    have hne : MS_BANK b ≠ RZ_PAIR_STAT := by unfold MS_BANK RZ_PAIR_STAT; omega
    (fget_fset_addr a RZ_PAIR_STAT_TAKEOVERS _ _ hne).trans (fget_fsetB_addr s RZ_PAIR_STAT_TAKEOVER _ _ hne)
  have hmaster : rzMaster c = rzMaster s := congrArg (1 + ·) ((fget_fset_disj a RZ_PAIR_STAT_TAKEOVERS _ _ (by decide) (by decide)).trans (fget_fsetB_disj s RZ_PAIR_STAT_TAKEOVER _ _ (by decide) (by decide)))
  have hended : flag c RZ_PAIR_STAT_TAKEOVER = false :=
    (flag_congr_fget (fget_fset_disj a RZ_PAIR_STAT_TAKEOVERS RZ_PAIR_STAT_TAKEOVER _ (by decide) (by decide))).trans (flag_fsetB_bit s false (by decide) (by decide))
  have hcount : fget c RZ_PAIR_STAT_TAKEOVERS = min (fget s RZ_PAIR_STAT_TAKEOVERS + 1) (fmax RZ_PAIR_STAT_TAKEOVERS) := by
    rw [← fget_fsetB_disj s RZ_PAIR_STAT_TAKEOVER RZ_PAIR_STAT_TAKEOVERS false (by decide) (by decide)]
    exact fget_bump_same a _ (by decide) (by decide)
  refine ⟨by rw [hview]; rfl, by rw [hview]; rfl, by rw [hview]; rfl, by rw [hview]; rfl, by rw [hview]; rfl, by rw [hview], by rw [hview]; rfl,
    (flag_congr_fget ((hfget _).trans (hpair _ rfl))).trans hended, ((hfget _).trans (hpair _ rfl)).trans hcount, fun b hb => ?_⟩
  rw [← hbank b, ← hmaster, ← howner b hb]
  exact hfget _

/-- The takeover is over, the access that it cut off is answered with ERR, and its raise is on its way (R379). -/
structure TakeoverDone (s t : State) : Prop where
  member : t.member = s.member
  pending : t.pending = s.pending
  ready : t.bus.ready = s.bus.ready
  queue : t.bus.queue = s.bus.queue
  resp : t.bus.resp = s.bus.resp ++ [⟨.host, .err, 0⟩]
  lost : t.bus.lost = []
  rz : t.rz = s.rz
  ended : inTakeover t = false
  takeovers : fget t RZ_PAIR_STAT_TAKEOVERS = min (fget s RZ_PAIR_STAT_TAKEOVERS + 1) (fmax RZ_PAIR_STAT_TAKEOVERS)
  owner : ∀ b, b < 32 → ownerOf t b = if ownerOf s b = 3 - rzMaster s then rzMaster s else ownerOf s b
  raised : ⟨0x14, some (fget s RZ_PAIR_STAT_ACTIVE), 0, activeIsl s, false⟩ ∈ t.flt.raises

namespace TakeoverDone
variable {s t u : State}

theorem keep (h : TakeoverDone s t) (k : PairKept t u) : TakeoverDone s u := by
  refine ⟨k.member.trans h.member, k.pending.trans h.pending, ?_, ?_, ?_, ?_, k.rz.trans h.rz, (flag_congr_fget k.takeover).trans h.ended, k.takeovers.trans h.takeovers,
    fun b hb => (k.owner b hb).trans (h.owner b hb), k.raises _ h.raised⟩ <;> rw [k.bus]
  exacts [h.ready, h.queue, h.resp, h.lost]

theorem setIsl (h : TakeoverDone s t) (i : Nat) (x : Isl) : TakeoverDone s (setIsl t i x) := ⟨h.member, h.pending, h.ready, h.queue, h.resp, h.lost, h.rz, h.ended, h.takeovers, h.owner, h.raised⟩

end TakeoverDone

theorem PassedOver.respond {s p : State} (h : PassedOver s p) {x : Access} (hsrc : x.src = .host) :
    TakeoverDone s (respond (raiseD p 0x14 (some (fget s RZ_PAIR_STAT_ACTIVE)) 0 (activeIsl s)) x .err 0) := by
  rw [raiseD_eq p 0x14 _ 0 _ (by decide), respond_host hsrc]
  exact ⟨h.member, h.pending, h.ready, h.queue, congrArg (· ++ _) h.resp, h.lost, h.rz, h.ended, h.takeovers, h.owner, List.mem_append_right _ (List.mem_singleton_self _)⟩

theorem gives_takeoverComplete {s : State} {x : Access} (ht : inTakeover s = true) (hact : answers s (activeIsl s) = true) (hready : s.bus.ready = []) (hqueue : s.bus.queue = [])
    (hlost : s.bus.lost = [x]) (hsrc : x.src = .host) (htok : s.bud.lateTok = []) (hcmd : s.rz.cmd = []) : Gives .takeoverComplete s fun t =>
      inTakeover t = false ∧ t.bus.resp = s.bus.resp ++ [⟨.host, .err, 0⟩] ∧ t.bus.lost = [] ∧ ⟨0x14, some (fget s RZ_PAIR_STAT_ACTIVE), 0, activeIsl s, false⟩ ∈ t.flt.raises ∧
      (∀ b, b < 32 → ownerOf t b = if ownerOf s b = 3 - rzMaster s then rzMaster s else ownerOf s b) ∧
      fget t RZ_PAIR_STAT_TAKEOVERS = min (fget s RZ_PAIR_STAT_TAKEOVERS + 1) (fmax RZ_PAIR_STAT_TAKEOVERS) ∧ answers t (standbyIsl s) = false := by
  have hpass := passedOver_spec s
  have hx : exec .takeoverComplete s = nextOf s (pmStep (flush (lifeBump ((List.range (nF s)).foldl reissueIfMoved ((List.range (nF s)).foldl resend (startResync
      (setIsl (qProbeStale (probeStale (respond (raiseD (passedOver s) 0x14 (some (fget s RZ_PAIR_STAT_ACTIVE)) 0 (activeIsl s)) x .err 0))) (standbyIsl s)
        { isl (qProbeStale (probeStale (respond (raiseD (passedOver s) 0x14 (some (fget s RZ_PAIR_STAT_ACTIVE)) 0 (activeIsl s)) x .err 0))) (standbyIsl s) with inReset := false, halted := true })))) 44))) := by
    show execTakeoverComplete s = _
    unfold execTakeoverComplete
    rw [if_pos (by rw [ht, hact]; rfl), hlost, htok]
    rfl
  have hdone := (hpass.respond hsrc).keep ((PairKept.probeStale _).trans (PairKept.qProbeStale _))
  generalize qProbeStale (probeStale (respond (raiseD (passedOver s) 0x14 (some (fget s RZ_PAIR_STAT_ACTIVE)) 0 (activeIsl s)) x .err 0)) = q at hx hdone
  have hhalt := (hdone.setIsl (standbyIsl s) { isl q (standbyIsl s) with inReset := false, halted := true }).keep ((PairKept.startResync _).trans (PairKept.resend_all (List.range (nF s)) _))
  have hisls : ((List.range (nF s)).foldl resend (startResync (setIsl q (standbyIsl s) { isl q (standbyIsl s) with inReset := false, halted := true }))).isls =
      (setIsl q (standbyIsl s) { isl q (standbyIsl s) with inReset := false, halted := true }).isls := ((PairKept.startResync _).trans (PairKept.resend_all _ _)).isls
  generalize (List.range (nF s)).foldl resend (startResync (setIsl q (standbyIsl s) { isl q (standbyIsl s) with inReset := false, halted := true })) = u at hx hhalt hisls
  rw [reissueIfMoved_none (by rw [hhalt.rz]; exact hcmd)] at hx
  have hisl : (isl u (standbyIsl s)).halted = true := by
    have h : isl u (standbyIsl s) = isl (setIsl q (standbyIsl s) { isl q (standbyIsl s) with inReset := false, halted := true }) (standbyIsl s) := congrArg (fun m : List (Nat × Isl) => tget ({} : Isl) m (standbyIsl s)) hisls
    rw [h, isl_setIsl_same]
  have hlife := PairKept.lifeBump u 44
  have hend := hhalt.keep hlife
  generalize lifeBump u 44 = v at hx hlife hend
  rw [flush_stop (work_empty (hend.ready.trans hready) (hend.queue.trans hqueue))] at hx
  have hans : answers v (standbyIsl s) = false := by
    have h : isl v (standbyIsl s) = isl u (standbyIsl s) := congrArg (fun m : List (Nat × Isl) => tget ({} : Isl) m (standbyIsl s)) hlife.isls
    unfold answers
    rw [h, hisl]
    rfl
  exact gives_of_exec hx hend.member hend.pending ⟨hend.ended, hend.resp, hend.lost, hend.raised, hend.owner, hend.takeovers, hans⟩

/-! ### O42 -/

/-- Settles O42: the acknowledgement is answered through ackAnswer and cmdAcked, the takeover's later steps keep what PairKept names, and the two ends of a restart have no committed value to write. -/
theorem takeoverAndRestart : Obligations.TakeoverAndRestart := by
  unfold Obligations.TakeoverAndRestart
  intro s
  refine ⟨?_, ?_, ?_, ?_⟩
  · intro f ok old x c rest _ hack hact ht hready hqueue hcur hsrc hwe hspore hscalar hsync
    exact gives_commandAck hack hact ht hready hqueue hcur hsrc hwe hspore hscalar hsync
  · intro x ht hact hready hqueue _ hlost hsrc htok hcmd
    exact gives_takeoverComplete ht hact hready hqueue hlost hsrc htok hcmd
  · intro r hr hlo hhi hready hqueue hcommits
    exact gives_restartHeartbeat hr hlo hhi hready hqueue hcommits
  · intro r hr
    exact gives_restartTimeout hr

end Sys2Proof.Machine
end

section
/-! Instruction words: what a load and a scan write (R83, R129). -/
namespace Sys2Proof.Machine
open Sys2Proof.Claims

/-! #### Bytes of a memory -/

theorem length_mreads (d : Byte) (m : List Host.Cell) (n a : Nat) : (mreads d m a n).length = n := by
  induction n generalizing a with
  | zero => rfl
  | succ n ih => exact congrArg (· + 1) (ih (a + 1))

theorem lt_of_mem_mreads {d : Byte} {m : List Host.Cell} {n a x : Nat} (h : x ∈ mreads d m a n) : x < 256 := by
  induction n generalizing a with
  | zero => cases h
  | succ n ih =>
    obtain rfl | h := List.mem_cons.mp h
    · exact (mread d m a).isLt
    · exact ih h

/-- Bytes of a memory written elsewhere read back as they are. -/
theorem mreads_mwrites_mreads (d e : Byte) (m k : List Host.Cell) (a b n : Nat) : mreads d (mwrites d m a (mreads e k b n)) a n = mreads e k b n := by
  have h := mreads_mwrites d (mreads e k b n) m a
  rw [length_mreads] at h
  exact h.trans ((List.map_congr_left fun x hx => Nat.mod_eq_of_lt (lt_of_mem_mreads hx)).trans (List.map_id _))

theorem mread_mclear_out (d : Byte) (m : List Host.Cell) {lo hi a : Nat} (h : a < lo ∨ hi ≤ a) : mread d (mclear m lo hi) a = mread d m a := by
  induction m with
  | nil => rfl
  | cons c m ih =>
    obtain ⟨k, v⟩ := c
    unfold mclear
    split
    next hk =>
      have hne : a ≠ k := by omega
      exact ih.trans (if_neg hne).symm
    next =>
      unfold mread
      rw [ih]

theorem leValue_lt (l : List Nat) : leValue l < 256 ^ l.length := by
  induction l with
  | nil => decide
  | cons b l ih =>
    have hb : b % 256 < 256 := Nat.mod_lt _ (by decide)
    rw [List.length_cons, Nat.pow_succ]
    unfold leValue
    omega

theorem mossHalf_lt (s : State) (off : Nat) : mossHalf s off < 2 ^ 32 := by
  have h := leValue_lt (mreads 0 s.moss.mem off 4)
  rw [length_mreads] at h
  exact h

/-! #### Instruction words (R83) -/

/-- The field that holds an instruction word: two to a register. -/
def imemFld (f w : Nat) : Fld := if w % 2 = 0 then FR_IMEM_WORD_LO f (w / 2) else FR_IMEM_WORD_HI f (w / 2)

theorem imem_eq (s : State) (f w : Nat) : imem s f w = fget s (imemFld f w) := by
  unfold imem imemFld
  dsimp only
  split <;> rfl

theorem setImem_eq (s : State) (f w v : Nat) : setImem s f w v = fset s (imemFld f w) v := by
  unfold setImem imemFld
  dsimp only
  split <;> rfl

theorem imemFld_addr (f w : Nat) : (imemFld f w).addr = FR_IMEM f (w / 2) := by
  unfold imemFld
  split <;> rfl

theorem imem_setImem_same (s : State) (f w v : Nat) : imem (setImem s f w v) f w = v % 2 ^ 32 := by
  have hid : (imemFld f w).addr ≠ RZ_ID := by rw [imemFld_addr]; unfold FR_IMEM RZ_ID; omega
  have hwidth : (imemFld f w).hi < 64 ∧ (imemFld f w).hi + 1 - (imemFld f w).lo = 32 := by
    unfold imemFld
    split
    · exact ⟨show 31 < 64 by decide, rfl⟩
    · exact ⟨show 63 < 64 by decide, rfl⟩
  rw [imem_eq, setImem_eq, fget_fset_same _ _ _ hid hwidth.1, hwidth.2]

/-- Another word of the same frond, or a word of another frond, keeps its value. -/
theorem imem_setImem_ne (s : State) {f g w u : Nat} (v : Nat) (hw : w < 4096) (hu : u < 4096) (h : g ≠ f ∨ u ≠ w) : imem (setImem s f w v) g u = imem s g u := by
  rw [imem_eq, imem_eq, setImem_eq]
  by_cases ha : FR_IMEM g (u / 2) = FR_IMEM f (w / 2)
  · obtain ⟨hgf, huw⟩ : g = f ∧ u / 2 = w / 2 := by unfold FR_IMEM at ha; omega
    have hpar : u % 2 ≠ w % 2 := by omega
    unfold imemFld
    by_cases hu2 : u % 2 = 0
    · rw [if_pos hu2, if_neg (by omega)]
      exact fget_fset_disj s _ _ v (show 63 < 64 by decide) (.inl (show 31 < 32 by decide))
    · rw [if_neg hu2, if_pos (by omega)]
      exact fget_fset_disj s _ _ v (show 31 < 64 by decide) (.inr (show 31 < 32 by decide))
  · exact fget_fset_addr s _ _ v (by rw [imemFld_addr, imemFld_addr]; exact ha)

theorem setImem_rest (s : State) (f w v : Nat) : setImem s f w v = { s with regs := (setImem s f w v).regs } := by
  rw [setImem_eq]
  rfl

/-! #### Programs (R83) -/

theorem putProgram_cons (s : State) (f dst w : Nat) (ws : List Nat) : putProgram s f dst (w :: ws) = putProgram (setImem s f dst w) f (dst + 1) ws := rfl

theorem putProgram_rest (s : State) (f dst : Nat) (ws : List Nat) : ∃ regs, putProgram s f dst ws = { s with regs := regs } := by
  induction ws generalizing s dst with
  | nil => exact ⟨_, rfl⟩
  | cons w ws ih =>
    obtain ⟨regs, h⟩ := ih (setImem s f dst w) (dst + 1)
    rw [putProgram_cons, h, setImem_rest]
    exact ⟨regs, rfl⟩

theorem imem_putProgram_out (s : State) {f dst g u : Nat} {ws : List Nat} (hfit : dst + ws.length ≤ 4096) (hu : u < 4096) (h : g ≠ f ∨ u < dst ∨ dst + ws.length ≤ u) :
    imem (putProgram s f dst ws) g u = imem s g u := by
  induction ws generalizing s dst with
  | nil => rfl
  | cons w ws ih =>
    rw [List.length_cons] at hfit h
    rw [putProgram_cons, ih _ (by omega) (by omega), imem_setImem_ne s w (by omega) hu (by omega)]

theorem imem_putProgram_in (s : State) {f dst : Nat} {ws : List Nat} (hfit : dst + ws.length ≤ 4096) {k : Nat} (hk : k < ws.length) :
    imem (putProgram s f dst ws) f (dst + k) = ws[k] % 2 ^ 32 := by
  induction ws generalizing s dst k with
  | nil => cases hk
  | cons w ws ih =>
    rw [List.length_cons] at hfit hk
    rw [putProgram_cons]
    cases k with
    | zero => rw [imem_putProgram_out _ (by omega) (by omega) (.inr (.inl (by omega)))]; exact imem_setImem_same s f dst w
    | succ k =>
      have h := ih (setImem s f dst w) (dst := dst + 1) (by omega) (k := k) (by omega)
      rw [show dst + (k + 1) = dst + 1 + k by omega]
      exact h

/-- A program is written into each frond of a list. -/
def putAll (dst : Nat) (ws : List Nat) (s : State) (l : List Nat) : State := l.foldl (fun t f => putProgram t f dst ws) s

theorem putAll_rest (dst : Nat) (ws : List Nat) (s : State) (l : List Nat) : ∃ regs, putAll dst ws s l = { s with regs := regs } := by
  induction l generalizing s with
  | nil => exact ⟨_, rfl⟩
  | cons f l ih =>
    obtain ⟨regs, h⟩ := putProgram_rest s f dst ws
    obtain ⟨regs', h'⟩ := ih (putProgram s f dst ws)
    refine ⟨regs', ?_⟩
    show putAll dst ws (putProgram s f dst ws) l = _
    rw [h', h]

theorem imem_putAll_out {dst : Nat} {ws : List Nat} (s : State) {l : List Nat} {g u : Nat} (hfit : dst + ws.length ≤ 4096) (hu : u < 4096) (h : g ∉ l ∨ u < dst ∨ dst + ws.length ≤ u) :
    imem (putAll dst ws s l) g u = imem s g u := by
  induction l generalizing s with
  | nil => rfl
  | cons f l ih =>
    have hhead : g ≠ f ∨ u < dst ∨ dst + ws.length ≤ u := h.imp_left fun hg hgf => hg (hgf ▸ List.mem_cons_self)
    have htail : g ∉ l ∨ u < dst ∨ dst + ws.length ≤ u := h.imp_left fun hg hgl => hg (List.mem_cons_of_mem f hgl)
    exact (ih _ htail).trans (imem_putProgram_out s hfit hu hhead)

theorem imem_putAll_in {dst : Nat} {ws : List Nat} (s : State) {l : List Nat} {g k : Nat} (hfit : dst + ws.length ≤ 4096) (hg : g ∈ l) (hk : k < ws.length) :
    imem (putAll dst ws s l) g (dst + k) = ws[k] % 2 ^ 32 := by
  induction l generalizing s with
  | nil => cases hg
  | cons f l ih =>
    by_cases htail : g ∈ l
    · exact ih _ htail
    · have hgf : g = f := (List.mem_cons.mp hg).resolve_right htail
      subst hgf
      exact (imem_putAll_out _ hfit (by omega) (.inl htail)).trans (imem_putProgram_in s hfit hk)

/-! #### The end of a load (R83) -/

/-- A read of Moss leaves the registers of the fronds. -/
theorem reg_countUe (s : State) (off : Nat) {a : Nat} (h : 0x100000 ≤ a) : reg (countUe s off) a = reg s a := by
  have hbank : bankOf off < 32 := Nat.mod_lt _ (by decide)
  have hlast : a ≠ MS_STAT_LAST_UE.addr := by show a ≠ 0x80108; omega
  have hue : a ≠ (MS_BANK_UE (bankOf off)).addr := by show a ≠ 0x80000 + 8 * bankOf off; omega
  unfold countUe
  rw [reg_congr (raiseD_member _ _ _ _ _) (raiseD_regs _ _ _ _ _), reg_fset_ne _ _ _ _ hlast]
  exact reg_fset_ne _ _ _ _ hue

theorem countUe_member (s : State) (off : Nat) : (countUe s off).member = s.member := by
  unfold countUe
  rw [raiseD_member]
  rfl

theorem countUe_pending (s : State) (off : Nat) : (countUe s off).pending = s.pending := by
  unfold countUe
  rw [raiseD_pending]
  rfl

theorem imem_countUe (s : State) (off f w : Nat) : imem (countUe s off) f w = imem s f w := by
  unfold imem
  rw [reg_countUe s off (by unfold FR_IMEM; omega)]

/-- A load ends with a result code (Table 3-8). -/
def loadEnded (s : State) (c : Nat) : State := fsetB (fset { s with load := none } FC_LOAD_CMD_RESULT c) FC_LOAD_CMD_BUSY false

theorem loadEnded_result (s : State) {c : Nat} (hc : c < 16) : fget (loadEnded s c) FC_LOAD_CMD_RESULT = c :=
  (fget_fsetB_disj _ _ _ _ (by decide) (by decide)).trans ((fget_fset_same _ _ _ (by decide) (by decide)).trans (Nat.mod_eq_of_lt hc))

theorem loadEnded_busy (s : State) (c : Nat) : flag (loadEnded s c) FC_LOAD_CMD_BUSY = false := flag_fsetB_bit _ false (by decide) (by decide)

@[simp] theorem loadEnded_member (s : State) (c : Nat) : (loadEnded s c).member = s.member := rfl
@[simp] theorem loadEnded_pending (s : State) (c : Nat) : (loadEnded s c).pending = s.pending := rfl
@[simp] theorem loadEnded_fronds (s : State) (c : Nat) : (loadEnded s c).fronds = s.fronds := rfl

theorem imem_loadEnded (s : State) (c f w : Nat) : imem (loadEnded s c) f w = imem s f w := by
  have hne : FR_IMEM f (w / 2) ≠ FC_LOAD_CMD := by unfold FR_IMEM FC_LOAD_CMD; omega
  have hreg : reg (loadEnded s c) (FR_IMEM f (w / 2)) = reg s (FR_IMEM f (w / 2)) := (reg_fsetB_ne _ _ _ _ hne).trans ((reg_fset_ne _ _ _ _ hne).trans (reg_congr rfl rfl _))
  unfold imem
  rw [hreg]

/-- The words that a load takes from Moss. -/
def loadWords (s : State) (src n : Nat) : List Nat := (List.range n).map fun k => mossHalf s (src + 4 * k)

theorem length_loadWords (s : State) (src n : Nat) : (loadWords s src n).length = n := by unfold loadWords; rw [List.length_map, List.length_range]

theorem loadWords_get (s : State) (src n : Nat) {k : Nat} (h : k < (loadWords s src n).length) : (loadWords s src n)[k] % 2 ^ 32 = mossHalf s (src + 4 * k) := by
  have hget : (loadWords s src n)[k] = mossHalf s (src + 4 * k) := by simp [loadWords]
  rw [hget, Nat.mod_eq_of_lt (mossHalf_lt s _)]

section
variable {s : State} {l : Load}

theorem filter_answers (h : ∀ f ∈ targets s l.targets, answers s f = true) : (targets s l.targets).filter (answers s) = targets s l.targets := List.filter_eq_self.mpr h

theorem loadDone_none (hl : s.load = some l) (h : ∀ f ∈ targets s l.targets, answers s f = true) :
    loadDone s none = loadEnded (putAll l.dst (loadWords s l.src l.len) s (targets s l.targets)) 0 := by
  have hall : (targets s l.targets).all (answers s) = true := List.all_eq_true.mpr h
  unfold loadDone
  rw [hl]
  simp only [Option.any_none, filter_answers h, hall]
  rfl

theorem loadDone_some (hl : s.load = some l) (h : ∀ f ∈ targets s l.targets, answers s f = true) {k : Nat} (hk : k < l.len) :
    loadDone s (some k) = loadEnded (countUe (putAll l.dst (loadWords s l.src k) s (targets s l.targets)) (l.src + 4 * k)) 5 := by
  have hmin : min k l.len = k := Nat.min_eq_left (Nat.le_of_lt hk)
  unfold loadDone
  rw [hl]
  simp only [Option.any_some, filter_answers h, hmin, hk]
  rfl

theorem gives_programLoadDone_none (hl : s.load = some l) (hfit : l.dst + l.len ≤ 4096) (h : ∀ f ∈ targets s l.targets, answers s f = true) : Gives (.programLoadDone none) s fun t => t.load = none ∧
    fget t FC_LOAD_CMD_RESULT = 0 ∧ flag t FC_LOAD_CMD_BUSY = false ∧ t.fronds = s.fronds ∧ (∀ f ∈ targets s l.targets, ∀ k, k < l.len → imem t f (l.dst + k) = mossHalf s (l.src + 4 * k)) ∧
    (∀ f, f < nF s → ∀ w, w < 4096 → (f ∉ targets s l.targets ∨ w < l.dst ∨ l.dst + l.len ≤ w) → imem t f w = imem s f w) := by
  have hx : exec (.programLoadDone none) s = nextOf s (loadEnded (putAll l.dst (loadWords s l.src l.len) s (targets s l.targets)) 0) := congrArg (nextOf s) (loadDone_none hl h)
  have hlen := length_loadWords s l.src l.len
  obtain ⟨regs, hrest⟩ := putAll_rest l.dst (loadWords s l.src l.len) s (targets s l.targets)
  have hin : ∀ f ∈ targets s l.targets, ∀ k, k < l.len → imem (putAll l.dst (loadWords s l.src l.len) s (targets s l.targets)) f (l.dst + k) = mossHalf s (l.src + 4 * k) := fun f hf k hk =>
    (imem_putAll_in s (by omega) hf (by omega)).trans (loadWords_get s l.src l.len (by omega))
  have hout : ∀ f w, w < 4096 → (f ∉ targets s l.targets ∨ w < l.dst ∨ l.dst + l.len ≤ w) → imem (putAll l.dst (loadWords s l.src l.len) s (targets s l.targets)) f w = imem s f w := fun f w hw ho =>
    imem_putAll_out s (by omega) hw (by rw [hlen]; exact ho)
  obtain ⟨hmember, hpending, hfronds⟩ : (putAll l.dst (loadWords s l.src l.len) s (targets s l.targets)).member = s.member ∧
      (putAll l.dst (loadWords s l.src l.len) s (targets s l.targets)).pending = s.pending ∧ (putAll l.dst (loadWords s l.src l.len) s (targets s l.targets)).fronds = s.fronds := by
    rw [hrest]; exact ⟨rfl, rfl, rfl⟩
  clear hrest
  generalize putAll l.dst (loadWords s l.src l.len) s (targets s l.targets) = p at hx hin hout hmember hpending hfronds
  exact gives_of_exec hx ((loadEnded_member _ _).trans hmember) ((loadEnded_pending _ _).trans hpending)
    ⟨rfl, loadEnded_result p (by decide), loadEnded_busy p 0, (loadEnded_fronds p 0).trans hfronds, fun f hf k hk => (imem_loadEnded p 0 f _).trans (hin f hf k hk), fun f _ w hw ho => (imem_loadEnded p 0 f w).trans (hout f w hw ho)⟩

theorem gives_programLoadDone_some (hl : s.load = some l) (hfit : l.dst + l.len ≤ 4096) (h : ∀ f ∈ targets s l.targets, answers s f = true) {k : BitVec 13} (hk : k.toNat < l.len) :
    Gives (.programLoadDone (some k)) s fun t => t.load = none ∧ fget t FC_LOAD_CMD_RESULT = 5 ∧ flag t FC_LOAD_CMD_BUSY = false ∧
      (∀ f ∈ targets s l.targets, ∀ j, j < k.toNat → imem t f (l.dst + j) = mossHalf s (l.src + 4 * j)) ∧ ∀ f ∈ targets s l.targets, imem t f (l.dst + k.toNat) = imem s f (l.dst + k.toNat) := by
  have hx : exec (.programLoadDone (some k)) s = nextOf s (loadEnded (countUe (putAll l.dst (loadWords s l.src k.toNat) s (targets s l.targets)) (l.src + 4 * k.toNat)) 5) :=
    congrArg (nextOf s) (loadDone_some hl h hk)
  have hlen := length_loadWords s l.src k.toNat
  obtain ⟨regs, hrest⟩ := putAll_rest l.dst (loadWords s l.src k.toNat) s (targets s l.targets)
  have hin : ∀ f ∈ targets s l.targets, ∀ j, j < k.toNat → imem (putAll l.dst (loadWords s l.src k.toNat) s (targets s l.targets)) f (l.dst + j) = mossHalf s (l.src + 4 * j) := fun f hf j hj =>
    (imem_putAll_in s (by omega) hf (by omega)).trans (loadWords_get s l.src k.toNat (by omega))
  have hout : ∀ f, imem (putAll l.dst (loadWords s l.src k.toNat) s (targets s l.targets)) f (l.dst + k.toNat) = imem s f (l.dst + k.toNat) := fun f =>
    imem_putAll_out s (by omega) (by omega) (.inr (.inr (by omega)))
  generalize putAll l.dst (loadWords s l.src k.toNat) s (targets s l.targets) = p at hx hin hout hrest
  have himem : ∀ f w, imem (loadEnded (countUe p (l.src + 4 * k.toNat)) 5) f w = imem p f w := fun f w => (imem_loadEnded _ 5 f w).trans (imem_countUe p _ f w)
  have hmember : (countUe p (l.src + 4 * k.toNat)).member = s.member := (countUe_member p _).trans (by rw [hrest])
  have hpending : (countUe p (l.src + 4 * k.toNat)).pending = s.pending := (countUe_pending p _).trans (by rw [hrest])
  generalize countUe p (l.src + 4 * k.toNat) = q at hx himem hmember hpending
  exact gives_of_exec hx ((loadEnded_member _ _).trans hmember) ((loadEnded_pending _ _).trans hpending)
    ⟨rfl, loadEnded_result q (by decide), loadEnded_busy q 5, fun f hf j hj => (himem f _).trans (hin f hf j hj), fun f _ => (himem f _).trans (hout f)⟩

end

/-! #### The end of a scan (R129) -/

/-- The word of a result register of the top-k unit (Table 5-7). -/
def topkWord (l : List (Nat × Nat)) (n : Nat) : W64 :=
  match l[n]? with
  | some x => BitVec.ofNat 64 (x.2 + x.1 * 2 ^ 32 + 2 ^ 63)
  | none => 0

/-- The results are written in order. -/
def putTopk (l : List (Nat × Nat)) (s : State) (r : List Nat) : State := r.foldl (fun t n => setReg t (RZ_TOPK_RES n) (topkWord l n)) s

theorem putTopk_rest (l : List (Nat × Nat)) (s : State) (r : List Nat) : ∃ regs, putTopk l s r = { s with regs := regs } := by
  induction r generalizing s with
  | nil => exact ⟨_, rfl⟩
  | cons n r ih =>
    obtain ⟨regs, h⟩ := ih (setReg s (RZ_TOPK_RES n) (topkWord l n))
    exact ⟨regs, h⟩

theorem reg_putTopk (l : List (Nat × Nat)) (s : State) (r : List Nat) {n : Nat} (h : n ∈ r) : reg (putTopk l s r) (RZ_TOPK_RES n) = topkWord l n := by
  induction r generalizing s with
  | nil => cases h
  | cons m r ih =>
    by_cases htail : n ∈ r
    · exact ih _ htail
    · have hnm : n = m := (List.mem_cons.mp h).resolve_right htail
      subst hnm
      have hid : RZ_TOPK_RES n ≠ RZ_ID := by unfold RZ_TOPK_RES RZ_ID; omega
      have hkeep : ∀ k, k ∈ r → ∀ t, reg (setReg t (RZ_TOPK_RES k) (topkWord l k)) (RZ_TOPK_RES n) = reg t (RZ_TOPK_RES n) := fun k hk t => by
        have hne : n ≠ k := fun e => htail (e ▸ hk)
        exact reg_setReg_ne _ _ _ _ (by unfold RZ_TOPK_RES; omega)
      have hfold : reg (putTopk l (setReg s (RZ_TOPK_RES n) (topkWord l n)) r) (RZ_TOPK_RES n) = reg (setReg s (RZ_TOPK_RES n) (topkWord l n)) (RZ_TOPK_RES n) := by
        generalize setReg s (RZ_TOPK_RES n) (topkWord l n) = t
        clear ih h htail
        induction r generalizing t with
        | nil => rfl
        | cons k r ih => exact (ih (fun j hj => hkeep j (List.mem_cons_of_mem k hj)) _).trans (hkeep k List.mem_cons_self t)
      exact hfold.trans (reg_setReg_same _ _ _ hid)

/-- The unit is idle again. -/
def scanEnded (s : State) : State := fsetB { s with chip := { s.chip with topk := none } } RZ_TOPK_CTRL_BUSY false

theorem gives_topkScanDone {s : State} {l : List (Nat × Nat)} (hl : s.chip.topk = some l) : Gives .topkScanDone s fun t => t.chip.topk = none ∧ flag t RZ_TOPK_CTRL_BUSY = false ∧ t.fronds = s.fronds ∧
    ∀ n, n < 8 → reg t (RZ_TOPK_RES n) = match l[n]? with | some x => BitVec.ofNat 64 (x.2 + x.1 * 2 ^ 32 + 2 ^ 63) | none => 0 := by
  have hx : exec .topkScanDone s = nextOf s (scanEnded (putTopk l s (List.range 8))) := by
    show execTopkScanDone s = _
    unfold execTopkScanDone
    rw [hl]
    rfl
  have hres : ∀ n, n < 8 → reg (putTopk l s (List.range 8)) (RZ_TOPK_RES n) = topkWord l n := fun n hn => reg_putTopk l s _ (List.mem_range.mpr hn)
  obtain ⟨regs, hrest⟩ := putTopk_rest l s (List.range 8)
  rw [hrest] at hx hres
  refine gives_of_exec hx rfl rfl ⟨rfl, flag_fsetB_bit _ false (by decide) (by decide), rfl, fun n hn => ?_⟩
  have hne : RZ_TOPK_RES n ≠ RZ_TOPK_CTRL := by unfold RZ_TOPK_RES RZ_TOPK_CTRL; omega
  exact (reg_fsetB_ne _ _ _ _ hne).trans ((reg_congr (s := { s with regs := regs }) rfl rfl _).trans (hres n hn))

end Sys2Proof.Machine
end

section
/-! Operations of the flash port (R366, R381, R388, R393, R394). -/
namespace Sys2Proof.Machine
open Sys2Proof.Claims

/-! #### The port (R393) -/

/-- The port has taken its only waiting operation. -/
def portIdle (s : State) : State := { s with nv := { s.nv with ops := [] } }

theorem pickOp_single {s : State} {o : FlashOp} (h : s.nv.ops = [o]) : pickOp s = some (o, portIdle s) := by
  unfold pickOp portIdle
  rw [h]
  cases o <;> rfl

/-! #### Copies and their result (R394) -/

/-- NV_READ_CMD shows the end of a copy. -/
def readEnded (s : State) (c : Nat) : State := fsetB (fset s NV_READ_CMD_RESULT c) NV_READ_CMD_BUSY false

theorem readEnded_result (s : State) {c : Nat} (h : c < 4) : fget (readEnded s c) NV_READ_CMD_RESULT = c :=
  (fget_fsetB_disj _ _ _ _ (by decide) (by decide)).trans ((fget_fset_same _ _ _ (by decide) (by decide)).trans (Nat.mod_eq_of_lt h))

theorem readEnded_busy (s : State) (c : Nat) : flag (readEnded s c) NV_READ_CMD_BUSY = false := flag_fsetB_bit _ false (by decide) (by decide)

theorem readEnded_rest (s : State) (c : Nat) : ∃ regs, readEnded s c = { s with regs := regs } := ⟨_, rfl⟩

section
variable {s : State}

theorem gives_copyComplete {area pos moff : Nat} (ha : answers s 0x4A = true) (h : s.nv.ops = [.read area pos moff]) : Gives (.flashOpComplete false) s fun t =>
    mossBytes t moff (readBytes s area pos).length = (readBytes s area pos).map (fun x => x % 256) ∧
    (∀ a, (a < moff ∨ moff + (readBytes s area pos).length ≤ a) → mread 0 t.moss.mem a = mread 0 s.moss.mem a) ∧
    fget t NV_READ_CMD_RESULT = 0 ∧ flag t NV_READ_CMD_BUSY = false ∧ t.nv.ops = [] ∧ t.flash = s.flash := by
  have hx : exec (.flashOpComplete false) s = nextOf s (readEnded (mossPutBytes (portIdle s) moff (readBytes s area pos)) 0) := by
    show nextOf s (opComplete s false) = _
    unfold opComplete
    rw [pickOp_single h, ha]
    rfl
  generalize readBytes s area pos = l at hx ⊢
  have hin := mreads_mwrites 0 l s.moss.mem moff
  have hout := fun a => mread_mwrites_out 0 l s.moss.mem moff a
  have hresult := readEnded_result (mossPutBytes (portIdle s) moff l) (c := 0) (by decide)
  have hbusy := readEnded_busy (mossPutBytes (portIdle s) moff l) 0
  obtain ⟨regs, hrest⟩ := readEnded_rest (mossPutBytes (portIdle s) moff l) 0
  rw [hrest] at hx hresult hbusy
  exact gives_of_exec hx rfl rfl ⟨hin, hout, hresult, hbusy, rfl, rfl⟩

theorem gives_copyTimeout {area pos moff : Nat} (ha : answers s 0x4A = true) (h : s.nv.ops = [.read area pos moff]) : Gives .flashAccessTimeout s fun t =>
    fget t NV_READ_CMD_RESULT = 2 ∧ flag t NV_READ_CMD_BUSY = false ∧ t.nv.ops = [] ∧ Raised 0x25 none 0 0x4A s t ∧ t.moss = s.moss ∧ t.flash = s.flash := by
  have hx : exec .flashAccessTimeout s = nextOf s (readEnded (raiseD (portIdle s) 0x25 none 0 0x4A) 2) := by
    show execFlashAccessTimeout s = _
    unfold execFlashAccessTimeout
    rw [pickOp_single h, ha]
    rfl
  have hraised := raised_raiseD (portIdle s) 0x25 none 0 0x4A (by decide)
  have hresult := readEnded_result (raiseD (portIdle s) 0x25 none 0 0x4A) (c := 2) (by decide)
  have hbusy := readEnded_busy (raiseD (portIdle s) 0x25 none 0 0x4A) 2
  obtain ⟨regs, hrest⟩ := readEnded_rest (raiseD (portIdle s) 0x25 none 0 0x4A) 2
  rw [hrest, raiseD_rest] at hx hresult hbusy
  exact gives_of_exec hx rfl rfl ⟨hresult, hbusy, rfl, hraised, rfl, rfl⟩

/-! #### Table records (R388) -/

theorem nextRun_rest (s : State) : nextRun s = { s with age := (nextRun s).age } := by
  unfold nextRun
  split
  · rfl
  · split
    · rfl
    · split <;> rfl

/-- The write of a table record moves registers, the state of the ageing engine and the flash alone. -/
theorem tableWritten_rest (s : State) (r : TabRec) : tableWritten s r = { s with
    regs := (tableWritten s r).regs, age := (tableWritten s r).age, flash := { s.flash with tabs := tset s.flash.tabs (r.seq % 16) r, spoiled := tdel s.flash.spoiled (768 + r.seq % 16) } } := by
  unfold tableWritten
  dsimp only
  split
  · rfl
  · rw [nextRun_rest]
    split <;> rfl

theorem gives_tableComplete {r : TabRec} (ha : answers s 0x4A = true) (h : s.nv.ops = [.table r]) : Gives (.flashOpComplete false) s fun t =>
    tget? t.flash.tabs (r.seq % 16) = some r ∧ (∀ n, n ≠ r.seq % 16 → tget? t.flash.tabs n = tget? s.flash.tabs n) ∧ t.flt = s.flt := by
  have hx : exec (.flashOpComplete false) s = nextOf s (tableWritten (portIdle s) r) := by
    show nextOf s (opComplete s false) = _
    unfold opComplete
    rw [pickOp_single h, ha]
    rfl
  rw [tableWritten_rest] at hx
  exact gives_of_exec hx rfl rfl ⟨tget?_tset_same _ _ _, fun n hn => tget?_tset_ne _ _ _ _ hn, rfl⟩

/-! #### Image updates (R381) -/

@[simp] theorem updDone_member (s : State) (c : Nat) : (updDone s c).member = s.member := rfl
@[simp] theorem updDone_pending (s : State) (c : Nat) : (updDone s c).pending = s.pending := rfl

@[simp] theorem updDone_flt (s : State) (c : Nat) : (updDone s c).flt = s.flt := rfl
@[simp] theorem updDone_nv (s : State) (c : Nat) : (updDone s c).nv = s.nv := rfl
@[simp] theorem updDone_flash (s : State) (c : Nat) : (updDone s c).flash = s.flash := rfl

theorem updDone_result (s : State) {c : Nat} (h : c < 16) : fget (updDone s c) NV_UPD_CMD_RESULT = c :=
  (fget_fsetB_disj _ _ _ _ (by decide) (by decide)).trans ((fget_fset_same _ _ _ (by decide) (by decide)).trans (Nat.mod_eq_of_lt h))

theorem updDone_busy (s : State) (c : Nat) : flag (updDone s c) NV_UPD_CMD_BUSY = false := flag_fsetB_bit _ false (by decide) (by decide)

theorem updDone_vres (s : State) (c : Nat) : fget (updDone s c) NV_UPD_CMD_VRES = fget s NV_UPD_CMD_VRES :=
  (fget_fsetB_disj _ _ _ _ (by decide) (by decide)).trans (fget_fset_disj _ _ _ _ (by decide) (by decide))

theorem updDone_rest (s : State) (c : Nat) : ∃ regs, updDone s c = { s with regs := regs } := ⟨_, rfl⟩

/-- The memory of the slot changes, and the other slot and the rest of the flash stay. -/
theorem imgMem_setImg (s : State) (slot : Nat) (m : List Host.Cell) : imgMem (setImg s slot m) slot = m := by
  unfold imgMem setImg
  split <;> rfl

theorem setImg_rest (s : State) (slot : Nat) (m : List Host.Cell) : ∃ a b, setImg s slot m = { s with flash := { s.flash with img0 := a, img1 := b } } := by
  unfold setImg
  split
  · exact ⟨m, s.flash.img1, rfl⟩
  · exact ⟨s.flash.img0, m, rfl⟩

/-- What a program of a slot leaves: the bytes it wrote, the bytes outside of what it erased, and the rest of the state. -/
theorem programImg_mem (s : State) (slot len foff off : Nat) (l : List Nat) :
    imgMem (programImg s slot len foff off l) slot = mwrites 0xFF (mclear (imgMem s slot) (erased len foff).1 (erased len foff).2) off l := imgMem_setImg _ _ _

theorem programImg_rest (s : State) (slot len foff off : Nat) (l : List Nat) :
    ∃ a b, programImg s slot len foff off l = { s with flash := { s.flash with img0 := a, img1 := b } } := setImg_rest _ _ _

theorem imgMem_flash {s t : State} (h : t.flash = s.flash) (slot : Nat) : imgMem t slot = imgMem s slot := by
  unfold imgMem
  rw [h]

theorem erased_le (len foff : Nat) : (erased len foff).1 ≤ (erased len foff).2 := by
  unfold erased
  split
  · exact Nat.zero_le _
  · show foff / 4096 * 4096 ≤ (foff + len + 4095) / 4096 * 4096
    exact Nat.mul_le_mul_right _ (Nat.div_le_div_right (by omega))

theorem length_spoiltBytes (d n : Nat) : (spoiltBytes d n).length = n := by unfold spoiltBytes; rw [List.length_map, List.length_range]

section
variable {slot len foff moff : Nat}

theorem opComplete_upd {op : Nat} (ha : answers s 0x4A = true) (h : s.nv.ops = [.upd op slot len foff moff]) (bad : Bool) :
    exec (.flashOpComplete bad) s = nextOf s (updEffect (portIdle s) op slot len foff moff bad) := by
  show nextOf s (opComplete s bad) = _
  unfold opComplete
  rw [pickOp_single h, ha]
  rfl

theorem gives_programComplete (ha : answers s 0x4A = true) (h : s.nv.ops = [.upd 1 slot len foff moff]) : Gives (.flashOpComplete false) s fun t =>
    mreads 0xFF (imgMem t slot) foff len = mossBytes s moff len ∧ fget t NV_UPD_CMD_RESULT = 0 ∧ flag t NV_UPD_CMD_BUSY = false ∧ t.moss = s.moss ∧ t.flt = s.flt := by
  have hx : exec (.flashOpComplete false) s = nextOf s (updDone (programImg (portIdle s) slot len foff foff (mossBytes s moff len)) 0) := opComplete_upd ha h false
  have hmem := programImg_mem (portIdle s) slot len foff foff (mossBytes s moff len)
  obtain ⟨a, b, hrest⟩ := programImg_rest (portIdle s) slot len foff foff (mossBytes s moff len)
  have hread : mreads 0xFF (imgMem (programImg (portIdle s) slot len foff foff (mossBytes s moff len)) slot) foff len = mossBytes s moff len := by
    rw [hmem]
    exact mreads_mwrites_mreads _ _ _ _ _ _ _
  rw [hrest] at hx hread
  have hresult := updDone_result { portIdle s with flash := { s.flash with img0 := a, img1 := b } } (c := 0) (by decide)
  have hbusy := updDone_busy { portIdle s with flash := { s.flash with img0 := a, img1 := b } } 0
  obtain ⟨regs, hdone⟩ := updDone_rest { portIdle s with flash := { s.flash with img0 := a, img1 := b } } 0
  rw [hdone] at hresult hbusy
  exact gives_of_exec (hx.trans (congrArg (nextOf s) hdone)) rfl rfl ⟨hread, hresult, hbusy, rfl, rfl⟩

theorem gives_programFailed (ha : answers s 0x4A = true) (h : s.nv.ops = [.upd 1 slot len foff moff]) : Gives (.flashOpComplete true) s fun t =>
    fget t NV_UPD_CMD_RESULT = 6 ∧ flag t NV_UPD_CMD_BUSY = false ∧ Raised 0x23 none foff 0x4A s t := by
  have hx : exec (.flashOpComplete true) s = nextOf s (updDone (raiseD (programImg (drawBytes (portIdle s) len).2 slot len foff foff (drawBytes (portIdle s) len).1) 0x23 none foff 0x4A) 6) :=
    opComplete_upd ha h true
  obtain ⟨a, b, hrest⟩ := programImg_rest (drawBytes (portIdle s) len).2 slot len foff foff (drawBytes (portIdle s) len).1
  rw [hrest] at hx
  generalize hp : ({ (drawBytes (portIdle s) len).2 with flash := { (drawBytes (portIdle s) len).2.flash with img0 := a, img1 := b } } : State) = p at hx
  obtain ⟨hmember, hpending, hflt⟩ : p.member = s.member ∧ p.pending = s.pending ∧ p.flt = s.flt := by rw [← hp]; exact ⟨rfl, rfl, rfl⟩
  have hraised : Raised 0x23 none foff 0x4A p (raiseD p 0x23 none foff 0x4A) := raised_raiseD p 0x23 none foff 0x4A (by decide)
  unfold Raised at hraised ⊢
  rw [hflt] at hraised
  have hm := (raiseD_member p 0x23 none foff 0x4A).trans hmember
  have hpe := (raiseD_pending p 0x23 none foff 0x4A).trans hpending
  generalize raiseD p 0x23 none foff 0x4A = q at hx hraised hm hpe
  exact gives_of_exec hx ((updDone_member _ _).trans hm) ((updDone_pending _ _).trans hpe) ⟨updDone_result q (by decide), updDone_busy q 6, hraised⟩

theorem gives_programTimeout (ha : answers s 0x4A = true) (h : s.nv.ops = [.upd 1 slot len foff moff]) : Gives .flashAccessTimeout s fun t =>
    fget t NV_UPD_CMD_RESULT = 6 ∧ flag t NV_UPD_CMD_BUSY = false ∧ Raised 0x25 none 0 0x4A s t ∧ t.nv.ops = [] ∧
      (∀ a, (a < (erased len foff).1 ∨ (erased len foff).2 ≤ a) → mread 0xFF (imgMem t slot) a = mread 0xFF (imgMem s slot) a) ∧ t.flash = { s.flash with img0 := t.flash.img0, img1 := t.flash.img1 } := by
  let r := erased len foff
  let l := spoiltBytes s.draws (r.2 - r.1)
  let p : State := { raiseD (portIdle s) 0x25 none 0 0x4A with draws := s.draws + (r.2 - r.1) }
  have hdraws : (raiseD (portIdle s) 0x25 none 0 0x4A).draws = s.draws := raiseD_draws _ _ _ _ _
  have hx : exec .flashAccessTimeout s = nextOf s (updDone (programImg p slot len foff r.1 l) 6) := by
    show execFlashAccessTimeout s = _
    unfold execFlashAccessTimeout
    rw [pickOp_single h, ha]
    show nextOf s (updDone (programImg (drawBytes (raiseD (portIdle s) 0x25 none 0 0x4A) (r.2 - r.1)).2 slot len foff r.1 (drawBytes (raiseD (portIdle s) 0x25 none 0 0x4A) (r.2 - r.1)).1) 6) = _
    unfold drawBytes
    rw [hdraws]
  have hraised : Raised 0x25 none 0 0x4A s p := raised_raiseD (portIdle s) 0x25 none 0 0x4A (by decide)
  obtain ⟨hmember, hpending, hops, hflash⟩ : p.member = s.member ∧ p.pending = s.pending ∧ p.nv.ops = [] ∧ p.flash = s.flash :=
    ⟨raiseD_member _ _ _ _ _, raiseD_pending _ _ _ _ _, congrArg Nv.ops (raiseD_nv (portIdle s) 0x25 none 0 0x4A), raiseD_flash _ _ _ _ _⟩
  have hmem := programImg_mem p slot len foff r.1 l
  obtain ⟨a, b, hrest⟩ := programImg_rest p slot len foff r.1 l
  have hout : ∀ x, (x < r.1 ∨ r.2 ≤ x) → mread 0xFF (imgMem (programImg p slot len foff r.1 l) slot) x = mread 0xFF (imgMem s slot) x := fun x hxr => by
    have hlen : l.length = r.2 - r.1 := length_spoiltBytes _ _
    have hle : r.1 ≤ r.2 := erased_le len foff
    rw [hmem, mread_mwrites_out _ _ _ _ _ (by omega), mread_mclear_out _ _ hxr, imgMem_flash hflash]
  rw [hrest] at hx hout
  generalize hv : ({ p with flash := { p.flash with img0 := a, img1 := b } } : State) = v at hx hout
  obtain ⟨hm, hpe, hnv, hflt⟩ : v.member = p.member ∧ v.pending = p.pending ∧ v.nv = p.nv ∧ v.flt = p.flt := by rw [← hv]; exact ⟨rfl, rfl, rfl, rfl⟩
  have himg : v.flash = { s.flash with img0 := v.flash.img0, img1 := v.flash.img1 } := by rw [← hv, ← hflash]
  unfold Raised at hraised ⊢
  rw [← hflt] at hraised
  exact gives_of_exec hx ((updDone_member v 6).trans (hm.trans hmember)) ((updDone_pending v 6).trans (hpe.trans hpending))
    ⟨updDone_result v (by decide), updDone_busy v 6, (updDone_flt v 6).trans hraised, (congrArg Nv.ops ((updDone_nv v 6).trans hnv)).trans hops,
      fun x hxr => (congrArg (mread 0xFF · x) (imgMem_flash (updDone_flash v 6) slot)).trans (hout x hxr), himg⟩

theorem setVerOk_rest (s : State) (slot : Nat) (b : Bool) : verOk (setVerOk s slot b) slot = b ∧ ∃ nv, setVerOk s slot b = { s with nv := nv } := by
  unfold verOk setVerOk
  split
  · exact ⟨rfl, _, rfl⟩
  · exact ⟨rfl, _, rfl⟩

theorem raiseCode_rest (s : State) (c : Nat) : raiseCode s c = { s with flt := (raiseCode s c).flt } := by
  unfold raiseCode
  split
  · rfl
  · split <;> exact raiseD_rest _ _ _ _ _

theorem gives_verifyComplete (ha : answers s 0x4A = true) (h : s.nv.ops = [.upd 2 slot len foff moff]) : Gives (.flashOpComplete false) s fun t => let c := verifyImage s (imgRd s slot) false false
    fget t NV_UPD_CMD_VRES = c % 2 ^ ((NV_UPD_CMD_VRES).hi + 1 - (NV_UPD_CMD_VRES).lo) ∧ (fget t NV_UPD_CMD_RESULT = if c = 0 then 0 else 8) ∧ verOk t slot = (c == 0) ∧ flag t NV_UPD_CMD_BUSY = false ∧
      t.flash = s.flash := by
  have hsame : verifyImage (portIdle s) (imgRd (portIdle s) slot) false false = verifyImage s (imgRd s slot) false false := rfl
  have hx : exec (.flashOpComplete false) s = nextOf s (updEffect (portIdle s) 2 slot len foff moff false) := opComplete_upd ha h false
  unfold updEffect at hx
  dsimp only at hx ⊢
  rw [hsame] at hx
  generalize verifyImage s (imgRd s slot) false false = c at hx ⊢
  obtain ⟨hver, nv, hrest⟩ := setVerOk_rest (portIdle s) slot (c == 0)
  rw [hrest] at hx hver
  generalize hp : ({ portIdle s with nv := nv } : State) = p at hx hver
  obtain ⟨hmember, hpending, hflash⟩ : p.member = s.member ∧ p.pending = s.pending ∧ p.flash = s.flash := by rw [← hp]; exact ⟨rfl, rfl, rfl⟩
  have hvres : fget (fset p NV_UPD_CMD_VRES c) NV_UPD_CMD_VRES = c % 2 ^ (NV_UPD_CMD_VRES.hi + 1 - NV_UPD_CMD_VRES.lo) := fget_fset_same p _ c (by decide) (by decide)
  have hkeep : verOk (fset p NV_UPD_CMD_VRES c) slot = verOk p slot := rfl
  have hm : (fset p NV_UPD_CMD_VRES c).member = p.member := rfl
  have hpe : (fset p NV_UPD_CMD_VRES c).pending = p.pending := rfl
  have hfl : (fset p NV_UPD_CMD_VRES c).flash = p.flash := rfl
  generalize fset p NV_UPD_CMD_VRES c = q at hx hvres hkeep hm hpe hfl
  obtain ⟨hrm, hrp, hrf, hrv, hrk⟩ : (raiseCode q c).member = q.member ∧ (raiseCode q c).pending = q.pending ∧ (raiseCode q c).flash = q.flash ∧
      fget (raiseCode q c) NV_UPD_CMD_VRES = fget q NV_UPD_CMD_VRES ∧ verOk (raiseCode q c) slot = verOk q slot := by
    rw [raiseCode_rest]
    exact ⟨rfl, rfl, rfl, rfl, rfl⟩
  generalize raiseCode q c = v at hx hrm hrp hrf hrv hrk
  have hresult : fget (updDone v (if c = 0 then 0 else 8)) NV_UPD_CMD_RESULT = if c = 0 then 0 else 8 := updDone_result v (by split <;> decide)
  generalize (if c = 0 then 0 else 8) = k at hx hresult ⊢
  exact gives_of_exec hx ((updDone_member v k).trans (hrm.trans (hm.trans hmember))) ((updDone_pending v k).trans (hrp.trans (hpe.trans hpending)))
    ⟨(updDone_vres v k).trans (hrv.trans hvres), hresult, hrk.trans (hkeep.trans hver), updDone_busy v k, (updDone_flash v k).trans (hrf.trans (hfl.trans hflash))⟩

end
end

/-! ### O57 -/

/-- Settles O57: each operation that the port serves alone, the words that a load writes one after another into each target, and the eight registers of a scan. -/
theorem flashAndLoads : Obligations.FlashAndLoads := by
  unfold Obligations.FlashAndLoads
  intro s
  refine ⟨?_, ?_, ?_, ?_, ?_, ?_, ?_, ?_⟩
  · intro area pos moff ha h
    exact gives_copyComplete ha h
  · intro r ha h
    exact gives_tableComplete ha h
  · intro slot len foff moff ha h
    exact ⟨gives_programComplete ha h, gives_programFailed ha h, gives_programTimeout ha h⟩
  · intro slot len foff moff ha h
    exact gives_verifyComplete ha h
  · intro area pos moff ha h
    exact gives_copyTimeout ha h
  · intro l hl hfit h
    exact gives_programLoadDone_none hl hfit h
  · intro l k hl hfit hk h
    exact gives_programLoadDone_some hl hfit h hk
  · intro l hl
    exact gives_topkScanDone hl

end Sys2Proof.Machine
end

section
/-! Committed writes that act in the domain of their register (R376, R377). -/
namespace Sys2Proof.Machine
open Sys2Proof.Claims

/-! #### The commit -/

/-- A journalled register that is no frond command, no budget register and has no form of its own at the commit. -/
def isPlainRow (r : RegAt) : Bool :=
  journalled r.row.name && !(vidOwned r) && !(isFrCmd r.row.name) && !(isBudget r.row.name) && r.row.name != .RZ_BRIDGE_CMD && r.row.name != .RZ_FLT_STAT

theorem isPlainRow_spec {r : RegAt} (h : isPlainRow r = true) : journalled r.row.name = true ∧ vidOwned r = false ∧ isFrCmd r.row.name = false ∧ isBudget r.row.name = false ∧
    r.row.name ≠ .RZ_BRIDGE_CMD ∧ r.row.name ≠ .RZ_FLT_STAT ∧ r.row.name ≠ .FR_SETPOINT := by
  unfold isPlainRow at h
  simp only [Bool.and_eq_true, Bool.not_eq_true', bne_iff_ne] at h
  obtain ⟨⟨⟨⟨⟨hj, hvid⟩, hcmd⟩, hbud⟩, hbr⟩, hflt⟩ := h
  refine ⟨hj, hvid, hcmd, hbud, hbr, hflt, fun hsp => ?_⟩
  rw [hsp] at hcmd
  cases hcmd

/-- A committed write of domain S acts, and its access is answered OK. -/
theorem actWrite_domainS {s : State} {a v : Nat} {r : RegAt} (hp : isPlainRow r = true) (hd : holder a = none) : actWrite s a r v true = answerCur (applyReg s a r v) .ok 0 := by
  obtain ⟨-, -, hcmd, hbud, -⟩ := isPlainRow_spec hp
  unfold actWrite
  simp only [hcmd, hbud, hd, Bool.false_eq_true, if_false, if_true]

/-- A committed write acts at the island that holds the register, whose acknowledgement the access waits for. -/
theorem actWrite_island {s : State} {a v k : Nat} {r : RegAt} (hp : isPlainRow r = true) (hd : holder a = some k) (hans : answers s k = true) :
    actWrite s a r v true = awaitIsl (sendAck (applyReg s a r v) k true true) k := by
  obtain ⟨-, -, hcmd, hbud, -, hflt, -⟩ := isPlainRow_spec hp
  unfold actWrite
  simp only [hcmd, hbud, hd, hans, hflt, Bool.false_eq_true, if_false, if_true]

/-- Only the bus and the levels of PMBus have moved since a state. -/
structure Acted (u t : State) : Prop where
  rest : t = { u with bus := t.bus, pm := t.pm }

namespace Acted
variable {u t : State}

theorem member (h : Acted u t) : t.member = u.member := by rw [h.rest]
theorem regs (h : Acted u t) : t.regs = u.regs := by rw [h.rest]
theorem fronds (h : Acted u t) : t.fronds = u.fronds := by rw [h.rest]
theorem pending (h : Acted u t) : t.pending = u.pending := by rw [h.rest]
theorem load (h : Acted u t) : t.load = u.load := by rw [h.rest]
theorem pushWait (h : Acted u t) : t.pushWait = u.pushWait := by rw [h.rest]
theorem flash (h : Acted u t) : t.flash = u.flash := by rw [h.rest]
theorem vpm (h : Acted u t) : t.vpm = u.vpm := by rw [h.rest]
theorem fget (h : Acted u t) (x : Fld) : Machine.fget t x = Machine.fget u x := fget_congr h.member h.regs x
theorem flag (h : Acted u t) (x : Fld) : Machine.flag t x = Machine.flag u x := flag_congr h.member h.regs x

end Acted

section
variable {s : State} {i : Instr} {a v : Nat} {r : RegAt}

/-- The row commits at once and acts (R377). -/
theorem exec_atOnce (h : AtOnce s i) (hw : written s i = some (a, v)) (hr : regAt a = some r) (hp : isPlainRow r = true) (hv : v < 2 ^ 64) :
    exec i s = nextOf s (pmStep (workN 1026 (actWrite (committed s a v) a r v true))) := by
  obtain ⟨hs, hout, a', v', hw', ⟨hmem, r', hr', hok⟩, -⟩ := h
  obtain ⟨rfl, rfl⟩ : a' = a ∧ v' = v := by simpa using hw'.symm.trans hw
  obtain rfl : r' = r := Option.some.inj (hr'.symm.trans hr)
  obtain ⟨hj, hvid, -, -, hbr, -, hsp⟩ := isPlainRow_spec hp
  exact (exec_written hw).trans (congrArg (nextOf s) (hostWrite_atOnce hs hout hmem hr hok hv hj hvid hbr hsp))

theorem atOnce_answers (h : AtOnce s i) (hw : written s i = some (a, v)) {k : Nat} (hd : holder a = some k) : answers s k = true := by
  obtain ⟨-, -, a', v', hw', -, hans⟩ := h
  obtain ⟨rfl, rfl⟩ : a' = a ∧ v' = v := by simpa using hw'.symm.trans hw
  exact hans k hd

theorem committed_queue (h : AtOnce s i) (a v : Nat) : (committed s a v).bus.queue = [] := h.1.2.1

/-- A row of domain S: what the register's write does, and the answer OK. -/
theorem gives_domainS {P : State → Prop} {u : State} (h : AtOnce s i) (hw : written s i = some (a, v)) (hr : regAt a = some r) (hp : isPlainRow r = true) (hv : v < 2 ^ 64) (hd : holder a = none)
    (hu : applyReg (committed s a v) a r v = u) (hbus : u.bus = (committed s a v).bus) (hm : u.member = s.member) (hpe : u.pending = s.pending)
    (hP : ∀ t, Acted u t → Answered none s t → P t) : Gives i s P := by
  have hx := exec_atOnce h hw hr hp hv
  rw [actWrite_domainS hp hd, hu, answerCur_host (by rw [hbus]; rfl) rfl rfl] at hx
  have hresp : u.bus.resp = s.bus.resp := by rw [hbus]; rfl
  have hready : u.bus.ready = [] := by rw [hbus]; rfl
  have hqueue : u.bus.queue = [] := by rw [hbus]; exact committed_queue h a v
  generalize ht : ({ u with bus := { u.bus with cur := none, resp := u.bus.resp ++ [⟨.host, .ok, 0⟩] } } : State) = t at hx
  have hquiet : work t = none := by rw [← ht]; exact work_empty hready hqueue
  rw [workN_stop hquiet] at hx
  refine gives_of_exec hx (by rw [← ht]; exact hm) (by rw [← ht]; exact hpe) (hP _ ⟨?_⟩ ?_)
  · rw [← ht]; rfl
  · rw [← ht]
    exact ⟨congrArg (· ++ _) hresp, rfl⟩

/-- A row of an island's register: what the write does there, and the acknowledgement that the access waits for. -/
theorem gives_island {P : State → Prop} {u : State} {k : Nat} (h : AtOnce s i) (hw : written s i = some (a, v)) (hr : regAt a = some r) (hp : isPlainRow r = true) (hv : v < 2 ^ 64)
    (hd : holder a = some k) (hu : applyReg (committed s a v) a r v = u) (hbus : u.bus = (committed s a v).bus) (hm : u.member = s.member) (hpe : u.pending = s.pending)
    (hP : ∀ t, Acted u t → Answered (some k) s t → P t) : Gives i s P := by
  have hx := exec_atOnce h hw hr hp hv
  rw [actWrite_island (s := committed s a v) hp hd (atOnce_answers h hw hd), hu] at hx
  have hcur : u.bus.cur = some (wr a v, .commit s.bus.jSeq) := by rw [hbus]; rfl
  have hresp : u.bus.resp = s.bus.resp := by rw [hbus]; rfl
  have hacks : u.bus.acks = s.bus.acks := by rw [hbus]; rfl
  have hready : u.bus.ready = [] := by rw [hbus]; rfl
  have hstate : awaitIsl (sendAck u k true true) k = { u with bus := { u.bus with cur := some (wr a v, .island k), acks := u.bus.acks ++ [{ isl := k, ok := true, wait := true }] } } := by
    unfold awaitIsl
    rw [show (sendAck u k true true).bus.cur = _ from hcur]
    rfl
  rw [hstate] at hx
  generalize ht : ({ u with bus := { u.bus with cur := some (wr a v, .island k), acks := u.bus.acks ++ [{ isl := k, ok := true, wait := true }] } } : State) = t at hx
  have hquiet : work t = none := by rw [← ht]; exact work_busy (c := (wr a v, .island k)) hready rfl
  rw [workN_stop hquiet] at hx
  refine gives_of_exec hx (by rw [← ht]; exact hm) (by rw [← ht]; exact hpe) (hP _ ⟨?_⟩ ?_)
  · rw [← ht]; rfl
  · rw [← ht]
    exact ⟨congrArg (· ++ _) hacks, hresp, _, rfl⟩

end

/-! #### The registers of the rows -/

theorem regAt_pushCmd : regAt FC_PUSH_CMD = some ⟨⟨.FC_PUSH_CMD, 0x20, 8, 1, 0x3f, 0x0, 0x0, 0x100, 0x0⟩, 0, 0⟩ := by decide +kernel

theorem regAt_loadCmd : regAt FC_LOAD_CMD = some ⟨⟨.FC_LOAD_CMD, 0x10, 8, 1, 0x1ffffff, 0x0, 0x0, 0x100000000, 0x0⟩, 0, 0⟩ := by decide +kernel

theorem regAt_perfCtrl : regAt RZ_PERF_CTRL = some ⟨⟨.RZ_PERF_CTRL, 0x520, 8, 1, 0xffff07ffff03, 0x0, 0x0, 0x0, 0xa0a04000000⟩, 0, 0⟩ := by decide +kernel

theorem regAt_vid (g : BitVec 3) : regAt (VP_VID g.toNat) = some ⟨⟨.VP_VID, 0x500, 8, 8, 0x3fff, 0x0, 0x0, 0x0, 0x0⟩, 0, g.toNat⟩ := by
  revert g
  decide +kernel

theorem regAt_stageCmd : regAt VP_STAGE_CMD = some ⟨⟨.VP_STAGE_CMD, 0x180, 8, 1, 0x3f, 0x0, 0x0, 0x300, 0x0⟩, 0, 0⟩ := by decide +kernel

theorem regAt_lastfStat : regAt VP_LASTF_STAT = some ⟨⟨.VP_LASTF_STAT, 0x740, 8, 1, 0x0, 0x0, 0x0, 0x10000, 0x0⟩, 0, 0⟩ := by decide +kernel

/-- The row of the sensor registers of the thermal unit. -/
def thSensRow : RegRow := ⟨.TH_SENS, 0x1000, 8, 256, 0x0, 0x800000000, 0x0, 0x0, 0x1000000000⟩

theorem findRow_sens (n : BitVec 8) : findRow (rowsOfBlock 3) (0x1000 + 8 * n.toNat) = some (thSensRow, n.toNat) := by
  obtain ⟨l, rest, hrows, hl⟩ : ∃ l rest, rowsOfBlock 3 = l ++ thSensRow :: rest ∧ ∀ r ∈ l, 0 < r.stride ∧ r.off + r.stride * r.cnt ≤ 0x1000 :=
    ⟨(rowsOfBlock 3).takeWhile (· ≠ thSensRow), ((rowsOfBlock 3).dropWhile (· ≠ thSensRow)).tail, by decide +kernel, by decide +kernel⟩
  have hi : (0x1000 + 8 * n.toNat - thSensRow.off) / thSensRow.stride = n.toNat := by
    simp only [thSensRow]
    omega
  have hin : thSensRow.off ≤ 0x1000 + 8 * n.toNat ∧ (0x1000 + 8 * n.toNat - thSensRow.off) % thSensRow.stride = 0 ∧ (0x1000 + 8 * n.toNat - thSensRow.off) / thSensRow.stride < thSensRow.cnt ∧
      ¬ (thSensRow.name = .MS_CONFLICT ∧ (0x1000 + 8 * n.toNat - thSensRow.off) / thSensRow.stride % 8 = 7) := by
    rw [hi]
    simp only [thSensRow]
    exact ⟨by omega, by omega, n.isLt, fun hc => by cases hc.1⟩
  rw [hrows, findRow_append fun r hr => ⟨(hl r hr).1, (hl r hr).2.trans (by omega)⟩, findRow, if_pos hin, hi]

theorem regAt_sens (n : BitVec 8) : regAt (TH_SENS n.toNat) = some ⟨thSensRow, 0, n.toNat⟩ := by
  have ho : (0x31000 + 8 * n.toNat) % 0x10000 = 0x1000 + 8 * n.toNat := by omega
  have hb : (0x31000 + 8 * n.toNat) / 0x10000 = 3 := by omega
  simp only [regAt, TH_SENS]
  rw [if_pos (by omega), ho, hb, findRow_sens]

/-! #### Scalar pushes (R77) -/

/-- A message is sent to each frond of a list. -/
def sendAll (m : FMsg) (s : State) (l : List Nat) : State := l.foldl (fun t f => sendCmd t f m false) s

theorem sendAll_rest (m : FMsg) (s : State) (l : List Nat) : ∃ fs, sendAll m s l = { s with fronds := fs } := ⟨_, foldl_frondsOnly (fun _ _ => rfl) l s⟩

theorem fr_sendAll_notMem (m : FMsg) (s : State) {l : List Nat} {f : Nat} (h : f ∉ l) : fr (sendAll m s l) f = fr s f := by
  induction l generalizing s with
  | nil => rfl
  | cons g l ih =>
    obtain ⟨hne, hl⟩ := not_or.mp (mt List.mem_cons.mpr h)
    exact (ih _ hl).trans (fr_sendCmd_ne s m false hne)

theorem fr_sendAll_mem (m : FMsg) (s : State) {l : List Nat} (hnodup : l.Nodup) {f : Nat} (h : f ∈ l) : ⟨(fr s f).sent, m, false⟩ ∈ (fr (sendAll m s l) f).air := by
  induction l generalizing s with
  | nil => cases h
  | cons g l ih =>
    obtain ⟨hg, hl⟩ := List.nodup_cons.mp hnodup
    by_cases hfg : f = g
    · subst hfg
      have hrest : fr (sendAll m (sendCmd s f m false) l) f = _ := (fr_sendAll_notMem m _ hg).trans (fr_sendCmd_same s f m false)
      show _ ∈ (fr (sendAll m (sendCmd s f m false) l) f).air
      rw [hrest]
      exact List.mem_append_right _ (List.mem_singleton_self _)
    · have hmem := ih (sendCmd s g m false) hl ((List.mem_cons.mp h).resolve_left hfg)
      rw [fr_sendCmd_ne s m false hfg] at hmem
      exact hmem

section
variable {s : State}

theorem nodup_targets (mask : Nat) : (targets s mask).Nodup := List.nodup_range.filter _

theorem gives_scalarPush {k : BitVec 6} (h : AtOnce s (.scalarPush k)) : Gives (.scalarPush k) s fun t => flag t FC_PUSH_CMD_BUSY = true ∧ t.pushWait = targets s (fget s FC_TARGET_FRONDS) ∧
    Answered none s t ∧ ∀ f ∈ targets s (fget s FC_TARGET_FRONDS), ∃ c ∈ (fr t f).air, c.msg = .scalar k.toNat (reg s FC_PUSH_DATA).toNat ∧ c.seq = (fr s f).sent := by
  let v := k.toNat + 2 ^ 8
  let c := committed s FC_PUSH_CMD v
  let tg := targets s (fget s FC_TARGET_FRONDS)
  obtain ⟨w, hstore⟩ := storeAll_setReg regAt_pushCmd rfl c v
  have hindex : fget (storeAll c FC_PUSH_CMD v) FC_PUSH_CMD_INDEX = k.toNat := by
    rw [fget_storeAll_same regAt_pushCmd rfl (by decide) (by decide) (by decide)]
    show (k.toNat + 2 ^ 8) / 2 ^ 0 % 2 ^ 6 = _
    omega
  have hbit : bitOf v 8 = true := by
    have hone : (k.toNat + 2 ^ 8) / 2 ^ 8 = 1 := by omega
    show ((k.toNat + 2 ^ 8) / 2 ^ 8 % 2 == 1) = true
    rw [hone]
    rfl
  rw [hstore] at hindex
  let p := setReg c FC_PUSH_CMD w
  have htarget : fget p FC_TARGET_FRONDS = fget s FC_TARGET_FRONDS := fget_setReg_addr w (by decide)
  have hdata : reg p FC_PUSH_DATA = reg s FC_PUSH_DATA := reg_setReg_ne _ _ _ _ (by decide)
  have hu : applyReg c FC_PUSH_CMD ⟨⟨.FC_PUSH_CMD, 0x20, 8, 1, 0x3f, 0x0, 0x0, 0x100, 0x0⟩, 0, 0⟩ v =
      fsetB { sendAll (.scalar k.toNat (reg s FC_PUSH_DATA).toNat) p tg with pushWait := tg } FC_PUSH_CMD_BUSY true := by
    show pushCmd (storeAll c FC_PUSH_CMD v) v = _
    rw [hstore]
    unfold pushCmd
    rw [if_pos hbit]
    show fsetB { sendAll (.scalar (fget p FC_PUSH_CMD_INDEX) (reg p FC_PUSH_DATA).toNat) p (targets s (fget p FC_TARGET_FRONDS)) with pushWait := targets s (fget p FC_TARGET_FRONDS) } _ _ = _
    rw [htarget, hdata, hindex]
  have hair : ∀ f ∈ tg, ⟨(fr s f).sent, .scalar k.toNat (reg s FC_PUSH_DATA).toNat, false⟩ ∈ (fr (sendAll (.scalar k.toNat (reg s FC_PUSH_DATA).toNat) p tg) f).air :=
    fun f hf => fr_sendAll_mem _ p (nodup_targets _) hf
  obtain ⟨fs, hrest⟩ := sendAll_rest (.scalar k.toNat (reg s FC_PUSH_DATA).toNat) p tg
  rw [hrest] at hu hair
  refine gives_domainS h rfl regAt_pushCmd (by decide) (by omega) (by decide) hu rfl rfl rfl fun t ht hans => ⟨(ht.flag _).trans (flag_fsetB_bit _ true (by decide) (by decide)), ht.pushWait, hans, fun f hf => ?_⟩
  have hfr : fr t f = fr { p with fronds := fs } f := by unfold fr; rw [ht.fronds]; rfl
  rw [hfr]
  exact ⟨_, hair f hf, rfl, rfl⟩

end

end Sys2Proof.Machine
end

section
/-! Program loads and performance modes at their commit (R83, R169, R171). -/
namespace Sys2Proof.Machine
open Sys2Proof.Claims

section
variable {s : State}

/-! #### Program loads (R83) -/

/-- With an empty inbox a boundary only ends a step of the core. -/
theorem afterInbox_nil {f : Nat} (h : (fr s f).inbox = []) : afterInbox s f = stepEnds s f := by
  unfold afterInbox
  rw [h]
  rfl

theorem reg_stepEnds (s : State) (f : Nat) {a : Nat} (h : a ≠ FR_CORE_STAT f) : reg (stepEnds s f) a = reg s a := by
  unfold stepEnds
  split
  · exact reg_fset_ne _ _ _ _ h
  · rfl

/-- The groups of a frond depend on its bindings and its instruction memory. -/
theorem groupHolds_congr {t : State} {f : Nat} (hgrp : ∀ k, k < 8 → reg t (FR_GROUP f k) = reg s (FR_GROUP f k)) (hmem : ∀ w, reg t (FR_IMEM f w) = reg s (FR_IMEM f w)) (lo hi : Nat) :
    groupHolds t f lo hi = groupHolds s f lo hi := by
  have hheader : ∀ b, header t f b = header s f b := fun b => by
    show imem t f _ = imem s f _
    unfold imem
    rw [hmem]
  unfold groupHolds
  rw [Bool.eq_iff_iff, List.any_eq_true, List.any_eq_true]
  refine exists_congr fun k => and_congr_right fun hk => ?_
  dsimp only
  rw [hgrp k (List.mem_range.mp hk), hheader]

/-- The state in which a load or push command acts: a register of the FC_ block has been written, and the commit has moved the bus. -/
theorem groupHolds_boundary {a f : Nat} (w : W64) (v : Nat) (ha : a < 0x100000) (h : (fr s f).inbox = []) (lo hi : Nat) :
    groupHolds (afterInbox (setReg (committed s a v) a w) f) f lo hi = groupHolds s f lo hi := by
  have hstep : afterInbox (setReg (committed s a v) a w) f = stepEnds (setReg (committed s a v) a w) f := afterInbox_nil (s := setReg (committed s a v) a w) h
  rw [hstep]
  have hreg : ∀ b, 0x100000 ≤ b → b ≠ FR_CORE_STAT f → reg (stepEnds (setReg (committed s a v) a w) f) b = reg s b := fun b hb hne =>
    (reg_stepEnds _ f hne).trans (reg_setReg_ne _ _ _ _ (by omega))
  exact groupHolds_congr (fun k hk => hreg _ (by unfold FR_GROUP; omega) (by unfold FR_GROUP FR_CORE_STAT; omega)) (fun m => hreg _ (by unfold FR_IMEM; omega) (by unfold FR_IMEM FR_CORE_STAT; omega)) lo hi

/-- What a GO write of FC_LOAD_CMD does with the operands that it shows (Table 3-8). -/
theorem loadCmd_go {v : Nat} (hv : bitOf v 32 = true) : loadCmd s v =
    if loadCode s (fget s FC_LOAD_CMD_DST) (fget s FC_LOAD_CMD_LEN) (fget s FC_LOAD_SRC_ADDR) (fget s FC_TARGET_FRONDS) ≠ 0 then
      fset s FC_LOAD_CMD_RESULT (loadCode s (fget s FC_LOAD_CMD_DST) (fget s FC_LOAD_CMD_LEN) (fget s FC_LOAD_SRC_ADDR) (fget s FC_TARGET_FRONDS))
    else fsetB { s with load := some ⟨fget s FC_LOAD_CMD_DST, fget s FC_LOAD_CMD_LEN, fget s FC_LOAD_SRC_ADDR, fget s FC_TARGET_FRONDS⟩ } FC_LOAD_CMD_BUSY true := by
  unfold loadCmd
  rw [if_pos hv]

theorem loadCmd_rest (s : State) (v : Nat) : ∃ regs load, loadCmd s v = { s with regs := regs, load := load } := by
  unfold loadCmd
  dsimp only
  split
  · split
    · exact ⟨_, s.load, rfl⟩
    · exact ⟨_, _, rfl⟩
  · exact ⟨s.regs, s.load, rfl⟩

/-- Table 3-8: the range or the source does not fit. -/
theorem loadCode_misfit {dst len src mask : Nat} (h : ¬(dst + len ≤ 0xE00 ∧ len ≠ 0 ∧ src % 4 = 0)) : loadCode s dst len src mask = 1 := by
  unfold loadCode
  rw [if_pos (by omega)]

/-- Table 3-8: a group of a target holds a word of the range. -/
theorem loadCode_held {dst len src mask : Nat} (h : dst + len ≤ 0xE00 ∧ len ≠ 0 ∧ src % 4 = 0) (hheld : ∃ f ∈ targets s mask, groupHolds (afterInbox s f) f dst (dst + len) = true) :
    loadCode s dst len src mask = 2 := by
  unfold loadCode
  rw [if_neg (by omega), if_pos (List.any_eq_true.mpr hheld)]

/-- Table 3-8: the load starts. -/
theorem loadCode_starts {dst len src mask : Nat} (h : dst + len ≤ 0xE00 ∧ len ≠ 0 ∧ src % 4 = 0) (hfree : ∀ f ∈ targets s mask, groupHolds (afterInbox s f) f dst (dst + len) = false)
    (hon : ∀ f ∈ targets s mask, coreSt s f ≠ 0) (hbank : bankOf src = (src + 4 * len - 1) / 0x80000) (hown : ownerOf s (bankOf src) = 7) : loadCode s dst len src mask = 0 := by
  have hheld : ¬ ((targets s mask).any fun f => groupHolds (afterInbox s f) f dst (dst + len)) = true := by
    rw [List.any_eq_true]
    rintro ⟨f, hf, hh⟩
    rw [hfree f hf] at hh
    cases hh
  have hdark : ¬ ((targets s mask).any fun f => coreSt s f == 0) = true := by
    rw [List.any_eq_true]
    rintro ⟨f, hf, hh⟩
    exact hon f hf (beq_iff_eq.mp hh)
  have hsrc : ¬ (bankOf src ≠ (src + 4 * len - 1) / 0x80000 ∨ ownerOf s (bankOf src) ≠ 7) := by
    rintro (hne | hne)
    · exact hne hbank
    · exact hne hown
  unfold loadCode
  rw [if_neg (by omega), if_neg hheld, if_neg hsrc, if_neg hdark]

theorem gives_programLoad {d : BitVec 12} {l : BitVec 13} (h : AtOnce s (.programLoad d l)) : Gives (.programLoad d l) s fun t => Answered none s t ∧ t.fronds = s.fronds ∧
    (let src := fget s FC_LOAD_SRC_ADDR
     let ts := targets s (fget s FC_TARGET_FRONDS)
     let fits := d.toNat + l.toNat ≤ 0xE00 ∧ l ≠ 0 ∧ src % 4 = 0
     (¬ fits → t.load = s.load ∧ fget t FC_LOAD_CMD_RESULT = 1) ∧
     (fits → (∀ f ∈ ts, (fr s f).inbox = []) → (∃ f ∈ ts, groupHolds s f d.toNat (d.toNat + l.toNat) = true) → t.load = s.load ∧ fget t FC_LOAD_CMD_RESULT = 2) ∧
     (fits → (∀ f ∈ ts, (fr s f).inbox = [] ∧ groupHolds s f d.toNat (d.toNat + l.toNat) = false ∧ coreSt s f ≠ 0) → bankOf src = (src + 4 * l.toNat - 1) / 0x80000 → ownerOf s (bankOf src) = 7 →
       t.load = some ⟨d.toNat, l.toNat, src, fget s FC_TARGET_FRONDS⟩ ∧ flag t FC_LOAD_CMD_BUSY = true)) := by
  let v := d.toNat + 2 ^ 12 * l.toNat + 2 ^ 32
  obtain ⟨w, hstore⟩ := storeAll_setReg regAt_loadCmd rfl (committed s FC_LOAD_CMD v) v
  have hdst : fget (storeAll (committed s FC_LOAD_CMD v) FC_LOAD_CMD v) FC_LOAD_CMD_DST = d.toNat := by
    rw [fget_storeAll_same regAt_loadCmd rfl (by decide) (by decide) (by decide)]
    show (d.toNat + 2 ^ 12 * l.toNat + 2 ^ 32) / 2 ^ 0 % 2 ^ 12 = _
    omega
  have hlen : fget (storeAll (committed s FC_LOAD_CMD v) FC_LOAD_CMD v) FC_LOAD_CMD_LEN = l.toNat := by
    rw [fget_storeAll_same regAt_loadCmd rfl (by decide) (by decide) (by decide)]
    show (d.toNat + 2 ^ 12 * l.toNat + 2 ^ 32) / 2 ^ 12 % 2 ^ 13 = _
    omega
  have hgo : bitOf v 32 = true := by
    have hone : (d.toNat + 2 ^ 12 * l.toNat + 2 ^ 32) / 2 ^ 32 = 1 := by omega
    show ((d.toNat + 2 ^ 12 * l.toNat + 2 ^ 32) / 2 ^ 32 % 2 == 1) = true
    rw [hone]
    rfl
  have hu : applyReg (committed s FC_LOAD_CMD v) FC_LOAD_CMD ⟨⟨.FC_LOAD_CMD, 0x10, 8, 1, 0x1ffffff, 0x0, 0x0, 0x100000000, 0x0⟩, 0, 0⟩ v = loadCmd (setReg (committed s FC_LOAD_CMD v) FC_LOAD_CMD w) v := by
    show loadCmd (storeAll (committed s FC_LOAD_CMD v) FC_LOAD_CMD v) v = _
    rw [hstore]
  rw [hstore] at hdst hlen
  have hsrc : fget (setReg (committed s FC_LOAD_CMD v) FC_LOAD_CMD w) FC_LOAD_SRC_ADDR = fget s FC_LOAD_SRC_ADDR := fget_setReg_addr w (by decide)
  have hmask : fget (setReg (committed s FC_LOAD_CMD v) FC_LOAD_CMD w) FC_TARGET_FRONDS = fget s FC_TARGET_FRONDS := fget_setReg_addr w (by decide)
  have howner : ∀ b, ownerOf (setReg (committed s FC_LOAD_CMD v) FC_LOAD_CMD w) b = ownerOf s b := fun b => fget_setReg_addr w (by show MS_BANK b ≠ FC_LOAD_CMD; unfold MS_BANK FC_LOAD_CMD; omega)
  have hcore : ∀ f, coreSt (setReg (committed s FC_LOAD_CMD v) FC_LOAD_CMD w) f = coreSt s f := fun f =>
    fget_setReg_addr w (by show FR_CORE_STAT f ≠ FC_LOAD_CMD; unfold FR_CORE_STAT FC_LOAD_CMD; omega)
  have hholds : ∀ f lo hi, (fr s f).inbox = [] → groupHolds (afterInbox (setReg (committed s FC_LOAD_CMD v) FC_LOAD_CMD w) f) f lo hi = groupHolds s f lo hi := fun f lo hi hf =>
    groupHolds_boundary w v (by decide) hf lo hi
  have htargets : ∀ m, targets (setReg (committed s FC_LOAD_CMD v) FC_LOAD_CMD w) m = targets s m := fun _ => rfl
  obtain ⟨hbus, hmember, hpending, hfronds, hload⟩ : (setReg (committed s FC_LOAD_CMD v) FC_LOAD_CMD w).bus = (committed s FC_LOAD_CMD v).bus ∧
      (setReg (committed s FC_LOAD_CMD v) FC_LOAD_CMD w).member = s.member ∧ (setReg (committed s FC_LOAD_CMD v) FC_LOAD_CMD w).pending = s.pending ∧
      (setReg (committed s FC_LOAD_CMD v) FC_LOAD_CMD w).fronds = s.fronds ∧ (setReg (committed s FC_LOAD_CMD v) FC_LOAD_CMD w).load = s.load := ⟨rfl, rfl, rfl, rfl, rfl⟩
  generalize setReg (committed s FC_LOAD_CMD v) FC_LOAD_CMD w = p at hu hdst hlen hsrc hmask howner hcore hholds htargets hbus hmember hpending hfronds hload
  have hgoes := loadCmd_go (s := p) hgo
  rw [hdst, hlen, hsrc, hmask] at hgoes
  have hlz : l ≠ 0 → l.toNat ≠ 0 := fun hl h0 => hl (BitVec.eq_of_toNat_eq h0)
  have hresult : ∀ {c}, c ≠ 0 → c < 16 → loadCode p d.toNat l.toNat (fget s FC_LOAD_SRC_ADDR) (fget s FC_TARGET_FRONDS) = c → (loadCmd p v).load = s.load ∧ fget (loadCmd p v) FC_LOAD_CMD_RESULT = c := by
    intro c hc hlt hcode
    rw [hcode, if_pos hc] at hgoes
    rw [hgoes]
    exact ⟨hload, (fget_fset_same p _ c (by decide) (by decide)).trans (Nat.mod_eq_of_lt hlt)⟩
  obtain ⟨regs, load, hrest⟩ := loadCmd_rest p v
  have hubus : (loadCmd p v).bus = p.bus ∧ (loadCmd p v).member = p.member ∧ (loadCmd p v).pending = p.pending ∧ (loadCmd p v).fronds = p.fronds := by
    rw [hrest]
    exact ⟨rfl, rfl, rfl, rfl⟩
  obtain ⟨hub, hum, hup, huf⟩ := hubus
  refine gives_domainS h rfl regAt_loadCmd (by decide) (by omega) (by decide) hu (hub.trans hbus) (hum.trans hmember) (hup.trans hpending) fun t ht hans =>
    ⟨hans, ht.fronds.trans (huf.trans hfronds), fun hmis => ?_, fun hfits hbox hheld => ?_, fun hfits hfree hbank hown => ?_⟩
  · obtain ⟨hl, hr⟩ := hresult (c := 1) (by decide) (by decide) (loadCode_misfit fun ⟨h1, h2, h3⟩ => hmis ⟨h1, fun hl => h2 (by rw [hl]; rfl), h3⟩)
    exact ⟨ht.load.trans hl, (ht.fget _).trans hr⟩
  · obtain ⟨hfit, hl0, h4⟩ := hfits
    obtain ⟨f, hf, hh⟩ := hheld
    obtain ⟨hl, hr⟩ := hresult (c := 2) (by decide) (by decide) (loadCode_held ⟨hfit, hlz hl0, h4⟩ ⟨f, by rw [htargets]; exact hf, (hholds f _ _ (hbox f hf)).trans hh⟩)
    exact ⟨ht.load.trans hl, (ht.fget _).trans hr⟩
  · obtain ⟨hfit, hl0, h4⟩ := hfits
    have hcode : loadCode p d.toNat l.toNat (fget s FC_LOAD_SRC_ADDR) (fget s FC_TARGET_FRONDS) = 0 := by
      refine loadCode_starts ⟨hfit, hlz hl0, h4⟩ (fun f hf => ?_) (fun f hf => ?_) hbank ((howner _).trans hown)
      · rw [htargets] at hf
        obtain ⟨hbox, hno, -⟩ := hfree f hf
        exact (hholds f _ _ hbox).trans hno
      · rw [htargets] at hf
        rw [hcore f]
        exact (hfree f hf).2.2
    rw [hcode, if_neg (fun hne => hne rfl)] at hgoes
    rw [hgoes] at ht
    exact ⟨ht.load, (ht.flag _).trans (flag_fsetB_bit _ true (by decide) (by decide))⟩

/-! #### Performance modes (R169, R171) -/

/-- A write of RZ_PERF_CTRL stores its mode. -/
theorem perf_stored (c : State) (v : Nat) : ∃ w, storeAll c RZ_PERF_CTRL v = setReg c RZ_PERF_CTRL w ∧ fget (setReg c RZ_PERF_CTRL w) RZ_PERF_CTRL_MODE = bitsOf v 1 0 := by
  obtain ⟨w, hstore⟩ := storeAll_setReg regAt_perfCtrl rfl c v
  refine ⟨w, hstore, ?_⟩
  rw [← hstore]
  exact fget_storeAll_same regAt_perfCtrl rfl (by decide) (by decide) (by decide) c v

theorem mode_putBits (d : W64) {m : Nat} (hm : m < 4) : bitsOf (putBits d.toNat 1 0 m) 1 0 = m := (bitsOf_putBits_same _ _ _ _).trans (Nat.mod_eq_of_lt hm)

/-- The state and the mode that RZ_PERF shows, and nothing of the fronds or the bus (R169). -/
structure PerfShown (m st : Nat) (s u : State) : Prop where
  state : fget u RZ_PERF_STAT_STATE = st
  mode : fget u RZ_PERF_CTRL_MODE = m
  bus : u.bus = s.bus
  member : u.member = s.member
  pending : u.pending = s.pending
  fronds : u.fronds = s.fronds

/-- STATE is set after the write of MODE. -/
theorem perfShown_state (c : State) {w : W64} {m st : Nat} (hmode : fget (setReg c RZ_PERF_CTRL w) RZ_PERF_CTRL_MODE = m) (hst : st < 4) :
    PerfShown m st c (fset (setReg c RZ_PERF_CTRL w) RZ_PERF_STAT_STATE st) :=
  ⟨(fget_fset_same _ _ _ (by decide) (by decide)).trans (Nat.mod_eq_of_lt hst), (fget_fset_addr _ _ _ _ (by decide)).trans hmode, rfl, rfl, rfl, rfl⟩

theorem PerfShown.clearShort {m st : Nat} {u : State} (h : PerfShown m st s u) : PerfShown m st s (fsetB u RZ_PERF_STAT_SHORT false) :=
  ⟨(fget_fsetB_disj _ _ _ _ (by decide) (by decide)).trans h.state, (fget_fsetB_addr _ _ _ _ (by decide)).trans h.mode, h.bus, h.member, h.pending, h.fronds⟩

/-- A change of mode whose write shows a state of RZ_PERF_STAT and journals nothing. -/
theorem gives_perfMode {i : Instr} {d : W64} {m st : Nat} {u : State} (h : AtOnce s i) (hw : written s i = some (RZ_PERF_CTRL, putBits d.toNat 1 0 m))
    (hu : perfWrite (committed s RZ_PERF_CTRL (putBits d.toNat 1 0 m)) (putBits d.toNat 1 0 m) (fun t => storeAll t RZ_PERF_CTRL (putBits d.toNat 1 0 m)) = u)
    (hshown : PerfShown m st (committed s RZ_PERF_CTRL (putBits d.toNat 1 0 m)) u) :
    Gives i s fun t => fget t RZ_PERF_STAT_STATE = st ∧ fget t RZ_PERF_CTRL_MODE = m ∧ Answered none s t ∧ t.fronds = s.fronds :=
  gives_domainS h hw regAt_perfCtrl (by decide) (putBits_lt _ _ _ _ d.isLt (by decide)) (by decide) hu hshown.bus hshown.member hshown.pending
    fun _ ht hans => ⟨(ht.fget _).trans hshown.state, (ht.fget _).trans hshown.mode, hans, ht.fronds.trans hshown.fronds⟩

theorem gives_perfModeFree {d : W64} (h : AtOnce s (.perfModeFree d)) : Gives (.perfModeFree d) s fun t =>
    fget t RZ_PERF_STAT_STATE = 0 ∧ fget t RZ_PERF_CTRL_MODE = 0 ∧ Answered none s t ∧ t.fronds = s.fronds := by
  obtain ⟨w, hstore, hmode⟩ := perf_stored (committed s RZ_PERF_CTRL (putBits d.toNat 1 0 0)) (putBits d.toNat 1 0 0)
  rw [mode_putBits d (by decide)] at hmode
  refine gives_perfMode h rfl ?_ (perfShown_state _ hmode (st := 0) (by decide)).clearShort
  unfold perfWrite
  dsimp only
  rw [hstore, mode_putBits d (by decide)]
  rfl

theorem gives_perfModeBounded {d : W64} (h : AtOnce s (.perfModeBounded d)) : Gives (.perfModeBounded d) s fun t =>
    fget t RZ_PERF_STAT_STATE = 3 ∧ fget t RZ_PERF_CTRL_MODE = 2 ∧ Answered none s t ∧ t.fronds = s.fronds := by
  obtain ⟨w, hstore, hmode⟩ := perf_stored (committed s RZ_PERF_CTRL (putBits d.toNat 1 0 2)) (putBits d.toNat 1 0 2)
  rw [mode_putBits d (by decide)] at hmode
  refine gives_perfMode h rfl ?_ (perfShown_state _ hmode (st := 3) (by decide))
  unfold perfWrite
  dsimp only
  rw [hstore, mode_putBits d (by decide)]
  rfl

/-! #### Entry to fixed frequency while the standby is out of sync (R169) -/

/-- What the act of a set-point entry keeps: the registers and the path of accesses. -/
structure SetpointKept (s t : State) : Prop where
  member : t.member = s.member
  pending : t.pending = s.pending
  regs : t.regs = s.regs
  cur : t.bus.cur = s.bus.cur
  resp : t.bus.resp = s.bus.resp
  queue : t.bus.queue = s.bus.queue
  ready : t.bus.ready = s.bus.ready

theorem SetpointKept.trans {s t u : State} (h : SetpointKept s t) (k : SetpointKept t u) : SetpointKept s u :=
  ⟨k.member.trans h.member, k.pending.trans h.pending, k.regs.trans h.regs, k.cur.trans h.cur, k.resp.trans h.resp, k.queue.trans h.queue, k.ready.trans h.ready⟩

theorem setpointKept_sendSetpoint (s : State) (f v e : Nat) (w : Bool) : SetpointKept s (sendSetpoint s f v e w) := by
  unfold sendSetpoint
  dsimp only
  split <;> exact ⟨rfl, rfl, rfl, rfl, rfl, rfl, rfl⟩

theorem setpointKept_commitBoth (s : State) (f v : Nat) : SetpointKept s (commitBoth s f v) := by
  unfold commitBoth
  split <;> exact ⟨rfl, rfl, rfl, rfl, rfl, rfl, rfl⟩

theorem setpointKept_openFw (s : State) (f dir c : Nat) : SetpointKept s (openFw s f dir c) := ⟨rfl, rfl, rfl, rfl, rfl, rfl, rfl⟩

theorem setpointKept_commitSetpoint (s : State) (f v e : Nat) (w : Bool) : SetpointKept s (commitSetpoint s f v e w) := by
  unfold commitSetpoint
  split
  · exact (setpointKept_sendSetpoint s f v e w).trans (setpointKept_sendSetpoint _ _ v e false)
  · split
    · exact setpointKept_sendSetpoint s f v e w
    · exact (setpointKept_openFw s _ _ _).trans (setpointKept_sendSetpoint _ f v e w)

/-- An entry that commands a frond's frequency or voltage and that no access waits for. -/
def IsSetpointEntry (e : JEntry) : Prop := e.wait = false ∧ ∃ f v ep, e.op = .setpoint f v ep

theorem setpointKept_actEntry {s : State} {e : JEntry} (h : IsSetpointEntry e) : SetpointKept s (actEntry s e) := by
  obtain ⟨seq, op, wait, prov⟩ := e
  obtain ⟨rfl, f, v, ep, rfl⟩ := h
  let c : State := { s with bus := { s.bus with commits := commitOp s.bus.commits (.setpoint f v ep) } }
  have hx : actEntry s ⟨seq, .setpoint f v ep, false, prov⟩ = commitSetpoint (commitBoth c f v) f v (commitE c f v ep) false := rfl
  have hc : SetpointKept s c := ⟨rfl, rfl, rfl, rfl, rfl, rfl, rfl⟩
  rw [hx]
  exact (hc.trans (setpointKept_commitBoth c f v)).trans (setpointKept_commitSetpoint _ _ _ _ _)

/-- Set-point entries wait to be acted on, or have been, and nothing else has happened to the registers and the path of accesses. -/
structure Settling (s t : State) : Prop where
  member : t.member = s.member
  pending : t.pending = s.pending
  regs : t.regs = s.regs
  cur : t.bus.cur = s.bus.cur
  resp : t.bus.resp = s.bus.resp
  queue : t.bus.queue = s.bus.queue
  ready : ∀ e ∈ t.bus.ready, IsSetpointEntry e

namespace Settling
variable {s t : State}

theorem journal (h : Settling s t) (hout : inSync t = false) (f v e : Nat) : Settling s (journal t (.setpoint f v e) false) := by
  have hx : Machine.journal t (.setpoint f v e) false = { t with bus := { t.bus with jSeq := t.bus.jSeq + 1, ready := t.bus.ready ++ [entryOf t (.setpoint f v e) false] } } := by
    unfold Machine.journal
    dsimp only
    rw [if_neg (by rw [hout]; exact Bool.false_ne_true)]
  rw [hx]
  refine ⟨h.member, h.pending, h.regs, h.cur, h.resp, h.queue, fun d hd => ?_⟩
  obtain hd | hd := List.mem_append.mp hd
  · exact h.ready d hd
  · rw [List.mem_singleton.mp hd]
    exact ⟨rfl, f, v, e, rfl⟩

theorem enterFixed (h : s.bus.ready = []) (hout : inSync s = false) : Settling s (enterFixed s) := by
  unfold Machine.enterFixed
  generalize fget s RZ_PERF_CTRL_FFIX = ffix
  generalize serviceFronds s = fs
  have hstart : Settling s s := ⟨rfl, rfl, rfl, rfl, rfl, rfl, fun e he => by rw [h] at he; cases he⟩
  suffices hfold : ∀ t, Settling s t → Settling s (fs.foldl (fun t f => match freqEndpoint t f ffix with
      | none => t
      | some e => Machine.journal t (.setpoint f (freqWord ffix) e) false) t) from hfold s hstart
  induction fs with
  | nil => exact fun t ht => ht
  | cons f fs ih =>
    intro t ht
    rw [List.foldl_cons]
    refine ih _ ?_
    split
    · exact ht
    · exact ht.journal ((flag_congr ht.member ht.regs _).trans hout) _ _ _

/-- Acting on the entries keeps the registers and the answers (R377). -/
theorem workN (h : Settling s t) (hqueue : s.bus.queue = []) (n : Nat) : Settling s (workN n t) := by
  induction n generalizing t with
  | zero => exact h
  | succ n ih =>
    cases hready : t.bus.ready with
    | nil =>
      rw [workN_stop (work_empty hready (h.queue.trans hqueue))]
      exact h
    | cons e rest =>
      rw [workN_go (work_entry hready)]
      have hall := h.ready
      rw [hready] at hall
      have hkept := setpointKept_actEntry (s := { t with bus := { t.bus with ready := rest } }) (hall e List.mem_cons_self)
      exact ih ⟨hkept.member.trans h.member, hkept.pending.trans h.pending, hkept.regs.trans h.regs, hkept.cur.trans h.cur, hkept.resp.trans h.resp, hkept.queue.trans h.queue,
        fun d hd => hall d (List.mem_cons_of_mem e (by rw [hkept.ready] at hd; exact hd))⟩

end Settling

theorem gives_perfModeFixed {d : W64} (h : AtOnce s (.perfModeFixed d)) : Gives (.perfModeFixed d) s fun t =>
    fget t RZ_PERF_STAT_STATE = 1 ∧ fget t RZ_PERF_CTRL_MODE = 1 ∧ Answered none s t := by
  let v := putBits d.toNat 1 0 1
  obtain ⟨w, hstore, hmode⟩ := perf_stored (committed s RZ_PERF_CTRL v) v
  rw [mode_putBits d (by decide)] at hmode
  have hshown := (perfShown_state _ hmode (st := 1) (by decide)).clearShort
  have hout : inSync (fsetB (fset (setReg (committed s RZ_PERF_CTRL v) RZ_PERF_CTRL w) RZ_PERF_STAT_STATE 1) RZ_PERF_STAT_SHORT false) = false :=
    (flag_congr_fget ((fget_fsetB_addr _ _ _ _ (by decide)).trans ((fget_fset_addr _ _ _ _ (by decide)).trans (fget_setReg_addr (s := committed s RZ_PERF_CTRL v) w (by decide))))).trans h.2.1
  have hx := exec_atOnce h rfl regAt_perfCtrl (by decide) (putBits_lt _ _ _ _ d.isLt (by decide))
  rw [actWrite_domainS (by decide) (by decide)] at hx
  have hu : applyReg (committed s RZ_PERF_CTRL v) RZ_PERF_CTRL ⟨⟨.RZ_PERF_CTRL, 0x520, 8, 1, 0xffff07ffff03, 0x0, 0x0, 0x0, 0xa0a04000000⟩, 0, 0⟩ v =
      enterFixed (fsetB (fset (setReg (committed s RZ_PERF_CTRL v) RZ_PERF_CTRL w) RZ_PERF_STAT_STATE 1) RZ_PERF_STAT_SHORT false) := by
    show perfWrite _ v (fun t => storeAll t RZ_PERF_CTRL v) = _
    unfold perfWrite
    dsimp only
    rw [hstore, mode_putBits d (by decide)]
    rfl
  rw [hu] at hx
  generalize fsetB (fset (setReg (committed s RZ_PERF_CTRL v) RZ_PERF_CTRL w) RZ_PERF_STAT_STATE 1) RZ_PERF_STAT_SHORT false = p at hx hshown hout
  have hcommit : p.bus = (committed s RZ_PERF_CTRL v).bus := hshown.bus
  have hfixed := Settling.enterFixed (by rw [hcommit]; rfl) hout
  have hpcur : p.bus.cur = some (wr RZ_PERF_CTRL v, .commit s.bus.jSeq) := by rw [hcommit]; rfl
  have hpresp : p.bus.resp = s.bus.resp := by rw [hcommit]; rfl
  have hpqueue : p.bus.queue = [] := by rw [hcommit]; exact committed_queue h _ _
  generalize enterFixed p = q at hx hfixed
  rw [answerCur_host (hfixed.cur.trans hpcur) rfl rfl] at hx
  generalize hr : ({ q with bus := { q.bus with cur := none, resp := q.bus.resp ++ [⟨.host, .ok, 0⟩] } } : State) = r at hx
  obtain ⟨hm, hpe, hregs, hcur, hresp, hqueue, hready⟩ : r.member = q.member ∧ r.pending = q.pending ∧ r.regs = q.regs ∧ r.bus.cur = none ∧
      r.bus.resp = q.bus.resp ++ [⟨.host, .ok, 0⟩] ∧ r.bus.queue = q.bus.queue ∧ r.bus.ready = q.bus.ready := by rw [← hr]; exact ⟨rfl, rfl, rfl, rfl, rfl, rfl, rfl⟩
  have hstart : Settling r r := ⟨rfl, rfl, rfl, rfl, rfl, rfl, by rw [hready]; exact hfixed.ready⟩
  have hend := hstart.workN (hqueue.trans (hfixed.queue.trans hpqueue)) 1026
  generalize workN 1026 r = t at hx hend
  have htm : t.member = p.member := hend.member.trans (hm.trans hfixed.member)
  have htr : t.regs = p.regs := hend.regs.trans (hregs.trans hfixed.regs)
  exact gives_of_exec hx (htm.trans hshown.member) (hend.pending.trans (hpe.trans (hfixed.pending.trans hshown.pending)))
    ⟨(fget_congr htm htr _).trans hshown.state, (fget_congr htm htr _).trans hshown.mode, hend.resp.trans (hresp.trans (by rw [hfixed.resp, hpresp])), hend.cur.trans hcur⟩

end

end Sys2Proof.Machine
end

section
/-! Committed commands of the VPM controller and the thermal unit (R198, R212, R214, R246). -/
namespace Sys2Proof.Machine
open Sys2Proof.Claims

/-! #### What the VPM controller shows (R197 to R214) -/

/-- The registers in which the controller shows its groups, and its last record. -/
def IsVpmShown (a : Nat) : Prop := (0x40540 ≤ a ∧ a < 0x40580) ∨ (0x40700 ≤ a ∧ a ≤ 0x40740)

/-- Those, and the registers of its stages. -/
def IsVpmState (a : Nat) : Prop := (0x40000 ≤ a ∧ a < 0x40180) ∨ IsVpmShown a

/-- A step of the controller moves registers of a set, its own state, its record's stream and raises. -/
structure OnVpm (p : Nat → Prop) (s t : State) : Prop where
  member : t.member = s.member
  pending : t.pending = s.pending
  bus : t.bus = s.bus
  fronds : t.fronds = s.fronds
  vids : t.vpm.vidAir = s.vpm.vidAir
  reg : ∀ a, ¬ p a → reg t a = reg s a

namespace OnVpm
variable {p q : Nat → Prop} {s t u : State}

theorem refl (p : Nat → Prop) (s : State) : OnVpm p s s := ⟨rfl, rfl, rfl, rfl, rfl, fun _ _ => rfl⟩

theorem trans (h : OnVpm p s t) (k : OnVpm p t u) : OnVpm p s u :=
  ⟨k.member.trans h.member, k.pending.trans h.pending, k.bus.trans h.bus, k.fronds.trans h.fronds, k.vids.trans h.vids, fun a ha => (k.reg a ha).trans (h.reg a ha)⟩

theorem mono (hpq : ∀ a, p a → q a) (h : OnVpm p s t) : OnVpm q s t := ⟨h.member, h.pending, h.bus, h.fronds, h.vids, fun a ha => h.reg a (mt (hpq a) ha)⟩

theorem fget (h : OnVpm p s t) {x : Fld} (hx : ¬ p x.addr) : Machine.fget t x = Machine.fget s x := by
  unfold Machine.fget
  rw [h.reg _ hx]

theorem setReg (h : OnVpm p s t) {a : Nat} (ha : p a) (w : W64) : OnVpm p s (setReg t a w) :=
  h.trans ⟨rfl, rfl, rfl, rfl, rfl, fun _ hb => reg_setReg_ne _ _ _ _ fun e => hb (e ▸ ha)⟩

theorem fset (h : OnVpm p s t) {x : Fld} (ha : p x.addr) (v : Nat) : OnVpm p s (fset t x v) := h.setReg ha _

theorem fsetB (h : OnVpm p s t) {x : Fld} (ha : p x.addr) (b : Bool) : OnVpm p s (fsetB t x b) := h.setReg ha _

theorem raiseD (h : OnVpm p s t) (c : Nat) (w : Option Nat) (d i : Nat) : OnVpm p s (raiseD t c w d i) :=
  h.trans ⟨raiseD_member .., raiseD_pending .., raiseD_bus .., raiseD_fronds .., by rw [raiseD_vpm], fun a _ => reg_congr (raiseD_member ..) (raiseD_regs ..) a⟩

/-- A change of the controller's own state apart from the commands that are on their way to it. -/
theorem of_regs (hm : t.member = s.member) (hp : t.pending = s.pending) (hr : t.regs = s.regs) (hb : t.bus = s.bus) (hf : t.fronds = s.fronds) (hv : t.vpm.vidAir = s.vpm.vidAir) : OnVpm p s t :=
  ⟨hm, hp, hb, hf, hv, fun a _ => reg_congr hm hr a⟩

theorem foldl {α : Type} {g : State → α → State} {l : List α} (hg : ∀ t x, x ∈ l → OnVpm p t (g t x)) (s : State) : OnVpm p s (l.foldl g s) := by
  induction l generalizing s with
  | nil => exact refl p s
  | cons x l ih => exact (hg s x List.mem_cons_self).trans (ih (fun t y hy => hg t y (List.mem_cons_of_mem x hy)) (g s x))

end OnVpm

theorem isVpmShown_lastf {i : Nat} (h : i < 8) : IsVpmShown (VP_LASTF i) := by unfold IsVpmShown VP_LASTF; omega
theorem isVpmShown_lastfStat : IsVpmShown VP_LASTF_STAT := by unfold IsVpmShown VP_LASTF_STAT; omega
theorem isVpmShown_grpStat {g : Nat} (h : g < 8) : IsVpmShown (VP_GRP_STAT g) := by unfold IsVpmShown VP_GRP_STAT; omega
theorem isVpmState_stage {n : Nat} (h : n < 48) : IsVpmState (VP_STAGE n) := by unfold IsVpmState VP_STAGE; omega

theorem not_isVpmState_vid {g : Nat} (h : g < 8) : ¬ IsVpmState (VP_VID g) := by unfold IsVpmState IsVpmShown VP_VID; omega
theorem not_isVpmShown_stage {n : Nat} (h : n < 48) : ¬ IsVpmShown (VP_STAGE n) := by unfold IsVpmShown VP_STAGE; omega

theorem onVpm_showVrec (s : State) (r : VRec) : OnVpm IsVpmShown s (showVrec s r) := by
  unfold showVrec
  generalize vrecBytes r = b
  refine OnVpm.foldl (fun t i hi => ?_) s
  exact (OnVpm.refl _ t).setReg (isVpmShown_lastf (List.mem_range.mp hi)) _

theorem onVpm_updStg {p : Nat → Prop} (s : State) (n : Nat) (g : Stage → Stage) : OnVpm p s (updStg s n g) := .of_regs rfl rfl rfl rfl rfl rfl

theorem onVpm_updGrp {p : Nat → Prop} (s : State) (n : Nat) (g : Grp → Grp) : OnVpm p s (updGrp s n g) := .of_regs rfl rfl rfl rfl rfl rfl

/-- The record that the controller holds and the sequence of its stream. -/
theorem onVpm_record {p : Nat → Prop} (s : State) (r : VRec) (m : Tbl Strm) : OnVpm p s { s with vpm := { s.vpm with rec_ := some r }, strms := m } := .of_regs rfl rfl rfl rfl rfl rfl

/-- The last record is captured (R214). -/
theorem onVpm_capture (s : State) (cause n g st : Nat) : OnVpm IsVpmShown s (capture s cause n g st) := by
  have hlost : OnVpm IsVpmShown s (if flag s VP_LASTF_STAT_PENDING then bump s VP_LASTF_STAT_LOST else s) := by
    split
    · exact (OnVpm.refl _ s).fset (x := VP_LASTF_STAT_LOST) isVpmShown_lastfStat _
    · exact .refl _ s
  unfold capture
  dsimp only
  generalize (if flag s VP_LASTF_STAT_PENDING then bump s VP_LASTF_STAT_LOST else s) = s1 at hlost ⊢
  refine OnVpm.trans ?_ (onVpm_showVrec _ _)
  refine OnVpm.fsetB (OnVpm.fsetB (hlost.trans (onVpm_record s1 _ _)) ?_ true) ?_ true
  · exact isVpmShown_lastfStat
  · exact isVpmShown_lastfStat

/-- The counts of a group (R204). -/
theorem onVpm_grpCount (s : State) {g : Nat} (h : g < 8) : OnVpm IsVpmShown s (grpCount s g) := by
  have hcount : OnVpm IsVpmShown s (fset (fset s (VP_GRP_STAT_N_SERV g) (servOf s g).length) (VP_GRP_STAT_N_ACT g) (actOf s g).length) :=
    ((OnVpm.refl _ s).fset (x := VP_GRP_STAT_N_SERV g) (isVpmShown_grpStat h) _).fset (x := VP_GRP_STAT_N_ACT g) (isVpmShown_grpStat h) _
  unfold grpCount
  dsimp only
  split
  · exact (hcount.raiseD _ _ _ _).trans (onVpm_capture _ _ _ _ _)
  · exact hcount

theorem group_lt (s : State) (n : Nat) : fget s (VP_STAGE_GROUP n) < 8 := fget_lt s (VP_STAGE_GROUP n)

/-- The state of a stage before the counts of its group follow. -/
def stageSet (s : State) (n st : Nat) : State :=
  let s1 := fset s (VP_STAGE_STATE n) st
  let s2 := if st = 2 then fset (fset s1 (VP_STAGE_TRIM n) 0) (VP_STAGE_I_AVG n) 0 else s1
  updStg s2 n fun x =>
    let y := { x with ready := false, full := false, deCut := none, idx := if stSt s n = 2 then x.idx + 1 else x.idx }
    if st = 2 then { y with ifNum := 0, ifDen := 1, ovl := false, overTicks := 0 }
    else if st = 3 then y else { y with held := none, low := none }

theorem setSt_eq (s : State) (n st : Nat) : setSt s n st = grpCount (stageSet s n st) (fget s (VP_STAGE_GROUP n)) := rfl

theorem onVpm_stageSet (s : State) {n : Nat} (h : n < 48) (st : Nat) : OnVpm IsVpmState s (stageSet s n st) := by
  have hstate : OnVpm IsVpmState s (fset s (VP_STAGE_STATE n) st) := (OnVpm.refl _ s).fset (x := VP_STAGE_STATE n) (isVpmState_stage h) _
  unfold stageSet
  dsimp only
  split
  · exact ((hstate.fset (x := VP_STAGE_TRIM n) (isVpmState_stage h) 0).fset (x := VP_STAGE_I_AVG n) (isVpmState_stage h) 0).trans (onVpm_updStg _ _ _)
  · exact hstate.trans (onVpm_updStg _ _ _)

theorem onVpm_setSt (s : State) {n : Nat} (h : n < 48) (st : Nat) : OnVpm IsVpmState s (setSt s n st) := by
  rw [setSt_eq]
  exact (onVpm_stageSet s h st).trans ((onVpm_grpCount _ (group_lt s n)).mono fun _ => Or.inr)

/-- A stage shows the state that it is set to, and keeps the cause that it shows. -/
theorem setSt_shows (s : State) {n st : Nat} (h : n < 48) (hst : st < 8) (h2 : st ≠ 2) : stSt (setSt s n st) n = st ∧ fget (setSt s n st) (VP_STAGE_CAUSE n) = fget s (VP_STAGE_CAUSE n) := by
  have hid : VP_STAGE n ≠ RZ_ID := by unfold VP_STAGE RZ_ID; omega
  have hset : ∀ x : Fld, fget (stageSet s n st) x = fget (fset s (VP_STAGE_STATE n) st) x := fun x => by
    unfold stageSet
    dsimp only
    rw [if_neg h2]
    exact fget_congr rfl rfl x
  have hcount := onVpm_grpCount (stageSet s n st) (group_lt s n)
  have hkeep : ∀ hi lo, fget (setSt s n st) ⟨VP_STAGE n, hi, lo⟩ = fget (fset s (VP_STAGE_STATE n) st) ⟨VP_STAGE n, hi, lo⟩ := fun hi lo =>
    (hcount.fget (x := ⟨VP_STAGE n, hi, lo⟩) (not_isVpmShown_stage h)).trans (hset _)
  constructor
  · unfold stSt
    rw [if_pos h, hkeep 6 4]
    exact (fget_fset_same s (VP_STAGE_STATE n) st hid (show 6 < 64 by decide)).trans (Nat.mod_eq_of_lt hst)
  · rw [hkeep 11 8]
    exact fget_fset_bits s st (show 6 < 64 by decide) (.inr (show 6 < 8 by decide))

/-! #### VIDs (R198) -/

theorem onVpm_startCheck (s : State) {n : Nat} (h : n < 48) : OnVpm IsVpmState s (startCheck s n) := by
  unfold startCheck
  split
  · exact onVpm_setSt s h 1
  · exact onVpm_setSt s h 6

theorem lt_of_mem_stagesOf {s : State} {g n : Nat} (h : n ∈ stagesOf s g) : n < 48 := List.mem_range.mp (List.mem_filter.mp h).1

theorem onVpm_groupStart (s : State) {g : Nat} (h : g < 8) : OnVpm IsVpmState s (groupStart s g) := by
  unfold groupStart
  dsimp only
  generalize hs2 : fset (updGrp s g _) (VP_GRP_STAT_VREF g) _ = s2
  have hstart : OnVpm IsVpmState s s2 := by
    rw [← hs2]
    exact (onVpm_updGrp s g _).fset (x := VP_GRP_STAT_VREF g) (.inr (isVpmShown_grpStat h)) _
  refine hstart.trans (OnVpm.foldl (fun t n hn => ?_) s2)
  split
  · exact .refl _ t
  · exact onVpm_startCheck t (lt_of_mem_stagesOf hn)

theorem onVpm_tryStart (s : State) {g : Nat} (h : g < 8) : OnVpm IsVpmState s (tryStart s g) := by
  unfold tryStart
  split
  · exact onVpm_groupStart s h
  · exact .refl _ s

theorem onVpm_showVref (s : State) {g : Nat} (h : g < 8) : OnVpm IsVpmState s (showVref s g) :=
  ((OnVpm.refl _ s).fset (x := VP_GRP_STAT_VREF g) (.inr (isVpmShown_grpStat h)) _).fsetB (x := VP_GRP_STAT_SLEWING g) (.inr (isVpmShown_grpStat h)) _

/-- A VID is taken: its register shows it, and the group may start (R198). -/
theorem takeVid_spec (s : State) {g : Nat} (h : g < 8) (v : Nat) : fget (takeVid s g v) (VP_VID_VID g) = v % 2 ^ 14 ∧ OnVpm (fun a => a = VP_VID g ∨ IsVpmState a) s (takeVid s g v) := by
  have hid : VP_VID g ≠ RZ_ID := by unfold VP_VID RZ_ID; omega
  have hafter : OnVpm IsVpmState (fset s (VP_VID_VID g) v) (takeVid s g v) := (onVpm_tryStart _ h).trans (onVpm_showVref _ h)
  have hset : OnVpm (fun a => a = VP_VID g ∨ IsVpmState a) s (fset s (VP_VID_VID g) v) := (OnVpm.refl _ s).fset (x := VP_VID_VID g) (.inl rfl) v
  exact ⟨(hafter.fget (x := VP_VID_VID g) (not_isVpmState_vid h)).trans (fget_fset_same s (VP_VID_VID g) v hid (show 13 < 64 by decide)), hset.trans (hafter.mono fun _ => Or.inr)⟩

theorem holder_vid (g : BitVec 3) : holder (VP_VID g.toNat) = some 0x43 := by
  revert g
  decide

section
variable {s : State}

theorem gives_vidWrite_host {g : BitVec 3} {v : BitVec 14} (hg : 6 ≤ g.toNat) (h : AtOnce s (.vidWrite true g v)) :
    Gives (.vidWrite true g v) s fun t => fget t (VP_VID_VID g.toNat) = v.toNat ∧ Answered (some 0x43) s t := by
  have hw : written s (.vidWrite true g v) = some (VP_VID g.toNat, v.toNat) := if_pos hg
  have hplain : isPlainRow ⟨⟨.VP_VID, 0x500, 8, 8, 0x3fff, 0x0, 0x0, 0x0, 0x0⟩, 0, g.toNat⟩ = true := by
    unfold isPlainRow vidOwned
    rw [decide_eq_false (show ¬ g.toNat < 6 by omega)]
    rfl
  have hd := holder_vid g
  have hbits : bitsOf v.toNat 13 0 = v.toNat := by
    show v.toNat / 2 ^ 0 % 2 ^ 14 = _
    omega
  obtain ⟨hshows, hon⟩ := takeVid_spec (committed s (VP_VID g.toNat) v.toNat) g.isLt (bitsOf v.toNat 13 0)
  rw [hbits] at hshows hon
  refine gives_island h hw (regAt_vid g) hplain (by omega) hd (congrArg (takeVid _ _) hbits) hon.bus hon.member hon.pending fun t ht hans => ⟨?_, hans⟩
  exact (ht.fget _).trans (hshows.trans (Nat.mod_eq_of_lt v.isLt))

theorem gives_vidWrite_own {g : BitVec 3} {v : BitVec 14} (hg : g.toNat < 6) (hs : Ready s) (hans : answers s 0x43 = true) : Gives (.vidWrite true g v) s fun t =>
    t.bus = { s.bus with resp := s.bus.resp ++ [⟨.host, .own, 0⟩] } ∧ t = { s with bus := t.bus, pm := t.pm } := by
  have hx : exec (.vidWrite true g v) s = nextOf s (hostWrite s (VP_VID g.toNat) v.toNat) := rfl
  have hmem : VP_VID g.toNat < 0x100000 ∨ VP_VID g.toNat < 0x100000 + 0x10000 * nF s := .inl (by unfold VP_VID; omega)
  have hstart : startWrite s (wr (VP_VID g.toNat) v.toNat) ⟨⟨.VP_VID, 0x500, 8, 8, 0x3fff, 0x0, 0x0, 0x0, 0x0⟩, 0, g.toNat⟩ v.toNat =
      { s with bus := { s.bus with resp := s.bus.resp ++ [⟨.host, .own, 0⟩] } } := by
    have hown : vidOwned ⟨⟨.VP_VID, 0x500, 8, 8, 0x3fff, 0x0, 0x0, 0x0, 0x0⟩, 0, g.toNat⟩ = true := by
      unfold vidOwned
      rw [decide_eq_true hg]
      rfl
    have hup : holderUp s (VP_VID g.toNat) = true := by
      unfold holderUp
      rw [holder_vid g]
      exact hans
    unfold startWrite
    rw [hown, if_pos (show (true && (wr (VP_VID g.toNat) v.toNat).src != .own) = true from rfl), if_pos (show holderUp s (wr (VP_VID g.toNat) v.toNat).addr = true from hup)]
    exact respond_host rfl .own 0
  rw [ready_hostWrite hs (regAt_vid g) (by omega), startAccess_wr hmem (regAt_vid g), hstart] at hx
  obtain ⟨hready, hqueue, -⟩ := hs
  rw [workN_stop (work_empty (s := { s with bus := { s.bus with resp := s.bus.resp ++ [⟨.host, .own, 0⟩] } }) hready hqueue)] at hx
  exact gives_of_exec hx rfl rfl ⟨rfl, rfl⟩

theorem gives_vidWrite_air {g : BitVec 3} {v : BitVec 14} {w : Nat} {rest : List (Nat × Nat)} (ha : answers s 0x43 = true)
    (h : takeFirst (fun p : Nat × Nat => p.1 == g.toNat) s.vpm.vidAir = some ((g.toNat, w), rest)) :
    Gives (.vidWrite false g v) s fun t => fget t (VP_VID_VID g.toNat) = w % 2 ^ 14 ∧ t.vpm.vidAir = rest ∧ t.fronds = s.fronds := by
  have hx : exec (.vidWrite false g v) s = nextOf s (pmStep (takeVid { s with vpm := { s.vpm with vidAir := rest } } g.toNat w)) := by
    show execVidWrite false g v s = _
    unfold execVidWrite
    rw [ha, h]
    rfl
  obtain ⟨hshows, hon⟩ := takeVid_spec { s with vpm := { s.vpm with vidAir := rest } } g.isLt w
  generalize takeVid { s with vpm := { s.vpm with vidAir := rest } } g.toNat w = u at hx hshows hon
  exact gives_of_exec hx hon.member hon.pending ⟨hshows, hon.vids, hon.fronds⟩

/-! #### Stage commands (R212) -/

theorem onVpm_restartResult {p : Nat → Prop} (hp : p VP_STAGE_CMD) (s : State) (n c : Nat) : OnVpm p s (restartResult s n c) := by
  unfold restartResult
  split
  · exact (((OnVpm.refl p s).fset (x := VP_STAGE_CMD_RESULT) hp c).fsetB (x := VP_STAGE_CMD_BUSY) hp false).trans (onVpm_updStg _ _ _)
  · exact .refl p s

/-- The registers that the end of a lockout moves: the last record and the stage command. -/
def IsLockoutShown (a : Nat) : Prop := a = VP_STAGE_CMD ∨ IsVpmShown a

theorem not_isLockoutShown_stage {n : Nat} (h : n < 48) : ¬ IsLockoutShown (VP_STAGE n) := by unfold IsLockoutShown IsVpmShown VP_STAGE VP_STAGE_CMD; omega

/-- A stage that is locked out shows state 5 with its cause (R212). -/
theorem lockout_spec (s : State) {n cause : Nat} (h : n < 48) (hc : cause < 16) :
    stSt (lockout s n cause) n = 5 ∧ fget (lockout s n cause) (VP_STAGE_CAUSE n) = cause ∧ OnVpm (fun a => a = VP_STAGE_CMD ∨ IsVpmState a) s (lockout s n cause) := by
  have hid : VP_STAGE n ≠ RZ_ID := by unfold VP_STAGE RZ_ID; omega
  obtain ⟨hst, hcause⟩ := setSt_shows (fset s (VP_STAGE_CAUSE n) cause) h (show 5 < 8 by decide) (by decide)
  have hend : OnVpm IsLockoutShown (setSt (fset s (VP_STAGE_CAUSE n) cause) n 5) (lockout s n cause) :=
    ((onVpm_capture _ _ _ _ _).mono fun _ => Or.inr).trans (onVpm_restartResult (.inl rfl) _ n 5)
  have hset : OnVpm IsVpmState s (setSt (fset s (VP_STAGE_CAUSE n) cause) n 5) := ((OnVpm.refl _ s).fset (x := VP_STAGE_CAUSE n) (isVpmState_stage h) cause).trans (onVpm_setSt _ h 5)
  refine ⟨?_, ?_, (hset.mono fun _ => Or.inr).trans (hend.mono fun a ha => ha.imp_right .inr)⟩
  · unfold stSt at hst ⊢
    rw [if_pos h] at hst ⊢
    exact (hend.fget (x := VP_STAGE_STATE n) (not_isLockoutShown_stage h)).trans hst
  · exact (hend.fget (x := VP_STAGE_CAUSE n) (not_isLockoutShown_stage h)).trans (hcause.trans ((fget_fset_same s (VP_STAGE_CAUSE n) cause hid (show 11 < 64 by decide)).trans (Nat.mod_eq_of_lt hc)))

theorem stSt_congr {t u : State} {n : Nat} (h : fget t (VP_STAGE_STATE n) = fget u (VP_STAGE_STATE n)) : stSt t n = stSt u n := by
  unfold stSt
  rw [h]

theorem fget_stage_stored (w : W64) (v : Nat) {x : Fld} (hx : x.addr ≠ VP_STAGE_CMD) : fget (setReg (committed s VP_STAGE_CMD v) VP_STAGE_CMD w) x = fget s x := fget_setReg_addr (s := committed s VP_STAGE_CMD v) w hx

theorem stage_ne_cmd {n : Nat} (h : n < 48) : VP_STAGE n ≠ VP_STAGE_CMD := by unfold VP_STAGE VP_STAGE_CMD; omega

/-- The stage that a command names. -/
theorem stageCmd_stage {n k : Nat} (h : n < 64) (hk : 64 ∣ k) : bitsOf (n + k) 5 0 = n := by
  show (n + k) / 2 ^ 0 % 2 ^ 6 = n
  omega

theorem gives_stageStop {n : BitVec 6} (h : AtOnce s (.stageStop n)) (hn : n.toNat < 48) (h1 : 1 ≤ stSt s n.toNat) (h3 : stSt s n.toNat ≤ 3) : Gives (.stageStop n) s fun t =>
    stSt t n.toNat = 5 ∧ fget t (VP_STAGE_CAUSE n.toNat) = 12 ∧ fget t VP_STAGE_CMD_RESULT = 0 ∧ Answered (some 0x43) s t := by
  let v := n.toNat + 2 ^ 9
  obtain ⟨w, hstore⟩ := storeAll_setReg regAt_stageCmd rfl (committed s VP_STAGE_CMD v) v
  have hstage : bitsOf v 5 0 = n.toNat := stageCmd_stage n.isLt (by decide)
  have hop : bitsOf v 9 8 = 2 := by
    show (n.toNat + 2 ^ 9) / 2 ^ 8 % 2 ^ 2 = 2
    omega
  have hu : applyReg (committed s VP_STAGE_CMD v) VP_STAGE_CMD ⟨⟨.VP_STAGE_CMD, 0x180, 8, 1, 0x3f, 0x0, 0x0, 0x300, 0x0⟩, 0, 0⟩ v = stageStop (setReg (committed s VP_STAGE_CMD v) VP_STAGE_CMD w) n.toNat := by
    show vpWrite _ .VP_STAGE_CMD 0 v (fun t => storeAll t VP_STAGE_CMD v) = _
    unfold vpWrite
    dsimp only
    rw [hop, hstage, hstore]
    rfl
  have hst : stSt (setReg (committed s VP_STAGE_CMD v) VP_STAGE_CMD w) n.toNat = stSt s n.toNat := stSt_congr (fget_stage_stored w v (stage_ne_cmd hn))
  obtain ⟨hbus, hmember, hpending⟩ : (setReg (committed s VP_STAGE_CMD v) VP_STAGE_CMD w).bus = (committed s VP_STAGE_CMD v).bus ∧
      (setReg (committed s VP_STAGE_CMD v) VP_STAGE_CMD w).member = s.member ∧ (setReg (committed s VP_STAGE_CMD v) VP_STAGE_CMD w).pending = s.pending := ⟨rfl, rfl, rfl⟩
  generalize setReg (committed s VP_STAGE_CMD v) VP_STAGE_CMD w = p at hu hst hbus hmember hpending
  have hstop : stageStop p n.toNat = fset (lockout p n.toNat 12) VP_STAGE_CMD_RESULT 0 := by
    unfold stageStop
    rw [if_neg (by omega), if_pos (by omega)]
  obtain ⟨hshow, hcause, hon⟩ := lockout_spec p hn (show 12 < 16 by decide)
  rw [hstop] at hu
  generalize lockout p n.toNat 12 = q at hu hshow hcause hon
  refine gives_island h rfl regAt_stageCmd (by decide) (by omega) (by decide) hu (hon.bus.trans hbus) (hon.member.trans hmember) (hon.pending.trans hpending) fun t ht hans => ⟨?_, ?_, ?_, hans⟩
  · exact (stSt_congr ((ht.fget _).trans (fget_fset_addr q _ _ 0 (stage_ne_cmd hn)))).trans hshow
  · exact (ht.fget _).trans ((fget_fset_addr q _ _ 0 (stage_ne_cmd hn)).trans hcause)
  · exact (ht.fget _).trans (fget_fset_same q _ 0 (by decide) (by decide))

/-- A restart that nothing refuses sends the stage to its check (R212). -/
theorem stageRestart_go {p : State} {n : Nat} (hn : n < 48) (h5 : stSt p n = 5) (hflt : (stg p n).flt = false) (hin : inputOk p = true) (hgrp : (grp p (fget p (VP_STAGE_GROUP n))).started = true) :
    stageRestart p n = updStg (fsetB (setSt p n 1) VP_STAGE_CMD_BUSY true) n fun x => { x with restart := true } := by
  have hcode : (if 48 ≤ n ∨ stSt p n = 0 then 1 else if stSt p n ≠ 5 then 2 else if (stg p n).flt then 3
      else if inputOk p = false ∨ (grp p (fget p (VP_STAGE_GROUP n))).started = false then 4 else 0) = 0 := by
    rw [h5, hflt, hin, hgrp, if_neg (by omega)]
    rfl
  have hcheck : startCheck p n = setSt p n 1 := by
    unfold startCheck
    rw [hin, hflt]
    rfl
  unfold stageRestart
  dsimp only
  rw [hcode, if_pos rfl, hcheck]

theorem gives_stageRestart {n : BitVec 6} (h : AtOnce s (.stageRestart n)) (hn : n.toNat < 48) (h5 : stSt s n.toNat = 5) (hflt : (stg s n.toNat).flt = false) (hin : inputOk s = true)
    (hgrp : (grp s (fget s (VP_STAGE_GROUP n.toNat))).started = true) : Gives (.stageRestart n) s fun t =>
      stSt t n.toNat = 1 ∧ flag t VP_STAGE_CMD_BUSY = true ∧ (stg t n.toNat).restart = true ∧ Answered (some 0x43) s t := by
  let v := n.toNat + 2 ^ 8
  obtain ⟨w, hstore⟩ := storeAll_setReg regAt_stageCmd rfl (committed s VP_STAGE_CMD v) v
  have hstage : bitsOf v 5 0 = n.toNat := stageCmd_stage n.isLt (by decide)
  have hop : bitsOf v 9 8 = 1 := by
    show (n.toNat + 2 ^ 8) / 2 ^ 8 % 2 ^ 2 = 1
    omega
  have hu : applyReg (committed s VP_STAGE_CMD v) VP_STAGE_CMD ⟨⟨.VP_STAGE_CMD, 0x180, 8, 1, 0x3f, 0x0, 0x0, 0x300, 0x0⟩, 0, 0⟩ v = stageRestart (setReg (committed s VP_STAGE_CMD v) VP_STAGE_CMD w) n.toNat := by
    show vpWrite _ .VP_STAGE_CMD 0 v (fun t => storeAll t VP_STAGE_CMD v) = _
    unfold vpWrite
    dsimp only
    rw [hop, hstage, hstore]
    rfl
  have hst : stSt (setReg (committed s VP_STAGE_CMD v) VP_STAGE_CMD w) n.toNat = 5 := (stSt_congr (fget_stage_stored w v (stage_ne_cmd hn))).trans h5
  have hinput : inputOk (setReg (committed s VP_STAGE_CMD v) VP_STAGE_CMD w) = true := by
    unfold inputOk at hin ⊢
    rw [fget_stage_stored w v (by decide)]
    exact hin
  have hgroup : (grp (setReg (committed s VP_STAGE_CMD v) VP_STAGE_CMD w) (fget (setReg (committed s VP_STAGE_CMD v) VP_STAGE_CMD w) (VP_STAGE_GROUP n.toNat))).started = true := by
    rw [fget_stage_stored w v (stage_ne_cmd hn)]
    exact hgrp
  have hsound : (stg (setReg (committed s VP_STAGE_CMD v) VP_STAGE_CMD w) n.toNat).flt = false := hflt
  rw [stageRestart_go hn hst hsound hinput hgroup] at hu
  obtain ⟨hbus, hmember, hpending⟩ : (setReg (committed s VP_STAGE_CMD v) VP_STAGE_CMD w).bus = (committed s VP_STAGE_CMD v).bus ∧
      (setReg (committed s VP_STAGE_CMD v) VP_STAGE_CMD w).member = s.member ∧ (setReg (committed s VP_STAGE_CMD v) VP_STAGE_CMD w).pending = s.pending := ⟨rfl, rfl, rfl⟩
  generalize setReg (committed s VP_STAGE_CMD v) VP_STAGE_CMD w = p at hu hbus hmember hpending
  obtain ⟨hshow, -⟩ := setSt_shows p hn (show 1 < 8 by decide) (by decide)
  have hon := onVpm_setSt p hn 1
  generalize setSt p n.toNat 1 = q at hu hshow hon
  have hbusy : flag (fsetB q VP_STAGE_CMD_BUSY true) VP_STAGE_CMD_BUSY = true := flag_fsetB_bit q true (by decide) (by decide)
  have hstq : stSt (fsetB q VP_STAGE_CMD_BUSY true) n.toNat = 1 := (stSt_congr (fget_fsetB_addr q _ _ true (stage_ne_cmd hn))).trans hshow
  have honb : OnVpm (fun a => a = VP_STAGE_CMD ∨ IsVpmState a) p (fsetB q VP_STAGE_CMD_BUSY true) := OnVpm.fsetB (p := fun a => a = VP_STAGE_CMD ∨ IsVpmState a) (hon.mono fun _ => Or.inr) (x := VP_STAGE_CMD_BUSY) (.inl rfl) true
  generalize fsetB q VP_STAGE_CMD_BUSY true = r at hu hbusy hstq honb
  refine gives_island h rfl regAt_stageCmd (by decide) (by omega) (by decide) hu (honb.bus.trans hbus) (honb.member.trans hmember) (honb.pending.trans hpending) fun t ht hans =>
    ⟨(stSt_congr (ht.fget _)).trans hstq, (ht.flag _).trans hbusy, ?_, hans⟩
  show (tget {} t.vpm.stages n.toNat).restart = true
  rw [ht.vpm]
  exact congrArg Stage.restart (tget_tset_same ({} : Stage) r.vpm.stages n.toNat _)

/-! #### The last record and the quarantine (R214, R246) -/

theorem gives_lastfClear (h : AtOnce s .lastfClear) : Gives .lastfClear s fun t =>
    flag t VP_LASTF_STAT_VALID = false ∧ flag t VP_LASTF_STAT_PENDING = flag s VP_LASTF_STAT_PENDING ∧ t.flash.vpm0 = none ∧ t.flash.vpm1 = none ∧ Answered (some 0x43) s t := by
  let c := committed s VP_LASTF_STAT (2 ^ 16)
  have hu : applyReg c VP_LASTF_STAT ⟨⟨.VP_LASTF_STAT, 0x740, 8, 1, 0x0, 0x0, 0x0, 0x10000, 0x0⟩, 0, 0⟩ (2 ^ 16) =
      { fsetB c VP_LASTF_STAT_VALID false with flash := { c.flash with vpm0 := none, vpm1 := none } } := by
    show vpWrite c .VP_LASTF_STAT 0 (2 ^ 16) (fun t => storeAll t VP_LASTF_STAT (2 ^ 16)) = _
    unfold vpWrite
    dsimp only
    rw [if_pos (by decide)]
  refine gives_island h rfl regAt_lastfStat (by decide) (by decide) (by decide) hu rfl rfl rfl fun t ht hans => ⟨?_, ?_, ?_, ?_, hans⟩
  · exact (ht.flag _).trans (flag_fsetB_bit c false (by decide) (by decide))
  · exact (ht.flag _).trans (flag_congr_fget (fget_fsetB_disj c VP_LASTF_STAT_VALID VP_LASTF_STAT_PENDING false (by decide) (by decide)))
  · rw [ht.flash]
  · rw [ht.flash]

theorem gives_quarClear {n : BitVec 8} (h : AtOnce s (.quarClear n)) : Gives (.quarClear n) s fun t =>
    flag t (TH_SENS_QUAR n.toNat) = false ∧ fget t (TH_SENS_DEV_RUN n.toNat) = 0 ∧ Answered (some 0x45) s t ∧ t.fronds = s.fronds := by
  let c := committed s (TH_SENS n.toNat) (2 ^ 35)
  have hid : TH_SENS n.toNat ≠ RZ_ID := by unfold TH_SENS RZ_ID; omega
  have hd : holder (TH_SENS n.toNat) = some 0x45 := by
    have hk : (0x31000 + 8 * n.toNat) / 0x10000 = 3 := by omega
    unfold holder TH_SENS
    dsimp only
    rw [hk]
    rfl
  have hu : applyReg c (TH_SENS n.toNat) ⟨thSensRow, 0, n.toNat⟩ (2 ^ 35) = fset (fsetB c (TH_SENS_QUAR n.toNat) false) (TH_SENS_DEV_RUN n.toNat) 0 := by
    show clearQuar c n.toNat (2 ^ 35) = _
    unfold clearQuar
    rw [if_pos (by decide)]
  have hquar : flag (fset (fsetB c (TH_SENS_QUAR n.toNat) false) (TH_SENS_DEV_RUN n.toNat) 0) (TH_SENS_QUAR n.toNat) = false :=
    (flag_congr_fget (fget_fset_bits (fsetB c (TH_SENS_QUAR n.toNat) false) 0 (show 47 < 64 by decide) (.inl (show 35 < 40 by decide)))).trans (flag_fsetB_bit c false hid (by decide))
  have hrun : fget (fset (fsetB c (TH_SENS_QUAR n.toNat) false) (TH_SENS_DEV_RUN n.toNat) 0) (TH_SENS_DEV_RUN n.toNat) = 0 :=
    fget_fset_same (fsetB c (TH_SENS_QUAR n.toNat) false) (TH_SENS_DEV_RUN n.toNat) 0 hid (show 47 < 64 by decide)
  exact gives_island h rfl (regAt_sens n) rfl (by decide) hd hu rfl rfl rfl fun t ht hans => ⟨(ht.flag _).trans hquar, (ht.fget _).trans hrun, hans, ht.fronds⟩

end

/-! ### O26 -/

/-- Settles O26: each row commits at once and acts in the domain of its register; what the act moves is said by the lemmas about loads, performance modes, VIDs and stages. -/
theorem committedCommands : Obligations.CommittedCommands := by
  unfold Obligations.CommittedCommands
  intro s
  refine ⟨?_, ?_, ?_, ?_, ?_, ?_, ?_, ?_, ?_, ?_, ?_, ?_⟩
  · exact fun k h => gives_scalarPush h
  · exact fun d l h => gives_programLoad h
  · exact fun d h => gives_perfModeFree h
  · exact fun d h => gives_perfModeFixed h
  · exact fun d h => gives_perfModeBounded h
  · exact fun g v hg h => gives_vidWrite_host hg h
  · exact fun g v hg hs hans => gives_vidWrite_own hg hs hans
  · exact fun g v w rest hans h => gives_vidWrite_air hans h
  · exact fun n h hn h5 hflt hin hgrp => gives_stageRestart h hn h5 hflt hin hgrp
  · exact fun n h hn h1 h3 => gives_stageStop h hn h1 h3
  · exact gives_lastfClear
  · exact fun n h => gives_quarClear h

end Sys2Proof.Machine
end

section
/-! Issuing one instruction of a loop program in the present cycle: what its lanes answer becomes pending, and its faults are recorded (R69, R90, R94, R95, R106 to R108). -/
namespace Sys2Proof.Machine
open Sys2Proof.Claims

/-! #### The record of a fault (R106 to R108) -/

theorem page_progStat (f : Nat) : FR_PROG_STAT f / 0x10000 = 0x10 + f := by simp only [FR_PROG_STAT]; omega

/-- The bit of FR_PROG_STAT that a fault sets. -/
def faultBit (f : Nat) : PFault → Fld
  | .prog _ => FR_PROG_STAT_PROG f
  | .arith _ => FR_PROG_STAT_ARITH f
  | .range _ => FR_PROG_STAT_RANGE f

/-- No fault has been recorded since the last clear. -/
abbrev NoFaultYet (s : State) (f : Nat) : Prop := fget s (FR_PROG_STAT_PROG f) = 0 ∧ fget s (FR_PROG_STAT_ARITH f) = 0 ∧ fget s (FR_PROG_STAT_RANGE f) = 0

/-- The fields of the first fault (R107). -/
def firstFault (s : State) (f grp pc code lane : Nat) : State :=
  fset (fset (fset (fset s (FR_PROG_STAT_FGROUP f) grp) (FR_PROG_STAT_FCODE f) code) (FR_PROG_STAT_FADDR f) pc) (FR_PROG_STAT_FLANE f) lane

/-- What FCODE and FLANE take from a fault. -/
def faultCode : PFault → Nat
  | .prog c => c
  | _ => 0

def faultLane : PFault → Nat
  | .prog _ => 0
  | .arith l => l
  | .range l => l

/-- The bit of a fault is set, and COUNT rises (R107). -/
def countFault (s : State) (f : Nat) (x : PFault) : State := bump (fset s (faultBit f x) 1) (FR_PROG_STAT_COUNT f)

section
variable (s : State) (f grp pc : Nat) (x : PFault)

theorem recordProg_eq : recordProg s f grp pc x = countFault (if NoFaultYet s f then firstFault s f grp pc (faultCode x) (faultLane x) else s) f x := by
  cases x <;> rfl

/-- A record counts its fault in a state that differs at most in the fields of the first fault. -/
theorem recordProg_counts : ∃ u, recordProg s f grp pc x = countFault u f x ∧ u = { s with regs := u.regs } ∧ ∀ a, a ≠ FR_PROG_STAT f → reg u a = reg s a := by
  refine ⟨_, recordProg_eq s f grp pc x, ?_, fun a ha => ?_⟩
  · split <;> rfl
  · split
    · unfold firstFault
      rw [reg_fset_ne _ _ _ _ ha, reg_fset_ne _ _ _ _ ha, reg_fset_ne _ _ _ _ ha, reg_fset_ne _ _ _ _ ha]
    · rfl

theorem faultBit_addr : (faultBit f x).addr = FR_PROG_STAT f := by cases x <;> rfl

theorem reg_countFault {a : Nat} (ha : a ≠ FR_PROG_STAT f) : reg (countFault s f x) a = reg s a :=
  (reg_fset_ne _ _ _ _ ha).trans (reg_fset_ne _ _ _ _ (faultBit_addr f x ▸ ha))

theorem fget_countFault : fget (countFault s f x) (faultBit f x) = 1 := by
  have hcount : fget (countFault s f x) (faultBit f x) = fget (fset s (faultBit f x) 1) (faultBit f x) := by
    cases x <;> exact fget_fset_bits _ _ (show 47 < 64 by decide) (.inl (by decide))
  rw [hcount]
  cases x <;> exact fget_fset_page _ _ (page_progStat f) (by decide)

/-- Another field of FR_PROG_STAT, between the fault bits and COUNT. -/
theorem fget_countFault_between {hi lo : Nat} (hlo : 2 < lo) (hhi : hi < 32) : fget (countFault s f x) ⟨FR_PROG_STAT f, hi, lo⟩ = fget s ⟨FR_PROG_STAT f, hi, lo⟩ := by
  have hbit : fget (fset s (faultBit f x) 1) ⟨FR_PROG_STAT f, hi, lo⟩ = fget s ⟨FR_PROG_STAT f, hi, lo⟩ := by
    cases x <;> exact fget_fset_bits _ _ (by decide) (.inr (by omega))
  exact (fget_fset_bits _ _ (show 47 < 64 by decide) (.inl hhi)).trans hbit

theorem reg_recordProg {a : Nat} (ha : a ≠ FR_PROG_STAT f) : reg (recordProg s f grp pc x) a = reg s a := by
  obtain ⟨u, hu, _, hreg⟩ := recordProg_counts s f grp pc x
  rw [hu, reg_countFault u f x ha, hreg a ha]

theorem recordProg_rest : recordProg s f grp pc x = { s with regs := (recordProg s f grp pc x).regs } := by
  obtain ⟨u, hu, hrest, _⟩ := recordProg_counts s f grp pc x
  rw [hu, hrest]
  rfl

theorem raiseProg_rest : raiseProg s f pc x = { s with flt := (raiseProg s f pc x).flt } := by
  cases x
  case prog => exact raiseD_rest s 0x32 (some f) pc f
  all_goals
    unfold raiseProg
    dsimp only
    split
    · exact raiseD_rest _ _ _ _ _
    · rfl

theorem reg_progFault_record (a : Nat) : reg (progFault s f grp pc x) a = reg (recordProg s f grp pc x) a := by
  unfold progFault
  rw [raiseProg_rest]
  rfl

theorem fget_progFault_record (y : Fld) : fget (progFault s f grp pc x) y = fget (recordProg s f grp pc x) y := by
  unfold fget
  rw [reg_progFault_record]

theorem progFault_rest : progFault s f grp pc x = { s with regs := (progFault s f grp pc x).regs, flt := (progFault s f grp pc x).flt } := by
  unfold progFault
  rw [raiseProg_rest, recordProg_rest]

/-- The fault shows in FR_PROG_STAT alone (R107). -/
theorem reg_progFault {a : Nat} (ha : a ≠ FR_PROG_STAT f) : reg (progFault s f grp pc x) a = reg s a :=
  (reg_progFault_record s f grp pc x a).trans (reg_recordProg s f grp pc x ha)

theorem fget_progFault_bit : fget (progFault s f grp pc x) (faultBit f x) = 1 := by
  obtain ⟨u, hu, _, _⟩ := recordProg_counts s f grp pc x
  rw [fget_progFault_record, hu, fget_countFault]

theorem inFrond_progFault : InFrond f s (progFault s f grp pc x) := by
  refine ⟨?_, fun g _ => ?_, fun a ha => reg_progFault s f grp pc x fun he => ha (he ▸ page_progStat f)⟩
  · rw [progFault_rest]
  · rw [progFault_rest]
    rfl

theorem fr_progFault (g : Nat) : fr (progFault s f grp pc x) g = fr s g := by
  rw [progFault_rest]
  rfl

/-- A program fault raises source 0x32 with the address (R106). -/
theorem raised_progFault (c : Nat) : Raised 0x32 (some f) pc f s (progFault s f grp pc (.prog c)) := by
  have h : Raised 0x32 (some f) pc f (recordProg s f grp pc (.prog c)) (progFault s f grp pc (.prog c)) := raised_raiseD _ _ _ _ _ (by decide)
  unfold Raised at h ⊢
  rw [h, recordProg_rest]

/-- A fault whose source FR_PROG_CTRL enables is recorded by its bit, and raises source 0x33 if the enable is set (R106). -/
theorem arithFault_of_raise {hi lo : Nat} (hraise : ∀ u, raiseProg u f pc x = if flag u ⟨FR_PROG_CTRL f, hi, lo⟩ = true then raiseF u 0x33 f pc else u) :
    ArithFault f (faultBit f x) ⟨FR_PROG_CTRL f, hi, lo⟩ pc s (progFault s f grp pc x) := by
  have hen : flag (recordProg s f grp pc x) ⟨FR_PROG_CTRL f, hi, lo⟩ = flag s ⟨FR_PROG_CTRL f, hi, lo⟩ :=
    flag_congr_fget (congrArg (fun v : W64 => bitsOf v.toNat hi lo) (reg_recordProg s f grp pc x (by simp only [FR_PROG_CTRL, FR_PROG_STAT]; omega)))
  refine ⟨fget_progFault_bit s f grp pc x, fun a ha => reg_progFault s f grp pc x ha, ?_⟩
  unfold progFault
  rw [hraise, hen, recordProg_rest]
  split
  · exact congrArg State.flt (raiseD_eq _ _ _ _ _ (by decide))
  · rfl

theorem arithFault_progFault (l : Nat) : ArithFault f (FR_PROG_STAT_ARITH f) (FR_PROG_CTRL_ARITH_EN f) pc s (progFault s f grp pc (.arith l)) :=
  arithFault_of_raise s f grp pc (.arith l) fun _ => rfl

theorem rangeFault_progFault (l : Nat) : ArithFault f (FR_PROG_STAT_RANGE f) (FR_PROG_CTRL_RANGE_EN f) pc s (progFault s f grp pc (.range l)) :=
  arithFault_of_raise s f grp pc (.range l) fun _ => rfl

/-- The first fault's group, code, address and lane (R107). -/
theorem fget_progFault_first (c : Nat) (h : NoFaultYet s f) : let t := progFault s f grp pc (.prog c)
    fget t (FR_PROG_STAT_FCODE f) = c % 2 ^ 4 ∧ fget t (FR_PROG_STAT_FGROUP f) = grp % 2 ^ 3 ∧ fget t (FR_PROG_STAT_FLANE f) = 0 ∧ fget t (FR_PROG_STAT_FADDR f) = pc % 2 ^ 12 := by
  have hfield : ∀ {hi lo : Nat}, 2 < lo → hi < 32 → fget (progFault s f grp pc (.prog c)) ⟨FR_PROG_STAT f, hi, lo⟩ = fget (firstFault s f grp pc c 0) ⟨FR_PROG_STAT f, hi, lo⟩ := fun hlo hhi => by
    rw [fget_progFault_record, recordProg_eq, if_pos h, fget_countFault_between _ _ _ hlo hhi]
    rfl
  have hp := page_progStat f
  refine ⟨(hfield (by decide) (by decide)).trans ?_, (hfield (by decide) (by decide)).trans ?_, (hfield (by decide) (by decide)).trans ?_, (hfield (by decide) (by decide)).trans ?_⟩ <;> unfold firstFault
  · rw [fget_fset_bits _ _ (by decide) (by decide), fget_fset_bits _ _ (by decide) (by decide), fget_fset_page _ _ hp (by decide)]
  · rw [fget_fset_bits _ _ (by decide) (by decide), fget_fset_bits _ _ (by decide) (by decide), fget_fset_bits _ _ (by decide) (by decide), fget_fset_page _ _ hp (by decide)]
  · rw [fget_fset_page _ _ hp (by decide), Nat.zero_mod]
  · rw [fget_fset_bits _ _ (by decide) (by decide), fget_fset_page _ _ hp (by decide)]

end

/-! #### The end of an issue (R69, R90) -/

/-- The program's header is no word of FR_PROG_STAT. -/
theorem header_off_progStat {s u : State} {f : Nat} (h : ∀ a, a ≠ FR_PROG_STAT f → reg u a = reg s a) (bd : Binding) : header u f bd = header s f bd := by
  unfold header imem
  rw [h _ (by simp only [FR_IMEM, FR_PROG_STAT]; omega)]

/-- The results ws are pending in frond f and FR_PROG_STAT may show a fault; nothing else has changed since s but the raises in flight. -/
structure Carried (f lat grp : Nat) (ws : List (Dest × Nat)) (s u : State) : Prop where
  inFrond : InFrond f s u
  frond : fr u f = { fr s f with slot := { (fr s f).slot with infl := ws.map fun w => ⟨(fr s f).slot.cyc + lat, grp, w.1, w.2⟩ } }
  regs : ∀ a, a ≠ FR_PROG_STAT f → reg u a = reg s a

section
variable {s u : State} {f lat grp : Nat} {ws : List (Dest × Nat)}

theorem Carried.progFault (h : Carried f lat grp ws s u) (g pc : Nat) (x : PFault) : Carried f lat grp ws s (progFault u f g pc x) where
  inFrond := inFrond_trans h.inFrond (inFrond_progFault u f g pc x)
  frond := (fr_progFault u f g pc x f).trans h.frond
  regs a ha := (reg_progFault u f g pc x ha).trans (h.regs a ha)

/-- With nothing in flight and no result nothing is pending. -/
theorem carried_refl (h : (fr s f).slot.infl = []) : Carried f lat grp [] s s where
  inFrond := ⟨rfl, fun _ _ => rfl, fun _ _ => rfl⟩
  frond := by rw [List.map_nil, ← h]
  regs _ _ := rfl

/-- The next cycle begins, and the run goes on or has ended with the E bit. -/
theorem Carried.finish (h : Carried f lat grp ws s u) {e : Bool} {pc : Nat} {bd : Binding} (hgo : e = true ∨ pc < bd.entry + hdrLen (header s f bd)) (r r' : Run) (hgrp : r.grp = grp) :
    Issued f lat e r { r' with pc := pc } ws s (finishIssue u f r' (fr s f).slot.cyc pc e bd) ∧ InFrond f s (finishIssue u f r' (fr s f).slot.cyc pc e bd) ∧
    (finishIssue u f r' (fr s f).slot.cyc pc e bd).flt = u.flt ∧ ∀ a, reg (finishIssue u f r' (fr s f).slot.cyc pc e bd) a = reg u a := by
  rw [← header_off_progStat h.regs] at hgo
  rw [finishIssue_goes hgo]
  have hin := inFrond_trans h.inFrond (inFrond_updFr u f fun x =>
    { x with slot := { x.slot with cyc := (fr s f).slot.cyc + 1, used := max x.slot.used ((fr s f).slot.cyc + 1), run := if e then none else some { r' with pc := pc } } })
  have ⟨hrest, hothers, _⟩ := hin
  refine ⟨⟨?_, hothers, hrest⟩, hin, rfl, reg_updFr u f _⟩
  rw [fr_updFr_same, h.frond, hgrp]

end

end Sys2Proof.Machine
end

section
/-! The rows of a loop program: an instruction without a stall and without a program fault leaves its results pending; one with a program fault leaves nothing but the record (R69, R94, R95, R106). -/
namespace Sys2Proof.Machine
open Sys2Proof.Claims

/-! #### Program faults (R106, Table 4-8) -/

section
variable {bd : Binding} {sp : OpSpec} {d a b m : Nat} {codes : List Nat}

/-- An instruction whose operands are legal meets no program fault but those of its row (Table 4-8). -/
theorem progCodes_eq_extra (hd : if sp.usesD = true then writable bd d = true else d = 0) (ha : if sp.usesA = true then reservedCode a = false else a = 0)
    (hb : if sp.usesB = true then reservedCode b = false else b = 0) (hm : m &&& sp.named = m) (hpair : sp.pair = true → b ≠ 0x0F ∧ b ≠ 0x2F ∧ ¬ (0x30 ≤ b ∧ b ≤ 0x39))
    (hsecond : sp.second = true → d ≠ 0x0F ∧ d ≠ 0x2F ∧ writable bd (d + 1) = true) (hbfp : sp.bfp = true → (sp.usesA = true → bfpCode a = true) ∧ (sp.usesB = true → bfpCode b = true))
    (hextra : sp.extra = codes) : progCodes bd sp d a b m = codes := by
  subst hextra
  have hD : sp.usesD = true → writable bd d = true := fun h => by rwa [if_pos h] at hd
  have hA : sp.usesA = true → reservedCode a = false := fun h => by rwa [if_pos h] at ha
  have hB : sp.usesB = true → reservedCode b = false := fun h => by rwa [if_pos h] at hb
  have hD0 : sp.usesD = false → d = 0 := fun h => by rwa [h, if_neg Bool.false_ne_true] at hd
  have hA0 : sp.usesA = false → a = 0 := fun h => by rwa [h, if_neg Bool.false_ne_true] at ha
  have hB0 : sp.usesB = false → b = 0 := fun h => by rwa [h, if_neg Bool.false_ne_true] at hb
  unfold progCodes
  rw [if_neg, if_neg, if_neg]
  · rfl
  all_goals simp only [Bool.or_eq_true, Bool.and_eq_true, Bool.not_eq_true', bne_iff_ne, beq_iff_eq, decide_eq_true_eq]
  · rintro (((⟨h, hne⟩ | ⟨h, hne⟩) | ⟨h, hne⟩) | hne)
    · exact hne (hD0 h)
    · exact hne (hA0 h)
    · exact hne (hB0 h)
    · exact hne hm
  · rintro ((((⟨h, hres⟩ | ⟨h, hres⟩) | ⟨h, hend⟩) | ⟨h, hend⟩) | ⟨h, ⟨hu, hcode⟩ | ⟨hu, hcode⟩⟩)
    · exact absurd ((hA h).symm.trans hres) Bool.false_ne_true
    · exact absurd ((hB h).symm.trans hres) Bool.false_ne_true
    · have := hpair h; omega
    · have := hsecond h; omega
    · exact absurd (hcode.symm.trans ((hbfp h).1 hu)) Bool.false_ne_true
    · exact absurd (hcode.symm.trans ((hbfp h).2 hu)) Bool.false_ne_true
  · rintro (⟨h, hw⟩ | ⟨⟨⟨h, _⟩, _⟩, hw⟩)
    · exact absurd (hw.symm.trans (hD h)) Bool.false_ne_true
    · exact absurd (hw.symm.trans (hsecond h).2.2) Bool.false_ne_true

/-- A row without pairs and without the limits of a BFP row. -/
theorem progCodes_plain (hd : if sp.usesD = true then writable bd d = true else d = 0) (ha : if sp.usesA = true then reservedCode a = false else a = 0)
    (hb : if sp.usesB = true then reservedCode b = false else b = 0) (hm : m &&& sp.named = m) (hpair : sp.pair = false) (hsecond : sp.second = false) (hbfp : sp.bfp = false)
    (hextra : sp.extra = codes) : progCodes bd sp d a b m = codes :=
  progCodes_eq_extra hd ha hb hm (fun h => absurd (hpair.symm.trans h) Bool.false_ne_true) (fun h => absurd (hsecond.symm.trans h) Bool.false_ne_true)
    (fun h => absurd (hbfp.symm.trans h) Bool.false_ne_true) hextra

end

/-! #### What an issued instruction leaves (R69, R94, R95, R106) -/

/-- The run after an instruction that issues in cycle c and whose lanes answer o. -/
def runAfter (sp : OpSpec) (r : Run) (c : Nat) (o : LaneOut) : Run :=
  { r with pc := o.jump.getD (r.pc + 1), m := o.m.getD r.m, sx := o.sx.getD r.sx, sf := o.sf.getD r.sf, sxAt := if sp.sx then c + sp.lat else r.sxAt }

/-- The faults that the lanes have met are recorded: a range fault before an arithmetic one (R106, log entry 108). -/
def recordLanes (s : State) (f grp pc : Nat) (o : LaneOut) : State :=
  match o.range with
  | l :: _ => progFault s f grp pc (.range l)
  | [] => match o.arith with
    | l :: _ => progFault s f grp pc (.arith l)
    | [] => s

/-- What the record of the lanes' faults shows (R106 to R108). -/
structure LaneFaults (f : Nat) (o : LaneOut) (pc : Nat) (s t : State) : Prop where
  clean : o.range = [] → o.arith = [] → Clean s t
  arith : o.range = [] → o.arith ≠ [] → ArithFault f (FR_PROG_STAT_ARITH f) (FR_PROG_CTRL_ARITH_EN f) pc s t
  range : o.range ≠ [] → ArithFault f (FR_PROG_STAT_RANGE f) (FR_PROG_CTRL_RANGE_EN f) pc s t

theorem clean_congr {s s' t t' : State} (hs : Clean s s') (ht : Clean t t') (h : Clean s' t) : Clean s t' := by
  obtain ⟨hsflt, hsreg⟩ := hs
  obtain ⟨htflt, htreg⟩ := ht
  obtain ⟨hflt, hreg⟩ := h
  exact ⟨htflt.trans (hflt.trans hsflt), fun a => (htreg a).trans ((hreg a).trans (hsreg a))⟩

/-- The record of a fault reads FR_PROG_CTRL and the raises alone. -/
theorem arithFault_congr {f pc : Nat} {bit en : Fld} {s s' t t' : State} (hs : Clean s s') (ht : Clean t t') (h : ArithFault f bit en pc s' t) : ArithFault f bit en pc s t' := by
  obtain ⟨hsflt, hsreg⟩ := hs
  obtain ⟨htflt, htreg⟩ := ht
  obtain ⟨hbit, hreg, hflt⟩ := h
  have hen : flag s' en = flag s en := by unfold flag fget; rw [hsreg]
  have hbit' : fget t' bit = fget t bit := by unfold fget; rw [htreg]
  refine ⟨hbit'.trans hbit, fun a ha => (htreg a).trans ((hreg a ha).trans (hsreg a)), ?_⟩
  rw [htflt, hflt, hen, hsflt]

theorem laneFaults_recordLanes (s : State) (f grp pc : Nat) (o : LaneOut) : LaneFaults f o pc s (recordLanes s f grp pc o) := by
  unfold recordLanes
  cases hr : o.range with
  | cons l ls =>
    have hne : o.range ≠ [] := hr ▸ List.cons_ne_nil l ls
    exact ⟨fun h => absurd h hne, fun h => absurd h hne, fun _ => rangeFault_progFault s f grp pc l⟩
  | nil =>
    cases ha : o.arith with
    | cons l ls => exact ⟨fun _ h => absurd h (ha ▸ List.cons_ne_nil l ls), fun _ _ => arithFault_progFault s f grp pc l, fun h => absurd hr h⟩
    | nil => exact ⟨fun _ _ => ⟨rfl, fun _ => rfl⟩, fun _ h => absurd ha h, fun h => absurd hr h⟩

theorem laneFaults_congr {f pc : Nat} {o : LaneOut} {s s' t t' : State} (hs : Clean s s') (ht : Clean t t') (h : LaneFaults f o pc s' t) : LaneFaults f o pc s t' where
  clean hr ha := clean_congr hs ht (h.clean hr ha)
  arith hr ha := arithFault_congr hs ht (h.arith hr ha)
  range hr := arithFault_congr hs ht (h.range hr)

theorem Carried.recordLanes {s u : State} {f lat grp : Nat} {ws : List (Dest × Nat)} (h : Carried f lat grp ws s u) (g pc : Nat) (o : LaneOut) : Carried f lat grp ws s (recordLanes u f g pc o) := by
  unfold Machine.recordLanes
  split
  · exact h.progFault g pc _
  · split
    · exact h.progFault g pc _
    · exact h

theorem clean_pendingAfter (s : State) (f c lat grp : Nat) (ws : List (Dest × Nat)) : Clean s (pendingAfter (issueBase s f c) f c lat grp ws) :=
  ⟨rfl, fun a => (reg_updFr (issueBase s f c) f _ a).trans (reg_issueBase s f c a)⟩

/-- The results become pending after what has been read (R95). -/
theorem carried_pendingAfter {s : State} {f : Nat} (hinfl : (fr s f).slot.infl = []) (lat grp : Nat) (ws : List (Dest × Nat)) :
    Carried f lat grp ws s (pendingAfter (issueBase s f (fr s f).slot.cyc) f (fr s f).slot.cyc lat grp ws) where
  inFrond := inFrond_trans (inFrond_trans (inFrond_updFr s f _) (inFrond_fset _ _ (page_schedStat f))) (inFrond_updFr _ f _)
  frond := by
    unfold pendingAfter
    rw [fr_updFr_same, fr_issueBase s f _ hinfl, hinfl]
    rfl
  regs a _ := (clean_pendingAfter s f _ lat grp ws).2 a

/-! What an instruction about to issue finds. -/

theorem infl_of_issuing {s : State} {f word : Nat} {e : Bool} {r : Run} (hi : Issuing s f word e r) : (fr s f).slot.infl = [] := by
  obtain ⟨_, _, _, _, _, hinfl, _⟩ := hi
  exact hinfl

theorem goes_of_issuing {s : State} {f word : Nat} {e : Bool} {r : Run} (hi : Issuing s f word e r) :
    e = true ∨ r.pc + 1 < (binding s f r.grp).entry + hdrLen (header s f (binding s f r.grp)) := by
  obtain ⟨_, _, _, _, _, _, _, _, hend⟩ := hi
  exact hend

theorem run_of_issuing {s : State} {f word : Nat} {e : Bool} {r : Run} (hi : Issuing s f word e r) : (fr s f).slot.run = some r := by
  obtain ⟨_, _, hrun, _⟩ := hi
  exact hrun

section
variable {i : Instr} {s : State} {f word d a b m : Nat} {e : Bool} {sp : OpSpec} {srcLanes : Run → Binding → List Nat} {outHit : Dest → Bool} {body : State → Run → Binding → LaneOut} {r : Run}

/-- A row that meets no program fault: its lanes answer o in the present cycle. -/
theorem gives_issue {o : LaneOut} (hi : Issuing s f word e r) (hx : exec i s = nextOf s (issueOp s f word e sp d a b m srcLanes outHit body))
    (hp : progCodes (binding s f r.grp) sp d a b m = []) (ho : body (issueBase s f (fr s f).slot.cyc) r (binding s f r.grp) = o)
    (hgo : e = true ∨ o.jump.getD (r.pc + 1) < (binding s f r.grp).entry + hdrLen (header s f (binding s f r.grp))) :
    Gives i s fun t => LaneFaults f o r.pc s t ∧ Issued f sp.lat e r (runAfter sp r (fr s f).slot.cyc o) o.writes s t := by
  obtain ⟨hf, hr, hrun, hw, hfe, hinfl, hsx, hc, _⟩ := hi
  let c := (fr s f).slot.cyc
  let u := pendingAfter (issueBase s f c) f c sp.lat r.grp o.writes
  have hacts : exec i s = nextOf s (finishIssue (recordLanes u f r.grp r.pc o) f
      { r with m := o.m.getD r.m, sx := o.sx.getD r.sx, sf := o.sf.getD r.sf, sxAt := if sp.sx then c + sp.lat else r.sxAt } c (o.jump.getD (r.pc + 1)) e (binding s f r.grp)) := by
    rw [hx, issueOp_acts hf hr hrun hw hfe hinfl hsx hc (by rw [hp]; rfl)]
    subst ho
    rfl
  have hu : Carried f sp.lat r.grp o.writes s u := carried_pendingAfter hinfl sp.lat r.grp o.writes
  obtain ⟨hissued, hin, hflt, hregs⟩ := (hu.recordLanes r.grp r.pc o).finish hgo r
    { r with m := o.m.getD r.m, sx := o.sx.getD r.sx, sf := o.sf.getD r.sf, sxAt := if sp.sx then c + sp.lat else r.sxAt } rfl
  exact gives_inFrond hacts hin fun _ =>
    ⟨laneFaults_congr (clean_pendingAfter s f c sp.lat r.grp o.writes) ⟨hflt, hregs⟩ (laneFaults_recordLanes u f r.grp r.pc o), hissued⟩

/-- A row whose lanes meet no fault and that goes on at the next word. -/
theorem gives_clean {o : LaneOut} {r' : Run} (hi : Issuing s f word e r) (hx : exec i s = nextOf s (issueOp s f word e sp d a b m srcLanes outHit body))
    (hp : progCodes (binding s f r.grp) sp d a b m = []) (ho : body (issueBase s f (fr s f).slot.cyc) r (binding s f r.grp) = o)
    (hrange : o.range = []) (harith : o.arith = []) (hjump : o.jump = none) (hrun : runAfter sp r (fr s f).slot.cyc o = r') :
    Gives i s fun t => Clean s t ∧ Issued f sp.lat e r r' o.writes s t := by
  subst hrun
  exact gives_imp (gives_issue hi hx hp ho (by rw [hjump]; exact goes_of_issuing hi)) fun t ⟨hfaults, hissued⟩ => ⟨hfaults.clean hrange harith, hissued⟩

/-- A row that only writes. -/
theorem gives_writes {ws : List (Dest × Nat)} (hi : Issuing s f word e r) (hx : exec i s = nextOf s (issueOp s f word e sp d a b m srcLanes outHit body))
    (hp : progCodes (binding s f r.grp) sp d a b m = []) (hsx : sp.sx = false) (ho : body (issueBase s f (fr s f).slot.cyc) r (binding s f r.grp) = { writes := ws }) :
    Gives i s fun t => Clean s t ∧ Issued f sp.lat e r { r with pc := r.pc + 1 } ws s t :=
  gives_clean hi hx hp ho rfl rfl rfl (by unfold runAfter; rw [hsx]; rfl)

/-- A form-R row that only writes. -/
theorem gives_row {w : RForm} {opc : Nat} {ws : List (Dest × Nat)} (hi : Issuing s f (encR opc w) w.e r) (hx : exec i s = nextOf s (issueR f opc w sp srcLanes body s))
    (hp : progCodes (binding s f r.grp) sp w.d.toNat w.a.toNat w.b.toNat w.m.toNat = []) (hsx : sp.sx = false)
    (ho : body (issueBase s f (fr s f).slot.cyc) r (binding s f r.grp) = { writes := ws }) :
    Gives i s fun t => Clean s t ∧ Issued f sp.lat w.e r { r with pc := r.pc + 1 } ws s t := by
  unfold issueR at hx
  exact gives_writes hi hx hp hsx ho

/-- A row that meets a program fault is dropped: the fault is recorded and raised, and the word does nothing else (R106). -/
theorem gives_progFault {code : Nat} (hi : Issuing s f word e r) (hx : exec i s = nextOf s (issueOp s f word e sp d a b m srcLanes outHit body))
    (hp : progCodes (binding s f r.grp) sp d a b m = [code]) : Gives i s fun t =>
      Raised 0x32 (some f) r.pc f s t ∧ Issued f 1 e r { r with pc := r.pc + 1 } [] s t ∧ ∀ a, reg t a = reg (progFault s f r.grp r.pc (.prog code)) a := by
  obtain ⟨hf, hr, hrun, hw, hfe, hinfl, hsx, hc, hend⟩ := hi
  have hdrop : exec i s = nextOf s (finishIssue (progFault s f r.grp r.pc (.prog code)) f r (fr s f).slot.cyc (r.pc + 1) e (binding s f r.grp)) := by
    rw [hx]
    unfold issueOp
    rw [hrun]
    simp only [hf, hr, hw, bne_self_eq_false, Bool.not_true, Bool.or_false, Bool.false_eq_true, if_false, if_neg (Nat.not_le.mpr hc), fetchWord_clean hfe, hp, lowestCode]
  obtain ⟨hissued, hin, hflt, hregs⟩ := ((carried_refl (lat := 1) (grp := r.grp) hinfl).progFault r.grp r.pc (.prog code)).finish hend r r rfl
  refine gives_inFrond hdrop hin fun _ => ⟨?_, hissued, hregs⟩
  unfold Raised
  rw [hflt]
  exact raised_progFault s f r.grp r.pc code

end

end Sys2Proof.Machine
end

section
/-! Integer rows of a loop program: one result per lane in M (R95, R99, R100, R109, R133). -/
namespace Sys2Proof.Machine
open Sys2Proof.Claims

/-! #### Arithmetic on patterns -/

theorem sra_eq (v : Int) (n : Nat) : sra v n = v / 2 ^ n := by
  unfold sra
  push_cast
  rfl

theorem bitOf_four (m : Nat) : bitOf m 4 = true ↔ m / 16 % 2 = 1 := by simp [bitOf]

/-- A MOD field whose named bits are all there is. -/
theorem mod_of_and_seven {m : Nat} (h : m &&& 7 = m) : m % 8 = m := (Nat.and_two_pow_sub_one_eq_mod m 3).symm.trans h

theorem bitOf_zero_of_and_one {m : Nat} (h : m &&& 1 = m) : bitOf m 0 = true ↔ m = 1 := by
  have hm : m % 2 = m := (Nat.and_two_pow_sub_one_eq_mod m 1).symm.trans h
  simp [bitOf, hm]

theorem bitOf_four_of_and_sixteen {m : Nat} (hm : m < 32) (h : m &&& 16 = m) : bitOf m 4 = true ↔ m ≠ 0 := by
  revert m
  decide

/-! #### Rows of A, B and D -/

/-- A row whose lanes compute fn of A, B and D, over the MOD bits that it names. -/
theorem aluRow_of {i : Nat → RForm → Instr} {opc named lat : Nat} {readD : Bool} {fn : Nat → Nat → Nat → Nat → Nat} {g : RForm → Nat → Nat → Nat → Nat → Nat}
    (hx : ∀ f w s, exec (i f w) s = nextOf s (issueAlu f opc w { named := named, lat := lat, readD := readD } (g w) s))
    (hg : ∀ w : RForm, w.m.toNat &&& named = w.m.toNat → ∀ n a b d, g w n a b d = fn w.m.toNat a b d) : AluRow i opc named lat fn := by
  intro s f w r hi ⟨hd, ha, hb, hm⟩
  have hxw := hx f w s
  unfold issueAlu at hxw
  refine gives_row hi hxw (progCodes_plain hd ha hb hm rfl rfl rfl rfl) rfl ?_
  simp only [operand_issueBase _ _ _ _ _ (infl_of_issuing hi), hg w hm, writeLanes, lanesM, List.map_map, Function.comp_def]

/-- A row of A alone. -/
theorem gives_alu1 {i : Instr} {s : State} {f opc named : Nat} {w : RForm} {r : Run} {g : Nat → Nat} (hx : exec i s = nextOf s (issueAlu1 f opc w { named := named } g s))
    (hi : Issuing s f (encR opc w) w.e r) (hlegal : LegalR s f r w named) (hb : w.b = 0) : Gives i s fun t => Clean s t ∧
      Issued f 1 w.e r { r with pc := r.pc + 1 } ((bitList 32 r.m).map fun n => (.reg w.d.toNat n, g (operand s f w.a.toNat n))) s t := by
  obtain ⟨hd, ha, _, hm⟩ := hlegal
  unfold issueAlu1 at hx
  refine gives_row hi hx (progCodes_plain hd ha (congrArg BitVec.toNat hb) hm rfl rfl rfl rfl) rfl ?_
  simp only [operand_issueBase _ _ _ _ _ (infl_of_issuing hi), writeLanes, lanesM, List.map_map, Function.comp_def]

/-- Settles O10: each row of A, B and D by the function of its lanes, and the shifts as rows of A alone (R99). -/
theorem laneArithmetic : Obligations.LaneArithmetic := by
  unfold Obligations.LaneArithmetic
  refine ⟨aluRow_of (fun _ _ _ => rfl) fun w _ n a b d => ?add, aluRow_of (fun _ _ _ => rfl) fun w _ n a b d => ?sub, aluRow_of (fun _ _ _ => rfl) fun w _ n a b d => ?sbs,
    aluRow_of (fun _ _ _ => rfl) fun w hm n a b d => ?adf, aluRow_of (fun _ _ _ => rfl) fun w _ n a b d => ?intg, aluRow_of (fun _ _ _ => rfl) fun w _ n a b d => ?min,
    aluRow_of (fun _ _ _ => rfl) fun w _ n a b d => ?max, aluRow_of (fun _ _ _ => rfl) fun w _ n a b d => rfl, aluRow_of (fun _ _ _ => rfl) fun w _ n a b d => rfl,
    aluRow_of (fun _ _ _ => rfl) fun w _ n a b d => rfl, aluRow_of (fun _ _ _ => rfl) fun w _ n a b d => rfl, aluRow_of (fun _ _ _ => rfl) fun w hm n a b d => ?cmp,
    aluRow_of (fun _ _ _ => rfl) fun w hm n a b d => ?imul, fun s f w r hi hl hb => gives_alu1 (g := fun a => a * 2 ^ w.m.toNat % 2 ^ 32) rfl hi hl hb,
    fun s f w r hi hl hb => gives_alu1 (g := fun a => a / 2 ^ w.m.toNat) rfl hi hl hb, fun s f w r hi hl hb => ?sra⟩
  case add => simp only [bitOf_four, sra_eq]
  case sub => simp only [bitOf_four, sra_eq]
  case sbs => simp only [sra_eq]
  case adf => simp only [bitOf_four_of_and_sixteen w.m.isLt hm, ne_eq, ite_not]
  case intg => simp only [sra_eq]
  case min => simp only [← Int.not_lt, ite_not]
  case max => simp only [ge_iff_le, ← Int.not_lt, ite_not]
  case cmp => simp only [mod_of_and_seven hm]
  case imul => simp only [bitOf_zero_of_and_one hm]
  case sra =>
    refine gives_imp (gives_alu1 rfl hi hl hb) fun t ht => ?_
    simpa only [sra_eq] using ht

/-! #### Rows with an immediate -/

/-- The immediate has no bit that its row does not name. -/
theorem imm_named (x : BitVec 12) : x.toNat &&& 0xFFF = x.toNat := (Nat.and_two_pow_sub_one_eq_mod x.toNat 12).trans (Nat.mod_eq_of_lt x.isLt)

section
variable {i : Instr} {s : State} {f opc : Nat} {w : IForm} {r : Run} {g : Nat → Nat}

/-- A form-I row that writes D. -/
theorem gives_imm {usesA : Bool} {extra : List Nat} {body : State → Run → Binding → LaneOut} {ws : List (Dest × Nat)}
    (hx : exec i s = nextOf s (issueI f opc w { usesD := true, usesA := usesA, named := 0xFFF, extra := extra } body s))
    (hi : Issuing s f (encI opc w) w.e r) (hd : writable (binding s f r.grp) w.d.toNat = true) (ha : if usesA = true then reservedCode w.a.toNat = false else w.a.toNat = 0) (hextra : extra = [])
    (ho : body (issueBase s f (fr s f).slot.cyc) r (binding s f r.grp) = { writes := ws }) :
    Gives i s fun t => Clean s t ∧ Issued f 1 w.e r { r with pc := r.pc + 1 } ws s t := by
  unfold issueI at hx
  exact gives_writes hi hx (progCodes_plain hd ha rfl (imm_named w.imm) rfl rfl rfl hextra) rfl ho

end

/-- Settles O11: ADDI, TST and SELI read A, MOVI reads nothing (R99). -/
theorem laneImmediates : Obligations.LaneImmediates := by
  unfold Obligations.LaneImmediates
  refine fun s f w r hd ha => ⟨fun hi => ?addi, fun hi h0 => ?movi, fun hi => ?tst, fun hi => ?seli⟩
  case movi => exact gives_imm (usesA := false) rfl hi hd (congrArg BitVec.toNat h0) rfl rfl
  all_goals exact gives_imm (usesA := true) rfl hi hd ha rfl (by simp only [operand_issueBase _ _ _ _ _ (infl_of_issuing hi)]; rfl)

/-! #### EXT (R109, Table 4-7) -/

/-- A field of at most 32 bits, sign-extended to 32 bits. -/
theorem wrap32_signedOf {len v : Nat} (h1 : len ≤ 32) (hv : v < 2 ^ len) : wrap32 (signedOf len v) = if 2 ^ (len - 1) ≤ v then v + (2 ^ 32 - 2 ^ len) else v := by
  have hle : 2 ^ len ≤ 2 ^ 32 := Nat.pow_le_pow_right (by decide) h1
  unfold wrap32 patOf signedOf
  rw [Nat.mod_eq_of_lt hv]
  by_cases hs : 2 ^ (len - 1) ≤ v
  · rw [if_pos hs, if_neg (Nat.not_lt.mpr hs)]
    omega
  · rw [if_neg hs, if_pos (Nat.not_le.mp hs)]
    omega

/-- The fields of an immediate (Table 4-7). -/
theorem extImm_eq (x : BitVec 12) : bitsOf x.toNat 4 0 = x.toNat % 32 ∧ bitsOf x.toNat 9 5 = x.toNat / 32 % 32 ∧ bitOf x.toNat 10 = x.getLsbD 10 ∧ bitOf x.toNat 11 = x.getLsbD 11 :=
  ⟨by simp [bitsOf], rfl, bitOf_eq_testBit _ _, bitOf_eq_testBit _ _⟩

/-- The field leaves the word, or HI names the high word of what is no scalar (R109). -/
abbrev ExtOut (w : IForm) : Prop := w.imm.toNat % 32 + (w.imm.toNat / 32 % 32 + 1) > 32 ∨ w.imm.getLsbD 11 = true ∧ w.a.toNat < 0x40

/-- The program fault that the row adds (R109). -/
def extExtra (w : IForm) : List Nat := if bitsOf w.imm.toNat 4 0 + (bitsOf w.imm.toNat 9 5 + 1) > 32 ∨ (bitOf w.imm.toNat 11 = true ∧ w.a.toNat < 0x40) then [4] else []

theorem extExtra_in {w : IForm} (h : ¬ ExtOut w) : extExtra w = [] := by
  obtain ⟨hpos, hlen, _, hhi⟩ := extImm_eq w.imm
  unfold extExtra
  rw [hpos, hlen, hhi, if_neg h]

theorem extExtra_out {w : IForm} (h : ExtOut w) : extExtra w = [4] := by
  obtain ⟨hpos, hlen, _, hhi⟩ := extImm_eq w.imm
  unfold extExtra
  rw [hpos, hlen, hhi, if_pos h]

/-- What the row writes in a lane whose selected word is x. -/
theorem extValue_eq (w : IForm) (x : Nat) : let pos := w.imm.toNat % 32
    let len := w.imm.toNat / 32 % 32 + 1
    let part := x / 2 ^ pos % 2 ^ len
    (let v := bitsOf x (bitsOf w.imm.toNat 4 0 + (bitsOf w.imm.toNat 9 5 + 1) - 1) (bitsOf w.imm.toNat 4 0)
     if bitOf w.imm.toNat 10 = true then wrap32 (signedOf (bitsOf w.imm.toNat 9 5 + 1) v) else v) =
      if w.imm.getLsbD 10 = true ∧ 2 ^ (len - 1) ≤ part then part + (2 ^ 32 - 2 ^ len) else part := by
  obtain ⟨hpos, hlen, hsgn, _⟩ := extImm_eq w.imm
  have hlen32 : w.imm.toNat / 32 % 32 + 1 ≤ 32 := Nat.mod_lt _ (by decide)
  have hwidth : w.imm.toNat % 32 + (w.imm.toNat / 32 % 32 + 1) - 1 + 1 - w.imm.toNat % 32 = w.imm.toNat / 32 % 32 + 1 := by omega
  intro pos len part
  have hv : bitsOf x (pos + len - 1) pos = part := by unfold bitsOf; rw [hwidth]
  rw [hpos, hlen, hsgn]
  dsimp only
  rw [hv, wrap32_signedOf hlen32 (Nat.mod_lt _ (Nat.two_pow_pos len))]
  cases w.imm.getLsbD 10
  · exact (if_neg Bool.false_ne_true).trans (if_neg (by simp)).symm
  · simp only [if_true, true_and]
    rfl

/-- Settles O12: a field in its word by the value of each lane; outside it, or with HI of no scalar, a program fault of code 4 and nothing else (R106 to R109, Tables 4-7 and 4-8). -/
theorem extractField : Obligations.ExtractField := by
  unfold Obligations.ExtractField
  refine fun s f w r hi hd ha => ⟨fun hin hhi => ?_, fun hout => ?_⟩
  · have hok : ¬ ExtOut w := fun h => h.elim (fun h => by omega) fun ⟨hset, hlow⟩ => absurd (hhi hset) (Nat.not_le.mpr hlow)
    obtain ⟨_, _, _, hhigh⟩ := extImm_eq w.imm
    refine gives_imm (usesA := true) (extra := extExtra w) rfl hi hd ha (extExtra_in hok) ?_
    simp only [operand_issueBase _ _ _ _ _ (infl_of_issuing hi), operandHi_issueBase, extValue_eq, hhigh, writeLanes, lanesM, List.map_map, Function.comp_def]
  · have hx : exec (.ext f w) s = nextOf s (issueOp s f (encI 0x1C w) w.e { usesD := true, usesA := true, named := 0xFFF, extra := extExtra w } w.d.toNat w.a.toNat 0 w.imm.toNat
      (fun r _ => lanesM r) (fun _ => false) _) := rfl
    refine gives_imp (gives_progFault hi hx (progCodes_plain hd ha rfl (imm_named w.imm) rfl rfl rfl (extExtra_out hout))) fun t ⟨hraised, hissued, hreg⟩ => ?_
    refine ⟨?_, hraised, hissued⟩
    exact (congrArg (fun v : W64 => bitsOf v.toNat 0 0) (hreg _)).trans (fget_progFault_bit s f r.grp r.pc (.prog 4))

end Sys2Proof.Machine
end

section
/-! Rows whose lanes may keep D, and rows of register pairs: INTGF, SEL, BND and BFY (R99, R100, R133). -/
namespace Sys2Proof.Machine
open Sys2Proof.Claims

/-! #### Rows whose lanes may keep D -/

theorem filterMap_ite_some {α β : Type} (p : α → Bool) (g : α → β) (l : List α) : (l.filterMap fun x => if p x = true then some (g x) else none) = (l.filter p).map g := by
  induction l with
  | nil => rfl
  | cons x xs ih => cases hx : p x <;> simp [hx, ih]

section
variable {i : Instr} {s : State} {f opc named lat : Nat} {readD : Bool} {w : RForm} {r : Run}

/-- A row whose lane n answers val n where keep n holds, and has met an arithmetic fault where sat n holds. -/
theorem gives_opt {fn : State → Nat → Nat → Nat → Nat → Option Nat × Bool} {keep sat : Nat → Bool} {val : Nat → Nat}
    (hx : exec i s = nextOf s (issueOpt f opc w { named := named, lat := lat, readD := readD } fn s)) (hi : Issuing s f (encR opc w) w.e r) (hlegal : LegalR s f r w named)
    (hfn : ∀ n, fn (issueBase s f (fr s f).slot.cyc) n (operand s f w.a.toNat n) (operand s f w.b.toNat n) (operand s f w.d.toNat n) = (if keep n = true then some (val n) else none, sat n)) :
    let ws := ((bitList 32 r.m).filter keep).map fun n => (.reg w.d.toNat n, val n)
    Gives i s fun t => LaneFaults f { writes := ws, arith := (bitList 32 r.m).filter sat } r.pc s t ∧ Issued f lat w.e r { r with pc := r.pc + 1 } ws s t := by
  obtain ⟨hd, ha, hb, hm⟩ := hlegal
  unfold issueOpt issueR at hx
  refine gives_issue hi hx (progCodes_plain hd ha hb hm rfl rfl rfl rfl) ?_ (goes_of_issuing hi)
  have hkeep : ∀ n, ((if keep n = true then some (val n) else none).map fun v => (n, v)) = if keep n = true then some (n, val n) else none := fun n => by
    cases keep n <;> rfl
  simp only [operand_issueBase _ _ _ _ _ (infl_of_issuing hi), hfn, writeLanes, lanesM, List.filterMap_map, List.filter_map, List.map_map, Function.comp_def, hkeep, filterMap_ite_some, List.map_id']

/-- One whose lanes meet no fault. -/
theorem gives_opt_clean {fn : State → Nat → Nat → Nat → Nat → Option Nat × Bool} {keep : Nat → Bool} {val : Nat → Nat}
    (hx : exec i s = nextOf s (issueOpt f opc w { named := named, lat := lat, readD := readD } fn s)) (hi : Issuing s f (encR opc w) w.e r) (hlegal : LegalR s f r w named)
    (hfn : ∀ n, fn (issueBase s f (fr s f).slot.cyc) n (operand s f w.a.toNat n) (operand s f w.b.toNat n) (operand s f w.d.toNat n) = (if keep n = true then some (val n) else none, false)) :
    Gives i s fun t => Clean s t ∧ Issued f lat w.e r { r with pc := r.pc + 1 } (((bitList 32 r.m).filter keep).map fun n => (.reg w.d.toNat n, val n)) s t :=
  gives_imp (gives_opt (sat := fun _ => false) hx hi hlegal hfn) fun _ ⟨hfaults, hissued⟩ => ⟨hfaults.clean rfl (List.filter_false _), hissued⟩

/-- The increment has the sign of the saturation that is not 0 (R133). -/
theorem sameSign_iff (sat inc : Int) : (sat > 0 ∧ inc > 0) ∨ (sat < 0 ∧ inc < 0) ↔ 0 < sat * inc := mul_pos_iff.symm

end

section
variable {s : State} {f : Nat} {w : RForm} {r : Run}

theorem gives_intgf (hi : Issuing s f (encR 0x06 w) w.e r) (hlegal : LegalR s f r w 0) :
    let inc := fun n => s32 (operand s f w.a.toNat n) / (2 : Int) ^ (operand s f w.b.toNat n % 32)
    Gives (.intgf f w) s fun t => Clean s t ∧ Issued f 1 w.e r { r with pc := r.pc + 1 }
      (((bitList 32 r.m).filter fun n => decide ¬ (0 < (fr s f).law.sat * inc n)).map fun n => (.reg w.d.toNat n, sat32 (s32 (operand s f w.d.toNat n) + inc n))) s t := by
  intro inc
  refine gives_opt_clean rfl hi hlegal fun n => ?_
  simp only [fr_issueBase s f _ (infl_of_issuing hi), sra_eq, sameSign_iff, decide_eq_true_eq, ite_not]
  split <;> rfl

theorem gives_sel (hi : Issuing s f (encR 0x11 w) w.e r) (hlegal : LegalR s f r w 0) : Gives (.sel f w) s fun t => Clean s t ∧ Issued f 1 w.e r { r with pc := r.pc + 1 }
      (((bitList 32 r.m).filter fun n => operand s f w.a.toNat n != 0).map fun n => (.reg w.d.toNat n, operand s f w.b.toNat n)) s t := by
  refine gives_opt_clean rfl hi hlegal fun n => ?_
  simp only [bne_iff_ne, ne_eq, ite_not]
  split <;> rfl

/-- BND reads its edges from a scalar's two words or from a register and the one after it (R100). -/
theorem gives_bnd (hi : Issuing s f (encR 0x12 w) w.e r) (hlegal : LegalR s f r w 0) (hpair : 0x40 ≤ w.b.toNat ∨ w.b.toNat < 0x30 ∧ w.b.toNat ≠ 0x0F ∧ w.b.toNat ≠ 0x2F) :
    Gives (.bnd f w) s fun t => Clean s t ∧ Issued f 1 w.e r { r with pc := r.pc + 1 } ((bitList 32 r.m).map fun n => (.reg w.d.toNat n,
      bandState (operand s f w.a.toNat n) (operand s f w.b.toNat n) (if w.b.toNat < 0x40 then operand s f (w.b.toNat + 1) n else operandHi s f w.b.toNat))) s t := by
  obtain ⟨hd, ha, hb, hm⟩ := hlegal
  refine gives_row hi (i := .bnd f w) rfl (progCodes_eq_extra hd ha hb hm (fun _ => by omega) nofun nofun rfl) rfl ?_
  simp only [operand_issueBase _ _ _ _ _ (infl_of_issuing hi), operandHi_issueBase, writeLanes, lanesM, List.map_map, Function.comp_def]

theorem gives_bfy (hi : Issuing s f (encR 0x13 w) w.e r) (hlegal : LegalR s f r w 0) (h0F : w.d.toNat ≠ 0x0F) (h2F : w.d.toNat ≠ 0x2F) (hd1 : writable (binding s f r.grp) (w.d.toNat + 1) = true) :
    Gives (.bfy f w) s fun t => Clean s t ∧ Issued f 1 w.e r { r with pc := r.pc + 1 }
      (((bitList 32 r.m).map fun n => (.reg w.d.toNat n, wrap32 (s32 (operand s f w.a.toNat n) - s32 (operand s f w.b.toNat n)))) ++
        (bitList 32 r.m).map fun n => (.reg (w.d.toNat + 1) n, wrap32 (s32 (operand s f w.a.toNat n) + s32 (operand s f w.b.toNat n)))) s t := by
  obtain ⟨hd, ha, hb, hm⟩ := hlegal
  refine gives_row hi (i := .bfy f w) rfl (progCodes_eq_extra hd ha hb hm nofun (fun _ => ⟨h0F, h2F, hd1⟩) nofun rfl) rfl ?_
  simp only [operand_issueBase _ _ _ _ _ (infl_of_issuing hi), writeLanes, lanesM, List.map_map, Function.comp_def]

end

/-- Settles O13: INTGF and SEL by the lanes that keep D, BND by where its edges stand, BFY by its two destinations (R99, R100, R133). -/
theorem laneConditional : Obligations.LaneConditional := by
  unfold Obligations.LaneConditional
  refine fun s f w r hlegal => ⟨fun hi => gives_intgf hi hlegal, fun hi => gives_sel hi hlegal, fun hi h40 => ?_, fun hi h30 h0F h2F => ?_, fun hi h0F h2F hd1 => gives_bfy hi hlegal h0F h2F hd1⟩
  · have h := gives_bnd hi hlegal (.inl h40)
    simp only [if_neg (Nat.not_lt.mpr h40)] at h
    exact h
  · have h := gives_bnd hi hlegal (.inr ⟨h30, h0F, h2F⟩)
    simp only [if_pos (show w.b.toNat < 0x40 by omega)] at h
    exact h

end Sys2Proof.Machine
end

section
/-! The Q-format rows: products round to nearest even and saturate (R99, R106, R116). -/
namespace Sys2Proof.Machine
open Sys2Proof.Claims

/-! #### Saturation -/

theorem clampInt_mem {lo hi : Int} (h : lo ≤ hi) (v : Int) : lo ≤ clampInt lo hi v ∧ clampInt lo hi v ≤ hi := by
  unfold clampInt
  split
  · omega
  · split <;> omega

/-- A value in range is what its 32-bit pattern reads. -/
theorem s32_wrap32 {v : Int} (h0 : -2147483648 ≤ v) (h1 : v ≤ 2147483647) : s32 (wrap32 v) = v := by
  unfold s32 wrap32 signedOf patOf
  by_cases hneg : v < 0
  · rw [show v % ((2 ^ 32 : Nat) : Int) = v + 4294967296 by omega]
    dsimp only
    split <;> omega
  · rw [show v % ((2 ^ 32 : Nat) : Int) = v by omega]
    dsimp only
    split <;> omega

theorem sat32_eq (v : Int) : sat32 v = wrap32 (clampInt (-2147483648) 2147483647 v) := rfl

theorem s32_sat32 (v : Int) : s32 (sat32 v) = clampInt (-2147483648) 2147483647 v := by
  obtain ⟨h0, h1⟩ := clampInt_mem (show (-2147483648 : Int) ≤ 2147483647 by decide) v
  rw [sat32_eq, s32_wrap32 h0 h1]

theorem bitOf_zero_eq (x : BitVec 5) (h : x.toNat &&& 1 = x.toNat) : bitOf x.toNat 0 = decide (x = 1) := by
  rw [Bool.eq_iff_iff, bitOf_zero_of_and_one h, decide_eq_true_eq]
  exact ⟨fun h => BitVec.eq_of_toNat_eq h, fun h => congrArg BitVec.toNat h⟩

section
variable {i : Instr} {s : State} {f opc : Nat} {readD : Bool} {w : RForm} {r : Run}

/-- A row whose lanes answer res, saturated where the exact value raw is another: each lane that saturates is an arithmetic fault (R106). -/
theorem gives_saturating {fn : State → Nat → Nat → Nat → Nat → Option Nat × Bool} {raw res : Nat → Int}
    (hx : exec i s = nextOf s (issueOpt f opc w { named := 1, lat := 3, readD := readD } fn s)) (hi : Issuing s f (encR opc w) w.e r) (hlegal : LegalR s f r w 1)
    (hfn : ∀ n, fn (issueBase s f (fr s f).slot.cyc) n (operand s f w.a.toNat n) (operand s f w.b.toNat n) (operand s f w.d.toNat n) = (some (wrap32 (res n)), decide (res n ≠ raw n))) :
    Gives i s fun t =>
      Issued f 3 w.e r { r with pc := r.pc + 1 } ((bitList 32 r.m).map fun n => (.reg w.d.toNat n, wrap32 (res n))) s t ∧
      ((∀ n ∈ bitList 32 r.m, raw n = res n) → Clean s t) ∧ ((∃ n ∈ bitList 32 r.m, raw n ≠ res n) → ArithFault f (FR_PROG_STAT_ARITH f) (FR_PROG_CTRL_ARITH_EN f) r.pc s t) := by
  refine gives_imp (gives_opt (keep := fun _ => true) (val := fun n => wrap32 (res n)) (sat := fun n => decide (res n ≠ raw n)) hx hi hlegal hfn) fun t ⟨hfaults, hissued⟩ => ?_
  rw [List.filter_true] at hissued
  refine ⟨hissued, fun hall => hfaults.clean rfl ?_, fun ⟨n, hn, hne⟩ => hfaults.arith rfl ?_⟩
  · exact List.filter_eq_nil_iff.mpr fun n hn => by simp [hall n hn]
  · exact List.ne_nil_of_mem (List.mem_filter.mpr ⟨hn, decide_eq_true (Ne.symm hne)⟩)

end

/-- Settles O14: both rows saturate their exact value; QMUL with MOD 0 to the 16 bits of Q1.15, else to 32 bits (R116). -/
theorem laneQFormat : Obligations.LaneQFormat := by
  unfold Obligations.LaneQFormat
  intro s f w r hlegal
  have ⟨_, _, _, hm⟩ := hlegal
  have hwide := bitOf_zero_eq w.m hm
  refine ⟨fun hi => ?qmul, fun hi => ?qmac⟩
  case qmul =>
    refine gives_saturating rfl hi hlegal fun n => ?_
    simp only [hwide, decide_eq_true_eq, s32_sat32]
    split <;> rfl
  case qmac =>
    refine gives_saturating rfl hi hlegal fun n => ?_
    simp only [hwide, decide_eq_true_eq, s32_sat32]
    split <;> rfl

end Sys2Proof.Machine
end

section
/-! Lane masks, branches, outputs, NOP and reserved opcodes (R90, R99, R104 to R107). -/
namespace Sys2Proof.Machine
open Sys2Proof.Claims

/-! #### Lane masks (R99) -/

theorem nonZeroMask_issueBase {s : State} {f : Nat} (hinfl : (fr s f).slot.infl = []) (c a mask : Nat) : nonZeroMask (issueBase s f c) f a mask = nonZeroMask s f a mask := by
  unfold nonZeroMask
  simp only [operand_issueBase _ _ _ _ _ hinfl]

section
variable {i : Instr} {s : State} {f opc : Nat} {r : Run}

/-- A row that sets the lane mask to m. -/
theorem gives_mask {usesA : Bool} {w : RForm} {src : Run → Binding → List Nat} {body : State → Run → Binding → LaneOut} {m : Nat} (hi : Issuing s f (encR opc w) w.e r)
    (hx : exec i s = nextOf s (issueR f opc w { usesA := usesA } src body s)) (hd : w.d = 0) (ha : if usesA = true then reservedCode w.a.toNat = false else w.a.toNat = 0) (hb : w.b = 0)
    (hm : w.m = 0) (ho : body (issueBase s f (fr s f).slot.cyc) r (binding s f r.grp) = { m := some m }) :
    Gives i s fun t => Clean s t ∧ Issued f 1 w.e r { r with pc := r.pc + 1, m := m } [] s t := by
  unfold issueR at hx
  exact gives_clean hi hx (progCodes_plain (congrArg BitVec.toNat hd) ha (congrArg BitVec.toNat hb) (by rw [hm]; exact Nat.zero_and _) rfl rfl rfl rfl) ho rfl rfl rfl rfl

/-! #### Branches (R104) -/

/-- A forward branch to a word of the program: taken, the run goes on there, otherwise at the next word. -/
theorem gives_branch {usesA usesMask : Bool} {w : BForm} {taken : State → Run → Binding → Bool} (hi : Issuing s f (encB opc w) w.e r) (hx : exec i s = nextOf s (issueBranch f opc w usesA usesMask taken s))
    (hoff : w.off ≠ 0) (hin : r.pc + w.off.toNat < (binding s f r.grp).entry + hdrLen (header s f (binding s f r.grp)))
    (ha : if usesA = true then reservedCode w.a.toNat = false else w.a.toNat = 0) (hmask : usesMask = true ∨ w.mask = 0) {p : Prop} [Decidable p]
    (hp : taken (issueBase s f (fr s f).slot.cyc) r (binding s f r.grp) = true ↔ p) :
    Gives i s fun t => Clean s t ∧ Issued f 1 w.e r { r with pc := if p then r.pc + w.off.toNat else r.pc + 1 } [] s t := by
  unfold issueBranch at hx
  have hoff' : w.off.toNat ≠ 0 := fun h => hoff (BitVec.eq_of_toNat_eq h)
  have hmask' : (!usesMask && w.mask.toNat != 0) = false := by
    rcases hmask with rfl | h
    · rfl
    · rw [h]; exact Bool.and_false _
  have hgo : w.e = true ∨ (if p then some (r.pc + w.off.toNat) else none).getD (r.pc + 1) < (binding s f r.grp).entry + hdrLen (header s f (binding s f r.grp)) := by
    split
    · exact .inr hin
    · exact goes_of_issuing hi
  refine gives_imp (gives_issue (o := { jump := if p then some (r.pc + w.off.toNat) else none }) hi hx (progCodes_plain rfl ha rfl (Nat.zero_and _) rfl rfl rfl ?_) ?_ hgo) fun t ⟨hfaults, hissued⟩ => ⟨hfaults.clean rfl rfl, ?_⟩
  · rw [run_of_issuing hi]
    dsimp only
    rw [if_neg fun h => by have := of_decide_eq_true h; omega, if_neg fun h => absurd (hmask'.symm.trans h) Bool.false_ne_true]
    rfl
  · simp only [hp]
  · have hpc : (if p then some (r.pc + w.off.toNat) else none).getD (r.pc + 1) = if p then r.pc + w.off.toNat else r.pc + 1 := by split <;> rfl
    unfold runAfter at hissued
    dsimp only at hissued
    rw [hpc] at hissued
    exact hissued

end

/-- The bits of A[7:0] that MASK selects are those of c, bit by bit. -/
theorem and_mask_eq_iff (x c : Nat) (mask : BitVec 8) : (x % 256 &&& mask.toNat == c) = true ↔ ∀ k, (x.testBit k && mask.toNat.testBit k) = c.testBit k := by
  have hbit : ∀ k, (x % 256 &&& mask.toNat).testBit k = (x.testBit k && mask.toNat.testBit k) := fun k => by
    rw [Nat.testBit_and, show 256 = 2 ^ 8 from rfl, Nat.testBit_mod_two_pow]
    by_cases hk : k < 8
    · rw [decide_eq_true hk, Bool.true_and]
    · rw [Nat.testBit_lt_two_pow (Nat.lt_of_lt_of_le mask.isLt (Nat.pow_le_pow_right (by decide) (Nat.not_lt.mp hk))), Bool.and_false, Bool.and_false]
  rw [beq_iff_eq, Nat.eq_iff_testBit_eq]
  exact forall_congr' fun k => by rw [hbit]

/-- A bit of MASK is one of its eight. -/
theorem lt_of_testBit_mask {mask : BitVec 8} {k : Nat} (h : mask.toNat.testBit k = true) : k < 8 :=
  Nat.lt_of_not_le fun hge => absurd ((Nat.testBit_lt_two_pow (Nat.lt_of_lt_of_le mask.isLt (Nat.pow_le_pow_right (by decide) hge))).symm.trans h) Bool.false_ne_true

/-- BRS: every bit set in MASK is 1 in A[7:0]. -/
theorem and_mask_eq_mask (x : Nat) (mask : BitVec 8) : (x % 256 &&& mask.toNat == mask.toNat) = true ↔ ∀ k < 8, bitOf mask.toNat k = true → bitOf x k = true := by
  simp only [and_mask_eq_iff, bitOf_eq_testBit, Bool.and_eq_right_iff_imp]
  exact ⟨fun h k _ => h k, fun h k hk => h k (lt_of_testBit_mask hk) hk⟩

/-- BRC: every bit set in MASK is 0 in A[7:0]. -/
theorem and_mask_eq_zero (x : Nat) (mask : BitVec 8) : (x % 256 &&& mask.toNat == 0) = true ↔ ∀ k < 8, bitOf mask.toNat k = true → bitOf x k = false := by
  simp only [and_mask_eq_iff, bitOf_eq_testBit, Nat.zero_testBit, Bool.and_eq_false_imp]
  refine ⟨fun h k _ hk => Bool.eq_false_iff.mpr fun hx => Bool.false_ne_true ((h k hx).symm.trans hk), fun h k hx => Bool.eq_false_iff.mpr fun hk => ?_⟩
  exact Bool.false_ne_true ((h k (lt_of_testBit_mask hk) hk).symm.trans hx)

/-- Settles O18: each mask row by the mask it sets, each branch by whether it is taken (R99, R104; that LANES = 0 reads lane 0 is the model's choice, log entry 109). -/
theorem masksAndBranches : Obligations.MasksAndBranches := by
  unfold Obligations.MasksAndBranches
  refine fun s f r => ⟨fun w hd hb hm ha => ⟨fun hi => ?_, fun hi => ?_, fun hi h0 => ?_, fun hi h0 => ?_⟩, fun w hoff hin ha => ⟨fun hi => ?_, fun hi => ?_, fun hi h0 hmask => ?_⟩⟩
  · exact gives_mask (usesA := true) hi rfl hd ha hb hm (congrArg (fun m => ({ m := some m } : LaneOut)) (nonZeroMask_issueBase (infl_of_issuing hi) _ _ r.e))
  · exact gives_mask (usesA := true) hi rfl hd ha hb hm (congrArg (fun m => ({ m := some m } : LaneOut)) (nonZeroMask_issueBase (infl_of_issuing hi) _ _ r.m))
  · exact gives_mask (usesA := false) hi rfl hd (congrArg BitVec.toNat h0) hb hm rfl
  · exact gives_mask (usesA := false) hi rfl hd (congrArg BitVec.toNat h0) hb hm rfl
  · exact gives_branch (usesA := true) (usesMask := true) hi rfl hoff hin ha (.inl rfl) (by rw [operand_issueBase _ _ _ _ _ (infl_of_issuing hi), and_mask_eq_mask])
  · exact gives_branch (usesA := true) (usesMask := true) hi rfl hoff hin ha (.inl rfl) (by rw [operand_issueBase _ _ _ _ _ (infl_of_issuing hi), and_mask_eq_zero])
  · exact gives_branch (usesA := false) (usesMask := false) hi rfl hoff hin (congrArg BitVec.toNat h0) (.inr hmask) beq_iff_eq

/-! #### Outputs (R105) -/

section
variable {i : Instr} {s : State} {f opc : Nat} {w : RForm} {r : Run}

/-- An output row of A and B in a group that may use it. -/
theorem gives_output {named : Nat} {extra : List Nat} {src : Run → Binding → List Nat} {hit : Dest → Bool} {body : State → Run → Binding → LaneOut} {ws : List (Dest × Nat)}
    (hi : Issuing s f (encR opc w) w.e r) (hx : exec i s = nextOf s (issueOp s f (encR opc w) w.e { usesA := true, usesB := true, named := named, extra := extra } w.d.toNat w.a.toNat w.b.toNat w.m.toNat src hit body))
    (hd : w.d = 0) (ha : reservedCode w.a.toNat = false) (hb : reservedCode w.b.toNat = false) (hm : w.m.toNat &&& named = w.m.toNat) (hextra : extra = [])
    (ho : body (issueBase s f (fr s f).slot.cyc) r (binding s f r.grp) = { writes := ws }) : Gives i s fun t => Clean s t ∧ Issued f 1 w.e r { r with pc := r.pc + 1 } ws s t :=
  gives_writes hi hx (progCodes_plain (congrArg BitVec.toNat hd) ha hb hm rfl rfl rfl hextra) rfl ho

theorem inPhaseGroup_aux (hrun : (fr s f).slot.run = some r) (haux : (binding s f r.grp).aux = true) : (if inPhaseGroup s f = true then [8] else []) = ([] : List Nat) := by
  unfold inPhaseGroup
  rw [hrun]
  simp only [haux]
  rfl

theorem pairWord_issueBase (hinfl : (fr s f).slot.infl = []) (c : Nat) : pairWord (issueBase s f c) f w = operand s f w.b.toNat 0 * 2 ^ 32 + operand s f w.a.toNat 0 := by
  unfold pairWord
  rw [operand_issueBase _ _ _ _ _ hinfl, operand_issueBase _ _ _ _ _ hinfl]

end

/-! #### NOP and the words that no row names (R99, R106) -/

/-- The row NOP issues a word of opcode 0. -/
theorem exec_nop_zero (f : Nat) {word : W32} (s : State) (h : bitsOf word.toNat 31 26 = 0) : exec (.nop f word) s = nextOf s (issueOp s f word.toNat (bitOf word.toNat 25) {}
    (bitsOf word.toNat 24 19) (bitsOf word.toNat 18 12) (bitsOf word.toNat 11 5) (bitsOf word.toNat 4 0) (fun _ _ => []) (fun _ => false) (fun _ _ _ => {})) := by
  show execNop f word s = _
  unfold execNop
  simp only [h, true_or, if_true]

/-- And a word of a reserved opcode, which is a program fault of code 1 whatever its fields hold. -/
theorem exec_nop_reserved (f : Nat) {word : W32} (s : State) (h : legalOpc (bitsOf word.toNat 31 26) = false) :
    exec (.nop f word) s = nextOf s (issueOp s f word.toNat (bitOf word.toNat 25) { extra := [1] } 0 0 0 0 (fun _ _ => []) (fun _ => false) (fun _ _ _ => {})) := by
  have h0 : bitsOf word.toNat 31 26 ≠ 0 := fun h0 => by
    rw [h0] at h
    exact absurd h (by decide)
  show execNop f word s = _
  unfold execNop
  simp only [h, h0, Bool.false_eq_true, not_false_eq_true, or_true, if_true, if_false]

/-- Settles O19: each output by what its lanes write, and NOP by the cycle that it takes (R90, R105). -/
theorem laneOutputs : Obligations.LaneOutputs := by
  unfold Obligations.LaneOutputs
  refine fun s f r => ⟨fun w hd ha hb => ⟨fun hi haux hm => ?drv, fun hi haux hm => ?tel, fun hi haux hm => ?bxw⟩, fun e hi => ?nop⟩
  case drv =>
    refine gives_output hi rfl hd ha hb (by rw [hm]; rfl) ?_ ?_
    · rw [run_of_issuing hi]
      simp only [haux, Bool.false_eq_true, if_false]
    · simp only [operand_issueBase _ _ _ _ _ (infl_of_issuing hi)]
      rfl
  case tel =>
    have hm8 : w.m.toNat % 8 = w.m.toNat := Nat.mod_eq_of_lt hm
    refine gives_output hi rfl hd ha hb ((Nat.and_two_pow_sub_one_eq_mod _ 3).trans hm8) (inPhaseGroup_aux (run_of_issuing hi) haux) ?_
    simp only [pairWord_issueBase (infl_of_issuing hi), hm8]
  case bxw =>
    refine gives_output hi rfl hd ha hb (by rw [hm]; rfl) (inPhaseGroup_aux (run_of_issuing hi) haux) ?_
    simp only [pairWord_issueBase (infl_of_issuing hi)]
  case nop =>
    cases e
    · exact gives_writes hi (exec_nop_zero f s rfl) (progCodes_plain rfl rfl rfl rfl rfl rfl rfl rfl) rfl rfl
    · exact gives_writes hi (exec_nop_zero f s rfl) (progCodes_plain rfl rfl rfl rfl rfl rfl rfl rfl) rfl rfl

/-- Settles O20: the first fault is recorded with its group, code, address and lane 0 (R106, R107). -/
theorem reservedOpcode : Obligations.ReservedOpcode := by
  unfold Obligations.ReservedOpcode
  intro s f word r hi hopc
  have hbits : bitsOf word.toNat 31 26 = word.toNat / 2 ^ 26 := Nat.mod_eq_of_lt (by have := word.isLt; omega)
  rw [show word.getLsbD 25 = bitOf word.toNat 25 from (bitOf_eq_testBit word.toNat 25).symm] at hi ⊢
  refine gives_imp (gives_progFault hi (exec_nop_reserved f s (hbits ▸ hopc)) (progCodes_plain rfl rfl rfl rfl rfl rfl rfl rfl)) fun t ⟨hraised, hissued, hreg⟩ => ?_
  have hfld : ∀ x : Fld, fget t x = fget (progFault s f r.grp r.pc (.prog 1)) x := fun x => congrArg (fun v : W64 => bitsOf v.toNat x.hi x.lo) (hreg x.addr)
  refine ⟨(hfld _).trans (fget_progFault_bit s f r.grp r.pc (.prog 1)), hraised, hissued, fun a ha => (hreg a).trans (reg_progFault s f r.grp r.pc _ ha), fun h1 h2 h3 => ?_⟩
  obtain ⟨hcode, hgrp, hlane, haddr⟩ := fget_progFault_first s f r.grp r.pc 1 ⟨h1, h2, h3⟩
  exact ⟨(hfld _).trans hcode, (hfld _).trans hgrp, (hfld _).trans hlane, (hfld _).trans haddr⟩

end Sys2Proof.Machine
end

section
/-! Block floating point: the rows that raise SX, the conversions and the stage (R97 to R101, R113 to R117). -/
namespace Sys2Proof.Machine
open Sys2Proof.Claims

/-! #### The least exponent (R97, R98) -/

/-- The search from x upward ends at the least exponent at which every value fits, or at 127 (R97, R98). -/
theorem leastExp_leastFit (w : Nat) (vs : List BVal) {n : Nat} {x : Int} (h127 : x ≤ 127) (hn : 127 ≤ x + n) : LeastExp w vs x (leastFit w vs n x) := by
  induction n generalizing x with
  | zero =>
    have hx : x = 127 := by omega
    exact ⟨le_refl x, h127, .inl hx, fun y h0 h1 => absurd h1 (not_lt.mpr h0)⟩
  | succ n ih =>
    unfold leastFit
    by_cases hstop : x ≥ 127 ∨ vs.all (fun v => fitsAt w v x) = true
    · rw [if_pos hstop]
      exact ⟨le_refl x, h127, hstop.imp (fun h => le_antisymm h127 h) List.all_eq_true.mp, fun y h0 h1 => absurd h1 (not_lt.mpr h0)⟩
    · rw [if_neg hstop]
      obtain ⟨hlt, hfit⟩ := not_or.mp hstop
      obtain ⟨hge, hle, hend, hleast⟩ := ih (x := x + 1) (by omega) (by omega)
      refine ⟨by omega, hle, hend, fun y h0 h1 => ?_⟩
      by_cases hy : y = x
      · subst hy
        simpa only [List.all_eq_true, not_forall, Bool.not_eq_true, exists_prop] using hfit
      · exact hleast y (by omega) h1

/-! #### Rows that raise SX (R97, R99) -/

/-- The exponent that a BFP row takes for the values of its lanes, from `start` upward. -/
def rowExp (r : Run) (ls : List Nat) (v : Nat → BVal) (start : Int) : Int := leastFit (sfWidth r.sf) (ls.map v) 256 start

/-- What a BFP row answers for lanes of values v that no alignment has saturated. -/
def bfpOut (r : Run) (d : Nat) (ls : List Nat) (v : Nat → BVal) (start : Int) : LaneOut :=
  let x := rowExp r ls v start
  { writes := ls.map fun n => (.reg d n, bfpElem (expressAt (sfWidth r.sf) (v n) x).1 r.sf x), sx := some x, range := ls.filter fun n => (expressAt (sfWidth r.sf) (v n) x).2 }

theorem bfpResult_eq (r : Run) (d : Nat) (ls : List Nat) (v : Nat → BVal) (start : Int) : bfpResult r d (ls.map fun n => (n, v n)) [] start = bfpOut r d ls v start := by
  unfold bfpResult bfpOut rowExp writeLanes
  simp only [List.map_map, List.filter_map, Function.comp_def, List.map_id']

section
variable {i : Instr} {s : State} {f opc : Nat} {sp : OpSpec} {w : RForm} {r : Run} {srcLanes : Run → Binding → List Nat} {body : State → Run → Binding → LaneOut}

/-- A row whose lanes have the values v issues as a BFP row (R97, R98). -/
theorem gives_bfp {ls : List Nat} {v : Nat → BVal} {start : Int} {d lat : Nat} (hi : Issuing s f (encR opc w) w.e r) (hx : exec i s = nextOf s (issueR f opc w sp srcLanes body s))
    (hp : progCodes (binding s f r.grp) sp w.d.toNat w.a.toNat w.b.toNat w.m.toNat = []) (hsx : sp.sx = true) (hlat : sp.lat = lat) (h128 : -128 ≤ start) (h127 : start ≤ 127)
    (ho : body (issueBase s f (fr s f).slot.cyc) r (binding s f r.grp) = bfpResult r d (ls.map fun n => (n, v n)) [] start) :
    Gives i s (BfpIssued f lat d w.e r start ls v s) := by
  subst hlat
  unfold issueR at hx
  refine gives_imp (gives_issue hi hx hp (ho.trans (bfpResult_eq r d ls v start)) (goes_of_issuing hi)) fun t ⟨hfaults, hissued⟩ => ?_
  refine ⟨rowExp r ls v start, leastExp_leastFit _ _ h127 (by omega), ?_, fun ⟨n, hn, hsat⟩ => hfaults.range ?_, fun hall => hfaults.clean ?_ rfl⟩
  · unfold runAfter at hissued
    rw [hsx] at hissued
    exact hissued
  · exact List.ne_nil_of_mem (List.mem_filter.mpr ⟨hn, hsat⟩)
  · exact List.filter_eq_nil_iff.mpr fun n hn => by rw [hall n hn]; exact Bool.false_ne_true

/-- An addend in the alignment range is not changed by its alignment (R115). -/
theorem alignTo_near {sx : Int} {v : BVal} (h : (alignTo sx v).2 = false) : alignTo sx v = (v, false) := by
  unfold alignTo at h ⊢
  split
  next hfar => rw [if_pos hfar] at h; cases h
  next => rfl

theorem alignTo_negV (sx : Int) (v : BVal) : (alignTo sx (negV v)).2 = (alignTo sx v).2 := by
  have hfar : ((negV v).exp - sx > 24 ∧ (negV v).num ≠ 0) ↔ (v.exp - sx > 24 ∧ v.num ≠ 0) := and_congr_right' (not_congr neg_eq_zero)
  unfold alignTo
  by_cases h : v.exp - sx > 24 ∧ v.num ≠ 0
  · rw [if_pos h, if_pos (hfar.mpr h)]
  · rw [if_neg h, if_neg (fun h' => h (hfar.mp h'))]

/-- The addends u and v of every lane in M are in the alignment range of R115. -/
def Near (r : Run) (u v : Nat → BVal) : Prop := ∀ n ∈ bitList 32 r.m, (alignTo r.sx (u n)).2 = false ∧ (alignTo r.sx (v n)).2 = false

/-- An operand code of a BFP row is not reserved (Table 4-2). -/
theorem reservedCode_of_bfpCode {c : Nat} (h : bfpCode c = true) : reservedCode c = false := by
  unfold bfpCode at h
  unfold reservedCode
  rw [decide_eq_true_eq] at h
  exact decide_eq_false (by omega)

/-- The sum of two near addends per lane (R97, R115). -/
theorem gives_addends {lat : Nat} {readD : Bool} {fn : BVal → BVal → BVal → BVal × BVal} {u v : Nat → BVal} (hi : Issuing s f (encR opc w) w.e r)
    (hx : exec i s = nextOf s (issueBfp f opc w { lat := lat, readD := readD } fn s)) (hd : writable (binding s f r.grp) w.d.toNat = true)
    (ha : bfpCode w.a.toNat = true) (hb : bfpCode w.b.toNat = true) (hm : w.m = 0) (h128 : -128 ≤ r.sx) (h127 : r.sx ≤ 127)
    (hfn : ∀ n, fn (bfpVal (operand s f w.a.toNat n)) (bfpVal (operand s f w.b.toNat n)) (bfpVal (operand s f w.d.toNat n)) = (u n, v n)) (hnear : Near r u v) :
    Gives i s (BfpIssued f lat w.d.toNat w.e r r.sx (bitList 32 r.m) (fun n => addV (u n) (v n)) s) := by
  have hsum : ((lanesM r).map fun n => (n, addV (alignTo r.sx (u n)).1 (alignTo r.sx (v n)).1, (alignTo r.sx (u n)).2 || (alignTo r.sx (v n)).2)) =
      (bitList 32 r.m).map fun n => (n, addV (u n) (v n), false) := List.map_congr_left fun n hn => by
    rw [alignTo_near (hnear n hn).1, alignTo_near (hnear n hn).2]
    rfl
  unfold issueBfp at hx
  refine gives_bfp hi hx (progCodes_eq_extra hd (reservedCode_of_bfpCode ha) (reservedCode_of_bfpCode hb) (by rw [hm]; exact Nat.zero_and _) nofun nofun (fun _ => ⟨fun _ => ha, fun _ => hb⟩) rfl) rfl rfl h128 h127 ?_
  simp only [operand_issueBase _ _ _ _ _ (infl_of_issuing hi), hfn]
  rw [hsum]
  simp only [List.map_map, List.filter_map, Function.comp_def, List.filter_false, List.map_nil]

end

section
variable {s : State} {f : Nat} {w : RForm} {r : Run}

theorem gives_bmul (hi : Issuing s f (encR 0x22 w) w.e r) (hd : writable (binding s f r.grp) w.d.toNat = true) (ha : bfpCode w.a.toNat = true) (hb : bfpCode w.b.toNat = true) (hm : w.m = 0)
    (h128 : -128 ≤ r.sx) (h127 : r.sx ≤ 127) :
    Gives (.bmul f w) s (BfpIssued f 3 w.d.toNat w.e r r.sx (bitList 32 r.m) (fun n => mulV (bfpVal (operand s f w.a.toNat n)) (bfpVal (operand s f w.b.toNat n))) s) := by
  refine gives_bfp (i := .bmul f w) hi rfl (progCodes_eq_extra hd (reservedCode_of_bfpCode ha) (reservedCode_of_bfpCode hb) (by rw [hm]; exact Nat.zero_and _) nofun nofun (fun _ => ⟨fun _ => ha, fun _ => hb⟩) rfl) rfl rfl h128 h127 ?_
  simp only [operand_issueBase _ _ _ _ _ (infl_of_issuing hi), lanesM]

/-- A format of Table 4-6. -/
theorem format_of_lt {m : Nat} (h : m < 6) : m &&& 7 = m ∧ m % 8 = m ∧ (if 6 ≤ m % 8 then [4] else []) = ([] : List Nat) := by
  have hm : m % 8 = m := Nat.mod_eq_of_lt (by omega)
  exact ⟨(Nat.and_two_pow_sub_one_eq_mod m 3).trans hm, hm, if_neg (by omega)⟩

theorem gives_bcvt (hi : Issuing s f (encR 0x24 w) w.e r) (hd : writable (binding s f r.grp) w.d.toNat = true) (ha : reservedCode w.a.toNat = false) (hb : w.b = 0) (hm : w.m.toNat < 6)
    (h128 : -128 ≤ r.sx) (h127 : r.sx ≤ 127) :
    Gives (.bcvt f w) s (BfpIssued f 2 w.d.toNat w.e r r.sx (bitList 32 r.m) (fun n => cvtSource w.m.toNat (operand s f w.a.toNat n)) s) := by
  obtain ⟨hnamed, hmod, hextra⟩ := format_of_lt hm
  refine gives_bfp (i := .bcvt f w) hi rfl (progCodes_plain hd ha (congrArg BitVec.toNat hb) hnamed rfl rfl rfl hextra) rfl rfl h128 h127 ?_
  simp only [operand_issueBase _ _ _ _ _ (infl_of_issuing hi), lanesM, hmod]

theorem gives_nrm (hi : Issuing s f (encR 0x27 w) w.e r) (hd : writable (binding s f r.grp) w.d.toNat = true) (ha : bfpCode w.a.toNat = true) (hb : w.b = 0) (hm : w.m = 0) (hlanes : r.m ≠ 0) :
    Gives (.nrm f w) s (BfpIssued f 2 w.d.toNat w.e r (-128) (bitList 32 r.m) (fun n => bfpVal (operand s f w.a.toNat n)) s) := by
  refine gives_bfp (i := .nrm f w) hi rfl (progCodes_eq_extra hd (reservedCode_of_bfpCode ha) (congrArg BitVec.toNat hb) (by rw [hm]; exact Nat.zero_and _) nofun nofun (fun _ => ⟨fun _ => ha, nofun⟩) rfl) rfl rfl (by decide) (by decide) ?_
  simp only [operand_issueBase _ _ _ _ _ (infl_of_issuing hi), lanesM, if_neg hlanes]

theorem gives_bcvi (hi : Issuing s f (encR 0x25 w) w.e r) (hd : writable (binding s f r.grp) w.d.toNat = true) (ha : reservedCode w.a.toNat = false) (hb : w.b = 0) (hm : w.m.toNat < 6)
    (hin : ∀ n ∈ bitList 32 r.m, (cvtTarget w.m.toNat (bfpVal (operand s f w.a.toNat n))).2 = false) : Gives (.bcvi f w) s fun t => Clean s t ∧
      Issued f 2 w.e r { r with pc := r.pc + 1, sxAt := (fr s f).slot.cyc + 2 } ((bitList 32 r.m).map fun n => (.reg w.d.toNat n, (cvtTarget w.m.toNat (bfpVal (operand s f w.a.toNat n))).1)) s t := by
  obtain ⟨hnamed, hmod, hextra⟩ := format_of_lt hm
  have hx : exec (.bcvi f w) s = nextOf s (issueR f 0x25 w { usesD := true, usesA := true, sx := true, named := 7, lat := 2, extra := if 6 ≤ w.m.toNat % 8 then [4] else [] } _ _ s) := rfl
  unfold issueR at hx
  refine gives_clean (o := { writes := (bitList 32 r.m).map fun n => (.reg w.d.toNat n, (cvtTarget w.m.toNat (bfpVal (operand s f w.a.toNat n))).1) }) hi hx
    (progCodes_plain hd ha (congrArg BitVec.toNat hb) hnamed rfl rfl rfl hextra) ?_ rfl rfl rfl rfl
  have hnone : (lanesM r).filter (fun n => (cvtTarget w.m.toNat (bfpVal (operand s f w.a.toNat n))).2) = [] :=
    List.filter_eq_nil_iff.mpr fun n hn => by rw [hin n hn]; exact Bool.false_ne_true
  simp only [operand_issueBase _ _ _ _ _ (infl_of_issuing hi), hmod, writeLanes, List.map_map, List.filter_map, Function.comp_def, hnone, List.map_nil]
  rfl

end

/-- Settles O15: the sums by their near addends, the other rows that raise SX by the values of their lanes, BCVI by its conversion (R97, R99, R113 to R115, R117; log entry 97 lets BCVI read an input). -/
theorem laneBfp : Obligations.LaneBfp := by
  unfold Obligations.LaneBfp
  intro s f w r hd h128 h127
  refine ⟨fun ⟨ha, hb, hm⟩ hi hnear => ?_, fun ⟨ha, hb, hm⟩ hi hnear => ?_, fun ⟨ha, hb, hm⟩ hi => gives_bmul hi hd ha hb hm h128 h127, fun ⟨ha, hb, hm⟩ hi hnear => ?_,
    fun hi ha hb hm => gives_bcvt hi hd ha hb hm h128 h127, fun hi ha hb hm hlanes => gives_nrm hi hd ha hb hm hlanes, fun hi ha hb hm hin => gives_bcvi hi hd ha hb hm hin⟩
  · exact gives_addends hi rfl hd ha hb hm h128 h127 (fun n => rfl) hnear
  · refine gives_addends hi rfl hd ha hb hm h128 h127 (fun n => rfl) fun n hn => ?_
    exact ⟨(hnear n hn).1, (alignTo_negV _ _).trans (hnear n hn).2⟩
  · exact gives_addends hi rfl hd ha hb hm h128 h127 (fun n => rfl) hnear

/-! #### STG (R101, R114) -/

section
variable {s : State} {f : Nat} {w : RForm} {r : Run}

/-- The exponent that a stage starts with, if its lanes give one (R101). -/
def stageExp (s : State) (f : Nat) (w : RForm) (r : Run) : Option Int :=
  if r.m = 0 then none
  else if bitOf w.m.toNat 2 then some (leastFit (sfWidth (w.m.toNat % 4)) ((lanesM r).map fun n => bfpVal (operand s f w.a.toNat n)) 256 (-128))
  else some (signedOf 8 (operand s f w.a.toNat (lowLane (binding s f r.grp))))

/-- A stage starts in one of its three formats (R101). -/
theorem gives_stg (hi : Issuing s f (encR 0x26 w) w.e r) (ha : reservedCode w.a.toNat = false) (hd : w.d = 0) (hb : w.b = 0) (hm : w.m.toNat < 7) (hsf : w.m.toNat % 4 ≠ 3) :
    Gives (.stg f w) s fun t => Clean s t ∧
      Issued f 1 w.e r { r with pc := r.pc + 1, sf := w.m.toNat % 4, sx := (stageExp s f w r).getD r.sx, sxAt := (fr s f).slot.cyc + 1 } [] s t := by
  have hx : exec (.stg f w) s = nextOf s (issueR f 0x26 w { usesA := true, sx := true, named := 7, extra := if w.m.toNat % 4 = 3 then [4] else [] } _ _ s) := rfl
  have hnamed : w.m.toNat &&& 7 = w.m.toNat := (Nat.and_two_pow_sub_one_eq_mod _ 3).trans (Nat.mod_eq_of_lt (by omega))
  unfold issueR at hx
  refine gives_clean (o := { sf := some (w.m.toNat % 4), sx := stageExp s f w r }) hi hx (progCodes_plain (congrArg BitVec.toNat hd) ha (congrArg BitVec.toNat hb) hnamed rfl rfl rfl (if_neg hsf)) ?_ rfl rfl rfl rfl
  simp only [operand_issueBase _ _ _ _ _ (infl_of_issuing hi)]
  rfl

end

/-- Settles O16: the exponent of the lowest lane, the least one at which every lane in M fits, or the one held (R101, R114; log entry 97 lets A be an input). -/
theorem laneStage : Obligations.LaneStage := by
  unfold Obligations.LaneStage
  intro s f w r hi ha hd hb
  refine ⟨fun hm hlanes => ?_, fun h4 h7 hlanes _ => ?_, fun h7 h3 hlanes => ?_⟩
  · have hmod : w.m.toNat % 4 = w.m.toNat := Nat.mod_eq_of_lt (by omega)
    have hauto : bitOf w.m.toNat 2 = false := by simp only [bitOf]; rw [show w.m.toNat / 2 ^ 2 = 0 by omega]; rfl
    have hexp : stageExp s f w r = some (signedOf 8 (operand s f w.a.toNat (lowLane (binding s f r.grp)))) := by
      unfold stageExp
      rw [if_neg hlanes, hauto, if_neg Bool.false_ne_true]
    have h := gives_stg hi ha hd hb (by omega) (by omega)
    rw [hexp, hmod] at h
    exact h
  · have hmod : w.m.toNat % 4 = w.m.toNat - 4 := by omega
    have hauto : bitOf w.m.toNat 2 = true := by simp only [bitOf]; rw [show w.m.toNat / 2 ^ 2 = 1 by omega]; rfl
    have hexp : stageExp s f w r = some (leastFit (sfWidth (w.m.toNat - 4)) ((bitList 32 r.m).map fun n => bfpVal (operand s f w.a.toNat n)) 256 (-128)) := by
      unfold stageExp
      rw [if_neg hlanes, hauto, if_pos rfl, hmod]
      rfl
    have h := gives_stg hi ha hd hb h7 (by omega)
    rw [hexp, hmod] at h
    exact gives_imp h fun t ⟨hclean, hissued⟩ => ⟨hclean, _, leastExp_leastFit _ _ (by decide) (by decide), hissued⟩
  · have hexp : stageExp s f w r = none := if_pos hlanes
    have h := gives_stg hi ha hd hb h7 (by omega)
    rw [hexp] at h
    exact h

end Sys2Proof.Machine
end

section
/-! Rows that exchange values between lanes: XSH, RSH, BCL and the reductions of RED (R102, R103). -/
namespace Sys2Proof.Machine
open Sys2Proof.Claims

/-! #### Values of a lane -/

theorem lt_of_mem_bitList {w m n : Nat} (h : n ∈ bitList w m) : n < w := List.mem_range.mp (List.mem_filter.mp h).1

theorem patOf_lt (w : Nat) (v : Int) : patOf w v < 2 ^ w := by
  have h := Int.emod_lt_of_pos v (b := ((2 ^ w : Nat) : Int)) (by exact_mod_cast Nat.two_pow_pos w)
  unfold patOf
  have := Nat.two_pow_pos w
  omega

theorem popCount_le : ∀ w n : Nat, popCount w n ≤ w
  | 0, _ => Nat.le_refl 0
  | w + 1, n => by
    have := popCount_le w (n / 2)
    unfold popCount
    omega

/-- What a lane reads is a 32-bit word (R91). -/
theorem operand_lt (s : State) (f c : Nat) {n : Nat} (hn : n < 32) : operand s f c n < 2 ^ 32 := by
  unfold operand
  split
  · exact (tget 0 (fr s f).lanes (c * 32 + n)).isLt
  split
  · omega
  split
  · have := popCount_le 32 (effMask s f / 2 ^ (n + 1))
    split <;> omega
  split
  · exact bitsOf_lt _ 31 0
  split
  · exact patOf_lt 32 _
  split
  · decide
  · exact bitsOf_lt _ 31 0

theorem s32_bounds (x : Nat) : -2147483648 ≤ s32 x ∧ s32 x ≤ 2147483647 := by
  unfold s32 signedOf
  dsimp only
  split <;> omega

/-- A 32-bit word is the pattern of what it reads. -/
theorem wrap32_s32 {x : Nat} (h : x < 2 ^ 32) : wrap32 (s32 x) = x := by
  unfold wrap32 s32 patOf signedOf
  dsimp only
  split <;> omega

theorem s32_eq_zero {x : Nat} (h : x < 2 ^ 32) : s32 x = 0 ↔ x = 0 := by
  unfold s32 signedOf
  dsimp only
  split <;> omega

theorem wrap32_natCast {n : Nat} (h : n < 2 ^ 32) : wrap32 (n : Int) = n := by
  unfold wrap32 patOf
  omega

theorem effMask_issueBase (s : State) (f c : Nat) : effMask (issueBase s f c) f = effMask s f := by
  unfold effMask
  rw [scal_issueBase]

/-- A row that names all five bits of MOD. -/
theorem mod_named (x : BitVec 5) : x.toNat &&& 0x1F = x.toNat := (Nat.and_two_pow_sub_one_eq_mod x.toNat 5).trans (Nat.mod_eq_of_lt x.isLt)

/-! #### The lanes of RED (R103) -/

/-- The lanes that RED reduces and writes: those in M, with PH only the effective phases. -/
def redLanes (s : State) (f : Nat) (w : RForm) (r : Run) : List Nat := (bitList 32 r.m).filter fun n => decide (w.m.toNat < 16) || bitOf (effMask s f) n

theorem bitOf_three (m : Nat) : bitOf m 3 = decide (8 ≤ m % 16) := by
  unfold bitOf
  rw [Bool.eq_iff_iff, beq_iff_eq, decide_eq_true_eq]
  omega

theorem redLanes_issueBase (s : State) (f c : Nat) (w : RForm) (r : Run) : ((lanesM r).filter fun n => !(bitOf w.m.toNat 4) || bitOf (effMask (issueBase s f c) f) n) = redLanes s f w r := by
  have hph : (!(bitOf w.m.toNat 4)) = decide (w.m.toNat < 16) := by
    have := w.m.isLt
    unfold bitOf
    rw [Bool.eq_iff_iff, Bool.not_eq_true', beq_eq_false_iff_ne, decide_eq_true_eq]
    omega
  rw [hph, effMask_issueBase]
  rfl

/-- What RED reduces, lane by lane. -/
def redVals (s : State) (f : Nat) (w : RForm) (r : Run) : List Nat := (redLanes s f w r).map fun n => operand s f w.a.toNat n

theorem redVals_issueBase {s : State} {f : Nat} (hinfl : (fr s f).slot.infl = []) (c : Nat) (w : RForm) (r : Run) :
    ((redLanes s f w r).map fun n => operand (issueBase s f c) f w.a.toNat n) = redVals s f w r := by
  simp only [operand_issueBase _ _ _ _ _ hinfl]
  rfl

/-! #### Another lane's value (R102) -/

section
variable {s : State} {f : Nat} {w : RForm} {r : Run} (hd : writable (binding s f r.grp) w.d.toNat = true) (ha : reservedCode w.a.toNat = false) (hb : w.b = 0)
include hd ha hb

/-- XSH reads lane n XOR 2^k; with FILL a lane not in M gives 0. -/
theorem gives_xsh (hi : Issuing s f (encR 0x28 w) w.e r) (hm : w.m.toNat < 16) (hk : w.m.toNat % 8 < 5) :
    Gives (.xsh f w) s fun t => Clean s t ∧ Issued f 2 w.e r { r with pc := r.pc + 1 } (writeLanes w.d.toNat ((bitList 32 r.m).map fun n =>
      (n, if nP s ≤ n ^^^ 2 ^ (w.m.toNat % 8) ∨ (bitOf w.m.toNat 3 = true ∧ bitOf r.m (n ^^^ 2 ^ (w.m.toNat % 8)) = false) then 0 else operand s f w.a.toNat (n ^^^ 2 ^ (w.m.toNat % 8))))) s t := by
  have hnamed : w.m.toNat &&& 0xF = w.m.toNat := (Nat.and_two_pow_sub_one_eq_mod _ 4).trans (Nat.mod_eq_of_lt hm)
  refine gives_row hi (i := .xsh f w) rfl (progCodes_plain hd ha (congrArg BitVec.toNat hb) hnamed rfl rfl rfl (if_neg (by omega))) rfl ?_
  simp only [operand_issueBase _ _ _ _ _ (infl_of_issuing hi)]
  rfl

theorem gives_rsh (hi : Issuing s f (encR 0x29 w) w.e r) :
    Gives (.rsh f w) s fun t => Clean s t ∧ Issued f 2 w.e r { r with pc := r.pc + 1 } (writeLanes w.d.toNat ((bitList 32 r.m).map fun n => (n, operand s f w.a.toNat ((n + w.m.toNat) % nP s)))) s t := by
  refine gives_row hi (i := .rsh f w) rfl (progCodes_plain hd ha (congrArg BitVec.toNat hb) (mod_named w.m) rfl rfl rfl rfl) rfl ?_
  simp only [operand_issueBase _ _ _ _ _ (infl_of_issuing hi)]
  rfl

theorem gives_bcl (hi : Issuing s f (encR 0x2A w) w.e r) :
    Gives (.bcl f w) s fun t => Clean s t ∧ Issued f 2 w.e r { r with pc := r.pc + 1 } (writeLanes w.d.toNat ((bitList 32 r.m).map fun n => (n, if nP s ≤ w.m.toNat then 0 else operand s f w.a.toNat w.m.toNat))) s t := by
  refine gives_row hi (i := .bcl f w) rfl (progCodes_plain hd ha (congrArg BitVec.toNat hb) (mod_named w.m) rfl rfl rfl rfl) rfl ?_
  simp only [operand_issueBase _ _ _ _ _ (infl_of_issuing hi)]
  rfl

/-! #### RED (R103) -/

/-- An integer reduction writes its result to each of its lanes (Table 4-5). -/
theorem gives_redInt {op : Nat} (hi : Issuing s f (encR 0x2B w) w.e r) (hop : w.m.toNat % 16 = op) (h6 : op < 6) :
    let v := redInt op (redVals s f w r)
    let ws := writeLanes w.d.toNat ((redLanes s f w r).map fun n => (n, v.1))
    Gives (.red f w) s fun t => LaneFaults f { writes := ws, arith := if v.2 then redLanes s f w r else [] } r.pc s t ∧ Issued f 3 w.e r { r with pc := r.pc + 1 } ws s t := by
  intro v ws
  have hop8 : w.m.toNat % 8 = op := by omega
  have hint : bitOf w.m.toNat 3 = false := by rw [bitOf_three]; exact decide_eq_false (by omega)
  have hextra : (if 6 ≤ w.m.toNat % 8 ∨ (bitOf w.m.toNat 3 = true ∧ (w.m.toNat % 8 = 4 ∨ w.m.toNat % 8 = 5)) then [4] else []) = ([] : List Nat) :=
    if_neg fun h => h.elim (fun h => by omega) fun h => absurd (hint.symm.trans h.1) Bool.false_ne_true
  have hx : exec (.red f w) s = nextOf s (issueR f 0x2B w _ _ _ s) := rfl
  unfold issueR at hx
  refine gives_imp (gives_issue (o := { writes := ws, arith := if v.2 then redLanes s f w r else [] }) hi hx
    (progCodes_plain hd ha (congrArg BitVec.toNat hb) (mod_named w.m) rfl rfl rfl hextra) ?_ (goes_of_issuing hi)) fun t ⟨hfaults, hissued⟩ => ⟨hfaults, ?_⟩
  · simp only [redLanes_issueBase, redVals_issueBase (infl_of_issuing hi), hint, hop8]
    cases hl : redLanes s f w r with
    | nil =>
      simp only [ws, hl, List.isEmpty_nil, if_true, ite_self, List.map_nil]
      rfl
    | cons n ns =>
      simp only [ws, hl]
      rfl
  · unfold runAfter at hissued
    simp only [hint] at hissued
    exact hissued

/-- One that does not saturate. -/
theorem gives_redInt_clean {op x : Nat} (hi : Issuing s f (encR 0x2B w) w.e r) (hop : w.m.toNat % 16 = op) (h6 : op < 6) (hv : redInt op (redVals s f w r) = (x, false)) :
    Gives (.red f w) s fun t => Clean s t ∧ Issued f 3 w.e r { r with pc := r.pc + 1 } (writeLanes w.d.toNat ((redLanes s f w r).map fun n => (n, x))) s t := by
  have h := gives_redInt hd ha hb hi hop h6
  rw [hv] at h
  exact gives_imp h fun t ⟨hfaults, hissued⟩ => ⟨hfaults.clean rfl rfl, hissued⟩

/-- A block floating-point reduction whose alignments do not saturate writes its result to each of its lanes (R103, R115). -/
theorem gives_redBfp {op : Nat} (hi : Issuing s f (encR 0x2B w) w.e r) (h128 : -128 ≤ r.sx) (h127 : r.sx ≤ 127) (h4 : op < 4) (hop : w.m.toNat % 16 = 8 + op) (hon : redLanes s f w r ≠ [])
    (hnear : ∀ b ∈ (redBfp op r.sx (redVals s f w r)).2, b = false) :
    Gives (.red f w) s (BfpIssued f 3 w.d.toNat w.e r r.sx (redLanes s f w r) (fun _ => (redBfp op r.sx (redVals s f w r)).1) s) := by
  have hop8 : w.m.toNat % 8 = op := by omega
  have hbfp : bitOf w.m.toNat 3 = true := by rw [bitOf_three]; exact decide_eq_true (by omega)
  have hextra : (if 6 ≤ w.m.toNat % 8 ∨ (bitOf w.m.toNat 3 = true ∧ (w.m.toNat % 8 = 4 ∨ w.m.toNat % 8 = 5)) then [4] else []) = ([] : List Nat) := if_neg (by omega)
  refine gives_bfp (i := .red f w) hi rfl (progCodes_plain hd ha (congrArg BitVec.toNat hb) (mod_named w.m) rfl rfl rfl hextra) hbfp rfl h128 h127 ?_
  have hal : ((redLanes s f w r).zip (redBfp op r.sx (redVals s f w r)).2).filterMap (fun p => if p.2 = true then some p.1 else none) = [] :=
    List.filterMap_eq_nil_iff.mpr fun p hp => if_neg fun h => Bool.false_ne_true ((hnear p.2 (List.of_mem_zip hp).2).symm.trans h)
  simp only [redLanes_issueBase, redVals_issueBase (infl_of_issuing hi), hbfp, hop8, List.isEmpty_eq_false_iff.mpr hon, hal, Bool.false_eq_true, if_false, if_true]

end

/-! #### Integer reductions (Table 4-5) -/

theorem sum_eq_foldl (xs : List Nat) : xs.foldl (fun acc x => acc + s32 x) (0 : Int) = (xs.map s32).sum := by
  rw [List.sum_eq_foldl, List.foldl_map]

/-- A sum in range is what it is, and one out of range saturates. -/
theorem redInt_sum (xs : List Nat) : redInt 0 xs = (wrap32 (clampInt (-2147483648) 2147483647 (xs.map s32).sum), decide (clampInt (-2147483648) 2147483647 (xs.map s32).sum ≠ (xs.map s32).sum)) := by
  unfold redInt
  simp only [sum_eq_foldl, s32_sat32]
  rfl

theorem clampInt_of_mem {lo hi v : Int} (h0 : lo ≤ v) (h1 : v ≤ hi) : clampInt lo hi v = v := by
  unfold clampInt
  rw [if_neg (by omega), if_neg (by omega)]

/-- Rounding a quotient keeps it within integer bounds. -/
theorem rne_bounds {lo hi n : Int} {d : Nat} (hd : 0 < d) (h0 : lo * d ≤ n) (h1 : n ≤ hi * d) : lo ≤ rne n d ∧ rne n d ≤ hi := by
  have hd' : (0 : Int) < d := by exact_mod_cast hd
  have hq0 : lo ≤ n / d := Int.le_ediv_of_mul_le hd' h0
  have hq1 : n / d ≤ hi := Int.ediv_le_of_le_mul hd' h1
  have hup : (d : Int) ≤ 2 * (n % d) → n / d + 1 ≤ hi := fun hr => by
    have hne : n ≠ hi * d := fun he => by
      rw [he, Int.mul_emod_left] at hr
      omega
    exact Int.ediv_lt_of_lt_mul hd' (lt_of_le_of_ne h1 hne)
  unfold rne
  dsimp only
  split
  · exact ⟨hq0, hq1⟩
  · split
    · exact ⟨by omega, hup (by omega)⟩
    · split
      · exact ⟨hq0, hq1⟩
      · exact ⟨by omega, hup (by omega)⟩

/-- The mean of 32-bit values is one. -/
theorem mean_bounds (xs : List Nat) : -2147483648 ≤ rne (xs.map s32).sum xs.length ∧ rne (xs.map s32).sum xs.length ≤ 2147483647 := by
  cases xs with
  | nil => decide
  | cons x xs =>
    have h0 := List.card_nsmul_le_sum ((x :: xs).map s32) (-2147483648) fun y hy => by
      obtain ⟨z, _, rfl⟩ := List.mem_map.mp hy
      exact (s32_bounds z).1
    have h1 := List.sum_le_card_nsmul ((x :: xs).map s32) 2147483647 fun y hy => by
      obtain ⟨z, _, rfl⟩ := List.mem_map.mp hy
      exact (s32_bounds z).2
    rw [List.length_map, nsmul_eq_mul, mul_comm] at h0 h1
    exact rne_bounds (Nat.succ_pos _) h0 h1

theorem redInt_mean (xs : List Nat) : redInt 1 xs = (wrap32 (rne (xs.map s32).sum xs.length), false) := by
  obtain ⟨h0, h1⟩ := mean_bounds xs
  unfold redInt
  simp only [sum_eq_foldl, sat32_eq, clampInt_of_mem h0 h1, s32_wrap32 h0 h1, ne_eq, not_true, decide_false]

/-- A running choice of the greater key ends at an element whose key no other exceeds. -/
theorem foldl_greater (key : Nat → Int) (xs : List Nat) (a : Nat) : let m := xs.foldl (fun acc x => if key x > key acc then x else acc) a
    m ∈ a :: xs ∧ ∀ y ∈ a :: xs, key y ≤ key m := by
  induction xs generalizing a with
  | nil => exact ⟨List.mem_singleton_self a, fun y hy => by rw [List.mem_singleton.mp hy]; exact le_refl _⟩
  | cons x xs ih =>
    obtain ⟨hmem, hmax⟩ := ih (if key x > key a then x else a)
    have hkey : key a ≤ key (if key x > key a then x else a) ∧ key x ≤ key (if key x > key a then x else a) := by split <;> omega
    refine ⟨?_, fun y hy => ?_⟩
    · rcases List.mem_cons.mp hmem with h | h
      · simp only [List.foldl_cons]
        rw [h]
        split <;> simp
      · exact List.mem_cons_of_mem _ (List.mem_cons_of_mem _ h)
    · have hfirst := hmax _ (List.mem_cons_self ..)
      rcases List.mem_cons.mp hy with rfl | hy
      · exact hkey.1.trans hfirst
      · rcases List.mem_cons.mp hy with rfl | hy
        · exact hkey.2.trans hfirst
        · exact hmax y (List.mem_cons_of_mem _ hy)

/-- Started at the list's own head, it ends at an element of the list. -/
theorem foldl_greater_head (key : Nat → Int) (a : Nat) (as : List Nat) : let m := (a :: as).foldl (fun acc x => if key x > key acc then x else acc) a
    m ∈ a :: as ∧ ∀ y ∈ a :: as, key y ≤ key m := by
  obtain ⟨hmem, hge⟩ := foldl_greater key (a :: as) a
  refine ⟨?_, fun y hy => hge y (List.mem_cons_of_mem _ hy)⟩
  rcases List.mem_cons.mp hmem with h | h
  · rw [h]
    exact List.mem_cons_self ..
  · exact h

/-- The maximum is the value that no other exceeds. -/
theorem redInt_max {xs : List Nat} (hlt : ∀ a ∈ xs, a < 2 ^ 32) {x : Int} (hx : x ∈ xs.map s32) (hmax : ∀ y ∈ xs.map s32, y ≤ x) : redInt 2 xs = (wrap32 x, false) := by
  cases xs with
  | nil => cases hx
  | cons a as =>
    obtain ⟨hin, hge⟩ := foldl_greater_head s32 a as
    obtain ⟨b, hb, rfl⟩ := List.mem_map.mp hx
    have hkey := le_antisymm (hge b hb) (hmax _ (List.mem_map_of_mem hin))
    rw [hkey, wrap32_s32 (hlt _ hin)]
    rfl

/-- The minimum is the value that exceeds no other. -/
theorem redInt_min {xs : List Nat} (hlt : ∀ a ∈ xs, a < 2 ^ 32) {x : Int} (hx : x ∈ xs.map s32) (hmin : ∀ y ∈ xs.map s32, x ≤ y) : redInt 3 xs = (wrap32 x, false) := by
  cases xs with
  | nil => cases hx
  | cons a as =>
    have hneg : (fun acc x => if s32 x < s32 acc then x else acc) = fun acc x => if -s32 x > -s32 acc then x else acc := by
      funext acc x
      simp only [gt_iff_lt, neg_lt_neg_iff]
    obtain ⟨hin, hge⟩ := foldl_greater_head (fun x => -s32 x) a as
    rw [← hneg] at hin hge
    obtain ⟨b, hb, rfl⟩ := List.mem_map.mp hx
    have hkey := le_antisymm (hmin _ (List.mem_map_of_mem hin)) (neg_le_neg_iff.mp (hge b hb))
    rw [hkey, wrap32_s32 (hlt _ hin)]
    rfl

/-- The count of the values that are not 0. -/
theorem redInt_count {xs : List Nat} (hlt : ∀ a ∈ xs, a < 2 ^ 32) (hlen : xs.length < 2 ^ 32) : redInt 4 xs = (wrap32 (((xs.map s32).filter fun x => x != 0).length : Nat), false) := by
  have hcount : ((xs.map s32).filter fun x => x != 0).length = (xs.filter fun x => x != 0).length := by
    rw [List.filter_map, List.length_map]
    congr 1
    refine List.filter_congr fun a ha => ?_
    rw [Function.comp_apply, Bool.eq_iff_iff, bne_iff_ne, bne_iff_ne]
    exact not_congr (s32_eq_zero (hlt a ha))
  rw [hcount, wrap32_natCast (lt_of_le_of_lt (List.length_filter_le ..) hlen)]
  rfl

/-! #### The family of lane exchanges -/

section
variable {s : State} {f : Nat} {w : RForm} {r : Run} (hd : writable (binding s f r.grp) w.d.toNat = true) (ha : reservedCode w.a.toNat = false) (hb : w.b = 0)

theorem redVals_lt (a : Nat) (h : a ∈ redVals s f w r) : a < 2 ^ 32 := by
  obtain ⟨n, hn, rfl⟩ := List.mem_map.mp h
  exact operand_lt s f _ (lt_of_mem_bitList (List.mem_filter.mp hn).1)

theorem length_redVals : (redVals s f w r).length ≤ 32 := by
  unfold redVals redLanes
  rw [List.length_map]
  calc _ ≤ (bitList 32 r.m).length := List.length_filter_le ..
    _ ≤ (List.range 32).length := List.length_filter_le ..
    _ = 32 := List.length_range

theorem map_s32_redVals : (redVals s f w r).map s32 = (redLanes s f w r).map fun n => s32 (operand s f w.a.toNat n) := List.map_map ..

/-- A MOD of which PH is free. -/
theorem mod_sixteen {x a b : BitVec 5} {k : Nat} (h : x = a ∨ x = b) (ha : a.toNat % 16 = k) (hb : b.toNat % 16 = k) : x.toNat % 16 = k := h.elim (fun h => h ▸ ha) fun h => h ▸ hb

include hd ha hb in
/-- A sum that leaves the range saturates, which is an arithmetic fault (R106). -/
theorem gives_red_saturates (hi : Issuing s f (encR 0x2B w) w.e r) (hop : w.m.toNat % 16 = 0)
    (hout : ((redVals s f w r).map s32).sum < -2147483648 ∨ 2147483647 < ((redVals s f w r).map s32).sum) : Gives (.red f w) s fun t =>
      ArithFault f (FR_PROG_STAT_ARITH f) (FR_PROG_CTRL_ARITH_EN f) r.pc s t ∧ Issued f 3 w.e r { r with pc := r.pc + 1 }
        (writeLanes w.d.toNat ((redLanes s f w r).map fun n => (n, wrap32 (clampInt (-2147483648) 2147483647 ((redVals s f w r).map s32).sum)))) s t := by
  obtain ⟨h0, h1⟩ := clampInt_mem (show (-2147483648 : Int) ≤ 2147483647 by decide) ((redVals s f w r).map s32).sum
  have hsat : clampInt (-2147483648) 2147483647 ((redVals s f w r).map s32).sum ≠ ((redVals s f w r).map s32).sum := fun h => by omega
  have hon : redLanes s f w r ≠ [] := fun h => by
    have hzero : ((redVals s f w r).map s32).sum = 0 := by unfold redVals; rw [h]; rfl
    omega
  have h := gives_redInt hd ha hb hi hop (by decide)
  rw [redInt_sum, decide_eq_true hsat] at h
  exact gives_imp h fun t ⟨hfaults, hissued⟩ => ⟨hfaults.arith rfl hon, hissued⟩

end

/-- Settles O17: XSH, RSH and BCL by the lane they read; RED by the reduction of its lanes (R102, R103; log entry 97 lets A be an input). -/
theorem laneExchange : Obligations.LaneExchange := by
  unfold Obligations.LaneExchange
  intro s f w r hd ha hb A ls on xs gives all
  have hxs : xs = (redVals s f w r).map s32 := map_s32_redVals.symm
  refine ⟨fun hi hm => ?xsh, fun hi h8 h13 => ?fill, fun hi => gives_rsh hd ha hb hi, fun hi => ?bcl, fun hi hop h0 h1 => ?sum, fun hi hop hout => ?sat, fun hi hop => ?mean, fun hi hop => ?or,
    fun op hi h128 h127 h4 hop hon hnear => gives_redBfp hd ha hb hi h128 h127 h4 hop hon hnear, fun hi hop => ?count, fun hi hop x hx hmax => ?max, fun hi hop x hx hmin => ?min⟩
  case xsh =>
    have hk : w.m.toNat % 8 = w.m.toNat := Nat.mod_eq_of_lt (by omega)
    have hfill : bitOf w.m.toNat 3 = false := by rw [bitOf_three]; exact decide_eq_false (by omega)
    have h := gives_xsh hd ha hb hi (by omega) (by omega)
    simp only [hk, hfill, Bool.false_eq_true, false_and, or_false, ← Nat.not_lt, ite_not] at h
    exact h
  case fill =>
    have hk : w.m.toNat % 8 = w.m.toNat - 8 := by omega
    have hfill : bitOf w.m.toNat 3 = true := by rw [bitOf_three]; exact decide_eq_true (by omega)
    have h := gives_xsh hd ha hb hi (by omega) (by omega)
    simp only [hk, hfill, true_and, ← Nat.not_lt, ← Bool.not_eq_true, ← not_and_or, ite_not] at h
    exact h
  case bcl =>
    have h := gives_bcl hd ha hb hi
    simp only [← Nat.not_lt, ite_not] at h
    exact h
  case sum =>
    rw [hxs] at h0 h1
    refine gives_redInt_clean hd ha hb hi (mod_sixteen hop rfl rfl) (by decide) ((redInt_sum (redVals s f w r)).trans ?_)
    rw [clampInt_of_mem h0 h1, hxs]
    simp
  case sat =>
    have h := gives_red_saturates hd ha hb hi (mod_sixteen hop rfl rfl) (hxs ▸ hout)
    rw [← hxs] at h
    exact h
  case mean =>
    have hlen : xs.length = (redVals s f w r).length := by rw [hxs, List.length_map]
    refine gives_redInt_clean hd ha hb hi (mod_sixteen hop rfl rfl) (by decide) ((redInt_mean (redVals s f w r)).trans ?_)
    rw [hlen, hxs]
  case or => exact gives_redInt_clean hd ha hb hi (mod_sixteen hop rfl rfl) (by decide) rfl
  case count =>
    refine gives_redInt_clean hd ha hb hi (mod_sixteen hop rfl rfl) (by decide) ((redInt_count redVals_lt (lt_of_le_of_lt length_redVals (by decide))).trans ?_)
    rw [hxs]
  case max => exact gives_redInt_clean hd ha hb hi (mod_sixteen hop rfl rfl) (by decide) (redInt_max redVals_lt (hxs ▸ hx) (hxs ▸ hmax))
  case min => exact gives_redInt_clean hd ha hb hi (mod_sixteen hop rfl rfl) (by decide) (redInt_min redVals_lt (hxs ▸ hx) (hxs ▸ hmin))

end Sys2Proof.Machine
end

section
/-! The rail state machine outside the boundary: the end of a DARK wait, a grant, the completion of a soft start and the end of a retry wait (R156, R161 to R164). -/
namespace Sys2Proof.Machine
open Sys2Proof.Claims

/-! #### Registers that an operation on one frond writes -/

/-- Nothing but frond f's core and the registers in `as` has changed. -/
structure WritesAt (f : Nat) (as : List Nat) (s t : State) : Prop where
  rest : t = { s with regs := t.regs, fronds := t.fronds }
  others : ∀ g, g ≠ f → fr t g = fr s g
  regs : ∀ a, a ∉ as → reg t a = reg s a

namespace WritesAt

variable {f : Nat} {as bs : List Nat} {s t u : State}

theorem trans (h : WritesAt f as s t) (k : WritesAt f bs t u) : WritesAt f (as ++ bs) s u := by
  obtain ⟨hrest, hfr, hreg⟩ := h
  obtain ⟨krest, kfr, kreg⟩ := k
  refine ⟨by rw [krest, hrest], fun g hg => (kfr g hg).trans (hfr g hg), fun a ha => ?_⟩
  obtain ⟨has, hbs⟩ := not_or.mp (mt List.mem_append.mpr ha)
  exact (kreg a hbs).trans (hreg a has)

theorem fget_eq (h : WritesAt f as s t) {x : Fld} (hx : x.addr ∉ as) : fget t x = fget s x := by
  unfold fget
  rw [h.regs _ hx]

theorem scal_eq (h : WritesAt f as s t) {g k : Nat} (hk : FR_SCALAR g k ∉ as) : scal t g k = scal s g k := by
  unfold scal
  rw [h.regs _ hk]

theorem flt_eq (h : WritesAt f as s t) : t.flt = s.flt := by rw [h.rest]
theorem adm_eq (h : WritesAt f as s t) : t.adm = s.adm := by rw [h.rest]
theorem air_toAdm (h : WritesAt f as s t) (m : AMsg) : (toAdm t m).adm.air = s.adm.air ++ [m] := by
  show t.adm.air ++ [m] = _
  rw [h.adm_eq]

theorem member_eq (h : WritesAt f as s t) : t.member = s.member := by rw [h.rest]
theorem pending_eq (h : WritesAt f as s t) : t.pending = s.pending := by rw [h.rest]

/-- Writes in frond f's own page keep to frond f. -/
theorem inFrond (h : WritesAt f as s t) (hpage : ∀ a ∈ as, a / 0x10000 = 0x10 + f) : InFrond f s t :=
  ⟨by rw [h.rest], h.others, fun a ha => h.regs a fun hin => ha (hpage a hin)⟩

end WritesAt

section
variable (s : State) (f : Nat)

theorem writesAt_updFr (g : Frond → Frond) : WritesAt f [] s (updFr s f g) := ⟨rfl, fun _ hg => fr_updFr_ne s f _ g hg, fun _ _ => rfl⟩

theorem writesAt_fset (x : Fld) (v : Nat) : WritesAt f [x.addr] s (fset s x v) := ⟨rfl, fun _ _ => rfl, fun a ha => reg_fset_ne s x v a (List.ne_of_not_mem_cons ha)⟩

theorem fr_fset (x : Fld) (v g : Nat) : fr (fset s x v) g = fr s g := rfl
theorem fr_setScal (k v g : Nat) : fr (setScal s f k v) g = fr s g := rfl

theorem writesAt_setScal (k v : Nat) : WritesAt f [FR_SCALAR f k] s (setScal s f k v) := ⟨rfl, fun _ _ => rfl, fun a ha => reg_setReg_ne s _ a _ (List.ne_of_not_mem_cons ha)⟩

theorem railStat_ne_scalar (k : Nat) : FR_RAIL_STAT f ≠ FR_SCALAR f k := by simp only [FR_RAIL_STAT, FR_SCALAR]; omega

theorem page_scalar {k : Nat} (hk : k < 8) : FR_SCALAR f k / 0x10000 = 0x10 + f := by simp only [FR_SCALAR]; omega

/-- A scalar shows no field of FR_RAIL_STAT. -/
theorem railStat_setScal (k v hi lo : Nat) : fget (setScal s f k v) ⟨FR_RAIL_STAT f, hi, lo⟩ = fget s ⟨FR_RAIL_STAT f, hi, lo⟩ := fget_setReg_addr _ (railStat_ne_scalar f k)

theorem scal_setScal_same {k v : Nat} (hk : k < 8) (hv : v < 2 ^ 64) : scal (setScal s f k v) f k = v := by
  unfold scal setScal
  rw [reg_setReg_same _ _ _ (ne_id_of_page (page_scalar f hk)), BitVec.toNat_ofNat, Nat.mod_eq_of_lt hv]

/-! #### The point and the moves of a rail (R156 to R158, R161) -/

theorem writesAt_setPoint (p : Nat) : WritesAt f [FR_SCALAR f 0, FR_RAIL_STAT f] s (setPoint s f p) := (writesAt_setScal s f 0 _).trans (writesAt_fset _ f (FR_RAIL_STAT_POINT f) p)

theorem railStat_setPoint (p : Nat) {hi lo : Nat} (h : hi < 8 ∨ 19 < lo) : fget (setPoint s f p) ⟨FR_RAIL_STAT f, hi, lo⟩ = fget s ⟨FR_RAIL_STAT f, hi, lo⟩ :=
  (fget_fset_bits _ p (by decide) h).trans (railStat_setScal s f 0 _ hi lo)

theorem pointP_setPoint (p : Nat) : pointP (setPoint s f p) f = p % 2 ^ 12 := by
  have hkept : scal (setPoint s f p) f 0 = scal (setScal s f 0 (putBits (scal s f 0) 11 0 p)) f 0 :=
    (writesAt_fset _ f (FR_RAIL_STAT_POINT f) p).scal_eq fun hin => railStat_ne_scalar f 0 (List.mem_singleton.mp hin).symm
  unfold pointP
  rw [hkept, scal_setScal_same s f (k := 0) (by decide) (putBits_lt (scal s f 0) 11 0 p (toNat_reg_lt s _) (by decide))]
  exact bitsOf_putBits_same _ 11 0 p

theorem writesAt_setMoving (b : Bool) : WritesAt f [FR_SCALAR f 7, FR_RAIL_STAT f] s (setMoving s f b) := (writesAt_setScal s f 7 _).trans (writesAt_fset _ f (FR_RAIL_STAT_MOVING f) _)

theorem fr_setMoving (b : Bool) (g : Nat) : fr (setMoving s f b) g = fr s g := by
  unfold setMoving fsetB
  rw [fr_fset, fr_setScal]

theorem railStat_setMoving (b : Bool) {hi lo : Nat} (h : hi < 7 ∨ 7 < lo) : fget (setMoving s f b) ⟨FR_RAIL_STAT f, hi, lo⟩ = fget s ⟨FR_RAIL_STAT f, hi, lo⟩ :=
  (fget_fset_bits _ _ (by decide) h).trans (railStat_setScal s f 7 _ hi lo)

theorem writesAt_setEnd (e seq : Nat) : WritesAt f [FR_SCALAR f 7, FR_SCALAR f 0, FR_RAIL_STAT f] s (setEnd s f e seq) :=
  (writesAt_setScal s f 7 _).trans ((writesAt_setScal _ f 0 _).trans ((writesAt_fset _ f (FR_RAIL_STAT_END f) e).trans (writesAt_updFr _ f fun x => { x with rail := { x.rail with e := e } })))

theorem railStat_setEnd (e seq : Nat) {hi lo : Nat} (h : hi < 20 ∨ 31 < lo) : fget (setEnd s f e seq) ⟨FR_RAIL_STAT f, hi, lo⟩ = fget s ⟨FR_RAIL_STAT f, hi, lo⟩ := by
  unfold setEnd
  rw [fget_updFr, fget_fset_bits _ e (by decide) h, railStat_setScal, railStat_setScal]

theorem fr_setEnd (e seq : Nat) : fr (setEnd s f e seq) f = { fr s f with rail := { (fr s f).rail with e := e } } := by
  unfold setEnd
  rw [fr_updFr_same, fr_fset, fr_setScal, fr_setScal]

/-- The core of a frond whose rail has taken E and the plan of the move toward it. -/
def planned (x : Frond) (e : Nat) (plan : Option Plan) : Frond := { x with rail := { x.rail with e := e, plan := plan, code := none, ending := false } }

/-- The start of a move takes E, and shows and plans a move unless the point is E already (R156, R158). -/
theorem startMove_eq (e seq : Nat) : ∃ b plan, startMove s f e seq =
    updFr (setMoving (setEnd s f e seq) f b) f fun x => { x with rail := { x.rail with plan := plan, code := none, ending := false } } := by
  unfold startMove
  simp only
  split <;> exact ⟨_, _, rfl⟩

theorem writesAt_startMove (e seq : Nat) : WritesAt f [FR_SCALAR f 7, FR_SCALAR f 0, FR_RAIL_STAT f, FR_SCALAR f 7, FR_RAIL_STAT f] s (startMove s f e seq) := by
  obtain ⟨b, plan, heq⟩ := startMove_eq s f e seq
  rw [heq]
  exact (writesAt_setEnd s f e seq).trans ((writesAt_setMoving _ f b).trans (writesAt_updFr _ f _))

theorem railSt_startMove (e seq : Nat) : railSt (startMove s f e seq) f = railSt s f := by
  obtain ⟨b, plan, heq⟩ := startMove_eq s f e seq
  unfold railSt
  rw [heq, fget_updFr, railStat_setMoving _ f b (by decide), railStat_setEnd s f e seq (by decide)]

theorem fr_startMove (e seq : Nat) : ∃ plan, fr (startMove s f e seq) f = planned (fr s f) e plan := by
  obtain ⟨b, plan, heq⟩ := startMove_eq s f e seq
  refine ⟨plan, ?_⟩
  rw [heq, fr_updFr_same, fr_setMoving, fr_setEnd]
  rfl

theorem writesAt_cancelMove : WritesAt f [FR_SCALAR f 7, FR_RAIL_STAT f, FR_RAIL_STAT f] s (cancelMove s f) :=
  (writesAt_setMoving s f false).trans ((writesAt_fset _ f (FR_RAIL_STAT_PEND f) 0).trans (writesAt_updFr _ f _))

theorem fr_cancelMove : fr (cancelMove s f) f = { fr s f with rail := { (fr s f).rail with plan := none, code := none, ending := false, pend := none } } := by
  unfold cancelMove fsetB
  rw [fr_updFr_same, fr_fset, fr_setMoving]

/-! #### The rail state (R161) -/

variable {st : Nat}

/-- A rail without a running loop shows point 0. -/
theorem setRail_eq (h : st ≠ 2 ∧ st ≠ 3) : setRail s f st = setPoint (fset s (FR_RAIL_STAT_STATE f) st) f 0 := if_neg (not_or.mpr h)

theorem writesAt_setRail (h : st ≠ 2 ∧ st ≠ 3) : WritesAt f [FR_RAIL_STAT f, FR_SCALAR f 0, FR_RAIL_STAT f] s (setRail s f st) := by
  rw [setRail_eq s f h]
  exact (writesAt_fset s f (FR_RAIL_STAT_STATE f) st).trans (writesAt_setPoint _ f 0)

theorem fr_setRail (h : st ≠ 2 ∧ st ≠ 3) (g : Nat) : fr (setRail s f st) g = fr s g := by
  rw [setRail_eq s f h]
  rfl

theorem railSt_fset (hst : st < 8) : railSt (fset s (FR_RAIL_STAT_STATE f) st) f = st := (fget_fset_page s st (page_railStat f) (by decide)).trans (Nat.mod_eq_of_lt hst)

theorem railSt_setRail (h : st ≠ 2 ∧ st ≠ 3) (hst : st < 8) : railSt (setRail s f st) f = st := by
  rw [setRail_eq s f h]
  exact (railStat_setPoint _ f 0 (by decide)).trans (railSt_fset s f hst)

theorem pointP_setRail (h : st ≠ 2 ∧ st ≠ 3) : pointP (setRail s f st) f = 0 := by
  rw [setRail_eq s f h]
  exact pointP_setPoint _ f 0

theorem tries_setRail (h : st ≠ 2 ∧ st ≠ 3) : fget (setRail s f st) (FR_RAIL_STAT_TRIES f) = fget s (FR_RAIL_STAT_TRIES f) := by
  rw [setRail_eq s f h]
  exact (railStat_setPoint _ f 0 (by decide)).trans (fget_fset_bits s st (by decide) (by decide))

/-- S1 and the count of clamped FFVs are all that the law writes with S1 (R136, R138). -/
theorem writesAt_writeS1 : WritesAt f [FR_SCALAR f 1, FR_LAW_STAT f] s (writeS1 s f) := by
  have hset : ∀ v, WritesAt f ([FR_SCALAR f 1] ++ [FR_LAW_STAT f]) s (setScal s f 1 v) := fun v =>
    have h := writesAt_setScal s f 1 v
    ⟨h.rest, h.others, fun a ha => h.regs a fun hin => ha (List.mem_append_left _ hin)⟩
  unfold writeS1
  simp only
  split
  · exact hset 0
  · split
    · exact (writesAt_setScal s f 1 _).trans (writesAt_fset _ f (FR_LAW_STAT_FFV_CLAMPS f) _)
    · exact hset _

end

/-! #### The end of a DARK wait (R162) -/

section
variable {s : State} {f : Nat}

/-- The release that a soft start or a service leaves as it ends. -/
def darkRelease (s : State) (f : Nat) : List AMsg := if railSt s f = 2 ∨ railSt s f = 3 then [.release f] else []

/-- What the core forgets as it enters Dark. -/
def darkCore (x : Frond) : Frond := { x with rail := { x.rail with darkWait := false, settle := 0, doneDue := false, abortDue := false }, gov := { x.gov with draining := false, chip := false } }

/-- The moves and TRIES are gone, and the frond is Dark. -/
def darkEntered (s : State) (f : Nat) : State := setRail (updFr (fset (cancelMove s f) (FR_RAIL_STAT_TRIES f) 0) f darkCore) f 0

theorem exec_darkWaitExpiry (hf : hasF s f = true) (hd : (fr s f).rail.darkWait = true) :
    exec (.darkWaitExpiry f) s = nextOf s (darkEntered { s with adm := { s.adm with air := s.adm.air ++ darkRelease s f } } f) := by
  have hrel : (if railSt s f = 2 ∨ railSt s f = 3 then toAdm s (.release f) else s) = { s with adm := { s.adm with air := s.adm.air ++ darkRelease s f } } := by
    unfold darkRelease
    split
    · rfl
    · rw [List.append_nil]
  rw [← hrel]
  exact congrArg (nextOf s) (if_pos (by rw [hf, hd]; rfl))

theorem inFrond_darkEntered (s : State) (f : Nat) : InFrond f s (darkEntered s f) ∧ (darkEntered s f).adm = s.adm ∧ (darkEntered s f).flt = s.flt := by
  have h := (writesAt_cancelMove s f).trans ((writesAt_fset _ f (FR_RAIL_STAT_TRIES f) 0).trans ((writesAt_updFr _ f darkCore).trans (writesAt_setRail _ f (st := 0) (by decide))))
  refine ⟨h.inFrond ?_, h.adm_eq, h.flt_eq⟩
  simp [page_railStat, page_scalar]

theorem fr_darkEntered (s : State) (f : Nat) :
    fr (darkEntered s f) f = darkCore { fr s f with rail := { (fr s f).rail with plan := none, code := none, ending := false, pend := none } } := by
  unfold darkEntered
  rw [fr_setRail _ f (by decide), fr_updFr_same, fr_fset, fr_cancelMove]

theorem tries_darkEntered (s : State) (f : Nat) : fget (darkEntered s f) (FR_RAIL_STAT_TRIES f) = 0 := by
  unfold darkEntered
  rw [tries_setRail _ f (by decide), fget_updFr]
  exact fget_fset_page _ 0 (page_railStat f) (by decide)

theorem gives_darkWaitExpiry (hf : hasF s f = true) (hd : (fr s f).rail.darkWait = true) : Gives (.darkWaitExpiry f) s fun t =>
    railSt t f = 0 ∧ pointP t f = 0 ∧ fget t (FR_RAIL_STAT_TRIES f) = 0 ∧ (fr t f).rail.plan = none ∧ (fr t f).rail.pend = none ∧ (fr t f).rail.darkWait = false ∧ (fr t f).gov.draining = false ∧
    t.adm.air = s.adm.air ++ (if railSt s f = 2 ∨ railSt s f = 3 then [.release f] else []) ∧ (∀ g, g ≠ f → fr t g = fr s g) ∧ (∀ a, a / 0x10000 ≠ 0x10 + f → reg t a = reg s a) ∧ t.flt = s.flt := by
  obtain ⟨hin, hadm, hflt⟩ := inFrond_darkEntered { s with adm := { s.adm with air := s.adm.air ++ darkRelease s f } } f
  have ⟨_, hothers, hregs⟩ := hin
  obtain ⟨hmem, hpend⟩ := member_pending_of_inFrond hin
  refine gives_of_exec (exec_darkWaitExpiry hf hd) hmem hpend
    ⟨railSt_setRail _ f (by decide) (by decide), pointP_setRail _ f (by decide), tries_darkEntered _ f, ?_, ?_, ?_, ?_, congrArg Adm.air hadm, hothers, hregs, hflt⟩ <;>
  · rw [fr_darkEntered]
    rfl

/-! #### A grant (R162, R163) -/

/-- The oldest grant has left the updates in flight. -/
def grantTaken (s : State) (f : Nat) (rest : List FMsg) : State := updFr s f fun x => { x with upd := rest }

/-- The rail state is Soft start with the mark of the grant, and REF is 0. -/
def grantShown (s : State) (f : Nat) (mark : Bool) : State := fset (fsetB (fset s (FR_RAIL_STAT_STATE f) 2) (FR_RAIL_STAT_DEFER f) mark) (FR_SAT_CFG_REF f) 0

/-- What the core forgets as a soft start begins. -/
def grantCore (x : Frond) : Frond := { x with rail := { x.rail with wakeReq := false, settle := 0, doneDue := false } }

/-- Soft start begins at point p with S1 reading 0, before its move starts. -/
def softStarted (s : State) (f : Nat) (mark : Bool) (p : Nat) : State := updFr (setScal (setPoint (grantShown s f mark) f p) f 1 0) f grantCore

theorem exec_softStartGrant {m : FMsg} {rest : List FMsg} (hm : takeFirst isGrant (fr s f).upd = some (m, rest)) : exec (.softStartGrant f) s = nextOf s
    (if railSt s f = 1 ∧ (fr s f).rail.darkWait = false
      then startMove (softStarted (grantTaken s f rest) f (grantMark m) (min (vmNow s f) (fr s f).rail.e)) f (fr s f).rail.e (bitsOf (scal s f 0) 63 32)
     else toAdm (grantTaken s f rest) (.release f)) := by
  show execSoftStartGrant f s = _
  unfold execSoftStartGrant
  rw [hm]
  rfl

theorem writesAt_grantShown (s : State) (f : Nat) (mark : Bool) : WritesAt f [FR_RAIL_STAT f, FR_RAIL_STAT f, FR_SAT_CFG f] s (grantShown s f mark) :=
  (writesAt_fset s f (FR_RAIL_STAT_STATE f) 2).trans ((writesAt_fset _ f (FR_RAIL_STAT_DEFER f) _).trans (writesAt_fset _ f (FR_SAT_CFG_REF f) 0))

/-- What follows the grant's own fields until its move starts. -/
theorem writesAt_softStart (s : State) (f p : Nat) : WritesAt f [FR_SCALAR f 0, FR_RAIL_STAT f, FR_SCALAR f 1] s (updFr (setScal (setPoint s f p) f 1 0) f grantCore) :=
  (writesAt_setPoint s f p).trans ((writesAt_setScal _ f 1 0).trans (writesAt_updFr _ f grantCore))

theorem page_satCfg (f : Nat) : FR_SAT_CFG f / 0x10000 = 0x10 + f := by simp only [FR_SAT_CFG]; omega
theorem satCfg_ne_scalar (f k : Nat) : FR_SAT_CFG f ≠ FR_SCALAR f k := by simp only [FR_SAT_CFG, FR_SCALAR]; omega
theorem satCfg_ne_railStat (f : Nat) : FR_SAT_CFG f ≠ FR_RAIL_STAT f := by simp only [FR_SAT_CFG, FR_RAIL_STAT]; omega

theorem railSt_softStarted (s : State) (f : Nat) (mark : Bool) (p : Nat) : railSt (softStarted s f mark p) f = 2 := by
  unfold railSt softStarted grantShown fsetB
  rw [fget_updFr, railStat_setScal, railStat_setPoint _ f p (by decide), fget_fset_addr _ _ _ _ (satCfg_ne_railStat f).symm, fget_fset_bits _ _ (by decide) (by decide)]
  exact railSt_fset s f (by decide)

theorem ref_softStarted (s : State) (f : Nat) (mark : Bool) (p : Nat) : fget (softStarted s f mark p) (FR_SAT_CFG_REF f) = 0 := by
  unfold softStarted
  rw [(writesAt_softStart _ f p).fget_eq (by simp [satCfg_ne_scalar])]
  exact fget_fset_page _ 0 (page_satCfg f) (by decide)

theorem scal1_softStarted (s : State) (f : Nat) (mark : Bool) (p : Nat) : scal (softStarted s f mark p) f 1 = 0 := by
  unfold softStarted
  rw [scal_congr (updFr_member _ f grantCore) (updFr_regs _ f grantCore)]
  exact scal_setScal_same _ f (by decide) (by decide)

theorem fr_softStarted (s : State) (f : Nat) (mark : Bool) (p : Nat) : fr (softStarted s f mark p) f = grantCore (fr s f) := by
  unfold softStarted setPoint grantShown fsetB
  simp only [fr_updFr_same, fr_setScal, fr_fset]

theorem gives_softStarted {i : Instr} {rest : List FMsg} {mark : Bool} {p e seq : Nat} (hx : exec i s = nextOf s (startMove (softStarted (grantTaken s f rest) f mark p) f e seq)) :
    Gives i s fun t =>
      railSt t f = 2 ∧ fget t (FR_SAT_CFG_REF f) = 0 ∧ scal t f 1 = 0 ∧ (fr t f).rail.wakeReq = false ∧ (fr t f).upd = rest ∧ InFrond f s t ∧ t.flt = s.flt := by
  have hmove := writesAt_startMove (softStarted (grantTaken s f rest) f mark p) f e seq
  have hall := (writesAt_updFr s f fun x => { x with upd := rest }).trans ((writesAt_grantShown _ f mark).trans ((writesAt_softStart _ f p).trans hmove))
  obtain ⟨plan, hfr⟩ := fr_startMove (softStarted (grantTaken s f rest) f mark p) f e seq
  rw [fr_softStarted, grantTaken, fr_updFr_same] at hfr
  refine gives_inFrond hx (hall.inFrond (by simp [page_railStat, page_scalar, page_satCfg])) fun hin => ⟨?_, ?_, ?_, ?_, ?_, hin, hall.flt_eq⟩
  · rw [railSt_startMove, railSt_softStarted]
  · rw [hmove.fget_eq (by simp [satCfg_ne_scalar]), ref_softStarted]
  · rw [hmove.scal_eq (by simp [(railStat_ne_scalar f 1).symm]), scal1_softStarted]
  · exact congrArg (fun x => x.rail.wakeReq) hfr
  · exact congrArg Frond.upd hfr

/-- In Awaiting admission a grant begins the soft start (R163). -/
theorem gives_softStartGrant_starts {m : FMsg} {rest : List FMsg} (hm : takeFirst isGrant (fr s f).upd = some (m, rest)) (hst : railSt s f = 1) (hd : (fr s f).rail.darkWait = false) :
    Gives (.softStartGrant f) s fun t =>
      railSt t f = 2 ∧ fget t (FR_SAT_CFG_REF f) = 0 ∧ scal t f 1 = 0 ∧ (fr t f).rail.wakeReq = false ∧ (fr t f).upd = rest ∧ InFrond f s t ∧ t.flt = s.flt :=
  gives_softStarted ((exec_softStartGrant hm).trans (congrArg (nextOf s) (if_pos ⟨hst, hd⟩)))

/-- Any other grant is released (R162). -/
theorem gives_softStartGrant_released {m : FMsg} {rest : List FMsg} (hm : takeFirst isGrant (fr s f).upd = some (m, rest)) (h : railSt s f ≠ 1 ∨ (fr s f).rail.darkWait = true) :
    Gives (.softStartGrant f) s fun t => railSt t f = railSt s f ∧ t.adm.air = s.adm.air ++ [.release f] ∧ (fr t f).upd = rest ∧ t.regs = s.regs ∧ t.flt = s.flt := by
  have hx := exec_softStartGrant hm
  rw [if_neg fun hstart => h.elim (fun hst => hst hstart.1) fun hd => by rw [hd] at hstart; cases hstart.2] at hx
  have hupd : (fr (grantTaken s f rest) f).upd = rest := congrArg Frond.upd (fr_updFr_same s f _)
  exact gives_of_exec hx rfl rfl ⟨rfl, rfl, hupd, rfl, rfl⟩

/-! #### The completion and the retry wait (R163, R164) -/

theorem capEntering_none (h : s.flt.grpCap = []) : capEntering s f = s := by
  unfold capEntering
  rw [h]
  rfl

theorem gives_softStartComplete (hf : hasF s f = true) (hdue : (fr s f).rail.doneDue = true) (hst : railSt s f = 2) (hcap : s.flt.grpCap = []) : Gives (.softStartComplete f) s fun t =>
    railSt t f = 3 ∧ t.adm.air = s.adm.air ++ [.complete f] ∧ (∀ g, g ≠ f → fr t g = fr s g) ∧ t.flt = s.flt := by
  let u := updFr (fset s (FR_RAIL_STAT_STATE f) 3) f fun x => { x with rail := { x.rail with doneDue := false, settle := 0 } }
  have hS1 : WritesAt f _ u (writeS1 u f) := writesAt_writeS1 u f
  have hall := (writesAt_fset s f (FR_RAIL_STAT_STATE f) 3).trans ((writesAt_updFr _ f _).trans hS1)
  have hx : exec (.softStartComplete f) s = nextOf s (capEntering (toAdm (writeS1 u f) (.complete f)) f) := congrArg (nextOf s) (if_pos (by rw [hf, hdue, hst]; rfl))
  rw [capEntering_none (s := toAdm (writeS1 u f) (.complete f)) ((congrArg (fun y => y.grpCap) hall.flt_eq).trans hcap)] at hx
  have hrail : railSt (writeS1 u f) f = 3 := by
    have hkept : railSt (writeS1 u f) f = railSt u f := hS1.fget_eq (by simp [railStat_ne_scalar, FR_RAIL_STAT, FR_LAW_STAT])
    rw [hkept]
    exact (fget_updFr _ f _ _).trans (railSt_fset s f (by decide))
  exact gives_of_exec hx hall.member_eq hall.pending_eq ⟨hrail, hall.air_toAdm _, hall.others, hall.flt_eq⟩

theorem gives_retryWaitExpiry (hf : hasF s f = true) (hst : railSt s f = 4) (hr : (fr s f).rail.retry = true) : Gives (.retryWaitExpiry f) s fun t =>
    railSt t f = 1 ∧ t.adm.air = s.adm.air ++ [.wake false f (fget s (FR_DEGRADE_CFG_WPRIO f))] ∧ (fr t f).rail.wakeReq = true ∧ (∀ g, g ≠ f → fr t g = fr s g) ∧ t.flt = s.flt := by
  let u := updFr (setRail s f 1) f fun x => { x with rail := { x.rail with retry := false, wakeReq := true } }
  have hall := (writesAt_setRail s f (st := 1) (by decide)).trans (writesAt_updFr _ f fun x => { x with rail := { x.rail with retry := false, wakeReq := true } })
  have hx : exec (.retryWaitExpiry f) s = nextOf s (toAdm u (.wake false f (fget s (FR_DEGRADE_CFG_WPRIO f)))) := congrArg (nextOf s) (if_pos (by rw [hf, hst, hr]; rfl))
  have hrail : railSt u f = 1 := (fget_updFr _ f _ _).trans (railSt_setRail s f (by decide) (by decide))
  have hreq : (fr u f).rail.wakeReq = true := congrArg (fun x => x.rail.wakeReq) (fr_updFr_same _ f _)
  exact gives_of_exec hx hall.member_eq hall.pending_eq ⟨hrail, hall.air_toAdm _, hreq, hall.others, hall.flt_eq⟩

end

/-- Settles O6: each change of the rail state by the fields that it shows, the message that leaves for admission, and what it leaves alone (R162 to R164). -/
theorem railStates : Obligations.RailStates := fun _ _ hf =>
  ⟨gives_darkWaitExpiry hf, fun _ _ => gives_softStartGrant_starts, fun _ _ => gives_softStartGrant_released, gives_softStartComplete hf, gives_retryWaitExpiry hf⟩

end Sys2Proof.Machine
end

section
/-! Admission: the queue, the grants of an evaluation, the reservations, and retention domains (R162, R172, R173, R175, R177, R178, R301, R302). -/
namespace Sys2Proof.Machine
open Sys2Proof.Claims

/-! #### What AD_STAT shows (Table 8-7) -/

/-- AD_STAT but for its slope. -/
def adShown (s : State) : State :=
  fsetB (fset (fset (fset s AD_STAT_FRONDS s.adm.busyF.length) AD_STAT_CHARGE (chargeSum s)) AD_STAT_QUEUED s.adm.queue.length) AD_STAT_DEFERRING (s.adm.queue.any fun r => r.deferring)

/-- Free values have been drawn up to number n. -/
def drawnTo (s : State) (n : Nat) : State := { s with draws := n }

theorem drawnTo_self (s : State) : drawnTo s s.draws = s := rfl
theorem draw_drawnTo (s : State) : draw s = (Config.freeValue s.draws, drawnTo s (s.draws + 1)) := rfl
theorem reg_drawnTo (s : State) (n a : Nat) : reg (drawnTo s n) a = reg s a := reg_congr rfl rfl a

/-- The slope is written last, after a free value may have been drawn for it (log entry 39). -/
theorem refreshAd_eq (s : State) : ∃ n v, refreshAd s = fset (drawnTo (adShown s) n) AD_STAT_SLOPE v := by
  have hcases : refreshAd s = if slopeSum s ≤ 255 then fset (adShown s) AD_STAT_SLOPE (slopeSum s)
      else fset (draw (adShown s)).2 AD_STAT_SLOPE ((draw (adShown s)).1.toNat % 256) := rfl
  rw [hcases, draw_drawnTo]
  split
  · exact ⟨(adShown s).draws, slopeSum s, by rw [drawnTo_self]⟩
  · exact ⟨_, _, rfl⟩

theorem reg_refreshAd (s : State) {a : Nat} (ha : a ≠ AD_STAT) : reg (refreshAd s) a = reg s a := by
  obtain ⟨n, v, heq⟩ := refreshAd_eq s
  rw [heq, reg_fset_ne _ _ _ _ ha, reg_drawnTo]
  unfold adShown
  rw [reg_fsetB_ne _ _ _ _ ha, reg_fset_ne _ _ _ _ ha, reg_fset_ne _ _ _ _ ha, reg_fset_ne _ _ _ _ ha]

theorem queued_refreshAd (s : State) : fget (refreshAd s) AD_STAT_QUEUED = s.adm.queue.length % 2 ^ 11 := by
  obtain ⟨n, v, heq⟩ := refreshAd_eq s
  have hdrawn : fget (drawnTo (adShown s) n) AD_STAT_QUEUED = fget (adShown s) AD_STAT_QUEUED := by
    unfold fget
    rw [reg_drawnTo]
  rw [heq, fget_fset_disj _ _ _ _ (by decide) (by decide), hdrawn]
  unfold adShown
  rw [fget_fsetB_disj _ _ _ _ (by decide) (by decide)]
  exact fget_fset_same _ AD_STAT_QUEUED _ (by decide) (by decide)

section
variable (s : State) (g : Adm → Adm)

/-- A change of the controller touches AD_STAT and the draws beside it, and no other field of the state. -/
theorem withAdm_rest : withAdm s g = { s with adm := g s.adm, regs := (withAdm s g).regs, draws := (withAdm s g).draws } := by
  obtain ⟨n, v, heq⟩ := refreshAd_eq { s with adm := g s.adm }
  unfold withAdm
  rw [heq]
  rfl

theorem withAdm_adm : (withAdm s g).adm = g s.adm := by rw [withAdm_rest]
theorem withAdm_fronds : (withAdm s g).fronds = s.fronds := by rw [withAdm_rest]
theorem withAdm_flt : (withAdm s g).flt = s.flt := by rw [withAdm_rest]
theorem withAdm_member : (withAdm s g).member = s.member := by rw [withAdm_rest]
theorem withAdm_pending : (withAdm s g).pending = s.pending := by rw [withAdm_rest]

theorem fr_withAdm (f : Nat) : fr (withAdm s g) f = fr s f := by
  unfold fr
  rw [withAdm_fronds]

theorem reg_withAdm {a : Nat} (ha : a ≠ AD_STAT) : reg (withAdm s g) a = reg s a := reg_refreshAd { s with adm := g s.adm } ha

theorem fget_withAdm {x : Fld} (hx : x.addr ≠ AD_STAT) : fget (withAdm s g) x = fget s x := by
  unfold fget
  rw [reg_withAdm s g hx]

theorem queued_withAdm : fget (withAdm s g) AD_STAT_QUEUED = (g s.adm).queue.length % 2 ^ 11 := queued_refreshAd { s with adm := g s.adm }

end

/-- A command that changes the controller alone: what it has taken from the messages in flight leaves `a` of the controller, and g changes that. -/
theorem gives_withAdm {i : Instr} {s : State} {a : Adm} {g : Adm → Adm} (hx : exec i s = nextOf s (withAdm { s with adm := a } g)) :
    Gives i s fun t => t.adm = g a ∧ fget t AD_STAT_QUEUED = t.adm.queue.length % 2 ^ 11 ∧ t.fronds = s.fronds ∧ t.flt = s.flt := by
  refine gives_of_exec hx (withAdm_member _ g) (withAdm_pending _ g) ⟨withAdm_adm _ g, ?_, withAdm_fronds _ g, withAdm_flt _ g⟩
  rw [queued_withAdm, withAdm_adm]

/-! #### Messages of a frond (R162, R172, R173) -/

section
variable {s : State} {f : Nat}

theorem takeAdm_eq {p : AMsg → Bool} {m : AMsg} {rest : List AMsg} (h : takeFirst (fun m : AMsg => m.frond == some f) s.adm.air = some (m, rest)) (hp : p m = true) :
    takeAdm s f p = some (m, { s with adm := { s.adm with air := rest } }) := by
  unfold takeAdm
  rw [h]
  exact if_pos hp

/-- What is taken leaves the rest of the messages in flight, and changes nothing else. -/
theorem takeAdm_rest {p : AMsg → Bool} {m : AMsg} {s1 : State} (h : takeAdm s f p = some (m, s1)) : ∃ rest, s1 = { s with adm := { s.adm with air := rest } } := by
  unfold takeAdm at h
  split at h
  · cases h
  · split at h
    · cases h
      exact ⟨_, rfl⟩
    · cases h

/-- A wake request. -/
def isWake : AMsg → Bool
  | .wake _ _ _ => true
  | _ => false

theorem exec_wakeRequest {p : Nat} {s1 : State} (h : takeAdm s f isWake = some (.wake false f p, s1)) :
    exec (.wakeRequest f) s = nextOf s (withAdm s1 fun a => { a with queue := enqueue ⟨false, f, p, false, false, false⟩ (unqueue false f a.queue) }) := by
  show execWakeRequest f s = _
  unfold execWakeRequest
  split
  next htake =>
    cases htake.symm.trans h
    rfl
  next hnone => exact (hnone _ _ _ _ h).elim

/-- R172: a request that arrives takes its place in the queue. -/
theorem gives_wakeRequest {p : Nat} {s1 : State} (h : takeAdm s f isWake = some (.wake false f p, s1)) : Gives (.wakeRequest f) s fun t =>
    t.adm.queue = enqueue ⟨false, f, p, false, false, false⟩ (unqueue false f s.adm.queue) ∧ fget t AD_STAT_QUEUED = t.adm.queue.length % 2 ^ 11 ∧ t.fronds = s.fronds ∧ t.flt = s.flt := by
  have hx := exec_wakeRequest h
  obtain ⟨rest, rfl⟩ := takeAdm_rest h
  exact gives_imp (gives_withAdm hx) fun t ⟨hadm, hframe⟩ => ⟨by rw [hadm], hframe⟩

variable {rest : List AMsg}

theorem gives_wakeComplete (h : takeFirst (fun m : AMsg => m.frond == some f) s.adm.air = some (.complete f, rest)) : Gives (.wakeComplete f) s fun t =>
    t.adm = { s.adm with air := rest, busyF := s.adm.busyF.filter (· != f) } ∧ t.fronds = s.fronds := by
  have hx : exec (.wakeComplete f) s = nextOf s (withAdm { s with adm := { s.adm with air := rest } } fun a => { a with busyF := a.busyF.filter (· != f) }) := by
    show execWakeComplete f s = _
    unfold execWakeComplete
    rw [takeAdm_eq (p := (· == .complete f)) h (by simp)]
  exact gives_imp (gives_withAdm hx) fun t ⟨hadm, _, hfronds, _⟩ => ⟨hadm, hfronds⟩

theorem gives_wakeRelease_release (h : takeFirst (fun m : AMsg => m.frond == some f) s.adm.air = some (.release f, rest)) : Gives (.wakeRelease f) s fun t =>
    t.adm = { s.adm with air := rest, slopeF := t.adm.slopeF, busyF := s.adm.busyF.filter (· != f) } ∧ tget? t.adm.slopeF f = none ∧ t.fronds = s.fronds := by
  have hx : exec (.wakeRelease f) s = nextOf s (withAdm { s with adm := { s.adm with air := rest } } fun a => { a with slopeF := tdel a.slopeF f, busyF := a.busyF.filter (· != f) }) := by
    show execWakeRelease f s = _
    unfold execWakeRelease
    rw [takeAdm_eq h (by simp)]
  refine gives_imp (gives_withAdm hx) fun t ⟨hadm, _, hfronds, _⟩ => ?_
  rw [hadm]
  exact ⟨rfl, tget?_tdel_same s.adm.slopeF f, hfronds⟩

theorem gives_wakeRelease_withdraw (h : takeFirst (fun m : AMsg => m.frond == some f) s.adm.air = some (.withdraw f, rest)) : Gives (.wakeRelease f) s fun t =>
    t.adm = { s.adm with air := rest, queue := unqueue false f s.adm.queue } ∧ t.fronds = s.fronds := by
  have hx : exec (.wakeRelease f) s = nextOf s (withAdm { s with adm := { s.adm with air := rest } } fun a => { a with queue := unqueue false f a.queue }) := by
    show execWakeRelease f s = _
    unfold execWakeRelease
    rw [takeAdm_eq h (by simp)]
  exact gives_imp (gives_withAdm hx) fun t ⟨hadm, _, hfronds, _⟩ => ⟨hadm, hfronds⟩

theorem gives_neighbourCurrent {i : Nat} (h : s.adm.air = .current f i :: rest) : Gives (.neighbourCurrent f false) s fun t =>
    tget 0 t.adm.cur f = i ∧ (∀ g, g ≠ f → tget 0 t.adm.cur g = tget 0 s.adm.cur g) ∧ t = { s with adm := { s.adm with air := rest, cur := t.adm.cur } } := by
  have hx : exec (.neighbourCurrent f false) s = nextOf s { s with adm := { s.adm with air := rest, cur := tset s.adm.cur f i } } := by
    show execNeighbourCurrent f false s = _
    unfold execNeighbourCurrent takeFirst
    rw [h]
    simp only [beq_self_eq_true, if_true]
    rfl
  exact gives_of_exec hx rfl rfl ⟨tget_tset_same 0 s.adm.cur f i, fun g hg => tget_tset_ne 0 s.adm.cur f g i hg, rfl⟩

/-! #### The ends of reservations and deferrals (R173, R178) -/

theorem gives_slopeReservationRelease (h : s.adm.busyF.contains f = false) : Gives (.slopeReservationRelease f) s fun t =>
    tget? t.adm.slopeF f = none ∧ (∀ g, g ≠ f → tget? t.adm.slopeF g = tget? s.adm.slopeF g) ∧ t.adm = { s.adm with slopeF := t.adm.slopeF } := by
  have hx : exec (.slopeReservationRelease f) s = nextOf s (withAdm s fun a => { a with slopeF := tdel a.slopeF f }) := congrArg (nextOf s) (if_neg (by rw [h]; decide))
  refine gives_imp (gives_withAdm (a := s.adm) hx) fun t ⟨hadm, _⟩ => ?_
  rw [hadm]
  exact ⟨tget?_tdel_same s.adm.slopeF f, fun g hg => tget?_tdel_ne s.adm.slopeF f g hg, rfl⟩

theorem gives_chargeExpiry (s : State) : Gives .chargeExpiry s fun t => t.adm = { s.adm with charges := s.adm.charges.drop 1 } ∧ t.fronds = s.fronds :=
  gives_imp (gives_withAdm (a := s.adm) rfl) fun _ ⟨hadm, _, hfronds, _⟩ => ⟨hadm, hfronds⟩

/-- R178: a deferral of frond f that expires leaves its request marked. -/
def expired (f : Nat) (r : AReq) : AReq := if r.dom = false ∧ r.n = f ∧ r.deferring = true then { r with deferring := false, marked := true } else r

theorem expired_ends {r : AReq} (hd : (expired f r).dom = false) (hn : (expired f r).n = f) : (expired f r).deferring = false := by
  unfold expired at hd hn ⊢
  split
  · rfl
  next hno =>
    rw [if_neg hno] at hd hn
    exact Bool.eq_false_iff.mpr fun hdef => hno ⟨hd, hn, hdef⟩

theorem gives_deferralExpiry (s : State) (f : Nat) : Gives (.deferralExpiry f) s fun t => (∀ r ∈ t.adm.queue, r.dom = false → r.n = f → r.deferring = false) ∧
    ∀ q ∈ s.adm.queue, expired f q ∈ t.adm.queue := by
  have hx : exec (.deferralExpiry f) s = nextOf s (withAdm s fun a => { a with queue := a.queue.map (expired f) }) := rfl
  refine gives_imp (gives_withAdm (a := s.adm) hx) fun t ⟨hadm, _⟩ => ?_
  rw [hadm]
  refine ⟨fun r hr hd hn => ?_, fun q hq => List.mem_map_of_mem hq⟩
  obtain ⟨q, _, rfl⟩ := List.mem_map.mp hr
  exact expired_ends hd hn

end

/-! #### The evaluation (R173, R175, R177) -/

/-- The queue with every deferral taken anew (log entry 38). -/
def evaluated (s : State) : State := withAdm s fun a => { a with queue := a.queue.map (deferNow s) }

theorem retDom_ne (n : Nat) : AD_RET_DOM n ≠ RZ_ID ∧ AD_RET_DOM n ≠ AD_STAT := by
  constructor
  · simp only [AD_RET_DOM, RZ_ID]
    omega
  · simp only [AD_RET_DOM, AD_STAT]
    omega

/-- The state of a retention domain takes what is written to it. -/
theorem state_fset (s : State) (n : Nat) {v : Nat} (hv : v < 4) : fget (fset s (AD_RET_DOM_STATE n) v) (AD_RET_DOM_STATE n) = v :=
  (fget_fset_same s (AD_RET_DOM_STATE n) v (retDom_ne n).1 (by show 9 < 64; decide)).trans (Nat.mod_eq_of_lt hv)

/-- The verdict on a request depends on the reservations and on registers other than AD_STAT. -/
theorem verdictOf_congr {s t : State} (hreg : ∀ a, a ≠ AD_STAT → reg t a = reg s a) (hF : t.adm.slopeF = s.adm.slopeF) (hD : t.adm.slopeD = s.adm.slopeD)
    (hcharge : t.adm.charges = s.adm.charges) (hbusy : t.adm.busyF = s.adm.busyF) (r : AReq) : verdictOf t r = verdictOf s r := by
  have hcfg := hreg AD_CFG (by decide)
  have hlive := hreg RZ_FLT_LIVE (by decide)
  have hlost := hreg (FR_PHASE_HEALTH r.n) (by simp only [FR_PHASE_HEALTH, AD_STAT]; omega)
  unfold verdictOf slopeSum chargeSum lostOf flag fget
  simp only [hcfg, hlive, hlost, hF, hD, hcharge, hbusy]

theorem adm_evaluated (s : State) : (evaluated s).adm = { s.adm with queue := s.adm.queue.map (deferNow s) } := withAdm_adm s _

theorem verdictOf_evaluated (s : State) (r : AReq) : verdictOf (evaluated s) r = verdictOf s r := by
  have hadm := adm_evaluated s
  exact verdictOf_congr (t := evaluated s) (fun a ha => reg_withAdm s _ ha) (by rw [hadm]) (by rw [hadm]) (by rw [hadm]) (by rw [hadm]) r

/-- The one request of a queue is picked exactly if its verdict grants it. -/
theorem pickReq_single (s : State) (r : AReq) : pickReq s [r] = if verdictOf s r = 0 then some r else none := by
  unfold pickReq
  split
  next h => rw [h, if_pos rfl]
  next h => rw [h, if_neg (by decide)]; rfl
  next h _ => rw [if_neg h]

section
variable {s : State} {r : AReq}

theorem exec_admissionEvaluation (hans : answers s 0x4B = true) : exec .admissionEvaluation s = nextOf s
    (if fget s RZ_HARD_STAT_SAG ≠ 0 then evaluated s else (pickReq (evaluated s) (evaluated s).adm.queue).elim (evaluated s) (grantReq (evaluated s))) := by
  refine (congrArg (nextOf s) (if_pos hans)).trans (congrArg (nextOf s) ?_)
  show (if _ then evaluated s else match pickReq (evaluated s) (evaluated s).adm.queue with | none => evaluated s | some r => grantReq (evaluated s) r) = _
  cases pickReq (evaluated s) (evaluated s).adm.queue <;> rfl

/-- With one request in the queue an evaluation grants it or leaves it, as its verdict says. -/
theorem exec_admissionEvaluation_single (hans : answers s 0x4B = true) (hsag : fget s RZ_HARD_STAT_SAG = 0) (hq : s.adm.queue.map (deferNow s) = [r]) :
    exec .admissionEvaluation s = nextOf s (if verdictOf s r = 0 then grantReq (evaluated s) r else evaluated s) := by
  rw [exec_admissionEvaluation hans, if_neg (not_not.mpr hsag), adm_evaluated, hq, pickReq_single, verdictOf_evaluated]
  split <;> rfl

/-- An evaluation that grants nothing keeps the queue with its deferrals. -/
theorem gives_evaluated (hx : exec .admissionEvaluation s = nextOf s (evaluated s)) :
    Gives .admissionEvaluation s fun t => t.adm = { s.adm with queue := s.adm.queue.map (deferNow s) } ∧ t.fronds = s.fronds :=
  gives_imp (gives_withAdm (a := s.adm) hx) fun _ ⟨hadm, _, hfronds, _⟩ => ⟨hadm, hfronds⟩

/-- What the controller holds after the grant of frond n's request (Table 8-1). -/
def frondGranted (s : State) (n : Nat) (a : Adm) : Adm :=
  { a with queue := unqueue false n a.queue, slopeF := tset a.slopeF n (fget s AD_CFG_F_SLOPE), busyF := a.busyF ++ [n], charges := a.charges ++ [fget s AD_CFG_F_CHARGE] }

/-- What the controller holds after the grant of domain n's request (Table 8-1). -/
def domainGranted (s : State) (n : Nat) (a : Adm) : Adm :=
  { a with queue := unqueue true n a.queue, slopeD := tset a.slopeD n (fget s AD_CFG_D_SLOPE), charges := a.charges ++ [fget s AD_CFG_D_CHARGE] }

/-- A marked request counts as it is granted (R178). -/
def markCounted (s : State) (b : Bool) : State := if b then bump s AD_STAT_DEFER_EXP else s

theorem markCounted_rest (s : State) (b : Bool) : markCounted s b = { s with regs := (markCounted s b).regs } := by cases b <;> rfl

theorem grantReq_frond (s : State) (hd : r.dom = false) : grantReq s r = sendUpd (markCounted (withAdm s (frondGranted s r.n)) r.marked) r.n (.grant r.marked) := if_neg (by rw [hd]; decide)

theorem grantReq_domain (s : State) (hd : r.dom = true) :
    grantReq s r = bump (fset (withAdm s (domainGranted s r.n)) (AD_RET_DOM_STATE r.n) 3) (AD_RET_DOM_WAKES r.n) := if_pos hd

theorem unqueue_single {b : Bool} (hd : r.dom = b) : unqueue b r.n [r] = [] := by simp [unqueue, hd]

/-- An evaluation leaves the configuration of the grants. -/
theorem cfg_evaluated (s : State) (hi lo : Nat) : fget (evaluated s) ⟨AD_CFG, hi, lo⟩ = fget s ⟨AD_CFG, hi, lo⟩ := fget_withAdm s _ (show AD_CFG ≠ AD_STAT by decide)

/-- What a grant leaves, before its message or its registers: the controller's change after an evaluation. -/
theorem granted_facts {w : State} {g : Adm → Adm} (hw : w = withAdm (evaluated s) g) (hq : s.adm.queue.map (deferNow s) = [r]) :
    w.adm = g { s.adm with queue := [r] } ∧ w.fronds = s.fronds ∧ w.member = s.member ∧ w.pending = s.pending := by
  rw [hw, withAdm_adm, withAdm_fronds, withAdm_member, withAdm_pending, adm_evaluated, hq]
  exact ⟨rfl, withAdm_fronds s _, withAdm_member s _, withAdm_pending s _⟩

variable (hans : answers s 0x4B = true) (hsag : fget s RZ_HARD_STAT_SAG = 0) (hq : s.adm.queue.map (deferNow s) = [r])
include hans hsag hq

/-- R163, R175: the grant of a frond's request reserves for it, and leaves for its core. -/
theorem gives_grant_frond (hd : r.dom = false) (hv : verdictOf s r = 0) : Gives .admissionEvaluation s fun t =>
    t.adm.queue = [] ∧ t.adm.busyF = s.adm.busyF ++ [r.n] ∧ tget 0 t.adm.slopeF r.n = fget s AD_CFG_F_SLOPE ∧ t.adm.charges = s.adm.charges ++ [fget s AD_CFG_F_CHARGE] ∧
    (fr t r.n).upd = (fr s r.n).upd ++ [.grant r.marked] ∧ (∀ g, g ≠ r.n → fr t g = fr s g) := by
  have hx := exec_admissionEvaluation_single hans hsag hq
  rw [if_pos hv, grantReq_frond _ hd, markCounted_rest] at hx
  generalize (markCounted _ _).regs = regs at hx
  generalize hw : withAdm (evaluated s) (frondGranted (evaluated s) r.n) = w at hx
  obtain ⟨hadm, hfronds, hmem, hpend⟩ := granted_facts hw.symm hq
  have hfr : ∀ g, fr { w with regs := regs } g = fr s g := fun g => by
    unfold fr
    rw [hfronds]
  refine gives_of_exec hx hmem hpend ⟨?_, ?_, ?_, ?_, ?_, fun g hg => ?_⟩
  · exact (congrArg Adm.queue hadm).trans (unqueue_single hd)
  · exact congrArg Adm.busyF hadm
  · exact ((congrArg (fun a => tget 0 a.slopeF r.n) hadm).trans (tget_tset_same 0 s.adm.slopeF r.n _)).trans (cfg_evaluated s _ _)
  · refine (congrArg Adm.charges hadm).trans ?_
    show _ ++ [fget (evaluated s) AD_CFG_F_CHARGE] = _
    rw [cfg_evaluated]
  · rw [fr_sendUpd_same, hfr]
  · rw [fr_sendUpd_ne _ _ hg, hfr]

/-- R175, R302: the grant of a domain's request reserves for it, and the domain is Waking. -/
theorem gives_grant_domain (hd : r.dom = true) (hv : verdictOf s r = 0) : Gives .admissionEvaluation s fun t =>
    t.adm.queue = [] ∧ fget t (AD_RET_DOM_STATE r.n) = 3 ∧ tget 0 t.adm.slopeD r.n = fget s AD_CFG_D_SLOPE ∧ t.adm.charges = s.adm.charges ++ [fget s AD_CFG_D_CHARGE] ∧
    t.fronds = s.fronds := by
  have hx := exec_admissionEvaluation_single hans hsag hq
  rw [if_pos hv, grantReq_domain _ hd] at hx
  generalize hw : withAdm (evaluated s) (domainGranted (evaluated s) r.n) = w at hx
  obtain ⟨hadm, hfronds, hmem, hpend⟩ := granted_facts hw.symm hq
  refine gives_of_exec hx hmem hpend ⟨?_, ?_, ?_, ?_, hfronds⟩
  · exact (congrArg Adm.queue hadm).trans (unqueue_single hd)
  · exact (fget_fset_bits _ _ (by decide) (by decide)).trans (state_fset w r.n (by decide))
  · exact ((congrArg (fun a => tget 0 a.slopeD r.n) hadm).trans (tget_tset_same 0 s.adm.slopeD r.n _)).trans (cfg_evaluated s _ _)
  · refine (congrArg Adm.charges hadm).trans ?_
    show _ ++ [fget (evaluated s) AD_CFG_D_CHARGE] = _
    rw [cfg_evaluated]

/-- R175: a request whose verdict is not a grant stays in the queue. -/
theorem gives_grant_none (hv : verdictOf s r ≠ 0) : Gives .admissionEvaluation s fun t => t.adm = { s.adm with queue := [r] } ∧ t.fronds = s.fronds := by
  have hx := exec_admissionEvaluation_single hans hsag hq
  rw [if_neg hv] at hx
  exact hq ▸ gives_evaluated hx

end

/-! #### Retention domains (R301, R302) -/

section
variable {s : State} {n : BitVec 11}

theorem gives_retentionRequest (p : BitVec 2) (hn : n.toNat < 1536) (hlow : lineHigh s n.toNat = false) (hen : flag s (AD_RET_DOM_EN n.toNat) = true)
    (hst : fget s (AD_RET_DOM_STATE n.toNat) = 2) : Gives (.retentionRequest n p) s fun t =>
      lineHigh t n.toNat = true ∧ t.adm.queue = enqueue ⟨true, n.toNat, p.toNat, false, false, false⟩ s.adm.queue := by
  have hx : exec (.retentionRequest n p) s = nextOf s (withAdm { s with adm := { s.adm with lines := s.adm.lines ++ [n.toNat] } }
      fun a => { a with queue := enqueue ⟨true, n.toNat, p.toNat, false, false, false⟩ a.queue }) := by
    have hrises : ¬ (lineHigh s n.toNat = true ∨ 1536 ≤ n.toNat) := not_or.mpr ⟨by rw [hlow]; decide, Nat.not_le.mpr hn⟩
    exact congrArg (nextOf s) ((if_neg hrises).trans (if_pos (by rw [hen, hst]; rfl)))
  refine gives_imp (gives_withAdm hx) fun t ⟨hadm, _⟩ => ?_
  unfold lineHigh
  rw [hadm]
  exact ⟨by simp, rfl⟩

/-- The line of domain n is low, and no request of it is queued. -/
def withdrawn (s : State) (n : Nat) : State := withAdm { s with adm := { s.adm with lines := s.adm.lines.filter (· != n) } } fun a => { a with queue := unqueue true n a.queue }

theorem adm_withdrawn (s : State) (n : Nat) : (withdrawn s n).adm = { s.adm with lines := s.adm.lines.filter (· != n), queue := unqueue true n s.adm.queue } := withAdm_adm _ _

theorem exec_retentionWithdraw (hn : n.toNat < 1536) (hen : flag s (AD_RET_DOM_EN n.toNat) = true) : exec (.retentionWithdraw n) s = nextOf s
    (if fget s (AD_RET_DOM_STATE n.toNat) = 1 then fset (withdrawn s n.toNat) (AD_RET_DOM_STATE n.toNat) 2 else withdrawn s n.toNat) :=
  congrArg (nextOf s) (if_pos (by rw [hen, decide_eq_true hn]; rfl))

/-- R302: the line falls, a request leaves the queue, and an Active domain enters Retention. -/
theorem gives_retentionWithdraw (hn : n.toNat < 1536) (hen : flag s (AD_RET_DOM_EN n.toNat) = true) : Gives (.retentionWithdraw n) s fun t =>
    lineHigh t n.toNat = false ∧ t.adm.queue = unqueue true n.toNat s.adm.queue ∧
    fget t (AD_RET_DOM_STATE n.toNat) = if fget s (AD_RET_DOM_STATE n.toNat) = 1 then 2 else fget s (AD_RET_DOM_STATE n.toNat) := by
  have hx := exec_retentionWithdraw hn hen
  have hadm := adm_withdrawn s n.toNat
  have hmem : (withdrawn s n.toNat).member = s.member := withAdm_member _ _
  have hpend : (withdrawn s n.toNat).pending = s.pending := withAdm_pending _ _
  have hline : (withdrawn s n.toNat).adm.lines.contains n.toNat = false := by rw [hadm]; simp
  have hqueue : (withdrawn s n.toNat).adm.queue = unqueue true n.toNat s.adm.queue := by rw [hadm]
  split at hx
  next hst => exact gives_of_exec hx hmem hpend ⟨hline, hqueue, by rw [state_fset _ _ (by decide), if_pos hst]⟩
  next hst => exact gives_of_exec hx hmem hpend ⟨hline, hqueue, (fget_withAdm _ _ (retDom_ne n.toNat).2).trans (if_neg hst).symm⟩

/-- R302: a domain that becomes Active gives its reservation back, and takes a withdrawal that came while it was Waking. -/
theorem gives_domainActive (hn : n.toNat < 1536) (hres : (tget? s.adm.slopeD n.toNat).isSome = true) (hen : flag s (AD_RET_DOM_EN n.toNat) = true)
    (hst : fget s (AD_RET_DOM_STATE n.toNat) = 3) : Gives (.domainActive n) s fun t =>
      (fget t (AD_RET_DOM_STATE n.toNat) = if lineHigh s n.toNat then 1 else 2) ∧ tget? t.adm.slopeD n.toNat = none ∧ t.adm.queue = s.adm.queue := by
  let u := withAdm s fun a => { a with slopeD := tdel a.slopeD n.toNat }
  have hx : exec (.domainActive n) s = nextOf s (fset u (AD_RET_DOM_STATE n.toNat) (if lineHigh s n.toNat then 1 else 2)) :=
    congrArg (nextOf s) ((if_pos hres).trans (if_pos (by rw [hen, hst, decide_eq_true hn]; rfl)))
  have hadm : u.adm = { s.adm with slopeD := tdel s.adm.slopeD n.toNat } := withAdm_adm s _
  have hqueue : u.adm.queue = s.adm.queue := by rw [hadm]
  have hnone : tget? u.adm.slopeD n.toNat = none := by rw [hadm]; exact tget?_tdel_same _ _
  exact gives_of_exec hx (withAdm_member s _) (withAdm_pending s _) ⟨state_fset u _ (by split <;> decide), hnone, hqueue⟩

end

/-- Settles O53: each event of the controller by what it makes of the queue and the reservations, an evaluation by the verdict on its one request, and a domain by its line and state (R162, R172 to R178, R301, R302). -/
theorem admissionEvents : Obligations.AdmissionEvents := by
  intro s f
  refine ⟨fun p s1 htake => gives_wakeRequest htake, fun hans hsag => ?_, fun r hans hsag hq => gives_grant_frond hans hsag hq, fun r hans hsag hq hd _ => gives_grant_domain hans hsag hq hd,
    fun r hans hsag hq => gives_grant_none hans hsag hq, fun _ => gives_wakeComplete, fun _ => gives_wakeRelease_release, fun _ => gives_wakeRelease_withdraw, gives_slopeReservationRelease,
    gives_chargeExpiry s, fun _ _ => gives_neighbourCurrent, gives_deferralExpiry s f, fun _ p => gives_retentionRequest p, fun _ => gives_retentionWithdraw, fun _ => gives_domainActive⟩
  exact gives_evaluated ((exec_admissionEvaluation hans).trans (congrArg (nextOf s) (if_pos hsag)))

end Sys2Proof.Machine
end

section
/-! Lost phases: the policy's close of a bridge, and the drain of a frond (R183, R184). -/
namespace Sys2Proof.Machine
open Sys2Proof.Claims

/-! #### An operation that the active Rhizome journals of its own (R376) -/

/-- In sync, the entry of an operation leaves; what the event has changed before that reaches neither the bus nor the number of the active Rhizome. -/
theorem journalled_journal {s u : State} (hbus : u.bus = s.bus) (hact : activeIsl u = activeIsl s) (hsync : inSync u = true) (hready : s.bus.ready = []) (op : JOp) (w : Bool) :
    Journalled op w s (journal u op w) := by
  have hentry : entryOf u op w = entryOf s op w := by
    unfold entryOf
    rw [hbus, hact]
  rw [journal_inSync hsync, hentry, hbus]
  exact ⟨rfl, rfl, rfl, hready⟩

/-! #### The policy (R183) -/

section
variable {s : State} {f : Nat}

theorem autoBridgePolicy_eq {n : Nat} (hf : hasF s f = true) (hreq : takeFirst (fun p : Nat × Nat => p.1 == f) s.rz.policyReq = none) (hlost : 4 < lostOf s f ∧ lostOf s f ≤ 8)
    (hbr : inBridge s f = false) (htake : inTakeover s = false) (hpick : policyPick s f = some n) :
    autoBridgePolicy f s = journal s (.bridge (sharedBridge s f n).1 (sharedBridge s f n).2 1 1) false := by
  unfold autoBridgePolicy
  rw [hreq, hpick]
  exact if_pos (by rw [hf, decide_eq_true hlost, hbr, htake]; rfl)

theorem gives_autoBridgePolicy {n : Nat} (hf : hasF s f = true) (hs : Quiet s) (hreq : takeFirst (fun p : Nat × Nat => p.1 == f) s.rz.policyReq = none) (hlost : 4 < lostOf s f)
    (hmost : lostOf s f ≤ 8) (hbr : inBridge s f = false) (hpick : policyPick s f = some n) : Gives (.autoBridgePolicy f) s fun t =>
      Journalled (.bridge (sharedBridge s f n).1 (sharedBridge s f n).2 1 1) false s t ∧ t.regs = s.regs ∧ t.fronds = s.fronds ∧ t.flt = s.flt := by
  have hsync := inSync_of_quiet hs
  have ⟨hready, _, _, _, _, htake, _⟩ := hs
  let op : JOp := .bridge (sharedBridge s f n).1 (sharedBridge s f n).2 1 1
  have hj := onJournal_journal hsync op false
  have hsent := journalled_journal rfl rfl hsync hready op false
  have hx : exec (.autoBridgePolicy f) s = nextOf s (pmStep (journal s op false)) :=
    congrArg (nextOf s) (rzEvent_quiet hs (autoBridgePolicy_eq hf hreq ⟨hlost, hmost⟩ hbr htake hpick) hj.ready hj.queue)
  exact gives_of_exec hx hj.member hj.pending ⟨hsent, hj.regs, hj.fronds, hj.flt⟩

/-! #### The drain (R184) -/

/-- The bridge of a frond that starts to drain, if it is in one, opens with cause 2. -/
def drainOpened (s : State) (f : Nat) : State := match bridgeOf s f with | none => s | some b => openFw s b.1 b.2 2

theorem drainOpened_rest (s : State) (f : Nat) : drainOpened s f = { s with fronds := (drainOpened s f).fronds } := by
  unfold drainOpened
  split <;> rfl

theorem gives_drainStart (hf : hasF s f = true) (hnot : s.rz.drains.contains f = false) (hrail : railSt s f ≠ 0) (hlost : 8 < lostOf s f) : Gives (.drainStart f) s fun t =>
    f ∈ t.rz.drains ∧ .drain true ∈ (fr t f).upd ∧ t.regs = s.regs ∧ t.flt = s.flt := by
  let s1 := { s with rz := { s.rz with drains := s.rz.drains ++ [f], drainReq := s.rz.drainReq.filter (· != f) } }
  have hx : exec (.drainStart f) s = nextOf s (sendUpd (drainOpened s1 f) f (.drain true)) :=
    congrArg (nextOf s) (if_pos (by rw [hf, hnot, bne_iff_ne.mpr hrail, decide_eq_true hlost]; rfl))
  have hrest : drainOpened s1 f = { s1 with fronds := (drainOpened s1 f).fronds } := drainOpened_rest s1 f
  generalize drainOpened s1 f = u at hx hrest
  have hupd : .drain true ∈ (fr (sendUpd u f (.drain true)) f).upd := by
    rw [fr_sendUpd_same]
    exact List.mem_append_right _ (List.mem_singleton_self _)
  have hdrains : u.rz.drains = s.rz.drains ++ [f] := by rw [hrest]
  exact gives_of_exec hx (by show u.member = _; rw [hrest]) (by show u.pending = _; rw [hrest])
    ⟨hdrains ▸ List.mem_append_right _ (List.mem_singleton_self f), hupd, by show u.regs = _; rw [hrest], by show u.flt = _; rw [hrest]⟩

/-- The frond no longer drains, and RZ_HARD_STAT counts it. -/
def drainEnded (s : State) (f : Nat) : State := bump { s with rz := { s.rz with drains := s.rz.drains.filter (· != f) } } RZ_HARD_STAT_DARKED

theorem gives_drainComplete (hs : Quiet s) (hin : s.rz.drains.contains f = true) : Gives (.drainComplete f false) s fun t =>
    f ∉ t.rz.drains ∧ Journalled (.darkFrond f) false s t ∧ Raised 0x2D (some f) 0 (activeIsl s) s t ∧ t.fronds = s.fronds := by
  have ⟨hready, _⟩ := hs
  have hpair : ∀ x : Fld, x.addr ≠ RZ_HARD_STAT → fget (drainEnded s f) x = fget s x := fun x hx => (fget_fset_addr _ RZ_HARD_STAT_DARKED x _ hx).trans (fget_congr rfl rfl x)
  have hsync : inSync (drainEnded s f) = true := (flag_congr_fget (hpair _ (by decide))).trans (inSync_of_quiet hs)
  have hact : activeIsl (drainEnded s f) = activeIsl s := by
    unfold activeIsl
    rw [hpair _ (by decide)]
  have hbus : (drainEnded s f).bus = s.bus := bump_bus _ _
  have hj := onJournal_journal hsync (.darkFrond f) false
  have hsent : Journalled (.darkFrond f) false s (journal (drainEnded s f) (.darkFrond f) false) :=
    journalled_journal hbus hact hsync hready _ false
  have heq : drainComplete f false s = raiseD (journal (drainEnded s f) (.darkFrond f) false) 0x2D (some f) 0 (activeIsl s) := if_pos hin
  rw [raiseD_eq _ _ _ _ _ (by decide)] at heq
  have hx : exec (.drainComplete f false) s = _ := congrArg (nextOf s) (rzEvent_quiet hs heq hj.ready hj.queue)
  generalize journal (drainEnded s f) (.darkFrond f) false = u at hx hj hsent
  refine gives_of_exec hx hj.member hj.pending ⟨?_, hsent, ?_, hj.fronds⟩
  · show f ∉ u.rz.drains
    rw [hj.rz]
    show f ∉ s.rz.drains.filter (· != f)
    simp
  · show ({ u.flt with raises := u.flt.raises ++ [⟨0x2D, some f, 0, activeIsl s, false⟩] } : Flt) = _
    rw [hj.flt]
    rfl

end

/-- Settles O8: the policy's close and the DARK at the end of a drain by their journal entries, the start of the drain by its update (R183, R184). -/
theorem lostPhasePolicy : Obligations.LostPhasePolicy := fun _ _ hf =>
  ⟨fun _ => gives_autoBridgePolicy hf, gives_drainStart hf, gives_drainComplete⟩

end Sys2Proof.Machine
end

section
/-! Telemetry at the active Rhizome, and the comparison of estimate and measurement (R177, R190, R257, R280). -/
namespace Sys2Proof.Machine
open Sys2Proof.Claims

/-- The element that takeFirst finds satisfies the predicate. -/
theorem takeFirst_sat {α : Type} {p : α → Bool} {l rest : List α} {x : α} (h : takeFirst p l = some (x, rest)) : p x = true := by
  induction l generalizing rest with
  | nil => cases h
  | cons y ys ih =>
    unfold takeFirst at h
    split at h
    next hy => cases h; exact hy
    next =>
      split at h
      next => cases h
      next hys => cases h; exact ih hys

/-! #### Domains (R190) -/

theorem domOf_setDom_same (s : State) (d : Nat) (x : Dom) : domOf (setDom s d x) d = x := tget_tset_same _ _ _ _
theorem domOf_setDom_ne (s : State) {d k : Nat} (x : Dom) (h : k ≠ d) : domOf (setDom s d x) k = domOf s k := tget_tset_ne _ _ _ _ _ h

/-- On the blended figure a record lengthens or ends the run of disagreements. -/
theorem bad_domRecord {s : State} {d : Nat} (n : Nat) (est meas floor : Rat) (h : (domOf s d).mode = 0) :
    (domOf (domRecord s d n est meas floor) d).bad = if max meas floor / 4 < (if est < meas then meas - est else est - meas) then (domOf s d).bad + 1 else 0 := by
  have hrec : domRecord s d n est meas floor =
      setDom s d { domOf s d with bad := if max meas floor / 4 < (if est < meas then meas - est else est - meas) then (domOf s d).bad + 1 else 0 } := if_pos h
  rw [hrec, domOf_setDom_same]

theorem gives_estMeasDisagree {s : State} {d : BitVec 7} (hd : d.toNat = 64 ∨ hasF s d.toNat = true) (hmode : (domOf s d.toNat).mode = 0)
    (hbad : (if d.toNat = 64 then 1000 * nF s else 1000) ≤ (domOf s d.toNat).bad) : Gives (.estMeasDisagree d) s fun t =>
      (domOf t d.toNat).mode = 1 ∧ (∀ k, k ≠ d.toNat → domOf t k = domOf s k) ∧
      ∃ x, t.flt.tests = s.flt.tests ++ [x] ∧ x.src = (if d.toNat = 64 then 0x3A else 0x39) ∧ x.test = if d.toNat = 64 then 3 else 2 := by
  let x : TestRun := if d.toNat = 64 then ⟨3, 0x3A, 0, 0, 0, 0⟩ else ⟨2, 0x39, d.toNat, 0, 0, 0⟩
  let s1 := setDom s d.toNat { mode := 1 }
  have hx : exec (.estMeasDisagree d) s = nextOf s { bump s1 RZ_FLT_LIVE_TESTS with flt := { s1.flt with tests := s1.flt.tests ++ [x] } } :=
    congrArg (nextOf s) (if_pos ⟨hd, hmode, hbad⟩)
  refine gives_of_exec hx rfl rfl ⟨congrArg Dom.mode (domOf_setDom_same s _ _), fun k hk => domOf_setDom_ne s _ hk, x, rfl, ?_, ?_⟩
  · show TestRun.src (if _ then _ else _) = _
    split <;> rfl
  · show TestRun.test (if _ then _ else _) = _
    split <;> rfl

/-! #### What the estimator makes of a record (R282, R283) -/

/-- A record changes its own domain (R190). -/
theorem domRecord_eq_setDom (s : State) (d n : Nat) (est meas floor : Rat) : ∃ x, domRecord s d n est meas floor = setDom s d x := by
  by_cases h : (domOf s d).mode = 0
  · exact ⟨_, if_pos h⟩
  · exact ⟨_, (if_neg h).trans (apply_ite (setDom s d) _ _ _).symm⟩

/-- Only registers, the budget and the count of free values have changed. -/
def OnEstimator (s t : State) : Prop := t = { s with regs := t.regs, bud := t.bud, draws := t.draws }

namespace OnEstimator
variable {s t u : State}

theorem member (h : OnEstimator s t) : t.member = s.member := by rw [h]
theorem pending (h : OnEstimator s t) : t.pending = s.pending := by rw [h]
theorem fronds (h : OnEstimator s t) : t.fronds = s.fronds := by rw [h]
theorem telAir (h : OnEstimator s t) : t.telAir = s.telAir := by rw [h]
theorem rz (h : OnEstimator s t) : t.rz = s.rz := by rw [h]
theorem adm (h : OnEstimator s t) : t.adm = s.adm := by rw [h]
theorem fh (h : OnEstimator s t) : t.fh = s.fh := by rw [h]

theorem trans (h : OnEstimator s t) (k : OnEstimator t u) : OnEstimator s u := by
  unfold OnEstimator at *
  rw [k, h]

theorem domRecord (s : State) (d n : Nat) (est meas floor : Rat) : OnEstimator s (domRecord s d n est meas floor) := by
  obtain ⟨x, hx⟩ := domRecord_eq_setDom s d n est meas floor
  rw [hx]
  rfl

theorem takeEstimate (s : State) (x : TelRec) : OnEstimator s (takeEstimate s x) := by
  unfold Machine.takeEstimate
  split
  · rfl
  · dsimp only
    split <;> rfl

end OnEstimator

/-! #### A telemetry record (R257, R280) -/

section
variable {s : State} {f : Nat} {x : TelRec} {rest : List TelRec}

/-- The record has arrived on its stream, and the active Rhizome keeps it. -/
def telKept (s : State) (x : TelRec) (rest : List TelRec) : State := keepTel (recvRec { s with telAir := rest } (activeIsl s) x.prov) x

theorem telKept_rest (s : State) (x : TelRec) (rest : List TelRec) : telKept s x rest =
    { s with telAir := rest, rz := (keepTel s x).rz, strms := (telKept s x rest).strms, isls := (telKept s x rest).isls, flt := (telKept s x rest).flt } := by
  have h := recvRec_rest { s with telAir := rest } (activeIsl s) x.prov
  unfold telKept
  generalize recvRec { s with telAir := rest } (activeIsl s) x.prov = u at h ⊢
  rw [h]
  rfl

/-- An input record leaves on its stream, and nothing else changes. -/
theorem forwardInput_rest (s : State) (x : TelRec) : forwardInput s x = { s with fh := (forwardInput s x).fh, strms := (forwardInput s x).strms } := by
  unfold forwardInput
  split <;> rfl

/-- Without a takeover, the record goes on unless the new supervisor has not opened its stream. -/
theorem fh_forwardInput {s : State} (ht : inTakeover s = false) (x : TelRec) :
    (forwardInput s x).fh = if s.rz.fhShut = true then s.fh else { s.fh with inAir := s.fh.inAir ++ [(x.f, inputOf s x)] } := by
  unfold forwardInput
  rw [ht, Bool.false_or]
  split <;> rfl

/-- What follows the record's forwarding: the message to the admission controller, and the estimator (R177, R282, R283). -/
theorem exec_telemetryRecord (h : takeFirst (fun y : TelRec => y.f == f) s.telAir = some (x, rest)) :
    ∃ t, exec (.telemetryRecord f) s = nextOf s t ∧ OnEstimator (toAdm (forwardInput (telKept s x rest) x) (.current f (max 0 x.iMean).toNat)) t := by
  let u := toAdm (forwardInput (telKept s x rest) x) (.current f (max 0 x.iMean).toNat)
  let v := reportFigure (takeEstimate u x) f (max 0 x.iMean)
  let w := domRecord v f 1000 (ratOf (tget 0 v.bud.est f)) (max 0 x.iMean : Int) 2000
  refine ⟨domRecord w 64 (1000 * nF s) (pEst w) (pMeas w) 50, ?_, ?_⟩
  · show execTelemetryRecord f s = _
    unfold execTelemetryRecord
    rw [h]
    rfl
  · have hv : OnEstimator u v := (OnEstimator.takeEstimate u x).trans rfl
    exact (hv.trans (.domRecord v _ _ _ _ _)).trans (.domRecord w _ _ _ _ _)

theorem gives_telemetryRecord (ht : inTakeover s = false) (h : takeFirst (fun y : TelRec => y.f == f) s.telAir = some (x, rest)) : Gives (.telemetryRecord f) s fun t =>
    t.telAir = rest ∧ tget? t.rz.tel f = some x ∧ t.adm.air = s.adm.air ++ [.current f (max 0 x.iMean).toNat] ∧ t.fronds = s.fronds ∧ (s.rz.fhShut = true → t.fh = s.fh) ∧
    (s.rz.fhShut = false → ∃ y : FIn, t.fh.inAir = s.fh.inAir ++ [(f, y)] ∧ y.cur = x.iMean ∧ y.act = x.act ∧ y.h = x.h ∧ y.rail = x.rail ∧ y.s0 = pointP s f ∧ y.bridge = x.bridged) := by
  obtain ⟨t, hx, ht'⟩ := exec_telemetryRecord h
  obtain rfl : x.f = f := beq_iff_eq.mp (takeFirst_sat (p := fun y : TelRec => y.f == f) h)
  have hkept := telKept_rest s x rest
  generalize telKept s x rest = u at ht' hkept
  have hmem : u.member = s.member := by rw [hkept]
  have hregs : u.regs = s.regs := by rw [hkept]
  have hrz : u.rz = (keepTel s x).rz := by rw [hkept]
  have hadm : u.adm = s.adm := by rw [hkept]
  have hfhu : u.fh = s.fh := by rw [hkept]
  have hfh : t.fh = if s.rz.fhShut = true then s.fh else { s.fh with inAir := s.fh.inAir ++ [(x.f, inputOf u x)] } := by
    refine ht'.fh.trans ((fh_forwardInput ((flag_congr hmem hregs _).trans ht) x).trans ?_)
    rw [hrz, hfhu]
    rfl
  have hfwd := forwardInput_rest u x
  generalize forwardInput u x = v at ht' hfwd
  refine gives_of_exec hx (ht'.member.trans ?_) (ht'.pending.trans ?_) ⟨ht'.telAir.trans ?_, ?_, ?_, ht'.fronds.trans ?_, fun hshut => by rw [hfh, if_pos hshut], fun hopen => ?_⟩
  · show v.member = _
    rw [hfwd, hmem]
  · show v.pending = _
    rw [hfwd, hkept]
  · show v.telAir = _
    rw [hfwd, hkept]
  · rw [ht'.rz]
    show tget? v.rz.tel x.f = _
    rw [hfwd, hrz]
    exact tget?_tset_same _ _ _
  · rw [ht'.adm]
    show v.adm.air ++ _ = _
    rw [hfwd, hadm]
  · show v.fronds = _
    rw [hfwd, hkept]
  · rw [hfh, hopen]
    exact ⟨inputOf u x, rfl, rfl, rfl, rfl, rfl, congrArg (bitsOf · 11 0) (scal_congr hmem hregs x.f 0), rfl⟩

end

end Sys2Proof.Machine
end

section
/-! Current reports, cuts, energy answers and jobs (R294, R297, R298, R299). -/
namespace Sys2Proof.Machine
open Sys2Proof.Claims

/-! #### An event of the active Rhizome that ends with an entry (R376) -/

/-- With nothing ready and no access waiting, what an event releases is nothing. -/
theorem settle_empty (hready : s.bus.ready = []) (hqueue : s.bus.queue = []) : settle s = pmStep s := congrArg pmStep (flush_stop (work_empty hready hqueue))

/-- In sync, an event that ends with an entry leaves the entry for the standby, and is over: no operation has acted. -/
theorem gives_entryLast {s u : State} {i : Instr} {op : JOp} (hx : exec i s = nextOf s (settle (journal u op false))) (hready : s.bus.ready = []) (hqueue : s.bus.queue = [])
    (hbus : u.bus = s.bus) (hact : activeIsl u = activeIsl s) (hsync : inSync u = true) (hmem : u.member = s.member) (hpend : u.pending = s.pending) : Gives i s fun t =>
      t.bus.jAir = s.bus.jAir ++ [entryOf s op false] ∧ t.bud = u.bud ∧ t.fronds = u.fronds ∧ ∀ a, reg t a = reg u a := by
  have hj := onJournal_journal hsync op false
  obtain ⟨-, hair, -⟩ := journalled_journal hbus hact hsync hready op false
  rw [settle_empty (hj.ready.trans (hbus ▸ hready)) (hj.queue.trans (hbus ▸ hqueue))] at hx
  exact gives_of_exec hx (hj.member.trans hmem) (hj.pending.trans hpend) ⟨hair, by show State.bud (journal u op false) = _; rw [hj.rest], hj.fronds, reg_congr hj.member hj.regs⟩

/-! #### Reports and cuts (R294, R297) -/

/-- A millisecond's figures are dropped; while the input voltage reads 0 the report has drawn a free value. -/
def reportBegun (s : State) : State :=
  let s1 := { s with bud := { s.bud with repSum := [], repN := [] } }
  if vinMv s = 0 then (draw s1).2 else s1

theorem reportBegun_rest (s : State) : reportBegun s = { s with bud := { s.bud with repSum := [], repN := [] }, draws := (reportBegun s).draws } := by
  unfold reportBegun
  dsimp only
  split <;> rfl

section
variable {s : State}

theorem exec_currentReport (ht : inTakeover s = false) (hen : flag s BG_REP_CFG_EN = true) : ∃ b, exec .currentReport s = nextOf s (requestCut (reportBegun s) (some b) none) :=
  ⟨_, congrArg (nextOf s) (if_pos (by rw [hen, ht]; rfl))⟩

theorem gives_currentReport (ht : inTakeover s = false) (hen : flag s BG_REP_CFG_EN = true) : Gives .currentReport s fun t =>
    t.bud.repSum = [] ∧ t.bud.repN = [] ∧ t.bud.cutNo = s.bud.cutNo + 1 ∧
    t.bud.reqAir = s.bud.reqAir ++ ((List.range (nF s)).map fun f => (s.bud.cutNo, f)) ++ [(s.bud.cutNo, 0x43)] ∧
    ∃ b, t.bud.cuts = s.bud.cuts ++ [{ num := s.bud.cutNo, wait := List.range (nF s), vpm := true, part := false, sat := false, body := some b, job := none }] := by
  obtain ⟨b, hx⟩ := exec_currentReport ht hen
  rw [reportBegun_rest] at hx
  exact gives_of_exec hx rfl rfl ⟨rfl, rfl, rfl, rfl, b, rfl⟩

theorem gives_cutRequest {i : BitVec 8} {n : Nat} {rest : List (Nat × Nat)} (h : takeFirst (fun p : Nat × Nat => p.2 == i.toNat) s.bud.reqAir = some ((n, i.toNat), rest))
    (hans : answers s i.toNat = true) : Gives (.cutRequest i) s fun t => t.bud.reqAir = rest ∧ t.regs = s.regs ∧ t.fronds = s.fronds ∧
      let e := if i.toNat = 0x43 then (List.range 8).map (grpE s) else [frondE s i.toNat]
      t.bud.ansAir = s.bud.ansAir ++ [⟨nextProv s i.toNat 1, n, i.toNat, e.any (· == 2 ^ 64 - 1), e⟩] := by
  let e := if i.toNat = 0x43 then (List.range 8).map (grpE s) else [frondE s i.toNat]
  have hx : exec (.cutRequest i) s = nextOf s (sendOn
      { s with bud := { s.bud with reqAir := rest, ansAir := s.bud.ansAir ++ [⟨nextProv s i.toNat 1, n, i.toNat, e.any (· == 2 ^ 64 - 1), e⟩] } } i.toNat 1) := by
    show execCutRequest i s = _
    unfold execCutRequest
    dsimp only
    rw [h]
    exact congrArg (nextOf s) (if_pos hans)
  exact gives_of_exec hx rfl rfl ⟨rfl, rfl, rfl, rfl⟩

/-! #### Energy answers (R297, R402) -/

/-- The only cut waits for the VPM controller still: none completes. -/
theorem finishCuts_waiting {c : Cut} (h : s.bud.cuts = [c]) (hvpm : c.vpm = true) : finishCuts s = s := by
  unfold finishCuts
  rw [h]
  exact if_neg fun hc => absurd (hvpm.symm.trans hc.2) (by decide)

/-- The only cut misses nothing: it completes. -/
theorem finishCuts_done {c : Cut} (h : s.bud.cuts = [c]) (hwait : c.wait = []) (hvpm : c.vpm = false) : finishCuts s = cutDone s c := by
  unfold finishCuts
  rw [h]
  exact if_pos ⟨by rw [hwait]; rfl, hvpm⟩

section
variable {i : BitVec 8} {x : EnRec} {rest : List EnRec} {c : Cut}

/-- Frond k's figure of answer x is the last known one. -/
def answerKept (s : State) (k : Nat) (x : EnRec) (rest : List EnRec) : State := { s with bud := { s.bud with ansAir := rest, eF := tset s.bud.eF k (x.e.getD 0 0) } }

/-- Cut c with the figure of frond k's answer x, which it no longer waits for. -/
def cutAnswered (c : Cut) (k e : Nat) (x : EnRec) : Cut := { c with wait := c.wait.filter (· != k), sat := c.sat || x.sat, fronds := tset c.fronds k e }

/-- Frond k's answer x has been taken, for the only cut c in progress. -/
def answerTaken (s : State) (k : Nat) (x : EnRec) (rest : List EnRec) (c : Cut) : State :=
  let u := answerKept s k x rest
  { u with bud := { u.bud with cuts := [cutAnswered c k (lastF u k) x] } }

theorem exec_energyRecord (h : takeFirst (fun p : EnRec => p.isl == i.toNat) s.bud.ansAir = some (x, rest)) (hi : i.toNat ≠ 0x43) (hcuts : s.bud.cuts = [c]) (hnum : c.num = x.cut) :
    exec (.energyRecord i) s = nextOf s (finishCuts (recvRec (answerTaken s i.toNat x rest c) (activeIsl s) x.prov)) := by
  show execEnergyRecord i s = _
  unfold execEnergyRecord
  simp only [h, if_neg hi, hcuts, List.map_cons, List.map_nil, if_pos hnum]
  rfl

theorem gives_energyRecord (h : takeFirst (fun p : EnRec => p.isl == i.toNat) s.bud.ansAir = some (x, rest)) (hi : i.toNat ≠ 0x43) (hcuts : s.bud.cuts = [c]) (hnum : c.num = x.cut)
    (hvpm : c.vpm = true) : Gives (.energyRecord i) s fun t =>
      tget 0 t.bud.eF i.toNat = x.e.getD 0 0 ∧ t.bud.cuts = [{ c with wait := c.wait.filter (· != i.toNat), sat := c.sat || x.sat, fronds := tset c.fronds i.toNat (lastF t i.toNat) }] ∧
      t.bud.ansAir = rest ∧ t.regs = s.regs := by
  have hx := exec_energyRecord h hi hcuts hnum
  have hrec := recvRec_rest (answerTaken s i.toNat x rest c) (activeIsl s) x.prov
  generalize recvRec (answerTaken s i.toNat x rest c) (activeIsl s) x.prov = t at hx hrec
  have hbud : t.bud = (answerTaken s i.toNat x rest c).bud := by rw [hrec]
  have hlast : lastF t i.toNat = lastF (answerTaken s i.toNat x rest c) i.toNat := congrArg (fun b : Bud => tget 0 b.eF i.toNat + tget 0 b.keepF i.toNat) hbud
  rw [finishCuts_waiting (s := t) (c := cutAnswered c i.toNat (lastF (answerKept s i.toNat x rest) i.toNat) x) (congrArg Bud.cuts hbud) hvpm] at hx
  refine gives_of_exec hx (by rw [hrec]; rfl) (by rw [hrec]; rfl) ⟨?_, ?_, congrArg Bud.ansAir hbud, by rw [hrec]; rfl⟩
  · rw [hbud]
    exact tget_tset_same _ _ _ _
  · rw [hlast]
    exact congrArg Bud.cuts hbud

end

/-! #### A cut that times out (R297, R389) -/

/-- Only registers, Moss and the raises have changed. -/
def OnLife (s t : State) : Prop := t = { s with regs := t.regs, moss := t.moss, flt := t.flt }

namespace OnLife
variable {s t u : State}

theorem member (h : OnLife s t) : t.member = s.member := by rw [h]
theorem pending (h : OnLife s t) : t.pending = s.pending := by rw [h]
theorem bud (h : OnLife s t) : t.bud = s.bud := by rw [h]

theorem trans (h : OnLife s t) (k : OnLife t u) : OnLife s u := by
  unfold OnLife at *
  rw [k, h]

theorem mossAccess (s : State) (m kind off v : Nat) : OnLife s (mossAccess s m kind off v) := by
  unfold Machine.mossAccess mossServe wakeBank
  dsimp only
  split
  · split
    · rfl
    · exact raiseD_rest s _ _ _ _ ▸ rfl
  · split <;> rfl

theorem lifeEnergy (s : State) (n : Nat) : OnLife s (lifeEnergy s n) := by
  unfold Machine.lifeEnergy
  dsimp only
  split
  · exact (mossAccess s _ _ _ _).trans ((mossAccess _ _ _ _ _).trans rfl)
  · exact mossAccess s _ _ _ _

end OnLife

/-- What has not answered the only cut is waited for no longer. -/
def cutGivenUp (s : State) (c : Cut) : State := { s with bud := { s.bud with cuts := [{ c with wait := [], vpm := false, part := true }] } }

/-- A cut without a report or a job that waits for it leaves its energy in BG_ENERGY and among the completed ones. -/
def energyShown (s : State) (c : Cut) : State :=
  let u := lifeEnergy s (eChip s c - (reg s BG_ENERGY).toNat)
  setReg { u with bud := { u.bud with cuts := u.bud.cuts.filter fun x => x.num != c.num, done := tset u.bud.done c.num ⟨c.num, eChip s c, c.part, c.sat⟩ } } BG_ENERGY (BitVec.ofNat 64 (eChip s c))

theorem cutDone_eq_energyShown {c : Cut} (hbody : c.body = none) (hjob : c.job = none) : cutDone s c = energyShown s c := by
  unfold cutDone
  rw [hbody, hjob]
  rfl

theorem gives_cutTimeout {c : Cut} (hcuts : s.bud.cuts = [c]) (hbody : c.body = none) (hjob : c.job = none) : Gives .cutTimeout s fun t =>
    t.bud.cuts = [] ∧ reg t BG_ENERGY = BitVec.ofNat 64 (eChip s c) ∧ ∃ d, tget? t.bud.done c.num = some d ∧ d.part = true ∧ d.e = eChip s c := by
  let c' : Cut := { c with wait := [], vpm := false, part := true }
  have hx : exec .cutTimeout s = nextOf s (energyShown (cutGivenUp s c) c') := by
    show execCutTimeout s = _
    unfold execCutTimeout
    rw [hcuts]
    exact congrArg (nextOf s) ((finishCuts_done (s := cutGivenUp s c) rfl rfl rfl).trans (cutDone_eq_energyShown hbody hjob))
  have hlife := OnLife.lifeEnergy (cutGivenUp s c) (eChip (cutGivenUp s c) c' - (reg (cutGivenUp s c) BG_ENERGY).toNat)
  have hbud := hlife.bud
  unfold energyShown at hx
  generalize lifeEnergy (cutGivenUp s c) (eChip (cutGivenUp s c) c' - (reg (cutGivenUp s c) BG_ENERGY).toNat) = u at hx hlife hbud
  refine gives_of_exec hx hlife.member hlife.pending ⟨?_, reg_setReg_same _ _ _ (by decide), _, tget?_tset_same _ _ _, rfl, rfl⟩
  show u.bud.cuts.filter (fun x => x.num != c.num) = []
  rw [hbud]
  simp [cutGivenUp]

/-! #### Job tokens (R299) -/

/-- The tokens `rest` are still on their way. -/
def withTokens (s : State) (rest : List (Nat × Nat)) : State := { s with bud := { s.bud with tokAir := rest } }

/-- The oldest job token has arrived, with the tokens before it, which have no effect here (R27, R259). -/
def TokenTaken (rest : List (Nat × Nat)) (s u : State) : Prop := u = { s with strms := u.strms, isls := u.isls, flt := u.flt, bud := { s.bud with tokAir := rest } }

/-- The jobs and the cuts in progress are those of before. -/
theorem TokenTaken.bud {rest : List (Nat × Nat)} {s u : State} (h : TokenTaken rest s u) :
    u.bud.tokAir = rest ∧ u.bud.jobs = s.bud.jobs ∧ u.bud.cuts = s.bud.cuts ∧ u.bud.cutNo = s.bud.cutNo := by
  rw [h]
  exact ⟨rfl, rfl, rfl, rfl⟩

theorem foldl_recvRec_rest (rx : Nat) (l : List (Nat × Nat)) (s : State) : let u := l.foldl (fun t q => recvRec t rx q.1) s
    u = { s with strms := u.strms, isls := u.isls, flt := u.flt } := by
  have h : { l.foldl (fun t q => recvRec t rx q.1) s with strms := s.strms, isls := s.isls, flt := s.flt } = s :=
    foldl_proj_eq (fun t : State => { t with strms := s.strms, isls := s.isls, flt := s.flt }) (fun t q => recvRec t rx q.1)
      (fun t q => congrArg (fun u : State => { u with strms := s.strms, isls := s.isls, flt := s.flt }) (recvRec_rest t rx q.1)) l s
  generalize l.foldl (fun t q => recvRec t rx q.1) s = u at h
  exact congrArg (fun t : State => { t with strms := u.strms, isls := u.isls, flt := u.flt }) h

section
variable {pre rest : List (Nat × Nat)} {q k n : Nat}

theorem nextToken_first (hair : s.bud.tokAir = pre ++ (q, k) :: rest) (hpre : ∀ p ∈ pre, isToken 4 p.2 = false ∧ isToken 5 p.2 = false) (hjob : isToken 4 k = true ∨ isToken 5 k = true)
    (hk : isToken n k = true) : ∃ u, nextToken n s = some (u, k) ∧ TokenTaken rest s u := by
  have hdrop : (s.bud.tokAir.dropWhile fun p => !(isToken 4 p.2 || isToken 5 p.2)) = (q, k) :: rest := by
    rw [hair, List.dropWhile_append_of_pos fun p hp => by rw [(hpre p hp).1, (hpre p hp).2]; rfl]
    exact List.dropWhile_cons_of_neg (by rw [Bool.or_eq_true_iff.mpr hjob]; decide)
  let l := s.bud.tokAir.takeWhile (fun p => !(isToken 4 p.2 || isToken 5 p.2)) ++ [(q, k)]
  refine ⟨l.foldl (fun t p => recvRec t (activeIsl s) p.1) (withTokens s rest), ?_, ?_⟩
  · unfold nextToken
    dsimp only
    rw [hdrop]
    exact if_pos hk
  · exact foldl_recvRec_rest (activeIsl s) l (withTokens s rest)

theorem jobToken_taken (ht : inTakeover s = false) (hair : s.bud.tokAir = pre ++ (q, k) :: rest) (hpre : ∀ p ∈ pre, isToken 4 p.2 = false ∧ isToken 5 p.2 = false)
    (hjob : isToken 4 k = true ∨ isToken 5 k = true) (hk : isToken n k = true) : ∃ u, jobToken n s = takeJob u k false ∧ TokenTaken rest s u := by
  obtain ⟨u, hnext, hu⟩ := nextToken_first hair hpre hjob hk
  refine ⟨u, ?_, hu⟩
  unfold jobToken
  rw [hnext]
  exact if_neg (by rw [ht]; decide)

end

/-- The budget and its registers have changed: neither the bus nor the state of the pair. -/
structure OnBudget (s t : State) : Prop where
  member : t.member = s.member
  pending : t.pending = s.pending
  bus : t.bus = s.bus
  sync : inSync t = inSync s
  act : activeIsl t = activeIsl s

namespace OnBudget
variable {t : State}

theorem of_bud (h : OnBudget s t) (b : Bud) : OnBudget s { t with bud := b } := ⟨h.member, h.pending, h.bus, h.sync, h.act⟩

theorem fset (h : OnBudget s t) {x : Fld} (v : Nat) (hx : RZ_PAIR_STAT ≠ x.addr) : OnBudget s (fset t x v) := by
  refine ⟨h.member, h.pending, h.bus, (flag_congr_fget (fget_fset_addr t x _ v hx)).trans h.sync, ?_⟩
  rw [← h.act]
  unfold activeIsl
  rw [fget_fset_addr t x RZ_PAIR_STAT_ACTIVE v hx]

end OnBudget

/-- The epoch of a JOB_BEGIN with number id. -/
def epochOf (s : State) (id : Nat) : Nat := match s.bud.lastJob with | none => s.bud.epoch | some p => if id ≤ p then (s.bud.epoch + 1) % 2 ^ 32 else s.bud.epoch

/-- A job begins with a cut, and is open (R299). -/
def jobBegun (s : State) (j : Job) : State :=
  let s1 := fset (requestCut { s with bud := { s.bud with epoch := j.epoch, lastJob := some j.id } } none none) BG_REP_STAT_EPOCH j.epoch
  fset { s1 with bud := { s1.bud with jobs := s1.bud.jobs ++ [j] } } BG_STAT_OPEN_JOBS (s.bud.jobs.length + 1)

theorem takeJob_begin {k : Nat} (hk : isToken 4 k = true) (hroom : s.bud.jobs.length < 64) :
    let j : Job := ⟨bitsOf k 43 20, epochOf s (bitsOf k 43 20), bitsOf k 7 4, s.bud.cutNo, false⟩
    takeJob s k false = journal (jobBegun s j) (.budget 1 j.id j.epoch) false := by
  intro j
  have hlen : (s.bud.jobs ++ [j]).length = s.bud.jobs.length + 1 := List.length_append
  unfold jobBegun
  rw [← hlen]
  exact (if_pos hk).trans (if_pos hroom)

/-- A job ends with a cut that waits to close it, and is no longer open (R299). -/
def jobEnded (s : State) (j : Job) (src : Nat) : State :=
  let s1 := requestCut { s with bud := { s.bud with jobs := s.bud.jobs.filter (· != j) } } none (some (j, src, false))
  fset s1 BG_STAT_OPEN_JOBS s1.bud.jobs.length

theorem takeJob_end {k : Nat} {j : Job} (hk : isToken 4 k = false) (hjobs : s.bud.jobs = [j]) (hid : j.id = bitsOf k 43 20) :
    takeJob s k false = journal (jobEnded s j (bitsOf k 7 4)) (.budget 0 j.id j.epoch) false := by
  unfold takeJob
  dsimp only
  have hbest : s.bud.jobs.filter (fun x => x.id == bitsOf k 43 20) = [j] := by
    rw [hjobs]
    exact List.filter_cons_of_pos (beq_iff_eq.mpr hid)
  rw [if_neg (by rw [hk]; decide), hbest, ← hid]
  rfl

namespace OnBudget

theorem refl (s : State) : OnBudget s s := ⟨rfl, rfl, rfl, rfl, rfl⟩

theorem jobBegun (s : State) (j : Job) : OnBudget s (jobBegun s j) :=
  ((((refl s).of_bud _).fset (x := BG_REP_STAT_EPOCH) _ (by decide)).of_bud _).fset (x := BG_STAT_OPEN_JOBS) _ (by decide)

theorem jobEnded (s : State) (j : Job) (src : Nat) : OnBudget s (jobEnded s j src) := ((refl s).of_bud _).fset (x := BG_STAT_OPEN_JOBS) _ (by decide)

end OnBudget

/-- A job token's event ends with the entry of what it has made of the budget. -/
theorem gives_jobEvent {i : Instr} {u v : State} {op : JOp} {rest : List (Nat × Nat)} (hx : exec i s = nextOf s (settle (journal v op false))) (hready : s.bus.ready = [])
    (hqueue : s.bus.queue = []) (hsync : inSync s = true) (hu : TokenTaken rest s u) (hv : OnBudget u v) : Gives i s fun t =>
      t.bus.jAir = s.bus.jAir ++ [entryOf s op false] ∧ t.bud = v.bud ∧ ∀ a, reg t a = reg v a := by
  have hmem : u.member = s.member := by rw [hu]
  have hregs : u.regs = s.regs := by rw [hu]
  have hbus : u.bus = s.bus := by rw [hu]
  have hpend : u.pending = s.pending := by rw [hu]
  have hactu : activeIsl u = activeIsl s := congrArg (0x40 + ·) (fget_congr hmem hregs RZ_PAIR_STAT_ACTIVE)
  refine gives_imp (gives_entryLast hx hready hqueue (hv.bus.trans hbus) (hv.act.trans hactu) (hv.sync.trans ((flag_congr hmem hregs _).trans hsync)) (hv.member.trans hmem) (hv.pending.trans hpend))
    fun t ⟨hair, hbud, _, hreg⟩ => ⟨hair, hbud, hreg⟩

section
variable {pre rest : List (Nat × Nat)} {q k : Nat}

theorem gives_jobBegin (ht : inTakeover s = false) (hready : s.bus.ready = []) (hqueue : s.bus.queue = []) (hair : s.bud.tokAir = pre ++ (q, k) :: rest)
    (hpre : ∀ p ∈ pre, isToken 4 p.2 = false ∧ isToken 5 p.2 = false) (hk : isToken 4 k = true) (hroom : s.bud.jobs.length < 64) (hsync : inSync s = true) : Gives .jobBegin s fun t =>
      t.bud.tokAir = rest ∧ t.bud.cutNo = s.bud.cutNo + 1 ∧ fget t BG_STAT_OPEN_JOBS = s.bud.jobs.length + 1 ∧
      ∃ j, t.bud.jobs = s.bud.jobs ++ [j] ∧ j.id = bitsOf k 43 20 ∧ j.src = bitsOf k 7 4 ∧ j.cut = s.bud.cutNo ∧ t.bus.jAir = s.bus.jAir ++ [entryOf s (.budget 1 j.id j.epoch) false] := by
  obtain ⟨u, hjob, hu⟩ := jobToken_taken ht hair hpre (.inl hk) hk
  obtain ⟨htok, hjobs, -, hcut⟩ := hu.bud
  let j : Job := ⟨bitsOf k 43 20, epochOf u (bitsOf k 43 20), bitsOf k 7 4, u.bud.cutNo, false⟩
  have hx : exec .jobBegin s = nextOf s (settle (journal (jobBegun u j) (.budget 1 j.id j.epoch) false)) :=
    congrArg (fun t => nextOf s (settle t)) (hjob.trans (takeJob_begin hk (hjobs ▸ hroom)))
  refine gives_imp (gives_jobEvent hx hready hqueue hsync hu (.jobBegun u j)) fun t ⟨hentry, hbudt, hreg⟩ => ?_
  have hopen : fget (jobBegun u j) BG_STAT_OPEN_JOBS = s.bud.jobs.length + 1 := by
    have hlen : u.bud.jobs.length + 1 < 2 ^ 7 := by rw [hjobs]; omega
    exact (fget_fset_same _ _ _ (by decide) (by decide)).trans ((Nat.mod_eq_of_lt hlen).trans (by rw [hjobs]))
  rw [hbudt]
  refine ⟨htok, congrArg (· + 1) hcut, (congrArg (fun w : W64 => bitsOf w.toNat 54 48) (hreg BG_STAT)).trans hopen, j, ?_, rfl, rfl, hcut, hentry⟩
  exact congrArg (· ++ [j]) hjobs

theorem gives_jobEnd {j : Job} (ht : inTakeover s = false) (hready : s.bus.ready = []) (hqueue : s.bus.queue = []) (hair : s.bud.tokAir = pre ++ (q, k) :: rest)
    (hpre : ∀ p ∈ pre, isToken 4 p.2 = false ∧ isToken 5 p.2 = false) (hk : isToken 5 k = true) (hjobs : s.bud.jobs = [j]) (hid : j.id = bitsOf k 43 20) (hsync : inSync s = true) :
    Gives .jobEnd s fun t =>
      t.bud.tokAir = rest ∧ t.bud.jobs = [] ∧ fget t BG_STAT_OPEN_JOBS = 0 ∧ t.bus.jAir = s.bus.jAir ++ [entryOf s (.budget 0 j.id j.epoch) false] ∧
      ∃ c, t.bud.cuts = s.bud.cuts ++ [c] ∧ c.job = some (j, bitsOf k 7 4, false) ∧ c.num = s.bud.cutNo := by
  obtain ⟨u, hjob, hu⟩ := jobToken_taken ht hair hpre (.inr hk) hk
  obtain ⟨htok, hjobsu, hcuts, hcut⟩ := hu.bud
  have hk4 : isToken 4 k = false := by
    have hkind : bitsOf k 3 0 = 5 := beq_iff_eq.mp hk
    unfold isToken
    rw [hkind]
    rfl
  have hx : exec .jobEnd s = nextOf s (settle (journal (jobEnded u j (bitsOf k 7 4)) (.budget 0 j.id j.epoch) false)) :=
    congrArg (fun t => nextOf s (settle t)) (hjob.trans (takeJob_end hk4 (hjobsu.trans hjobs) hid))
  have hnone : (jobEnded u j (bitsOf k 7 4)).bud.jobs = [] := by
    show u.bud.jobs.filter (· != j) = []
    rw [hjobsu, hjobs]
    simp
  have hopen : fget (jobEnded u j (bitsOf k 7 4)) BG_STAT_OPEN_JOBS = 0 := by
    have hlen : (u.bud.jobs.filter (· != j)).length = 0 := congrArg List.length hnone
    refine (fget_fset_same _ _ _ (by decide) (by decide)).trans ?_
    show (u.bud.jobs.filter (· != j)).length % _ = 0
    rw [hlen]
    rfl
  refine gives_imp (gives_jobEvent hx hready hqueue hsync hu (.jobEnded u j _)) fun t ⟨hentry, hbudt, hreg⟩ => ?_
  rw [hbudt]
  exact ⟨htok, hnone, (congrArg (fun w : W64 => bitsOf w.toNat 54 48) (hreg BG_STAT)).trans hopen, hentry, _, congrArg (· ++ [_]) hcuts, rfl, hcut⟩

end

end

end Sys2Proof.Machine
end

section
/-! The budget period (R285, R288, R304). -/
namespace Sys2Proof.Machine
open Sys2Proof.Claims

/-! #### What the steps of a period change -/

/-- The registers that a period moves. -/
def periodRegs : List Nat := [BG_STAT, BG_POWER, RZ_HARD_STAT, RZ_PERF_STAT]

/-- Steps of a budget period: four registers, the cores' command streams, raises, and the active Rhizome's own figures. -/
structure PeriodStep (s t : State) : Prop where
  rest : t = { s with regs := t.regs, fronds := t.fronds, flt := t.flt, rz := t.rz, bud := t.bud, draws := t.draws }
  regs : ∀ a, a ∉ periodRegs → reg t a = reg s a
  air : ∀ f, ∃ l, (fr t f).air = (fr s f).air ++ l

namespace PeriodStep
variable {s t u : State}

theorem trans (h : PeriodStep s t) (k : PeriodStep t u) : PeriodStep s u where
  rest := by rw [k.rest, h.rest]
  regs a ha := (k.regs a ha).trans (h.regs a ha)
  air f := by
    obtain ⟨l, hl⟩ := h.air f
    obtain ⟨m, hm⟩ := k.air f
    exact ⟨l ++ m, by rw [hm, hl, List.append_assoc]⟩

/-- A change of the figures that the active Rhizome keeps outside its registers. -/
theorem figures (s : State) (b : Bud) (r : Rz) (d : Nat) : PeriodStep s { s with bud := b, rz := r, draws := d } := ⟨rfl, fun _ _ => rfl, fun _ => ⟨[], (List.append_nil _).symm⟩⟩

theorem fset (h : PeriodStep s t) {x : Fld} (v : Nat) (hx : x.addr ∈ periodRegs) : PeriodStep s (fset t x v) :=
  h.trans ⟨rfl, fun a ha => reg_fset_ne t x v a fun hc => ha (hc ▸ hx), fun _ => ⟨[], (List.append_nil _).symm⟩⟩

theorem member (h : PeriodStep s t) : t.member = s.member := by rw [h.rest]
theorem pending (h : PeriodStep s t) : t.pending = s.pending := by rw [h.rest]
theorem bus (h : PeriodStep s t) : t.bus = s.bus := by rw [h.rest]
theorem vpm (h : PeriodStep s t) : t.vpm = s.vpm := by rw [h.rest]

theorem fget (h : PeriodStep s t) {x : Fld} (hx : x.addr ∉ periodRegs) : Machine.fget t x = Machine.fget s x := by
  unfold Machine.fget
  rw [h.regs _ hx]

theorem flag (h : PeriodStep s t) {x : Fld} (hx : x.addr ∉ periodRegs) : Machine.flag t x = Machine.flag s x := flag_congr_fget (h.fget hx)

end PeriodStep

/-- Steps of a period that leave the cap and its binding term alone. -/
structure CapKept (s t : State) : Prop extends PeriodStep s t where
  cap : t.bud.cap = s.bud.cap
  src : fget t BG_STAT_SRC = fget s BG_STAT_SRC

/-- A field that a period may write without touching the cap's source. -/
abbrev BesideSrc (x : Fld) : Prop := x.addr ∈ periodRegs ∧ x.hi < 64 ∧ (x.addr = BG_STAT → 22 < x.lo ∨ x.hi < 20)

namespace CapKept
variable {s t u : State}

theorem refl (s : State) : CapKept s s := ⟨.figures s s.bud s.rz s.draws, rfl, rfl⟩

theorem trans (h : CapKept s t) (k : CapKept t u) : CapKept s u := ⟨h.toPeriodStep.trans k.toPeriodStep, k.cap.trans h.cap, k.src.trans h.src⟩

theorem figures (s : State) (b : Bud) (r : Rz) (d : Nat) (h : b.cap = s.bud.cap := by rfl) : CapKept s { s with bud := b, rz := r, draws := d } := ⟨.figures s b r d, h, rfl⟩

theorem fset (h : CapKept s t) {x : Fld} (v : Nat) (hx : BesideSrc x) : CapKept s (fset t x v) := by
  obtain ⟨hin, hh, hbits⟩ := hx
  refine ⟨h.toPeriodStep.fset v hin, h.cap, Eq.trans ?_ h.src⟩
  by_cases hne : BG_STAT = x.addr
  · exact fget_fset_disj t x _ v hh (hbits hne.symm)
  · exact fget_fset_addr t x _ v hne

theorem raiseD (h : CapKept s t) (c : Nat) (w : Option Nat) (d i : Nat) : CapKept s (raiseD t c w d i) := by
  refine h.trans ⟨⟨?_, fun a _ => reg_congr (raiseD_member ..) (raiseD_regs ..) a, fun f => ⟨[], ?_⟩⟩, by rw [raiseD_bud], fget_raiseD ..⟩
  · rw [raiseD_rest]
  · unfold fr
    rw [raiseD_fronds, List.append_nil]

theorem sendCmd (h : CapKept s t) (f : Nat) (m : FMsg) (w : Bool) : CapKept s (sendCmd t f m w) := by
  refine h.trans ⟨⟨rfl, fun _ _ => rfl, fun g => ?_⟩, rfl, rfl⟩
  by_cases hg : g = f
  · subst hg
    exact ⟨_, congrArg Frond.air (fr_sendCmd_same t g m w)⟩
  · exact ⟨[], by rw [fr_sendCmd_ne t m w hg, List.append_nil]⟩

theorem foldl {α : Type} {g : State → α → State} (hg : ∀ t x, CapKept t (g t x)) (l : List α) (h : CapKept s t) : CapKept s (l.foldl g t) := by
  induction l generalizing t with
  | nil => exact h
  | cons x l ih => exact ih (h.trans (hg t x))

end CapKept

/-! #### The cap (R285) -/

/-- While the input is not below V_FOLLOW, the free value of the quotient does not enter the terms. -/
theorem capTerms_follow {s : State} (h : ((8000 + 20 * fget s BG_CAP_V_FOLLOW : Nat) : Int) ≤ vinMv s) (x y : Rat) : capTerms s x = capTerms s y := by
  have hone : ∀ z, followRatio s z = 1 := fun z => if_pos h
  unfold capTerms
  rw [hone x, hone y]

/-- A cap and its binding term are in force and shown. -/
def capShown (s : State) (term : Nat) (cap : Rat) : State := fset (fset { s with bud := { s.bud with cap := cap } } BG_STAT_CAP (floorU 20 cap)) BG_STAT_SRC term

theorem capStep_eq (s : State) : ∃ d x, capStep s = capShown { s with draws := d } (bindTerm (capTerms s x)).1 (min (bindTerm (capTerms s x)).2 (s.bud.cap + fget s BG_CTRL_CAP_UP)) := by
  unfold capStep
  dsimp only
  split
  · exact ⟨s.draws + 1, _, rfl⟩
  · exact ⟨s.draws, _, rfl⟩

theorem periodStep_capShown (s : State) (d term : Nat) (cap : Rat) : PeriodStep s (capShown { s with draws := d } term cap) :=
  ((PeriodStep.figures s _ s.rz d).fset (x := BG_STAT_CAP) _ (by decide)).fset (x := BG_STAT_SRC) _ (by decide)

theorem not_mem_periodRegs {a : Nat} (h : 0x40000 ≤ a ∧ a < 0x50000) : a ∉ periodRegs := by
  simp only [periodRegs, BG_STAT, BG_POWER, RZ_HARD_STAT, RZ_PERF_STAT, List.mem_cons, List.not_mem_nil, or_false, not_or]
  omega

namespace PeriodStep
variable {s t : State}

theorem stagesOf (h : PeriodStep s t) (g : Nat) : stagesOf t g = stagesOf s g := by
  refine List.filter_congr fun n hn => ?_
  have hlt : n < 48 := List.mem_range.mp hn
  have haddr : VP_STAGE n ∉ periodRegs := not_mem_periodRegs (by unfold VP_STAGE; omega)
  rw [h.flag haddr, h.fget haddr]

theorem servOf (h : PeriodStep s t) (g : Nat) : servOf t g = servOf s g := by
  unfold Machine.servOf
  rw [h.stagesOf g]
  refine List.filter_congr fun n hn => ?_
  have hlt : n < 48 := List.mem_range.mp (List.mem_filter.mp hn).1
  have haddr : VP_STAGE n ∉ periodRegs := not_mem_periodRegs (by unfold VP_STAGE; omega)
  unfold stSt
  rw [h.fget haddr]

theorem pGrp (h : PeriodStep s t) {g : Nat} (hg : g < 8) : pGrp t g = pGrp s g := by
  have haddr : VP_GRP_STAT g ∉ periodRegs := not_mem_periodRegs (by unfold VP_GRP_STAT; omega)
  have hcur : grpCurrent t g = grpCurrent s g := by
    unfold grpCurrent stg
    rw [h.stagesOf g, h.vpm]
  unfold Machine.pGrp
  rw [hcur, h.fget haddr]

theorem pOthers (h : PeriodStep s t) : pOthers t = pOthers s := congrArg sumRat (List.map_congr_left fun g hg => h.pGrp (by revert g; decide))

theorem vinMv (h : PeriodStep s t) : vinMv t = vinMv s := h.fget (by decide)

theorem capTerms (h : PeriodStep s t) (x : Rat) : capTerms t x = capTerms s x := by
  have hmat : matTerm t = matTerm s := by
    unfold matTerm
    rw [h.flag (x := BG_CTRL_MAT) (by decide), h.flag (x := MT_PMAT_NONE) (by decide), h.fget (x := MT_PMAT_PMAT) (by decide)]
  have hfollow : followRatio t x = followRatio s x := by
    unfold followRatio
    rw [h.fget (x := BG_CAP_V_FOLLOW) (by decide), h.fget (x := RZ_SAG_CFG_V_SAG) (by decide), h.fget (x := BG_CAP_FOLLOW_MIN) (by decide), h.vinMv]
  have hg0 : g0Limit t = g0Limit s := by
    unfold g0Limit vG0 busMv
    rw [h.servOf 0, h.fget (x := RZ_IBUS_STAT_TARGET) (by decide)]
  unfold Machine.capTerms
  rw [hmat, hfollow, hg0, h.pOthers, h.fget (x := BG_CAP_HOST_CAP) (by decide), h.fget (x := BG_CAP_SUPPLY) (by decide)]

end PeriodStep

/-! #### The other steps (R171, R188, R282, R286 to R288) -/

/-- RZ_PERF_STAT shows the least throughput ratio, unless there is none (R171). -/
def rhoShown (s : State) (least : Option Rat) : State :=
  match least with
  | none => s
  | some x => if fget s RZ_PERF_CTRL_FFIX = 0 then s else fset s RZ_PERF_STAT_RHO (floorU 11 (1024 * x))

theorem perfStep_eq (s : State) : ∃ least short, ∃ begins : Bool,
    perfStep s = if begins then raiseD (fsetB (rhoShown s least) RZ_PERF_STAT_SHORT short) 0xB9 none 0 (activeIsl s) else fsetB (rhoShown s least) RZ_PERF_STAT_SHORT short := ⟨_, _, _, rfl⟩

/-- The periods over the cap and under it are counted (R188). -/
def ladderCounted (s : State) : State := { s with rz := { s.rz with
  overN := if decide (s.bud.cap < pMeas s) then s.rz.overN + 1 else 0, underN := if decide (21 / 20 * pMeas s ≤ s.bud.cap) then s.rz.underN + 1 else 0 } }

theorem ladderStep_cases (s : State) : ladderStep s = climb (ladderCounted s) ∨ ladderStep s = descend (ladderCounted s) ∨ ladderStep s = ladderCounted s :=
  (ite_eq_or_eq _ (climb (ladderCounted s)) _).imp_right fun h => (ite_eq_or_eq _ (descend (ladderCounted s)) (ladderCounted s)).imp h.trans h.trans

namespace CapKept
variable {s t : State}

theorem etaStep (s : State) : CapKept s (etaStep s) := by
  unfold Machine.etaStep
  dsimp only
  refine fset ?_ _ (by decide)
  split
  · exact figures s _ s.rz _
  · exact figures s _ s.rz s.draws

theorem splitStep (s : State) : CapKept s (splitStep s) := by
  unfold Machine.splitStep
  exact fset (figures s _ s.rz s.draws) _ (by decide)

theorem rhoShown (s : State) (least : Option Rat) : CapKept s (rhoShown s least) := by
  unfold Machine.rhoShown
  split
  · exact refl s
  · split
    · exact refl s
    · exact (refl s).fset _ (by decide)

theorem perfStep (s : State) : CapKept s (perfStep s) := by
  obtain ⟨least, short, begins, h⟩ := perfStep_eq s
  have hshort : CapKept s (fsetB (Machine.rhoShown s least) RZ_PERF_STAT_SHORT short) := (rhoShown s least).fset _ (by decide)
  rw [h]
  split
  · exact hshort.raiseD _ _ _ _
  · exact hshort

theorem climb (s : State) : CapKept s (climb s) := by
  unfold Machine.climb
  dsimp only
  split
  · exact .foldl (fun t f => (refl t).sendCmd f _ false) _ ((refl s).fset _ (by decide))
  · exact (refl s).fset _ (by decide)
  · exact (figures s s.bud _ s.draws).fset (x := RZ_HARD_STAT_LADDER) _ (by decide)
  · split
    · exact figures s s.bud _ s.draws
    · exact (((refl s).fset (x := RZ_HARD_STAT_LADDER) _ (by decide)).fset (x := RZ_HARD_STAT_CAP_UNREACHABLE) _ (by decide)).raiseD _ _ _ _
  · exact refl s

theorem descend (s : State) : CapKept s (descend s) := by
  unfold Machine.descend
  split
  · exact ((refl s).fset (x := RZ_HARD_STAT_LADDER) _ (by decide)).fset (x := RZ_HARD_STAT_CAP_UNREACHABLE) _ (by decide)
  · split
    · exact figures s s.bud _ s.draws
    · exact (figures s s.bud _ s.draws).fset (x := RZ_HARD_STAT_LADDER) _ (by decide)
  · exact (refl s).fset _ (by decide)
  · exact .foldl (fun t p => (refl t).sendCmd _ _ false) _ ((refl s).fset _ (by decide))
  · exact refl s

theorem ladderStep (s : State) : CapKept s (ladderStep s) := by
  have hcount : CapKept s (ladderCounted s) := figures s s.bud _ s.draws
  obtain h | h | h := ladderStep_cases s <;> rw [h]
  · exact hcount.trans (climb _)
  · exact hcount.trans (descend _)
  · exact hcount

theorem sendWords (s : State) : CapKept s (sendWords s) := by
  unfold Machine.sendWords
  split
  · exact refl s
  · split
    · exact .foldl (fun t _ => (refl t).sendCmd _ _ false) _ (refl s)
    · exact .foldl (fun t _ => (refl t).sendCmd _ _ false) _ (refl s)

end CapKept

/-! #### The words (R289, R291) -/

theorem fr_foldl_sendCmd_notMem (m : Nat → FMsg) (s : State) {l : List Nat} {f : Nat} (h : f ∉ l) : fr (l.foldl (fun t g => sendCmd t g (m g) false) s) f = fr s f := by
  induction l generalizing s with
  | nil => rfl
  | cons g l ih =>
    obtain ⟨hne, hl⟩ := not_or.mp (mt List.mem_cons.mpr h)
    exact (ih _ hl).trans (fr_sendCmd_ne s (m g) false hne)

/-- Each frond of the list is sent one command. -/
theorem air_foldl_sendCmd (m : Nat → FMsg) (s : State) {l : List Nat} (hnodup : l.Nodup) {f : Nat} (h : f ∈ l) :
    (fr (l.foldl (fun t g => sendCmd t g (m g) false) s) f).air = (fr s f).air ++ [⟨(fr s f).sent, m f, false⟩] := by
  induction l generalizing s with
  | nil => cases h
  | cons g l ih =>
    obtain ⟨hg, hl⟩ := List.nodup_cons.mp hnodup
    by_cases hfg : f = g
    · subst hfg
      exact congrArg Frond.air ((fr_foldl_sendCmd_notMem m _ hg).trans (fr_sendCmd_same s f (m f) false))
    · have hne := fr_sendCmd_ne s (m g) false hfg
      exact (ih _ hl ((List.mem_cons.mp h).resolve_left hfg)).trans (by rw [hne])

/-- While the split does not run, every frond is sent a word (R291). -/
theorem air_sendWords {s : State} (hspore : inSpore s = false) (hen : flag s BG_CTRL_EN = false) {f : Nat} (hf : f < nF s) :
    (fr (sendWords s) f).air = (fr s f).air ++ [⟨(fr s f).sent, .capWord (idleWordOf s f), false⟩] := by
  have hidle : sendWords s = (List.range (nF s)).foldl (fun t g => sendCmd t g (.capWord (idleWordOf s g)) false) s :=
    (if_neg (by rw [hspore]; decide)).trans (if_neg (by rw [hen]; decide))
  rw [hidle]
  exact air_foldl_sendCmd (fun g => .capWord (idleWordOf s g)) s List.nodup_range (List.mem_range.mpr hf)

/-! #### The period (R288, R304) -/

/-- The efficiency, the refit times and the thermal factors of the period (R282, R283, R287). -/
def periodBegun (s : State) : State :=
  let s1 := etaStep s
  tauStep { s1 with bud := { s1.bud with refit := s1.bud.refit.map fun p => (p.1, p.2 - 1) } }

/-- The currents of the groups enter the report, and the powers are shown (R281, R294). -/
def powersShown (groups : List Nat) (s : State) : State :=
  let t := groups.foldl (fun t g => reportFigure t (64 + g) (max 0 (grpCurrent t g))) s
  fset (fset t BG_POWER_P_MEAS (nearU 32 (1000 * pMeas t))) BG_POWER_P_CHIP (nearU 32 (1000 * pChip t))

/-- The split, where it runs (R288, R291). -/
def sharesFormed (s : State) : State := if flag s BG_CTRL_EN && !(inSpore s) then splitStep (trimStep s) else { s with bud := { s.bud with unreach := false } }

/-- What follows the cap, until the words leave. -/
def afterCap (groups : List Nat) (s : State) : State := perfStep (ladderStep (sharesFormed (powersShown groups s)))

theorem applyPend_nil {s : State} (h : s.bud.pend = []) : applyPend s = s := by
  unfold applyPend
  rw [h]
  show ({ s with bud := { s.bud with pend := [] } } : State) = s
  rw [← h]

theorem budgetPeriod_eq {s : State} (hans : answers s (activeIsl s) = true) (ht : inTakeover s = false) (hpend : s.bud.pend = []) : ∃ groups,
    let u := sendWords (afterCap groups (capStep (periodBegun s)))
    budgetPeriod s = journal u (.estimator ⟨u.bud.w, u.bud.b, u.bud.d⟩) false := by
  unfold budgetPeriod
  rw [if_neg (by rw [ht, hans]; decide), applyPend_nil hpend]
  exact ⟨_, rfl⟩

namespace CapKept

theorem periodBegun (s : State) : CapKept s (periodBegun s) := (etaStep s).trans (figures _ _ (Machine.etaStep s).rz (Machine.etaStep s).draws)

theorem powersShown (groups : List Nat) (s : State) : CapKept s (powersShown groups s) :=
  ((foldl (fun t _ => figures t _ t.rz t.draws) groups (refl s)).fset (x := BG_POWER_P_MEAS) _ (by decide)).fset (x := BG_POWER_P_CHIP) _ (by decide)

theorem sharesFormed (s : State) : CapKept s (sharesFormed s) := by
  unfold Machine.sharesFormed
  split
  · exact (figures s _ s.rz s.draws).trans (splitStep (trimStep s))
  · exact figures s _ s.rz s.draws

theorem afterCap (groups : List Nat) (s : State) : CapKept s (afterCap groups s) :=
  (((powersShown groups s).trans (sharesFormed _)).trans (ladderStep _)).trans (perfStep _)

end CapKept

/-- The cap and its binding term at the end of a period, while the input is not below V_FOLLOW (R285). -/
theorem capStep_periodBegun {s : State} (h : ((8000 + 20 * fget s BG_CAP_V_FOLLOW : Nat) : Int) ≤ vinMv s) :
    (capStep (periodBegun s)).bud.cap = min (bindTerm (capTerms s 0)).2 (s.bud.cap + fget s BG_CTRL_CAP_UP) ∧ fget (capStep (periodBegun s)) BG_STAT_SRC = (bindTerm (capTerms s 0)).1 % 8 := by
  have hb := CapKept.periodBegun s
  obtain ⟨d, x, hcap⟩ := capStep_eq (periodBegun s)
  rw [hb.capTerms, capTerms_follow h x 0, hb.cap, hb.fget (x := BG_CTRL_CAP_UP) (by decide)] at hcap
  rw [hcap]
  exact ⟨rfl, fget_fset_same _ _ _ (by decide) (by decide)⟩

theorem gives_budgetPeriod {s : State} (hans : answers s (activeIsl s) = true) (ht : inTakeover s = false) (hready : s.bus.ready = []) (hqueue : s.bus.queue = [])
    (hpend : s.bud.pend = []) (hsync : inSync s = true) : Gives .budgetPeriod s fun t =>
      (∃ l e, t.bus.jAir = s.bus.jAir ++ l ++ [e] ∧ e.op = .estimator ⟨t.bud.w, t.bud.b, t.bud.d⟩ ∧ e.wait = false) ∧
      (((8000 + 20 * fget s BG_CAP_V_FOLLOW : Nat) : Int) ≤ vinMv s →
        t.bud.cap = min (bindTerm (capTerms s 0)).2 (s.bud.cap + fget s BG_CTRL_CAP_UP) ∧ fget t BG_STAT_SRC = (bindTerm (capTerms s 0)).1 % 8) ∧
      (inSpore s = false → flag s BG_CTRL_EN = false → ∀ f, f < nF s → ∃ l c, (fr t f).air = (fr s f).air ++ l ++ [c] ∧ ∃ w, c.msg = .capWord w) := by
  obtain ⟨groups, heq⟩ := budgetPeriod_eq hans ht hpend
  dsimp only at heq
  have hx : exec .budgetPeriod s = nextOf s (settle (budgetPeriod s)) := congrArg (nextOf s) (if_pos (by rw [hans, ht]; rfl))
  rw [heq] at hx
  have hfields := capStep_periodBegun (s := s)
  have hstep : PeriodStep s (capStep (periodBegun s)) := by
    obtain ⟨d, x, hc⟩ := capStep_eq (periodBegun s)
    rw [hc]
    exact (CapKept.periodBegun s).toPeriodStep.trans (periodStep_capShown _ d _ _)
  generalize capStep (periodBegun s) = c at hx hstep hfields
  have hcap := CapKept.afterCap groups c
  generalize afterCap groups c = w at hx hcap
  have hbefore := hstep.trans hcap.toPeriodStep
  have hwords := CapKept.sendWords w
  have hall := hbefore.trans hwords.toPeriodStep
  have hact : activeIsl (sendWords w) = activeIsl s := congrArg (0x40 + ·) (hall.fget (x := RZ_PAIR_STAT_ACTIVE) (by decide))
  refine gives_imp (gives_entryLast hx hready hqueue hall.bus hact ((hall.flag (by decide)).trans hsync) hall.member hall.pending) fun t ⟨hair, hbud, hfronds, hreg⟩ => ⟨?_, fun hv => ?_, fun hspore hen f hf => ?_⟩
  · exact ⟨[], _, by rw [hair, List.append_nil], by rw [hbud]; rfl, rfl⟩
  · obtain ⟨hcapv, hsrcv⟩ := hfields hv
    have hsrc : fget t BG_STAT_SRC = fget (sendWords w) BG_STAT_SRC := congrArg (fun v : W64 => bitsOf v.toNat 22 20) (hreg BG_STAT)
    exact ⟨by rw [hbud, hwords.cap, hcap.cap, hcapv], by rw [hsrc, hwords.src, hcap.src, hsrcv]⟩
  · obtain ⟨l, hl⟩ := hbefore.air f
    have hword := air_sendWords ((hbefore.flag (by decide)).trans hspore) ((hbefore.flag (by decide)).trans hen) (f := f) (by unfold nF; rw [hbefore.member]; exact hf)
    have hfr : fr t f = fr (sendWords w) f := by unfold fr; rw [hfronds]
    exact ⟨l, _, by rw [hfr, hword, hl], _, rfl⟩

/-- Settles O52: each event by its own lemma; the period by the cap, which no later step of it moves, and by the words, which leave last (R190, R257, R285, R288, R294, R297, R299; the S0 of an
input record is the one held when the telemetry arrives, log entry 49). -/
theorem budgetAndEnergy : Obligations.BudgetAndEnergy := by
  intro s hans ht hready hqueue
  exact ⟨fun _ _ _ => gives_telemetryRecord ht, fun _ n est meas floor => bad_domRecord n est meas floor, fun _ => gives_estMeasDisagree, gives_budgetPeriod hans ht hready hqueue,
    gives_currentReport ht, fun _ _ _ => gives_cutRequest, fun _ _ _ _ h hi hcuts hnum hvpm => gives_energyRecord h hi hcuts hnum hvpm, fun _ => gives_cutTimeout,
    fun _ _ _ _ => gives_jobBegin ht hready hqueue, fun _ _ _ _ _ hair hpre hk hjobs hid hsync => gives_jobEnd ht hready hqueue hair hpre hk hjobs hid hsync⟩

end Sys2Proof.Machine
end

section
/-! The VPM controller: what each of its operations moves, and what it leaves alone (R192 to R203, R213). -/
namespace Sys2Proof.Machine
open Sys2Proof.Claims

/-! #### One key of a fold -/

/-- A fold over distinct keys, seen at key k: what comes before k and what comes after it are steps of a relation that the other keys keep. -/
theorem foldl_at {α : Type} {R : State → State → Prop} (hrefl : ∀ s, R s s) (htrans : ∀ {s t u}, R s t → R t u → R s u) {step : State → α → State} {l : List α} {k : α}
    (hk : k ∈ l) (hnd : l.Nodup) (hother : ∀ t g, g ∈ l → g ≠ k → R t (step t g)) (s : State) : ∃ a, R s a ∧ R (step a k) (l.foldl step s) := by
  have hrun : ∀ (l' : List α) (t : State), (∀ g ∈ l', g ∈ l ∧ g ≠ k) → R t (l'.foldl step t) := by
    intro l'
    induction l' with
    | nil => exact fun t _ => hrefl t
    | cons g l' ih =>
      intro t h
      obtain ⟨⟨hg, hne⟩, hrest⟩ := List.forall_mem_cons.mp h
      exact htrans (hother t g hg hne) (ih _ hrest)
  obtain ⟨l1, l2, rfl⟩ := List.append_of_mem hk
  obtain ⟨hnot, -⟩ := List.nodup_middle.mp hnd |> List.nodup_cons.mp
  refine ⟨l1.foldl step s, hrun l1 s fun g hg => ⟨List.mem_append_left _ hg, ?_⟩, ?_⟩
  · rintro rfl
    exact hnot (List.mem_append_left _ hg)
  · rw [List.foldl_append, List.foldl_cons]
    refine hrun l2 _ fun g hg => ⟨List.mem_append_right _ (List.mem_cons_of_mem _ hg), ?_⟩
    rintro rfl
    exact hnot (List.mem_append_right _ hg)

/-! #### Groups and stages after an update -/

@[simp] theorem grp_updGrp_same (s : State) (g : Nat) (h : Grp → Grp) : grp (updGrp s g h) g = h (grp s g) := tget_tset_same _ _ _ _
theorem grp_updGrp_ne (s : State) {g j : Nat} (h : Grp → Grp) (hne : j ≠ g) : grp (updGrp s g h) j = grp s j := tget_tset_ne _ _ _ _ _ hne
@[simp] theorem stg_updStg_same (s : State) (n : Nat) (h : Stage → Stage) : stg (updStg s n h) n = h (stg s n) := tget_tset_same _ _ _ _
theorem stg_updStg_ne (s : State) {n m : Nat} (h : Stage → Stage) (hne : m ≠ n) : stg (updStg s n h) m = stg s m := tget_tset_ne _ _ _ _ _ hne

/-- A part of a stage that the update keeps. -/
theorem stg_updStg_proj {β : Type} (π : Stage → β) (s : State) (n m : Nat) (h : Stage → Stage) (hπ : π (h (stg s n)) = π (stg s n)) : π (stg (updStg s n h) m) = π (stg s m) := by
  by_cases hm : m = n
  · subst hm
    rw [stg_updStg_same, hπ]
  · rw [stg_updStg_ne s h hm]

@[simp] theorem fget_updStg (s : State) (n : Nat) (h : Stage → Stage) (x : Fld) : fget (updStg s n h) x = fget s x := rfl
@[simp] theorem fget_updGrp (s : State) (g : Nat) (h : Grp → Grp) (x : Fld) : fget (updGrp s g h) x = fget s x := rfl

@[simp] theorem grp_fsetB (s : State) (x : Fld) (b : Bool) (g : Nat) : grp (fsetB s x b) g = grp s g := rfl

/-- A field below the one that was written, in whichever register. -/
theorem fget_fset_above (s : State) (a b : Nat) {hi lo hi' lo' : Nat} (v : Nat) (hh : hi < 64) (h : hi' < lo) : fget (fset s ⟨a, hi, lo⟩ v) ⟨b, hi', lo'⟩ = fget s ⟨b, hi', lo'⟩ :=
  fget_fset_disj s ⟨a, hi, lo⟩ ⟨b, hi', lo'⟩ v hh (.inl h)

theorem gcfg_congr {s t : State} {g : Nat} (k : Nat) {x : Fld} (hg : grp t g = grp s g) (hr : reg t x.addr = reg s x.addr) : gcfg t g k x = gcfg s g k x := by
  unfold gcfg
  rw [hg, hr]

/-- With no word kept back, a group runs by its registers (R211). -/
theorem gcfg_of_nil {s : State} {g : Nat} (k : Nat) (x : Fld) (h : (grp s g).inForce = []) : gcfg s g k x = fget s x := by
  unfold gcfg
  rw [h]
  rfl

theorem stagesOf_congr {s t : State} (g : Nat) (h : ∀ n, n < 48 → fget t (VP_STAGE_IMG_EN n) = fget s (VP_STAGE_IMG_EN n) ∧ fget t (VP_STAGE_GROUP n) = fget s (VP_STAGE_GROUP n)) :
    stagesOf t g = stagesOf s g := by
  refine List.filter_congr fun n hn => ?_
  obtain ⟨himg, hgrp⟩ := h n (List.mem_range.mp hn)
  rw [flag_congr_fget himg, hgrp]

theorem nodup_stagesOf (s : State) (g : Nat) : (stagesOf s g).Nodup := List.nodup_range.filter _
theorem nodup_actOf (s : State) (g : Nat) : (actOf s g).Nodup := (nodup_stagesOf s g).filter _

theorem nodup_servOf (s : State) (g : Nat) : (servOf s g).Nodup := (nodup_stagesOf s g).filter _

theorem mem_stagesOf_of_actOf {s : State} {g n : Nat} (h : n ∈ actOf s g) : n ∈ stagesOf s g := (List.mem_filter.mp h).1
theorem lt_of_mem_actOf {s : State} {g n : Nat} (h : n ∈ actOf s g) : n < 48 := lt_of_mem_stagesOf (mem_stagesOf_of_actOf h)

theorem group_of_mem_stagesOf {s : State} {g n : Nat} (h : n ∈ stagesOf s g) : fget s (VP_STAGE_GROUP n) = g := by
  have hn := (List.mem_filter.mp h).2
  rw [Bool.and_eq_true, beq_iff_eq] at hn
  exact hn.2

theorem mem_servOf {s : State} {g n : Nat} (h : n ∈ servOf s g) : n ∈ stagesOf s g ∧ (stSt s n = 2 ∨ stSt s n = 3) := by
  obtain ⟨hn, hst⟩ := List.mem_filter.mp h
  rw [Bool.or_eq_true, beq_iff_eq, beq_iff_eq] at hst
  exact ⟨hn, hst⟩

/-! #### Steps that touch the tables of the controller alone -/

/-- Only what the controller holds of its stages has changed. -/
def StagesOnly (s t : State) : Prop := t = { s with vpm := { s.vpm with stages := t.vpm.stages } }

/-- Only what the controller holds of its groups has changed. -/
def GroupsOnly (s t : State) : Prop := t = { s with vpm := { s.vpm with grps := t.vpm.grps } }

theorem StagesOnly.updStg (s : State) (n : Nat) (h : Stage → Stage) : StagesOnly s (updStg s n h) := rfl
theorem GroupsOnly.updGrp (s : State) (g : Nat) (h : Grp → Grp) : GroupsOnly s (updGrp s g h) := rfl

theorem StagesOnly.foldl {α : Type} {step : State → α → State} (h : ∀ t x, StagesOnly t (step t x)) (l : List α) (s : State) : StagesOnly s (l.foldl step s) := by
  induction l generalizing s with
  | nil => rfl
  | cons x l ih =>
    have hrest := ih (step s x)
    unfold StagesOnly at h hrest ⊢
    rw [List.foldl_cons, hrest, h s x]

theorem GroupsOnly.foldl {α : Type} {step : State → α → State} (h : ∀ t x, GroupsOnly t (step t x)) (l : List α) (s : State) : GroupsOnly s (l.foldl step s) := by
  induction l generalizing s with
  | nil => rfl
  | cons x l ih =>
    have hrest := ih (step s x)
    unfold GroupsOnly at h hrest ⊢
    rw [List.foldl_cons, hrest, h s x]

/-- A part of a stage that no update of a fold moves. -/
theorem stg_foldl_proj {α β : Type} (π : Stage → β) {step : State → α → State} (h : ∀ t x n, π (stg (step t x) n) = π (stg t n)) (l : List α) (s : State) (n : Nat) :
    π (stg (l.foldl step s) n) = π (stg s n) := foldl_proj_eq (fun t => π (stg t n)) step (fun t x => h t x n) l s

/-- A fold of updates over distinct stages gives each of them its own. -/
theorem stg_foldl_updStg (h : Nat → Stage → Stage) {l : List Nat} (hnd : l.Nodup) (s : State) (n : Nat) :
    stg (l.foldl (fun t m => updStg t m (h m)) s) n = if n ∈ l then h n (stg s n) else stg s n := by
  induction l generalizing s with
  | nil => rfl
  | cons m l ih =>
    obtain ⟨hm, hnd⟩ := List.nodup_cons.mp hnd
    rw [List.foldl_cons, ih hnd]
    by_cases hn : n = m
    · subst hn
      rw [if_neg hm, if_pos List.mem_cons_self, stg_updStg_same]
    · simp only [stg_updStg_ne s _ hn, List.mem_cons, hn, false_or]

/-! #### A record is captured (R213) -/

/-- The registers that show the last record. -/
def IsLastf (a : Nat) : Prop := 0x40700 ≤ a ∧ a ≤ 0x40740

/-- Those of its words. -/
def IsLastfWord (a : Nat) : Prop := 0x40700 ≤ a ∧ a < 0x40740

theorem isLastf_stat : IsLastf VP_LASTF_STAT := ⟨by decide, by decide⟩
theorem not_isLastfWord_stat : ¬ IsLastfWord VP_LASTF_STAT := fun h => absurd h.2 (by decide)
theorem not_isLastf_stage {n : Nat} (h : n < 48) : ¬ IsLastf (VP_STAGE n) := by unfold IsLastf VP_STAGE; omega
theorem not_isLastf_grpStat {g : Nat} (h : g < 8) : ¬ IsLastf (VP_GRP_STAT g) := by unfold IsLastf VP_GRP_STAT; omega

theorem onLastfWord_showVrec (s : State) (r : VRec) : OnVpm IsLastfWord s (showVrec s r) := by
  unfold showVrec
  generalize vrecBytes r = b
  refine OnVpm.foldl (fun t i hi => (OnVpm.refl _ t).setReg ?_ _) s
  have := List.mem_range.mp hi
  unfold IsLastfWord VP_LASTF
  omega

/-- The counter of records that were overwritten before they were read. -/
def lostCounted (s : State) : State := if flag s VP_LASTF_STAT_PENDING then bump s VP_LASTF_STAT_LOST else s

theorem lostCounted_rest (s : State) : lostCounted s = { s with regs := (lostCounted s).regs } := by
  unfold lostCounted
  split <;> rfl

theorem onLastf_lostCounted (s : State) : OnVpm IsLastf s (lostCounted s) := by
  unfold lostCounted
  split
  · exact (OnVpm.refl _ s).fset (x := VP_LASTF_STAT_LOST) isLastf_stat _
  · exact .refl _ s

/-- A captured record: its cause, its stage and its group; it leaves on the controller's stream, and the registers show it as pending. -/
theorem capture_eq (s : State) (cause n g st : Nat) : ∃ (r : VRec) (m : Tbl Strm), r.cause = cause ∧ (¬ n < 48 → r.stage = 0xFF) ∧ (g < 8 → r.grp = g) ∧
    capture s cause n g st = showVrec (fsetB (fsetB { lostCounted s with vpm := { (lostCounted s).vpm with rec_ := some r }, strms := m } VP_LASTF_STAT_VALID true) VP_LASTF_STAT_PENDING true) r := by
  unfold capture
  dsimp only
  rw [show (if flag s VP_LASTF_STAT_PENDING = true then bump s VP_LASTF_STAT_LOST else s) = lostCounted s from rfl]
  refine ⟨_, _, ?_, ?_, ?_, rfl⟩
  · rfl
  · exact fun h => if_neg (mt of_decide_eq_true h)
  · exact fun h => if_pos (decide_eq_true h)

theorem showVrec_rest (s : State) (r : VRec) : showVrec s r = { s with regs := (showVrec s r).regs } := by
  unfold showVrec
  generalize vrecBytes r = b
  generalize List.range 8 = l
  induction l generalizing s with
  | nil => rfl
  | cons i l ih =>
    rw [List.foldl_cons, ih]
    rfl

section
variable (s : State) (cause n g st : Nat)

theorem onLastf_capture : OnVpm IsLastf s (capture s cause n g st) := by
  obtain ⟨r, m, -, -, -, heq⟩ := capture_eq s cause n g st
  rw [heq]
  exact ((((onLastf_lostCounted s).trans (onVpm_record _ r m)).fsetB (x := VP_LASTF_STAT_VALID) isLastf_stat true).fsetB (x := VP_LASTF_STAT_PENDING) isLastf_stat true).trans ((onLastfWord_showVrec _ r).mono fun a h => ⟨h.1, Nat.le_of_lt h.2⟩)

theorem capture_flt : (capture s cause n g st).flt = s.flt := by
  obtain ⟨r, m, -, -, -, heq⟩ := capture_eq s cause n g st
  rw [heq, showVrec_rest]
  show (lostCounted s).flt = _
  rw [lostCounted_rest]

/-- The controller holds the record, and nothing else of what it holds has changed. -/
theorem capture_vpm : ∃ r : VRec, r.cause = cause ∧ (¬ n < 48 → r.stage = 0xFF) ∧ (g < 8 → r.grp = g) ∧ (capture s cause n g st).vpm = { s.vpm with rec_ := some r } := by
  obtain ⟨r, m, hcause, hstage, hgrp, heq⟩ := capture_eq s cause n g st
  refine ⟨r, hcause, hstage, hgrp, ?_⟩
  rw [heq, showVrec_rest]
  show { (lostCounted s).vpm with rec_ := some r } = _
  rw [lostCounted_rest]

theorem pending_capture : flag (capture s cause n g st) VP_LASTF_STAT_PENDING = true := by
  obtain ⟨r, m, -, -, -, heq⟩ := capture_eq s cause n g st
  rw [heq]
  have hkeep := (onLastfWord_showVrec (fsetB (fsetB { lostCounted s with vpm := { (lostCounted s).vpm with rec_ := some r }, strms := m } VP_LASTF_STAT_VALID true) VP_LASTF_STAT_PENDING true) r).fget
    (x := VP_LASTF_STAT_PENDING) not_isLastfWord_stat
  exact (flag_congr_fget hkeep).trans (flag_fsetB_bit _ true (by decide) (by decide))

end

theorem raised_of_flt {c : Nat} {u : Option Nat} {d i : Nat} {s s' t : State} (h : Raised c u d i s' t) (hflt : s'.flt = s.flt) : Raised c u d i s t := by
  unfold Raised at h ⊢
  rw [h, hflt]

/-- A source is raised, and a record is captured with it (R213). -/
structure Alarmed (c : Nat) (u : Option Nat) (cause n g : Nat) (s t : State) : Prop where
  on : OnVpm IsLastf s t
  raised : Raised c u 0 0x43 s t
  record : ∃ r, t.vpm.rec_ = some r ∧ r.cause = cause ∧ (g < 8 → r.grp = g) ∧ (¬ n < 48 → r.stage = 0xFF)
  shown : flag t VP_LASTF_STAT_PENDING = true

theorem alarmed_capture (s : State) {c : Nat} (h : (fltRow c).isSome) (u : Option Nat) (cause n g st : Nat) : Alarmed c u cause n g s (capture (raiseD s c u 0 0x43) cause n g st) := by
  obtain ⟨r, hcause, hstage, hgrp, hvpm⟩ := capture_vpm (raiseD s c u 0 0x43) cause n g st
  refine ⟨((OnVpm.refl _ s).raiseD c u 0 0x43).trans (onLastf_capture _ cause n g st), ?_, ⟨r, by rw [hvpm], hcause, hgrp, hstage⟩, pending_capture _ _ _ _ _⟩
  exact (capture_flt _ cause n g st).trans (raised_raiseD s c u 0 0x43 h)

end Sys2Proof.Machine
end

section
/-! Stages of the VPM controller: steps that leave the groups, the stage map and the measured means alone (R192, R200, R201). -/
namespace Sys2Proof.Machine
open Sys2Proof.Claims

/-- The registers that a step of the controller moves. -/
def IsVpmMoved (a : Nat) : Prop := a = VP_STAGE_CMD ∨ IsVpmState a

theorem isVpmMoved_stage {n : Nat} (h : n < 48) : IsVpmMoved (VP_STAGE n) := .inr (isVpmState_stage h)
theorem isVpmMoved_grpStat {g : Nat} (h : g < 8) : IsVpmMoved (VP_GRP_STAT g) := .inr (.inr (isVpmShown_grpStat h))
theorem isVpmMoved_lastf {a : Nat} (h : IsLastf a) : IsVpmMoved a := .inr (.inr (.inr h))

/-- What a group is configured by is no step's to move. -/
theorem not_isVpmMoved_config {a : Nat} (h : 0x40400 ≤ a ∧ a < 0x40540 ∨ 0x40600 ≤ a ∧ a < 0x40700) : ¬ IsVpmMoved a := by
  unfold IsVpmMoved IsVpmState IsVpmShown VP_STAGE_CMD
  omega

theorem stage_ne_grpStat {n : Nat} (h : n < 48) (g : Nat) : VP_GRP_STAT g ≠ VP_STAGE n := by unfold VP_GRP_STAT VP_STAGE; omega

/-- A step of the controller on its stages: its groups, the stage map, the voltages, NMIN and the currents stay. -/
structure StageStep (s t : State) : Prop where
  on : OnVpm IsVpmMoved s t
  grps : t.vpm.grps = s.vpm.grps
  map : ∀ n, n < 48 → fget t (VP_STAGE_IMG_EN n) = fget s (VP_STAGE_IMG_EN n) ∧ fget t (VP_STAGE_GROUP n) = fget s (VP_STAGE_GROUP n)
  volts : ∀ g, g < 8 → fget t (VP_GRP_STAT_V g) = fget s (VP_GRP_STAT_V g)
  nmin : ∀ g, g < 8 → fget t (VP_GRP_STAT_NMIN g) = fget s (VP_GRP_STAT_NMIN g)
  cur : ∀ n, (stg t n).cur = (stg s n).cur

namespace StageStep
variable {s t u : State}

theorem refl (s : State) : StageStep s s := ⟨.refl _ s, rfl, fun _ _ => ⟨rfl, rfl⟩, fun _ _ => rfl, fun _ _ => rfl, fun _ => rfl⟩

theorem trans (h : StageStep s t) (k : StageStep t u) : StageStep s u where
  on := h.on.trans k.on
  grps := k.grps.trans h.grps
  map n hn := ⟨(k.map n hn).1.trans (h.map n hn).1, (k.map n hn).2.trans (h.map n hn).2⟩
  volts g hg := (k.volts g hg).trans (h.volts g hg)
  nmin g hg := (k.nmin g hg).trans (h.nmin g hg)
  cur n := (k.cur n).trans (h.cur n)

theorem grp (h : StageStep s t) (g : Nat) : Machine.grp t g = Machine.grp s g := by
  unfold Machine.grp
  rw [h.grps]

theorem stagesOf (h : StageStep s t) (g : Nat) : Machine.stagesOf t g = Machine.stagesOf s g := stagesOf_congr g h.map

theorem foldl {α : Type} {step : State → α → State} {l : List α} (hstep : ∀ t x, x ∈ l → StageStep t (step t x)) (s : State) : StageStep s (l.foldl step s) := by
  induction l generalizing s with
  | nil => exact refl s
  | cons x l ih => exact (hstep s x List.mem_cons_self).trans (ih (fun t y hy => hstep t y (List.mem_cons_of_mem x hy)) (step s x))

/-- A change of what the controller holds of its stages, but for their currents. -/
theorem updStg (s : State) (n : Nat) (h : Stage → Stage) (hcur : (h (stg s n)).cur = (stg s n).cur) : StageStep s (updStg s n h) :=
  ⟨onVpm_updStg s n h, rfl, fun _ _ => ⟨rfl, rfl⟩, fun _ _ => rfl, fun _ _ => rfl, fun m => stg_updStg_proj (·.cur) s n m h hcur⟩

/-- A field of a stage above its place in the stage map. -/
theorem fset_stage {n : Nat} (hn : n < 48) (s : State) {hi lo : Nat} (v : Nat) (hh : hi < 64) (hlo : 3 < lo) : StageStep s (fset s ⟨VP_STAGE n, hi, lo⟩ v) where
  on := (OnVpm.refl _ s).fset (x := ⟨VP_STAGE n, hi, lo⟩) (isVpmMoved_stage hn) v
  grps := rfl
  map _ _ := ⟨fget_fset_above s _ _ v hh hlo, fget_fset_above s _ _ v hh (Nat.lt_of_succ_lt hlo)⟩
  volts g _ := fget_fset_addr s ⟨VP_STAGE n, hi, lo⟩ _ v (stage_ne_grpStat hn g)
  nmin g _ := fget_fset_addr s ⟨VP_STAGE n, hi, lo⟩ _ v (stage_ne_grpStat hn g)
  cur _ := rfl

/-- A field of a group's status but for its voltage and NMIN. -/
theorem fset_grpStat {g : Nat} (hg : g < 8) (s : State) {hi lo : Nat} (v : Nat) (hh : hi < 64) (hlo : hi < 16 ∨ 29 < lo ∧ hi < 44 ∨ 49 < lo) : StageStep s (fset s ⟨VP_GRP_STAT g, hi, lo⟩ v) where
  on := (OnVpm.refl _ s).fset (x := ⟨VP_GRP_STAT g, hi, lo⟩) (isVpmMoved_grpStat hg) v
  grps := rfl
  map _ hn := ⟨fget_fset_addr s ⟨VP_GRP_STAT g, hi, lo⟩ _ v (stage_ne_grpStat hn g).symm, fget_fset_addr s ⟨VP_GRP_STAT g, hi, lo⟩ _ v (stage_ne_grpStat hn g).symm⟩
  volts h _ := fget_fset_disj s ⟨VP_GRP_STAT g, hi, lo⟩ (VP_GRP_STAT_V h) v hh (by show 29 < lo ∨ hi < 16; omega)
  nmin h _ := fget_fset_disj s ⟨VP_GRP_STAT g, hi, lo⟩ (VP_GRP_STAT_NMIN h) v hh (by show 49 < lo ∨ hi < 44; omega)
  cur _ := rfl

theorem raiseD (s : State) (c : Nat) (w : Option Nat) (d i : Nat) : StageStep s (raiseD s c w d i) where
  on := (OnVpm.refl _ s).raiseD c w d i
  grps := by rw [raiseD_vpm]
  map _ _ := ⟨fget_congr (raiseD_member ..) (raiseD_regs ..) _, fget_congr (raiseD_member ..) (raiseD_regs ..) _⟩
  volts _ _ := fget_congr (raiseD_member ..) (raiseD_regs ..) _
  nmin _ _ := fget_congr (raiseD_member ..) (raiseD_regs ..) _
  cur _ := by unfold stg; rw [raiseD_vpm]

theorem capture (s : State) (cause n g st : Nat) : StageStep s (capture s cause n g st) := by
  obtain ⟨r, -, -, -, hvpm⟩ := capture_vpm s cause n g st
  have hon := onLastf_capture s cause n g st
  generalize Machine.capture s cause n g st = t at hvpm hon
  refine ⟨hon.mono fun _ => isVpmMoved_lastf, by rw [hvpm], fun m hm => ⟨?_, ?_⟩, fun h hh => ?_, fun h hh => ?_, fun m => ?_⟩
  · exact hon.fget (x := VP_STAGE_IMG_EN m) (not_isLastf_stage hm)
  · exact hon.fget (x := VP_STAGE_GROUP m) (not_isLastf_stage hm)
  · exact hon.fget (x := VP_GRP_STAT_V h) (not_isLastf_grpStat hh)
  · exact hon.fget (x := VP_GRP_STAT_NMIN h) (not_isLastf_grpStat hh)
  · unfold stg
    rw [hvpm]

theorem grpCount (s : State) {g : Nat} (hg : g < 8) : StageStep s (grpCount s g) := by
  have hcount : StageStep s (fset (fset s (VP_GRP_STAT_N_SERV g) (servOf s g).length) (VP_GRP_STAT_N_ACT g) (actOf s g).length) :=
    (fset_grpStat hg s _ (by decide) (by decide)).trans (fset_grpStat hg _ _ (by decide) (by decide))
  unfold Machine.grpCount
  dsimp only
  split
  · exact (hcount.trans (raiseD _ _ _ _ _)).trans (capture _ _ _ _ _)
  · exact hcount

end StageStep

/-! #### A stage takes a state -/

theorem stg_grpCount (s : State) (g n : Nat) : stg (grpCount s g) n = stg s n := by
  unfold grpCount
  dsimp only
  split
  · obtain ⟨r, -, -, -, hvpm⟩ := capture_vpm (raiseD (fset (fset s (VP_GRP_STAT_N_SERV g) (servOf s g).length) (VP_GRP_STAT_N_ACT g) (actOf s g).length) (0xA0 + g) (some g) 0 0x43) 11 0xFF g 0
    unfold stg
    rw [hvpm, raiseD_vpm]
    rfl
  · rfl

theorem stSt_grpCount (s : State) {g : Nat} (hg : g < 8) (n : Nat) : stSt (grpCount s g) n = stSt s n := by
  unfold stSt
  split
  next hn => exact (onVpm_grpCount s hg).fget (x := VP_STAGE_STATE n) (not_isVpmShown_stage hn)
  next => rfl

section
variable (s : State) {n : Nat} (hn : n < 48) (st : Nat)
include hn

theorem StageStep.stageSet : StageStep s (stageSet s n st) := by
  have hstate := StageStep.fset_stage hn s (hi := 6) (lo := 4) st (by decide) (by decide)
  unfold Machine.stageSet
  dsimp only
  split
  · refine (hstate.trans ((fset_stage hn _ _ (by decide) (by decide)).trans (fset_stage hn _ _ (by decide) (by decide)))).trans (updStg _ _ _ rfl)
  · refine hstate.trans (updStg _ _ _ ?_)
    split <;> rfl

theorem StageStep.setSt : StageStep s (setSt s n st) := by
  rw [setSt_eq]
  exact (stageSet s hn st).trans (grpCount _ (group_lt s n))

/-- A stage shows the state that it is set to, and the others keep theirs. -/
theorem stSt_setSt (hst : st < 8) (m : Nat) : stSt (setSt s n st) m = if m = n then st else stSt s m := by
  have hid : VP_STAGE n ≠ RZ_ID := by unfold VP_STAGE RZ_ID; omega
  have hset : fget (stageSet s n st) (VP_STAGE_STATE m) = fget (fset s (VP_STAGE_STATE n) st) (VP_STAGE_STATE m) := by
    unfold stageSet
    dsimp only
    split
    · rw [fget_updStg, fget_fset_above _ _ _ _ (by decide) (by decide), fget_fset_above _ _ _ _ (by decide) (by decide)]
    · rfl
  rw [setSt_eq, stSt_grpCount _ (group_lt s n)]
  by_cases hm : m = n
  · subst hm
    unfold stSt
    rw [if_pos hn, if_pos rfl, hset, fget_fset_same s (VP_STAGE_STATE m) st hid (show 6 < 64 by decide)]
    exact Nat.mod_eq_of_lt hst
  · rw [if_neg hm]
    refine stSt_congr (hset.trans (fget_fset_addr s (VP_STAGE_STATE n) (VP_STAGE_STATE m) st ?_))
    show 0x40000 + 8 * m ≠ 0x40000 + 8 * n
    omega

end

theorem stg_setSt_ne (s : State) {n m : Nat} (st : Nat) (hm : m ≠ n) : stg (setSt s n st) m = stg s m := by
  rw [setSt_eq, stg_grpCount]
  unfold stageSet
  dsimp only
  rw [stg_updStg_ne _ _ hm]
  split <;> rfl

theorem stSt_foldl_setSt {l : List Nat} (hl : ∀ n ∈ l, n < 48) {st : Nat} (hst : st < 8) (s : State) (m : Nat) :
    stSt (l.foldl (fun t n => setSt t n st) s) m = if m ∈ l then st else stSt s m := by
  induction l generalizing s with
  | nil => simp
  | cons n l ih =>
    obtain ⟨hn, hl⟩ := List.forall_mem_cons.mp hl
    rw [List.foldl_cons, ih hl, stSt_setSt s hn st hst]
    by_cases hm : m = n <;> simp [hm]

/-! #### Stages become active at a period start (R200, R201) -/

/-- A stage that has passed its check and whose fault line is high becomes active. -/
def checkedIn (t : State) (n : Nat) : State := if stSt t n = 1 ∧ (stg t n).ready = true ∧ (stg t n).flt = false then setSt t n 2 else t

theorem stepChecked (s : State) {n : Nat} (hn : n < 48) : StageStep s (checkedIn s n) := by
  unfold checkedIn
  split
  · exact .setSt s hn 2
  · exact .refl s

theorem checkedIn_ne (s : State) {n m : Nat} (hn : n < 48) (hm : m ≠ n) : stSt (checkedIn s n) m = stSt s m ∧ stg (checkedIn s n) m = stg s m := by
  unfold checkedIn
  split
  · exact ⟨(stSt_setSt s hn 2 (by decide) m).trans (if_neg hm), stg_setSt_ne s 2 hm⟩
  · exact ⟨rfl, rfl⟩

theorem stSt_foldl_checkedIn {l : List Nat} (hl : ∀ n ∈ l, n < 48) (s : State) (m : Nat) :
    stSt (l.foldl checkedIn s) m = if m ∈ l ∧ stSt s m = 1 ∧ (stg s m).ready = true ∧ (stg s m).flt = false then 2 else stSt s m := by
  induction l generalizing s with
  | nil => simp
  | cons n l ih =>
    obtain ⟨hn, hl⟩ := List.forall_mem_cons.mp hl
    rw [List.foldl_cons, ih hl]
    by_cases hm : m = n
    · subst hm
      by_cases hpass : stSt s m = 1 ∧ (stg s m).ready = true ∧ (stg s m).flt = false
      · have h2 : stSt (checkedIn s m) m = 2 := by
          unfold checkedIn
          rw [if_pos hpass, stSt_setSt s hn 2 (by decide), if_pos rfl]
        rw [h2, ite_self, if_pos ⟨List.mem_cons_self, hpass⟩]
      · have hsame : checkedIn s m = s := if_neg hpass
        rw [hsame, if_neg fun h => hpass h.2, if_neg fun h => hpass h.2]
    · obtain ⟨hst, hstg⟩ := checkedIn_ne s hn hm
      simp only [hst, hstg, List.mem_cons, hm, false_or]

theorem activate_eq (s : State) (g : Nat) : ∃ l : List Nat, (∀ n ∈ l, n < 48 ∧ stSt ((stagesOf s g).foldl checkedIn s) n = 3) ∧
    activate s g = l.foldl (fun t n => setSt t n 2) ((stagesOf s g).foldl checkedIn s) := by
  refine ⟨_, fun n hn => ?_, rfl⟩
  obtain ⟨hmem, hst⟩ := List.mem_filter.mp (List.mem_of_mem_take hn)
  exact ⟨lt_of_mem_stagesOf hmem, eq_of_beq hst⟩

theorem StageStep.activate (s : State) (g : Nat) : StageStep s (activate s g) := by
  obtain ⟨l, hl, heq⟩ := activate_eq s g
  rw [heq]
  exact (foldl (fun t n hn => stepChecked t (lt_of_mem_stagesOf hn)) s).trans (foldl (fun t n hn => .setSt t (hl n hn).1 2) _)

/-- An active stage stays active, and one that has passed its check becomes so; one that is disabled, in a hiccup, locked out or off stays so. -/
theorem stSt_activate (s : State) {g n : Nat} (hn : n ∈ stagesOf s g) :
    (stSt s n = 1 ∧ (stg s n).ready = true ∧ (stg s n).flt = false ∨ stSt s n = 2 → stSt (activate s g) n = 2) ∧ (stSt s n ∈ [0, 4, 5, 6] → stSt (activate s g) n = stSt s n) := by
  obtain ⟨l, hl, heq⟩ := activate_eq s g
  have hfirst := stSt_foldl_checkedIn (fun m hm => lt_of_mem_stagesOf hm) s n (l := stagesOf s g)
  rw [heq, stSt_foldl_setSt (fun m hm => (hl m hm).1) (by decide)]
  refine ⟨fun h => ?_, fun h => ?_⟩
  · split
    · rfl
    · rw [hfirst]
      split
      · rfl
      next hnot => exact h.resolve_left fun hpass => hnot ⟨hn, hpass⟩
  · have hsame : stSt ((stagesOf s g).foldl checkedIn s) n = stSt s n := by
      rw [hfirst, if_neg]
      rintro ⟨-, h1, -⟩
      rw [h1] at h
      exact absurd h (by decide)
    rw [if_neg, hsame]
    intro hmem
    rw [← hsame, (hl n hmem).2] at h
    exact absurd h (by decide)

end Sys2Proof.Machine
end

section
/-! The period start of a supply group (R194 to R197, R200 to R202, R211). -/
namespace Sys2Proof.Machine
open Sys2Proof.Claims

/-! #### The parts of a period start -/

/-- The period in progress has ended, and the means of the rail and of the stages are taken. -/
def meansTaken (s : State) (k v : Nat) (cur : List (BitVec 32)) : State :=
  let s1 := fset (endPeriod s k) (VP_GRP_STAT_V k) v
  (stagesOf s1 k).foldl (fun t n => updStg t n fun x => { x with cur := (cur.getD n 0).toInt }) s1

/-- Written words are in force (R211). -/
def wordsTaken (s : State) (k : Nat) : State := updGrp s k fun x => { x with inForce := [], armed := x.armed || !x.firing }

/-- The period is formed. -/
def periodFormed (s : State) (k v : Nat) (cur : List (BitVec 32)) : State := periodUpdate (wordsTaken (meansTaken s k v cur) k) k

/-- Diode emulation and the trims follow. -/
def trimsFormed (s : State) (k : Nat) : State :=
  if deNow s k then fsetB s (VP_GRP_STAT_DE k) (deNow s k) else trimUpdate (fsetB s (VP_GRP_STAT_DE k) (deNow s k)) k

/-- The active stages run the whole of the period. -/
def markFull (s : State) (k : Nat) : State := (actOf s k).foldl (fun t n => updStg t n fun x => { x with full := true }) s

/-- The state from which the duty is formed. -/
def beforeDuty (s : State) (k v : Nat) (cur : List (BitVec 32)) : State := markFull (activate (trimsFormed (periodFormed s k v cur) k) k) k

theorem exec_groupPeriodStart {s : State} {g : BitVec 3} {tt : BitVec 16} (v : BitVec 14) (cur : List (BitVec 32)) (hstart : (grp s g.toNat).started = true) (hdue : startDue s g.toNat tt.toNat = true) :
    exec (.groupPeriodStart ⟨g, tt⟩ v cur) s = nextOf s (placeEdges (dutyUpdate (beforeDuty s g.toNat v.toNat cur) g.toNat) g.toNat) := by
  refine congrArg (nextOf s) (if_neg ?_)
  rw [hstart, hdue]
  decide

/-! #### What is in force when the period has been formed -/

/-- A period of group k has been formed from v and the stage currents: what the duty is formed from. -/
structure PeriodFormed (s : State) (k v : Nat) (cur : List (BitVec 32)) (u : State) : Prop where
  on : OnVpm IsVpmMoved s u
  volt : fget u (VP_GRP_STAT_V k) = v
  others : ∀ h, h ≠ k → grp u h = grp s h
  inForce : (grp u k).inForce = []
  vref : (grp u k).vref = (grp s k).vref
  acc : (grp u k).acc = (grp s k).acc
  dPrev : (grp u k).dPrev = (grp s k).dPrev
  period : fget s (VP_GRP_PWM_SYNC_EN k) = 0 → (grp u k).period = fget s (VP_GRP_PWM_PERIOD k)
  cur : ∀ n ∈ stagesOf s k, (stg u n).cur = (cur.getD n 0).toInt

theorem PeriodFormed.step {s u w : State} {k v : Nat} {cur : List (BitVec 32)} (hk : k < 8) (h : PeriodFormed s k v cur u) (hw : StageStep u w) : PeriodFormed s k v cur w where
  on := h.on.trans hw.on
  volt := (hw.volts k hk).trans h.volt
  others j hj := (hw.grp j).trans (h.others j hj)
  inForce := by rw [hw.grp, h.inForce]
  vref := by rw [hw.grp, h.vref]
  acc := by rw [hw.grp, h.acc]
  dPrev := by rw [hw.grp, h.dPrev]
  period := by rw [hw.grp]; exact h.period
  cur n hn := (hw.cur n).trans (h.cur n hn)

/-- What the activation of a stage turns on is as it was. -/
def ChecksKept (s t : State) : Prop := ∀ n, stSt t n = stSt s n ∧ (stg t n).ready = (stg s n).ready ∧ (stg t n).flt = (stg s n).flt

theorem ChecksKept.trans {s t u : State} (h : ChecksKept s t) (k : ChecksKept t u) : ChecksKept s u := fun n =>
  ⟨(k n).1.trans (h n).1, (k n).2.1.trans (h n).2.1, (k n).2.2.trans (h n).2.2⟩

/-- A field that lies above the place of STATE, in whichever register. -/
theorem checksKept_fset (s : State) (a : Nat) {hi lo : Nat} (v : Nat) (hh : hi < 64) (h : 6 < lo) : ChecksKept s (fset s ⟨a, hi, lo⟩ v) := fun n =>
  ⟨stSt_congr (fget_fset_above s a (VP_STAGE n) v hh h), rfl, rfl⟩

theorem onVpm_of_stages {p : Nat → Prop} {s t : State} (h : StagesOnly s t) : OnVpm p s t := by
  rw [h]
  exact .of_regs rfl rfl rfl rfl rfl rfl

theorem StagesOnly.fget {s t : State} (h : StagesOnly s t) (x : Fld) : Machine.fget t x = Machine.fget s x := by
  rw [h]
  rfl

theorem StagesOnly.grp {s t : State} (h : StagesOnly s t) (g : Nat) : Machine.grp t g = Machine.grp s g := by
  rw [h]
  rfl

theorem StagesOnly.stSt {s t : State} (h : StagesOnly s t) (n : Nat) : Machine.stSt t n = Machine.stSt s n := stSt_congr (h.fget _)

theorem StagesOnly.stagesOf {s t : State} (h : StagesOnly s t) (g : Nat) : Machine.stagesOf t g = Machine.stagesOf s g := stagesOf_congr g fun _ _ => ⟨h.fget _, h.fget _⟩

theorem StagesOnly.actOf {s t : State} (h : StagesOnly s t) (g : Nat) : Machine.actOf t g = Machine.actOf s g := by
  unfold Machine.actOf
  rw [h.stagesOf]
  exact List.filter_congr fun n _ => by rw [h.stSt]

/-! #### The means (R196, R205) -/

section
variable (s : State) {k v : Nat} (cur : List (BitVec 32))

theorem stages_endPeriod (k : Nat) : StagesOnly s (endPeriod s k) := .foldl (fun t n => .updStg t n _) _ s

theorem stages_meansTaken : StagesOnly (fset (endPeriod s k) (VP_GRP_STAT_V k) v) (meansTaken s k v cur) := .foldl (fun t n => .updStg t n _) _ _

theorem onVpm_meansTaken (hk : k < 8) : OnVpm IsVpmMoved s (meansTaken s k v cur) :=
  ((onVpm_of_stages (stages_endPeriod s k)).fset (x := VP_GRP_STAT_V k) (isVpmMoved_grpStat hk) v).trans (onVpm_of_stages (stages_meansTaken s cur))

theorem grp_meansTaken (g : Nat) : grp (meansTaken s k v cur) g = grp s g := ((stages_meansTaken s cur).grp g).trans ((stages_endPeriod s k).grp g)

theorem volt_meansTaken (hv : v < 2 ^ 14) : fget (meansTaken s k v cur) (VP_GRP_STAT_V k) = v := by
  rw [(stages_meansTaken s cur).fget, fget_fset_same _ (VP_GRP_STAT_V k) v (show 0x40540 + 8 * k ≠ 0 by omega) (show 29 < 64 by decide)]
  exact Nat.mod_eq_of_lt hv

theorem stagesOf_ended (k v g : Nat) : stagesOf (fset (endPeriod s k) (VP_GRP_STAT_V k) v) g = stagesOf s g :=
  (stagesOf_congr g fun n _ => ⟨fget_fset_above _ _ _ v (by decide) (by decide), fget_fset_above _ _ _ v (by decide) (by decide)⟩).trans ((stages_endPeriod s k).stagesOf g)

theorem cur_meansTaken {n : Nat} (hn : n ∈ stagesOf s k) : (stg (meansTaken s k v cur) n).cur = (cur.getD n 0).toInt := by
  have hfold := stg_foldl_updStg (fun n x => { x with cur := (cur.getD n 0).toInt }) (nodup_stagesOf (fset (endPeriod s k) (VP_GRP_STAT_V k) v) k) (fset (endPeriod s k) (VP_GRP_STAT_V k) v) n
  rw [stagesOf_ended, if_pos hn, ← stagesOf_ended s k v k] at hfold
  exact congrArg (·.cur) hfold

theorem checksKept_endPeriod (k : Nat) : ChecksKept s (endPeriod s k) := fun n =>
  ⟨(stages_endPeriod s k).stSt n, stg_foldl_proj (·.ready) (fun t m _ => stg_updStg_proj (·.ready) t m _ _ rfl) _ s n, stg_foldl_proj (·.flt) (fun t m _ => stg_updStg_proj (·.flt) t m _ _ rfl) _ s n⟩

theorem checksKept_meansTaken : ChecksKept s (meansTaken s k v cur) := by
  refine ((checksKept_endPeriod s k).trans (checksKept_fset _ _ v (by decide) (by decide))).trans fun n => ⟨(stages_meansTaken s cur).stSt n, ?_, ?_⟩
  · exact stg_foldl_proj (·.ready) (fun t m _ => stg_updStg_proj (·.ready) t m _ _ rfl) _ _ n
  · exact stg_foldl_proj (·.flt) (fun t m _ => stg_updStg_proj (·.flt) t m _ _ rfl) _ _ n

end

/-! #### The period (R194) -/

/-- What the loop of a group holds from one period to the next, and the words that are not in force yet. -/
def loopView (x : Grp) : Nat × Int × Int × Tbl Nat := (x.vref, x.acc, x.dPrev, x.inForce)

theorem periodUpdate_eq (s : State) {g : Nat} (hg : g < 8) : ∃ (w : State) (x : Grp), StageStep s w ∧ ChecksKept s w ∧
    (gcfg s g 0 (VP_GRP_PWM_SYNC_EN g) = 0 → x.period = gcfg s g 0 (VP_GRP_PWM_PERIOD g)) ∧ loopView x = loopView (grp s g) ∧ periodUpdate s g = setGrp w g x := by
  unfold periodUpdate updGrp
  simp only [grp_fsetB]
  refine ⟨_, _, ?_, ?_, fun h => ?_, ?_, rfl⟩
  · exact (StageStep.fset_grpStat hg s _ (by decide) (by decide)).trans (.fset_grpStat hg _ _ (by decide) (by decide))
  · exact (checksKept_fset s _ _ (by decide) (by decide)).trans (checksKept_fset _ _ _ (by decide) (by decide))
  · unfold syncOn
    rw [h]
    rfl
  · rfl

theorem PeriodFormed.of_means {s m w : State} {k v : Nat} {cur : List (BitVec 32)} {x : Grp} (hk : k < 8) (hon : OnVpm IsVpmMoved s m) (hmeans : ∀ g, grp m g = grp s g)
    (hvolt : fget m (VP_GRP_STAT_V k) = v) (hcur : ∀ n ∈ stagesOf s k, (stg m n).cur = (cur.getD n 0).toInt) (hw : StageStep (wordsTaken m k) w)
    (hp : gcfg (wordsTaken m k) k 0 (VP_GRP_PWM_SYNC_EN k) = 0 → x.period = gcfg (wordsTaken m k) k 0 (VP_GRP_PWM_PERIOD k)) (hx : loopView x = loopView (grp (wordsTaken m k) k)) :
    PeriodFormed s k v cur (setGrp w k x) := by
  have hgrp : grp (setGrp w k x) k = x := tget_tset_same _ _ _ _
  have htaken : grp (wordsTaken m k) k = { grp m k with inForce := [], armed := (grp m k).armed || !(grp m k).firing } := grp_updGrp_same _ _ _
  have hcfg : ∀ hi lo, gcfg (wordsTaken m k) k 0 ⟨VP_GRP_PWM k, hi, lo⟩ = fget s ⟨VP_GRP_PWM k, hi, lo⟩ := fun hi lo =>
    (gcfg_of_nil _ _ (by rw [htaken])).trans (hon.fget (x := ⟨VP_GRP_PWM k, hi, lo⟩) (not_isVpmMoved_config (.inl (by show _ ≤ 0x40400 + 8 * k ∧ 0x40400 + 8 * k < _; omega))))
  rw [hcfg, hcfg] at hp
  rw [htaken, hmeans] at hx
  obtain ⟨hvref, hacc, hdPrev, hforce⟩ : x.vref = (grp s k).vref ∧ x.acc = (grp s k).acc ∧ x.dPrev = (grp s k).dPrev ∧ x.inForce = [] := by
    simpa only [loopView, Prod.mk.injEq] using hx
  refine ⟨((hon.trans (onVpm_updGrp m k _)).trans hw.on).trans (.of_regs rfl rfl rfl rfl rfl rfl), (hw.volts k hk).trans hvolt, fun h hh => ?_, ?_, ?_, ?_, ?_, fun h => ?_, fun n hn => (hw.cur n).trans (hcur n hn)⟩
  · exact (tget_tset_ne _ _ _ _ _ hh).trans ((hw.grp h).trans ((grp_updGrp_ne m _ hh).trans (hmeans h)))
  · rw [hgrp, hforce]
  · rw [hgrp, hvref]
  · rw [hgrp, hacc]
  · rw [hgrp, hdPrev]
  · rw [hgrp, hp h]

theorem periodFormed_spec (s : State) {k v : Nat} (cur : List (BitVec 32)) (hk : k < 8) (hv : v < 2 ^ 14) :
    PeriodFormed s k v cur (periodFormed s k v cur) ∧ ChecksKept s (periodFormed s k v cur) ∧ stagesOf (periodFormed s k v cur) k = stagesOf s k := by
  have hstages : stagesOf (meansTaken s k v cur) k = stagesOf s k := ((stages_meansTaken s cur).stagesOf k).trans (stagesOf_ended s k v k)
  obtain ⟨w, x, hw, hwc, hp, hx, heq⟩ := periodUpdate_eq (wordsTaken (meansTaken s k v cur) k) hk
  unfold periodFormed
  rw [heq]
  refine ⟨.of_means hk (onVpm_meansTaken s cur hk) (grp_meansTaken s cur) (volt_meansTaken s cur hv) (fun n hn => cur_meansTaken s cur hn) hw hp hx, ?_, ?_⟩
  · exact ((checksKept_meansTaken s cur).trans (fun _ => ⟨rfl, rfl, rfl⟩)).trans (hwc.trans fun _ => ⟨rfl, rfl, rfl⟩)
  · exact (stagesOf_congr (s := w) k fun _ _ => ⟨rfl, rfl⟩).trans ((hw.stagesOf k).trans ((stagesOf_congr (s := meansTaken s k v cur) k fun _ _ => ⟨rfl, rfl⟩).trans hstages))

/-! #### Trims, diode emulation and activation (R197, R200 to R202) -/

theorem ChecksKept.foldl {α : Type} {step : State → α → State} (h : ∀ t x, ChecksKept t (step t x)) (l : List α) (s : State) : ChecksKept s (l.foldl step s) := by
  induction l generalizing s with
  | nil => exact fun _ => ⟨rfl, rfl, rfl⟩
  | cons x l ih => exact (h s x).trans (ih (step s x))

theorem StageStep.trimUpdate (s : State) (g : Nat) : StageStep s (trimUpdate s g) := by
  unfold Machine.trimUpdate
  refine foldl (fun t n hn => ?_) s
  split
  · exact refl t
  · exact fset_stage (lt_of_mem_actOf (List.mem_filter.mp hn).1) t _ (by decide) (by decide)

theorem checksKept_trimUpdate (s : State) (g : Nat) : ChecksKept s (trimUpdate s g) := by
  unfold trimUpdate
  refine ChecksKept.foldl (fun t n => ?_) _ s
  split
  · exact fun _ => ⟨rfl, rfl, rfl⟩
  · exact checksKept_fset t _ _ (by decide) (by decide)

theorem trimsFormed_spec (s : State) {k : Nat} (hk : k < 8) : StageStep s (trimsFormed s k) ∧ ChecksKept s (trimsFormed s k) := by
  have hde := StageStep.fset_grpStat hk s (hi := 50) (lo := 50) (if deNow s k then 1 else 0) (by decide) (by decide)
  have hdc := checksKept_fset s (VP_GRP_STAT k) (hi := 50) (lo := 50) (if deNow s k then 1 else 0) (by decide) (by decide)
  unfold trimsFormed
  split
  · exact ⟨hde, hdc⟩
  · exact ⟨hde.trans (.trimUpdate _ k), hdc.trans (checksKept_trimUpdate _ k)⟩

theorem stages_markFull (s : State) (k : Nat) : StagesOnly s (markFull s k) := .foldl (fun t n => .updStg t n _) _ s

theorem StageStep.markFull (s : State) (k : Nat) : StageStep s (markFull s k) := by
  unfold Machine.markFull
  exact foldl (fun t n _ => updStg t n _ rfl) s

theorem beforeDuty_spec (s : State) {k v : Nat} (cur : List (BitVec 32)) (hk : k < 8) (hv : v < 2 ^ 14) : PeriodFormed s k v cur (beforeDuty s k v cur) ∧ ∀ n ∈ stagesOf s k,
    (stSt s n = 1 ∧ (stg s n).ready = true ∧ (stg s n).flt = false ∨ stSt s n = 2 → stSt (beforeDuty s k v cur) n = 2) ∧ (stSt s n ∈ [0, 4, 5, 6] → stSt (beforeDuty s k v cur) n = stSt s n) := by
  obtain ⟨hformed, hchecks, hstages⟩ := periodFormed_spec s cur hk hv
  unfold beforeDuty
  generalize periodFormed s k v cur = u at *
  obtain ⟨htrims, htc⟩ := trimsFormed_spec u hk
  have hall := hchecks.trans htc
  have hmem := (htrims.stagesOf k).trans hstages
  generalize trimsFormed u k = w at *
  have hstep : StageStep w (markFull (activate w k) k) := (StageStep.activate w k).trans (.markFull _ k)
  refine ⟨(hformed.step hk htrims).step hk hstep, fun n hn => ?_⟩
  obtain ⟨hst, hready, hflt⟩ := hall n
  have hact := stSt_activate w (by rw [hmem]; exact hn : n ∈ stagesOf w k)
  rw [hst, hready, hflt] at hact
  rw [(stages_markFull _ k).stSt]
  exact hact

/-! #### The duty (R196) -/

/-- e of R196, in codes. -/
def errNow (s : State) (g : Nat) : Int := ((grp s g).vref / 256 : Nat) - (fget s (VP_GRP_STAT_V g) : Int)

/-- The integrator after this period: it holds at a limit that the error would push it past. -/
def accNext (s : State) (g : Nat) : Int :=
  if ¬ ((grp s g).dPrev ≥ (gcfg s g 1 (VP_GRP_LOOP_DMAX g) : Int) * 256 ∧ errNow s g > 0) ∧ ¬ ((grp s g).dPrev ≤ 0 ∧ errNow s g < 0) then (grp s g).acc + gcfg s g 1 (VP_GRP_LOOP_KI g) * errNow s g
  else (grp s g).acc

/-- The duty of this period. -/
def dutyNext (s : State) (g : Nat) : Int :=
  clampInt 0 ((gcfg s g 1 (VP_GRP_LOOP_DMAX g) : Int) * 256) (((grp s g).vref / 256 * 16384 / vinMv s : Nat) + gcfg s g 1 (VP_GRP_LOOP_KP g) * errNow s g + accNext s g)

theorem dutyUpdate_stages (s : State) (g : Nat) (hv : vinMv s ≠ 0) :
    StagesOnly (updGrp s g fun y => { y with acc := accNext s g, dPrev := dutyNext s g }) (dutyUpdate s g) ∧ ∀ n, (stg (dutyUpdate s g) n).cur = (stg s n).cur := by
  unfold dutyUpdate
  dsimp only
  rw [if_neg hv, if_neg hv]
  refine ⟨.foldl (fun t n => .updStg t n _) _ _, fun n => ?_⟩
  exact (stg_foldl_proj (·.cur) (fun t m _ => stg_updStg_proj (·.cur) t m _ _ rfl) _ _ n)

/-! #### The edges (R195) -/

/-- A fold of updates over the places of a list of distinct stages gives each of them its own. -/
theorem stg_foldl_places (h : Nat → Stage → Stage) {l : List Nat} (hnd : l.Nodup) {m : Nat} (hm : m ≤ l.length) (s : State) {j : Nat} (hj : j < l.length) :
    stg ((List.range m).foldl (fun t i => updStg t (l.getD i 0) (h i)) s) (l.getD j 0) = if j < m then h j (stg s (l.getD j 0)) else stg s (l.getD j 0) := by
  induction m with
  | zero => rfl
  | succ m ih =>
    rw [List.range_succ, List.foldl_append]
    show stg (updStg _ (l.getD m 0) (h m)) _ = _
    by_cases hjm : j = m
    · subst hjm
      rw [stg_updStg_same, ih (by omega), if_neg (by omega), if_pos (by omega)]
    · have hne : l.getD j 0 ≠ l.getD m 0 := by
        rw [List.getD_eq_getElem l 0 hj, List.getD_eq_getElem l 0 (by omega)]
        exact fun he => hjm ((hnd.getElem_inj_iff).mp he)
      rw [stg_updStg_ne _ _ hne, ih (by omega)]
      by_cases hlt : j < m
      · rw [if_pos hlt, if_pos (by omega)]
      · rw [if_neg hlt, if_neg (by omega)]

theorem stages_placeEdges (s : State) (g : Nat) : StagesOnly s (placeEdges s g) := .foldl (fun t _ => .updStg t _ _) _ s

theorem cur_placeEdges (s : State) (g n : Nat) : (stg (placeEdges s g) n).cur = (stg s n).cur :=
  stg_foldl_proj (·.cur) (fun t _ _ => stg_updStg_proj (·.cur) t _ _ _ rfl) _ s n

theorem placeEdges_spec (s : State) (g : Nat) {j : Nat} (hj : j < (actOf (placeEdges s g) g).length) : let t := placeEdges s g; let x := stg t ((actOf t g).getD j 0)
    x.rise = j * (grp t g).period / (actOf t g).length ∧ x.width = (rne (x.duty * (grp t g).period : Nat) 65536).toNat := by
  have hst := stages_placeEdges s g
  rw [hst.actOf] at hj
  dsimp only
  rw [hst.actOf, hst.grp]
  have hx := stg_foldl_places (fun i x => { x with rise := i * (grp s g).period / (actOf s g).length, width := (rne (x.duty * (grp s g).period : Nat) 65536).toNat })
    (nodup_actOf s g) (Nat.le_refl _) s hj
  rw [if_pos hj] at hx
  have hplace : stg (placeEdges s g) ((actOf s g).getD j 0) = _ := hx
  rw [hplace]
  dsimp only
  exact ⟨rfl, rfl⟩

end Sys2Proof.Machine
end

section
/-! Events of a supply group: period starts (R194 to R196, R211). -/
namespace Sys2Proof.Machine
open Sys2Proof.Claims

/-! #### Period starts -/

section
variable {s u : State} {k v : Nat} {cur : List (BitVec 32)}

/-- A configured value by which a formed period runs is the one that its register holds (R211). -/
theorem PeriodFormed.gcfg (h : PeriodFormed s k v cur u) (hk : k < 8) (j hi lo : Nat) : Machine.gcfg u k j ⟨VP_GRP_LOOP k, hi, lo⟩ = fget s ⟨VP_GRP_LOOP k, hi, lo⟩ := by
  rw [gcfg_of_nil _ _ h.inForce]
  refine h.on.fget (x := ⟨VP_GRP_LOOP k, hi, lo⟩) (not_isVpmMoved_config (.inl ?_))
  show _ ≤ 0x40440 + 8 * k ∧ 0x40440 + 8 * k < _
  omega

theorem PeriodFormed.errNow (h : PeriodFormed s k v cur u) : Machine.errNow u k = ((grp s k).vref / 256 : Nat) - (v : Int) := by
  unfold Machine.errNow
  rw [h.vref, h.volt]

theorem PeriodFormed.accNext (h : PeriodFormed s k v cur u) (hk : k < 8) : let e : Int := ((grp s k).vref / 256 : Nat) - (v : Int)
    let dmax : Int := (256 * fget s (VP_GRP_LOOP_DMAX k) : Nat)
    Machine.accNext u k = (if ¬ (dmax ≤ (grp s k).dPrev ∧ 0 < e) ∧ ¬ ((grp s k).dPrev ≤ 0 ∧ e < 0) then (grp s k).acc + fget s (VP_GRP_LOOP_KI k) * e else (grp s k).acc) := by
  unfold Machine.accNext
  rw [h.gcfg hk, h.gcfg hk, h.errNow, h.dPrev, h.acc, mul_comm _ (256 : Int)]
  rfl

theorem PeriodFormed.dutyNext (h : PeriodFormed s k v cur u) (hk : k < 8) : Machine.dutyNext u k =
    clampInt 0 (256 * fget s (VP_GRP_LOOP_DMAX k) : Nat) (((grp s k).vref / 256 * 16384 / vinMv s : Nat) + fget s (VP_GRP_LOOP_KP k) * (((grp s k).vref / 256 : Nat) - (v : Int)) + Machine.accNext u k) := by
  unfold Machine.dutyNext
  rw [h.gcfg hk, h.gcfg hk, h.errNow, h.vref, mul_comm _ (256 : Int), show vinMv u = vinMv s from h.on.fget (x := VP_VIN_STAT_VIN) (not_isVpmMoved_config (by decide))]
  rfl

end

theorem gives_groupPeriodStart {s : State} {g : BitVec 3} {tt : BitVec 16} (v : BitVec 14) (cur : List (BitVec 32)) (hstart : (grp s g.toNat).started = true) (hdue : startDue s g.toNat tt.toNat = true)
    (hvin : vinMv s ≠ 0) : let k := g.toNat
  Gives (.groupPeriodStart ⟨g, tt⟩ v cur) s fun t =>
    let e : Int := ((grp s k).vref / 256 : Nat) - (v.toNat : Int)
    let dmax : Int := (256 * fget s (VP_GRP_LOOP_DMAX k) : Nat)
    fget t (VP_GRP_STAT_V k) = v.toNat ∧ (grp t k).inForce = [] ∧ (∀ n ∈ stagesOf s k, (stg t n).cur = (cur.getD n 0).toInt) ∧
    (∀ n ∈ stagesOf s k, (stSt s n = 1 ∧ (stg s n).ready = true ∧ (stg s n).flt = false ∨ stSt s n = 2 → stSt t n = 2) ∧ (stSt s n ∈ [0, 4, 5, 6] → stSt t n = stSt s n)) ∧
    (grp t k).acc = (if ¬ (dmax ≤ (grp s k).dPrev ∧ 0 < e) ∧ ¬ ((grp s k).dPrev ≤ 0 ∧ e < 0) then (grp s k).acc + fget s (VP_GRP_LOOP_KI k) * e else (grp s k).acc) ∧
    (grp t k).dPrev = clampInt 0 dmax (((grp s k).vref / 256 * 16384 / vinMv s : Nat) + fget s (VP_GRP_LOOP_KP k) * e + (grp t k).acc) ∧
    (fget s (VP_GRP_PWM_SYNC_EN k) = 0 → (grp t k).period = fget s (VP_GRP_PWM_PERIOD k)) ∧
    (∀ j, j < (actOf t k).length → let x := stg t ((actOf t k).getD j 0)
      x.rise = j * (grp t k).period / (actOf t k).length ∧ x.width = (rne (x.duty * (grp t k).period : Nat) 65536).toNat) ∧
    (∀ h, h ≠ k → grp t h = grp s h) ∧ t.fronds = s.fronds := by
  have hk := g.isLt
  have hx := exec_groupPeriodStart v cur hstart hdue
  obtain ⟨hformed, hstates⟩ := beforeDuty_spec s cur hk v.isLt
  have hedges := fun j hj => placeEdges_spec (dutyUpdate (beforeDuty s g.toNat v.toNat cur) g.toNat) g.toNat (j := j) hj
  generalize beforeDuty s g.toNat v.toNat cur = u at hx hformed hstates hedges
  have hvin' : vinMv u ≠ 0 := by
    rwa [show vinMv u = vinMv s from hformed.on.fget (x := VP_VIN_STAT_VIN) (not_isVpmMoved_config (by decide))]
  obtain ⟨hd, hdcur⟩ := dutyUpdate_stages u g.toNat hvin'
  have hpl := stages_placeEdges (dutyUpdate u g.toNat) g.toNat
  have hpcur := cur_placeEdges (dutyUpdate u g.toNat) g.toNat
  generalize placeEdges (dutyUpdate u g.toNat) g.toNat = t at hx hedges hpl hpcur
  generalize dutyUpdate u g.toNat = d at hd hdcur hpl hpcur
  have hgrp : grp t g.toNat = { grp u g.toNat with acc := accNext u g.toNat, dPrev := dutyNext u g.toNat } := by
    rw [hpl.grp, hd.grp, grp_updGrp_same]
  have hon : OnVpm IsVpmMoved s t := ((hformed.on.trans (onVpm_updGrp u g.toNat _)).trans (onVpm_of_stages hd)).trans (onVpm_of_stages hpl)
  refine gives_of_exec hx hon.member hon.pending ⟨?_, ?_, fun n hn => ?_, fun n hn => ?_, ?_, ?_, fun h => ?_, hedges, fun h hh => ?_, hon.fronds⟩
  · rw [hpl.fget, hd.fget, fget_updGrp, hformed.volt]
  · rw [hgrp, hformed.inForce]
  · rw [hpcur, hdcur, hformed.cur n hn]
  · rw [hpl.stSt, hd.stSt]
    exact hstates n hn
  · rw [hgrp]
    exact hformed.accNext hk
  · rw [hgrp]
    exact hformed.dutyNext hk
  · rw [hgrp]
    exact hformed.period h
  · rw [hpl.grp, hd.grp, grp_updGrp_ne u _ hh, hformed.others h hh]

theorem startDue_of_free {s : State} {k : Nat} (h : syncOn s k = false) (tt : Nat) :
    startDue s k tt = decide (if (grp s k).first = true then phaseDelay s k ≤ tt else (grp s k).period ≤ tt) := by
  unfold startDue
  rw [h]
  cases hf : (grp s k).first <;> simp [hf]

theorem gives_groupPeriodStart_off {s : State} {g : BitVec 3} (h : (grp s g.toNat).started = false) (tt : BitVec 16) (v : BitVec 14) (cur : List (BitVec 32)) :
    Gives (.groupPeriodStart ⟨g, tt⟩ v cur) s fun t => t = s :=
  gives_of_exec (congrArg (nextOf s) (if_pos (.inl h))) rfl rfl rfl

end Sys2Proof.Machine
end

section
/-! Events of a supply group: SYNC_IN and the slew of VREF (R194, R198, R199). -/
namespace Sys2Proof.Machine
open Sys2Proof.Claims

/-! #### One group of a fold over all -/

theorem grpStat_ne {g k : Nat} (h : k ≠ g) : VP_GRP_STAT k ≠ VP_GRP_STAT g := by
  show 0x40540 + 8 * k ≠ 0x40540 + 8 * g
  omega

/-- A step of the controller that leaves group k alone. -/
structure GroupKept (k : Nat) (s t : State) : Prop where
  on : OnVpm IsVpmMoved s t
  grp : Machine.grp t k = Machine.grp s k
  volt : fget t (VP_GRP_STAT_V k) = fget s (VP_GRP_STAT_V k)

namespace GroupKept
variable {k : Nat} {s t u : State}

theorem refl (k : Nat) (s : State) : GroupKept k s s := ⟨.refl _ s, rfl, rfl⟩

theorem trans (h : GroupKept k s t) (j : GroupKept k t u) : GroupKept k s u := ⟨h.on.trans j.on, j.grp.trans h.grp, j.volt.trans h.volt⟩

theorem gcfg (h : GroupKept k s t) (j : Nat) {x : Fld} (hx : 0x40400 ≤ x.addr ∧ x.addr < 0x40540) : Machine.gcfg t k j x = Machine.gcfg s k j x :=
  gcfg_congr j h.grp (h.on.reg _ (not_isVpmMoved_config (.inl hx)))

/-- A change of another group. -/
theorem updGrp (s : State) {g : Nat} (hne : g ≠ k) (h : Grp → Grp) : GroupKept k s (updGrp s g h) := ⟨onVpm_updGrp s g h, grp_updGrp_ne s h hne.symm, rfl⟩

/-- A field of another group's status. -/
theorem fset (s : State) {g : Nat} (hg : g < 8) (hne : g ≠ k) (hi lo v : Nat) : GroupKept k s (fset s ⟨VP_GRP_STAT g, hi, lo⟩ v) :=
  ⟨(OnVpm.refl _ s).fset (x := ⟨VP_GRP_STAT g, hi, lo⟩) (isVpmMoved_grpStat hg) v, rfl, fget_fset_addr s ⟨VP_GRP_STAT g, hi, lo⟩ _ v (grpStat_ne hne.symm)⟩

/-- A step on stages. -/
theorem of_step (hk : k < 8) (h : StageStep s t) : GroupKept k s t := ⟨h.on, h.grp k, h.volts k hk⟩

end GroupKept

/-- A fold over the eight groups, seen at group k. -/
theorem foldl_groups_at {step : State → Nat → State} {k : Nat} (hk : k < 8) (h : ∀ t g, g < 8 → g ≠ k → GroupKept k t (step t g)) (s : State) :
    ∃ a, GroupKept k s a ∧ GroupKept k (step a k) ((List.range 8).foldl step s) :=
  foldl_at (R := GroupKept k) (GroupKept.refl k) GroupKept.trans (List.mem_range.mpr hk) List.nodup_range (fun t g hg hne => h t g (List.mem_range.mp hg) hne) s

/-! #### SYNC_IN -/

theorem groups_syncCount (s : State) (c : Nat) : GroupsOnly s (syncCount s c) := by
  refine .foldl (fun t g => ?_) _ s
  split
  · exact .updGrp t g _
  · rfl

/-- A group whose divided count an edge completes is due (R194). -/
theorem due_syncCount (s : State) {c k : Nat} (hk : k < 8) (h : c % 2 ^ gcfg s k 0 (VP_GRP_PWM_SDIV k) = 0) : (grp (syncCount s c) k).due = true := by
  obtain ⟨a, ha, hend⟩ := foldl_groups_at (step := fun t g => if c % 2 ^ gcfg t g 0 (VP_GRP_PWM_SDIV g) = 0 then updGrp t g fun x => { x with due := true } else t) hk (fun t g _ hne => by
    split
    · exact .updGrp t hne _
    · exact .refl k t) s
  have hcfg : c % 2 ^ gcfg a k 0 (VP_GRP_PWM_SDIV k) = 0 := by
    rw [ha.gcfg 0 (by show _ ≤ 0x40400 + 8 * k ∧ 0x40400 + 8 * k < _; omega), h]
  unfold syncCount
  rw [hend.grp, if_pos hcfg, grp_updGrp_same]

/-- The period of an edge is shown, and the controller holds y of SYNC_IN. -/
def edgeShown (s : State) (p : Nat) (y : SyncIn) : State := { fset s VP_SYNC_STAT_PERIOD p with vpm := { s.vpm with sync := y } }

theorem fget_edgeShown (s : State) {p : Nat} (hp : p < 2 ^ 16) (y : SyncIn) : fget (edgeShown s p y) VP_SYNC_STAT_PERIOD = p :=
  (fget_fset_same s VP_SYNC_STAT_PERIOD p (by decide) (by decide)).trans (Nat.mod_eq_of_lt hp)

theorem lock_edgeShown (s : State) (p : Nat) (y : SyncIn) : flag (edgeShown s p y) VP_SYNC_STAT_LOCK = flag s VP_SYNC_STAT_LOCK :=
  flag_congr_fget (fget_fset_disj s VP_SYNC_STAT_PERIOD VP_SYNC_STAT_LOCK p (by decide) (by decide))

theorem gives_syncInEdge_held {s : State} {p : BitVec 16} {k : Nat} (hk : k < 8) (offs : List (BitVec 16)) (hlock : flag s VP_SYNC_STAT_LOCK = true)
    (hfit : 100 * ((p.toNat : Int) - s.vpm.sync.last).natAbs ≤ 5 * s.vpm.sync.last) : Gives (.syncInEdge ⟨p, offs⟩) s fun t => fget t VP_SYNC_STAT_PERIOD = p.toNat ∧
      flag t VP_SYNC_STAT_LOCK = true ∧ t.vpm.sync = { s.vpm.sync with last := p.toNat, count := s.vpm.sync.count + 1 } ∧
      ((s.vpm.sync.count + 1) % 2 ^ gcfg s k 0 (VP_GRP_PWM_SDIV k) = 0 → (grp t k).due = true) ∧ t.flt = s.flt := by
  obtain ⟨y, hy⟩ : ∃ y : SyncIn, y = { s.vpm.sync with last := p.toNat, count := s.vpm.sync.count + 1 } := ⟨_, rfl⟩
  have hx : exec (.syncInEdge ⟨p, offs⟩) s = nextOf s (syncCount (edgeShown s p.toNat y) (s.vpm.sync.count + 1)) := by
    rw [hy]
    exact congrArg (nextOf s) (if_pos (by rw [hlock, decide_eq_true hfit]; rfl))
  have hdue := fun h => due_syncCount (edgeShown s p.toNat y) (c := s.vpm.sync.count + 1) hk h
  have hrest := groups_syncCount (edgeShown s p.toNat y) (s.vpm.sync.count + 1)
  have hcfg : gcfg (edgeShown s p.toNat y) k 0 (VP_GRP_PWM_SDIV k) = gcfg s k 0 (VP_GRP_PWM_SDIV k) :=
    gcfg_congr (s := s) (t := edgeShown s p.toNat y) 0 rfl (reg_fset_ne s VP_SYNC_STAT_PERIOD p.toNat (VP_GRP_PWM k) (by show 0x40400 + 8 * k ≠ 0x40610; omega))
  rw [hcfg] at hdue
  generalize syncCount (edgeShown s p.toNat y) (s.vpm.sync.count + 1) = t at hx hdue hrest
  have hfget : ∀ x, fget t x = fget (edgeShown s p.toNat y) x := fun x => by
    rw [hrest]
    rfl
  refine gives_of_exec hx (by rw [hrest]; rfl) (by rw [hrest]; rfl) ⟨(hfget _).trans (fget_edgeShown s p.isLt y), ?_, by rw [hrest, ← hy]; rfl, hdue, by rw [hrest]; rfl⟩
  rw [flag_congr_fget (hfget _), lock_edgeShown, hlock]

/-- The registers after the lock is lost, before its record: LOCK and every SYNC read 0, and LOSSES counts. -/
def lockCleared (s : State) : State :=
  (List.range 8).foldl (fun t g => fsetB t (VP_GRP_STAT_SYNC g) false) (bump (fsetB { s with vpm := { s.vpm with sync := {} } } VP_SYNC_STAT_LOCK false) VP_SYNC_STAT_LOSSES)

theorem syncLost_eq (s : State) : syncLost s = capture (raiseD (lockCleared s) 0x95 none 0 0x43) 9 0xFF 0xFF 0 := rfl

/-- Only registers have changed. -/
def RegsOnly (s t : State) : Prop := t = { s with regs := t.regs }

theorem RegsOnly.foldl {α : Type} {step : State → α → State} (h : ∀ t x, RegsOnly t (step t x)) (l : List α) (s : State) : RegsOnly s (l.foldl step s) := by
  induction l generalizing s with
  | nil => rfl
  | cons x l ih =>
    have hrest := ih (step s x)
    unfold RegsOnly at h hrest ⊢
    rw [List.foldl_cons, hrest, h s x]

theorem lockCleared_rest (s : State) : RegsOnly { s with vpm := { s.vpm with sync := {} } } (lockCleared s) := by
  have hfold := RegsOnly.foldl (step := fun t g => fsetB t (VP_GRP_STAT_SYNC g) false) (fun _ _ => rfl) (List.range 8) (bump (fsetB { s with vpm := { s.vpm with sync := {} } } VP_SYNC_STAT_LOCK false) VP_SYNC_STAT_LOSSES)
  unfold RegsOnly at hfold ⊢
  unfold lockCleared
  rw [hfold]
  rfl

theorem onVpm_lockCleared (s : State) : OnVpm IsVpmShown (bump (fsetB { s with vpm := { s.vpm with sync := {} } } VP_SYNC_STAT_LOCK false) VP_SYNC_STAT_LOSSES) (lockCleared s) :=
  OnVpm.foldl (fun t g hg => (OnVpm.refl _ t).fsetB (x := VP_GRP_STAT_SYNC g) (isVpmShown_grpStat (List.mem_range.mp hg)) false) _

theorem not_isLastf_syncStat : ¬ IsLastf VP_SYNC_STAT := by unfold IsLastf; decide
theorem not_isVpmShown_syncStat : ¬ IsVpmShown VP_SYNC_STAT := by unfold IsVpmShown; decide

/-- What the loss of the lock shows, raises and records (R194). -/
structure LockLost (s t : State) : Prop where
  member : t.member = s.member
  pending : t.pending = s.pending
  lock : flag t VP_SYNC_STAT_LOCK = false
  period : fget t VP_SYNC_STAT_PERIOD = fget s VP_SYNC_STAT_PERIOD
  losses : fget t VP_SYNC_STAT_LOSSES = min (fget s VP_SYNC_STAT_LOSSES + 1) (fmax VP_SYNC_STAT_LOSSES)
  sync : ∀ h, h < 8 → flag t (VP_GRP_STAT_SYNC h) = false
  raised : Raised 0x95 none 0 0x43 s t
  record : ∃ r, t.vpm.rec_ = some r ∧ r.cause = 9

theorem sync_lockCleared (s : State) {h : Nat} (hh : h < 8) : flag (lockCleared s) (VP_GRP_STAT_SYNC h) = false := by
  obtain ⟨a, -, hend⟩ := foldl_at (R := fun s t => fget t (VP_GRP_STAT_SYNC h) = fget s (VP_GRP_STAT_SYNC h)) (fun _ => rfl) (fun h1 h2 => h2.trans h1) (step := fun t g => fsetB t (VP_GRP_STAT_SYNC g) false)
    (List.mem_range.mpr hh) List.nodup_range (fun t g _ hne => fget_fset_addr t (VP_GRP_STAT_SYNC g) _ _ (grpStat_ne hne.symm)) (bump (fsetB { s with vpm := { s.vpm with sync := {} } } VP_SYNC_STAT_LOCK false) VP_SYNC_STAT_LOSSES)
  exact (flag_congr_fget hend).trans (flag_fsetB_bit a false (by show 0x40540 + 8 * h ≠ 0; omega) (by decide))

theorem lockLost_syncLost (s : State) : LockLost s (syncLost s) := by
  have hrest := lockCleared_rest s
  have hsync := fun h hh => sync_lockCleared s (h := h) hh
  have hshown : ∀ hi lo, fget (lockCleared s) ⟨VP_SYNC_STAT, hi, lo⟩ = fget (bump (fsetB { s with vpm := { s.vpm with sync := {} } } VP_SYNC_STAT_LOCK false) VP_SYNC_STAT_LOSSES) ⟨VP_SYNC_STAT, hi, lo⟩ :=
    fun hi lo => (onVpm_lockCleared s).fget (x := ⟨VP_SYNC_STAT, hi, lo⟩) not_isVpmShown_syncStat
  have hlock : flag (lockCleared s) VP_SYNC_STAT_LOCK = false :=
    (flag_congr_fget ((hshown 0 0).trans (fget_fset_disj _ VP_SYNC_STAT_LOSSES VP_SYNC_STAT_LOCK _ (by decide) (by decide)))).trans (flag_fsetB_bit _ false (by decide) (by decide))
  have hperiod : fget (lockCleared s) VP_SYNC_STAT_PERIOD = fget s VP_SYNC_STAT_PERIOD :=
    ((hshown 31 16).trans (fget_fset_disj _ VP_SYNC_STAT_LOSSES VP_SYNC_STAT_PERIOD _ (by decide) (by decide))).trans (fget_fset_disj _ VP_SYNC_STAT_LOCK VP_SYNC_STAT_PERIOD _ (by decide) (by decide))
  have hlosses : fget (lockCleared s) VP_SYNC_STAT_LOSSES = min (fget s VP_SYNC_STAT_LOSSES + 1) (fmax VP_SYNC_STAT_LOSSES) := by
    rw [hshown 47 32, fget_bump_same _ VP_SYNC_STAT_LOSSES (by decide) (by decide)]
    exact congrArg (fun v => min (v + 1) _) (fget_fset_disj _ VP_SYNC_STAT_LOCK VP_SYNC_STAT_LOSSES _ (by decide) (by decide))
  rw [syncLost_eq]
  have halarm := alarmed_capture (lockCleared s) (c := 0x95) (by decide) none 9 0xFF 0xFF 0
  generalize lockCleared s = u at *
  generalize capture (raiseD u 0x95 none 0 0x43) 9 0xFF 0xFF 0 = t at *
  have hstat : ∀ hi lo, fget t ⟨VP_SYNC_STAT, hi, lo⟩ = fget u ⟨VP_SYNC_STAT, hi, lo⟩ := fun hi lo => halarm.on.fget (x := ⟨VP_SYNC_STAT, hi, lo⟩) not_isLastf_syncStat
  obtain ⟨r, hrec, hcause, -⟩ := halarm.record
  refine ⟨?_, ?_, (flag_congr_fget (hstat 0 0)).trans hlock, (hstat 31 16).trans hperiod, (hstat 47 32).trans hlosses, fun h hh => ?_, ?_, r, hrec, hcause⟩
  · rw [halarm.on.member, hrest]
  · rw [halarm.on.pending, hrest]
  · exact (flag_congr_fget (halarm.on.fget (x := VP_GRP_STAT_SYNC h) (not_isLastf_grpStat hh))).trans (hsync h hh)
  · exact raised_of_flt halarm.raised (by rw [hrest])

theorem gives_syncInEdge_lost {s : State} {p : BitVec 16} (offs : List (BitVec 16)) (hlock : flag s VP_SYNC_STAT_LOCK = true)
    (hoff : 5 * s.vpm.sync.last < 100 * ((p.toNat : Int) - s.vpm.sync.last).natAbs) : Gives (.syncInEdge ⟨p, offs⟩) s fun t => fget t VP_SYNC_STAT_PERIOD = p.toNat ∧
      flag t VP_SYNC_STAT_LOCK = false ∧ Raised 0x95 none 0 0x43 s t ∧ fget t VP_SYNC_STAT_LOSSES = min (fget s VP_SYNC_STAT_LOSSES + 1) (fmax VP_SYNC_STAT_LOSSES) := by
  have hx : exec (.syncInEdge ⟨p, offs⟩) s = nextOf s { syncLost (fset s VP_SYNC_STAT_PERIOD p.toNat) with vpm := { (syncLost (fset s VP_SYNC_STAT_PERIOD p.toNat)).vpm with sync := { last := p.toNat } } } := by
    show execSyncInEdge ⟨p, offs⟩ s = _
    unfold execSyncInEdge
    dsimp only
    rw [if_neg (by rw [hlock, decide_eq_false (Nat.not_le.mpr hoff)]; decide), if_pos hlock]
  have hlost := lockLost_syncLost (fset s VP_SYNC_STAT_PERIOD p.toNat)
  obtain ⟨u, hu⟩ : ∃ u, syncLost (fset s VP_SYNC_STAT_PERIOD p.toNat) = u := ⟨_, rfl⟩
  rw [hu] at hx hlost
  refine gives_of_exec hx (hlost.member.trans (fset_member ..)) (hlost.pending.trans (fset_pending ..)) ⟨(fget_congr rfl rfl _).trans ?_, (flag_congr rfl rfl _).trans hlost.lock, raised_of_flt hlost.raised (fset_flt ..), (fget_congr rfl rfl _).trans ?_⟩
  · exact hlost.period.trans ((fget_fset_same s VP_SYNC_STAT_PERIOD p.toNat (by decide) (by decide)).trans (Nat.mod_eq_of_lt p.isLt))
  · refine hlost.losses.trans ?_
    rw [fget_fset_disj s VP_SYNC_STAT_PERIOD VP_SYNC_STAT_LOSSES p.toNat (by decide) (by decide)]

theorem gives_syncLoss {s : State} (hlock : flag s VP_SYNC_STAT_LOCK = true) : Gives .syncLoss s fun t => flag t VP_SYNC_STAT_LOCK = false ∧ (∀ h, h < 8 → flag t (VP_GRP_STAT_SYNC h) = false) ∧
    fget t VP_SYNC_STAT_LOSSES = min (fget s VP_SYNC_STAT_LOSSES + 1) (fmax VP_SYNC_STAT_LOSSES) ∧ Raised 0x95 none 0 0x43 s t ∧ ∃ r, t.vpm.rec_ = some r ∧ r.cause = 9 := by
  have hx : exec .syncLoss s = nextOf s (syncLost s) := congrArg (nextOf s) (if_pos hlock)
  have hlost := lockLost_syncLost s
  generalize syncLost s = u at hx hlost
  exact gives_of_exec hx hlost.member hlost.pending ⟨hlost.lock, hlost.sync, hlost.losses, hlost.raised, hlost.record⟩

/-! #### Edges before the lock -/

/-- What an edge out of lock leaves of the count of consistent edges (R194). -/
def edgeSeen (y : SyncIn) (p : Nat) (offs : List Int) : SyncIn :=
  let ok := decide (2500 ≤ p ∧ p ≤ 20000)
  let lo := if y.run = 0 then p else min y.minP p
  let hi := if y.run = 0 then p else max y.maxP p
  let fits := ok && decide (100 * (hi - lo) < lo)
  let z : SyncIn := if fits then { y with run := y.run + 1, minP := lo, maxP := hi, last := p } else if ok then { y with run := 1, minP := p, maxP := p, last := p } else { y with run := 0, last := p }
  { z with offs := offs }

theorem last_edgeSeen (y : SyncIn) (p : Nat) (offs : List Int) : (edgeSeen y p offs).last = p := by
  unfold edgeSeen
  dsimp only
  split_ifs <;> rfl

theorem run_edgeSeen_fits {y : SyncIn} {p : Nat} (offs : List Int) (hlo : 2500 ≤ p) (hhi : p ≤ 20000) (hrun : 0 < y.run) (hfit : 100 * (max y.maxP p - min y.minP p) < min y.minP p) :
    (edgeSeen y p offs).run = y.run + 1 := by
  have hne : ¬ y.run = 0 := by omega
  unfold edgeSeen
  simp only [hne, if_false]
  rw [if_pos (by rw [decide_eq_true ⟨hlo, hhi⟩, decide_eq_true hfit]; rfl)]

theorem run_edgeSeen_out {y : SyncIn} {p : Nat} (offs : List Int) (h : p < 2500 ∨ 20000 < p) : (edgeSeen y p offs).run = 0 := by
  have hno : decide (2500 ≤ p ∧ p ≤ 20000) = false := decide_eq_false (by omega)
  unfold edgeSeen
  rw [hno]
  rfl

theorem gives_syncInEdge_unlocked {s : State} (p : BitVec 16) (offs : List (BitVec 16)) (hlock : flag s VP_SYNC_STAT_LOCK = false) : let y := s.vpm.sync
    Gives (.syncInEdge ⟨p, offs⟩) s fun t => fget t VP_SYNC_STAT_PERIOD = p.toNat ∧ flag t VP_SYNC_STAT_LOCK = false ∧ t.vpm.sync.last = p.toNat ∧ t.vpm.sync.offs = offs.map (·.toInt) ∧ t.flt = s.flt ∧
      (2500 ≤ p.toNat → p.toNat ≤ 20000 → 0 < y.run → 100 * (max y.maxP p.toNat - min y.minP p.toNat) < min y.minP p.toNat → t.vpm.sync.run = y.run + 1) ∧
      (p.toNat < 2500 ∨ 20000 < p.toNat → t.vpm.sync.run = 0) := by
  have hx : exec (.syncInEdge ⟨p, offs⟩) s = nextOf s (edgeShown s p.toNat (edgeSeen s.vpm.sync p.toNat (offs.map (·.toInt)))) :=
    congrArg (nextOf s) ((if_neg (by simp [hlock])).trans (if_neg (by simp [hlock])))
  exact gives_of_exec hx rfl rfl ⟨fget_edgeShown s p.isLt _, (lock_edgeShown s _ _).trans hlock, last_edgeSeen _ _ _, rfl, rfl, run_edgeSeen_fits _, run_edgeSeen_out _⟩

theorem gives_syncLock {s : State} {k : Nat} (hk : k < 8) (hlock : flag s VP_SYNC_STAT_LOCK = false) (hrun : 16 ≤ s.vpm.sync.run) : Gives .syncLock s fun t =>
    flag t VP_SYNC_STAT_LOCK = true ∧ t.vpm.sync.count = 0 ∧ (grp t k).off = s.vpm.sync.offs.getD k 0 ∧ t.fronds = s.fronds := by
  let s1 := fsetB { s with vpm := { s.vpm with sync := { s.vpm.sync with count := 0 } } } VP_SYNC_STAT_LOCK true
  let step : State → Nat → State := fun t g => updGrp t g fun x => { x with off := s.vpm.sync.offs.getD g 0, due := false }
  have hx : exec .syncLock s = nextOf s ((List.range 8).foldl step s1) := congrArg (nextOf s) (if_pos ⟨hlock, hrun⟩)
  have hrest : GroupsOnly s1 ((List.range 8).foldl step s1) := .foldl (fun t g => .updGrp t g _) _ _
  obtain ⟨a, -, hend⟩ := foldl_groups_at (step := step) hk (fun t g _ hne => .updGrp t hne _) s1
  generalize (List.range 8).foldl step s1 = t at hx hrest hend
  have hset : flag s1 VP_SYNC_STAT_LOCK = true := flag_fsetB_bit _ true (by decide) (by decide)
  refine gives_of_exec hx (by rw [hrest]; rfl) (by rw [hrest]; rfl) ⟨?_, by rw [hrest]; rfl, ?_, by rw [hrest]; rfl⟩
  · rw [hrest]
    exact hset
  · rw [hend.grp]
    exact congrArg (·.off) (grp_updGrp_same a k _)

end Sys2Proof.Machine
end

section
/-! Events of a supply group: the slew of VREF and the end of a group (R198, R199). -/
namespace Sys2Proof.Machine
open Sys2Proof.Claims

/-! #### A group goes off (R199) -/

theorem StageStep.fset_cmd (s : State) (hi lo v : Nat) : StageStep s (fset s ⟨VP_STAGE_CMD, hi, lo⟩ v) where
  on := (OnVpm.refl _ s).fset (x := ⟨VP_STAGE_CMD, hi, lo⟩) (.inl rfl) v
  grps := rfl
  map _ hn := ⟨fget_fset_addr s ⟨VP_STAGE_CMD, hi, lo⟩ _ v (stage_ne_cmd hn), fget_fset_addr s ⟨VP_STAGE_CMD, hi, lo⟩ _ v (stage_ne_cmd hn)⟩
  volts g _ := fget_fset_addr s ⟨VP_STAGE_CMD, hi, lo⟩ _ v (by show 0x40540 + 8 * g ≠ 0x40180; omega)
  nmin g _ := fget_fset_addr s ⟨VP_STAGE_CMD, hi, lo⟩ _ v (by show 0x40540 + 8 * g ≠ 0x40180; omega)
  cur _ := rfl

theorem StageStep.restartResult (s : State) (n c : Nat) : StageStep s (restartResult s n c) := by
  unfold Machine.restartResult
  split
  · exact ((fset_cmd s _ _ c).trans (fset_cmd _ _ _ _)).trans (updStg _ _ _ rfl)
  · exact refl s

/-- A group goes off by a step on its stages, and its own mark. -/
theorem groupOff_eq (s : State) {g : Nat} (hg : g < 8) : ∃ w, StageStep s w ∧ groupOff s g = updGrp w g fun x => { x with started := false } := by
  refine ⟨fset ((stagesOf s g).foldl (fun t n => if stSt t n = 5 then t else restartResult (setSt t n 6) n 4) s) (VP_GRP_STAT_DE g) 0, StageStep.trans (.foldl (fun t n hn => ?_) s) (.fset_grpStat hg _ _ (by decide) (by decide)), rfl⟩
  split
  · exact .refl t
  · exact (StageStep.setSt t (lt_of_mem_stagesOf hn) 6).trans (.restartResult _ n 4)

/-! #### One microsecond of slew (R198) -/

/-- VREF after one microsecond. -/
def slewed (s : State) (g : Nat) : Nat :=
  let tgt := 256 * fget s (VP_VID_VID g)
  let step := (rne (256 * gcfg s g 1 (VP_GRP_LOOP_SLEW g) : Nat) 5).toNat
  if (grp s g).vref < tgt then min tgt ((grp s g).vref + step) else max tgt ((grp s g).vref - step)

/-- VREF has moved, and is shown. -/
def slewShown (s : State) (g : Nat) : State := showVref (updGrp s g fun x => { x with vref := slewed s g }) g

theorem slewOne_eq (s : State) (g : Nat) : slewOne s g = if slewed s g = 0 ∧ 256 * fget s (VP_VID_VID g) = 0 ∧ (grp s g).started = true then groupOff (slewShown s g) g else slewShown s g := rfl

theorem StageStep.showVref (s : State) {g : Nat} (hg : g < 8) : StageStep s (showVref s g) :=
  (fset_grpStat hg s _ (by decide) (by decide)).trans (fset_grpStat hg _ _ (by decide) (by decide))

theorem grp_slewShown (s : State) (g : Nat) : grp (slewShown s g) g = { grp s g with vref := slewed s g } := grp_updGrp_same s g fun x => { x with vref := slewed s g }

/-- The slew of another group. -/
theorem groupKept_slewOne {k : Nat} (hk : k < 8) (s : State) {g : Nat} (hg : g < 8) (hne : g ≠ k) : GroupKept k s (slewOne s g) := by
  have hshown : GroupKept k s (slewShown s g) := (GroupKept.updGrp s hne _).trans (.of_step hk (.showVref _ hg))
  rw [slewOne_eq]
  split
  · obtain ⟨w, hw, heq⟩ := groupOff_eq (slewShown s g) hg
    rw [heq]
    exact (hshown.trans (.of_step hk hw)).trans (.updGrp w hne _)
  · exact hshown

/-- The slew of a group: where VREF goes, and that a group at 0 with a VID of 0 is off. -/
theorem slewOne_spec (s : State) {k : Nat} (hk : k < 8) : OnVpm IsVpmMoved s (slewOne s k) ∧ fget (slewOne s k) (VP_GRP_STAT_V k) = fget s (VP_GRP_STAT_V k) ∧ (grp (slewOne s k) k).vref = slewed s k ∧
    (slewed s k = 0 → 256 * fget s (VP_VID_VID k) = 0 → (grp (slewOne s k) k).started = false) := by
  have hstep := StageStep.showVref (updGrp s k fun x => { x with vref := slewed s k }) hk
  have hon : OnVpm IsVpmMoved s (slewShown s k) := (onVpm_updGrp s k _).trans hstep.on
  have hvolt : fget (slewShown s k) (VP_GRP_STAT_V k) = fget s (VP_GRP_STAT_V k) := hstep.volts k hk
  have hgrp := grp_slewShown s k
  rw [slewOne_eq]
  split
  · obtain ⟨w, hw, heq⟩ := groupOff_eq (slewShown s k) hk
    rw [heq, grp_updGrp_same, hw.grp, hgrp]
    exact ⟨(hon.trans hw.on).trans (onVpm_updGrp w k _), (hw.volts k hk).trans hvolt, rfl, fun _ _ => rfl⟩
  next hnot =>
    rw [hgrp]
    exact ⟨hon, hvolt, rfl, fun h0 ht => Bool.eq_false_iff.mpr fun hs => hnot ⟨h0, ht, hs⟩⟩

/-! #### The tick -/

/-- The input mean is shown, with the least one; an input that is back awaits START (Table 9-20). -/
def inputShown (s : State) (vin : Nat) : State :=
  let st := fget s VP_VIN_STAT_STATE
  let back := (st == 1 || st == 2) && decide (50 * fget s VP_VIN_CFG_UV ≤ vin ∧ vin ≤ 50 * fget s VP_VIN_CFG_OV)
  let s0 := if back then fset s VP_VIN_STAT_STATE 3 else s
  fset (fset s0 VP_VIN_STAT_VIN vin) VP_VIN_STAT_VIN_MIN (min (fget s VP_VIN_STAT_VIN_MIN) vin)

/-- The rail of a group that is off is shown. -/
def offRailShown (rails : List (BitVec 14)) (t : State) (g : Nat) : State := if (grp t g).started then t else fset t (VP_GRP_STAT_V g) (rails.getD g 0).toNat

theorem exec_vrefSlewTick (s : State) (vin : BitVec 16) (rails : List (BitVec 14)) :
    exec (.vrefSlewTick ⟨vin, rails⟩) s = nextOf s (pmStep ((List.range 8).foldl slewOne ((List.range 8).foldl (offRailShown rails) (inputShown s vin.toNat)))) := rfl

/-- Only the register of the input has changed. -/
theorem inputShown_rest (s : State) (vin : Nat) : RegsOnly s (inputShown s vin) ∧ ∀ a, a ≠ VP_VIN_STAT → reg (inputShown s vin) a = reg s a := by
  unfold inputShown
  dsimp only
  refine ⟨?_, fun a ha => ?_⟩
  · split <;> rfl
  · rw [reg_fset_ne _ _ _ _ ha, reg_fset_ne _ _ _ _ ha]
    split
    · exact reg_fset_ne _ _ _ _ ha
    · rfl

theorem inputShown_shows (s : State) {vin : Nat} (hv : vin < 2 ^ 16) :
    fget (inputShown s vin) VP_VIN_STAT_VIN = vin ∧ fget (inputShown s vin) VP_VIN_STAT_VIN_MIN = min (fget s VP_VIN_STAT_VIN_MIN) vin := by
  unfold inputShown
  dsimp only
  constructor
  · rw [fget_fset_disj _ VP_VIN_STAT_VIN_MIN VP_VIN_STAT_VIN _ (by decide) (by decide), fget_fset_same _ VP_VIN_STAT_VIN vin (by decide) (by decide)]
    exact Nat.mod_eq_of_lt hv
  · rw [fget_fset_same _ VP_VIN_STAT_VIN_MIN _ (by decide) (by decide)]
    exact Nat.mod_eq_of_lt (lt_of_le_of_lt (Nat.min_le_right _ _) hv)

theorem groupKept_offRailShown (rails : List (BitVec 14)) {k : Nat} (t : State) {g : Nat} (hg : g < 8) (hne : g ≠ k) : GroupKept k t (offRailShown rails t g) := by
  unfold offRailShown
  split
  · exact .refl k t
  · exact .fset t hg hne _ _ _

theorem onVpm_offRailShown (rails : List (BitVec 14)) (t : State) {g : Nat} (hg : g < 8) : OnVpm IsVpmMoved t (offRailShown rails t g) := by
  unfold offRailShown
  split
  · exact .refl _ t
  · exact (OnVpm.refl _ t).fset (x := VP_GRP_STAT_V g) (isVpmMoved_grpStat hg) _

theorem grp_offRailShown (rails : List (BitVec 14)) (t : State) (g h : Nat) : grp (offRailShown rails t g) h = grp t h := by
  unfold offRailShown
  split <;> rfl

/-- A group that is off shows its rail. -/
theorem volt_offRailShown (rails : List (BitVec 14)) {t : State} {k : Nat} (h : (grp t k).started = false) : fget (offRailShown rails t k) (VP_GRP_STAT_V k) = (rails.getD k 0).toNat := by
  unfold offRailShown
  rw [if_neg (by rw [h]; decide), fget_fset_same t (VP_GRP_STAT_V k) _ (show 0x40540 + 8 * k ≠ 0 by omega) (show 29 < 64 by decide)]
  exact Nat.mod_eq_of_lt (rails.getD k 0).isLt

/-- The two folds of a tick, seen at group k. -/
theorem tick_at (s : State) (rails : List (BitVec 14)) {k : Nat} (hk : k < 8) : ∃ a e, (List.range 8).foldl slewOne ((List.range 8).foldl (offRailShown rails) s) = e ∧
    OnVpm IsVpmMoved s a ∧ grp a k = grp s k ∧ ((grp s k).started = false → fget a (VP_GRP_STAT_V k) = (rails.getD k 0).toNat) ∧ GroupKept k (slewOne a k) e := by
  obtain ⟨b, hb, hr⟩ := foldl_groups_at hk (fun t g hg hne => groupKept_offRailShown rails t hg hne) s
  obtain ⟨a, ha, he⟩ := foldl_groups_at hk (fun t g hg hne => groupKept_slewOne hk t hg hne) ((List.range 8).foldl (offRailShown rails) s)
  refine ⟨a, _, rfl, ((hb.on.trans (onVpm_offRailShown rails b hk)).trans hr.on).trans ha.on, ?_, fun h => ?_, he⟩
  · rw [ha.grp, hr.grp, grp_offRailShown, hb.grp]
  · rw [ha.volt, hr.volt, volt_offRailShown rails (by rw [hb.grp, h])]

theorem slewed_congr {s a : State} {k : Nat} (hg : grp a k = grp s k) (hreg : ∀ b, 0x40440 ≤ b ∧ b < 0x40540 → reg a b = reg s b) (hk : k < 8) : slewed a k = slewed s k ∧ fget a (VP_VID_VID k) = fget s (VP_VID_VID k) := by
  have hvid : fget a (VP_VID_VID k) = fget s (VP_VID_VID k) := congrArg (fun w : W64 => bitsOf w.toNat 13 0) (hreg _ (by show _ ≤ 0x40500 + 8 * k ∧ 0x40500 + 8 * k < _; omega))
  refine ⟨?_, hvid⟩
  unfold slewed
  rw [hg, hvid, gcfg_congr 1 hg (hreg _ (by show _ ≤ 0x40440 + 8 * k ∧ 0x40440 + 8 * k < _; omega))]

theorem gives_vrefSlewTick (s : State) {k : Nat} (hk : k < 8) (vin : BitVec 16) (rails : List (BitVec 14)) :
    Gives (.vrefSlewTick ⟨vin, rails⟩) s fun t => fget t VP_VIN_STAT_VIN = vin.toNat ∧ fget t VP_VIN_STAT_VIN_MIN = min (fget s VP_VIN_STAT_VIN_MIN) vin.toNat ∧
    ((grp s k).started = false → fget t (VP_GRP_STAT_V k) = (rails.getD k 0).toNat) ∧
    (let tgt := 256 * fget s (VP_VID_VID k); let step := (rne (256 * gcfg s k 1 (VP_GRP_LOOP_SLEW k) : Nat) 5).toNat
      (grp t k).vref = (if (grp s k).vref < tgt then min tgt ((grp s k).vref + step) else max tgt ((grp s k).vref - step)) ∧ ((grp t k).vref = 0 → tgt = 0 → (grp t k).started = false)) := by
  have hx := exec_vrefSlewTick s vin rails
  obtain ⟨hrest, hreg⟩ := inputShown_rest s vin.toNat
  obtain ⟨hvin, hmin⟩ := inputShown_shows s vin.isLt
  obtain ⟨i, hi⟩ : ∃ i, inputShown s vin.toNat = i := ⟨_, rfl⟩
  rw [hi] at hx hrest hreg hvin hmin
  have higrp : grp i k = grp s k := by
    rw [hrest]
    rfl
  obtain ⟨a, e, heq, hon, hgrp, hrail, hend⟩ := tick_at i rails hk
  rw [heq] at hx
  rw [higrp] at hgrp hrail
  obtain ⟨hson, hsvolt, hsvref, hsoff⟩ := slewOne_spec a hk
  have hall : OnVpm IsVpmMoved i e := (hon.trans hson).trans hend.on
  obtain ⟨hslew, hvid⟩ := slewed_congr hgrp (fun b hb => (hon.reg b (not_isVpmMoved_config (.inl ⟨by omega, hb.2⟩))).trans (hreg b (by show b ≠ 0x40608; omega))) hk
  rw [hslew] at hsvref hsoff
  rw [hvid] at hsoff
  have hin : ¬ IsVpmMoved VP_VIN_STAT := not_isVpmMoved_config (by decide)
  refine gives_of_exec hx ?_ ?_ ⟨(hall.fget (x := VP_VIN_STAT_VIN) hin).trans hvin, (hall.fget (x := VP_VIN_STAT_VIN_MIN) hin).trans hmin, fun h => ?_, ?_, fun h0 ht => ?_⟩
  · rw [pmStep_member, hall.member, hrest]
  · rw [pmStep_pending, hall.pending, hrest]
  · exact hend.volt.trans (hsvolt.trans (hrail h))
  · exact (congrArg (·.vref) hend.grp).trans hsvref
  · refine (congrArg (·.started) hend.grp).trans (hsoff ?_ ht)
    rw [← hsvref, ← hend.grp]
    exact h0

end Sys2Proof.Machine
end

section
/-! Events of a supply group: power-good, shedding, NMIN and all-stage firing (R199, R201, R203). -/
namespace Sys2Proof.Machine
open Sys2Proof.Claims

/-! #### Power-good (R199) -/

section
variable {s : State} {g : BitVec 3}

theorem grpStat_ne_id (k : Nat) : VP_GRP_STAT k ≠ RZ_ID := by
  show 0x40540 + 8 * k ≠ 0
  omega

theorem gives_powerGoodRise (hstart : (grp s g.toNat).started = true) (hvid : fget s (VP_VID_VID g.toNat) ≠ 0) (hvref : (grp s g.toNat).vref = 256 * fget s (VP_VID_VID g.toNat)) :
    Gives (.powerGoodRise g) s fun t => flag t (VP_GRP_STAT_PG g.toNat) = true ∧ (∀ a, a ≠ VP_GRP_STAT g.toNat → reg t a = reg s a) ∧ t = { s with regs := t.regs, pm := t.pm } := by
  have hx : exec (.powerGoodRise g) s = nextOf s (pmStep (fsetB s (VP_GRP_STAT_PG g.toNat) true)) :=
    congrArg (nextOf s) (if_pos (by rw [hstart, hvref, bne_iff_ne.mpr hvid, beq_self_eq_true]; rfl))
  exact gives_of_exec hx rfl rfl ⟨flag_fsetB_bit s true (grpStat_ne_id _) (by decide), fun a ha => reg_fset_ne s (VP_GRP_STAT_PG g.toNat) 1 a ha, rfl⟩

theorem isSome_fltRow_powerGood {k : Nat} (hk : k < 8) : (fltRow (0x98 + k)).isSome := by
  interval_cases k <;> rfl

theorem gives_powerGoodLoss (h : flag s (VP_GRP_STAT_PG g.toNat) = true) : let k := g.toNat
    Gives (.powerGoodLoss g) s fun t => flag t (VP_GRP_STAT_PG k) = false ∧ Raised (0x98 + k) (some k) 0 0x43 s t ∧ (∃ r, t.vpm.rec_ = some r ∧ r.cause = 10 ∧ r.grp = k ∧ r.stage = 0xFF) ∧
      flag t VP_LASTF_STAT_PENDING = true := by
  have hk := g.isLt
  have hx : exec (.powerGoodLoss g) s = nextOf s (pmStep (capture (raiseD (fsetB s (VP_GRP_STAT_PG g.toNat) false) (0x98 + g.toNat) (some g.toNat) 0 0x43) 10 0xFF g.toNat 0)) :=
    congrArg (nextOf s) (if_pos h)
  have hpg : flag (fsetB s (VP_GRP_STAT_PG g.toNat) false) (VP_GRP_STAT_PG g.toNat) = false := flag_fsetB_bit s false (grpStat_ne_id _) (by decide)
  have halarm := alarmed_capture (fsetB s (VP_GRP_STAT_PG g.toNat) false) (isSome_fltRow_powerGood hk) (some g.toNat) 10 0xFF g.toNat 0
  obtain ⟨t, ht⟩ : ∃ t, capture (raiseD (fsetB s (VP_GRP_STAT_PG g.toNat) false) (0x98 + g.toNat) (some g.toNat) 0 0x43) 10 0xFF g.toNat 0 = t := ⟨_, rfl⟩
  rw [ht] at hx halarm
  obtain ⟨r, hrec, hcause, hgrp, hstage⟩ := halarm.record
  exact gives_of_exec hx halarm.on.member halarm.on.pending ⟨(flag_congr_fget (halarm.on.fget (x := VP_GRP_STAT_PG g.toNat) (not_isLastf_grpStat hk))).trans hpg, raised_of_flt halarm.raised (fsetB_flt ..),
    ⟨r, hrec, hcause, hgrp hk, hstage (by decide)⟩, halarm.shown⟩

/-! #### Shedding and NMIN (R201) -/

theorem rne_one (n : Int) : rne n 1 = n := by
  unfold rne
  simp

theorem shedEval_eq {k : Nat} (ig : Int) (hstart : (grp s k).started = true) (hen : gcfg s k 3 (VP_GRP_LL_SHED_EN k) ≠ 0) : shedEval s k ig 1 =
    if shedTarget s k ig 1 < (actOf s k).length then setSt (updGrp s k fun x => { x with tgt := shedTarget s k ig 1, cur := rne ig 1 }) ((actOf s k).getLastD 0) 3
    else updGrp s k fun x => { x with tgt := shedTarget s k ig 1, cur := rne ig 1 } :=
  if_neg (by rw [hstart]; exact fun h => h.elim hen (by decide))

theorem getLastD_mem {l : List Nat} (h : 0 < l.length) : l.getLastD 0 ∈ l := by
  cases l with
  | nil => exact absurd h (Nat.lt_irrefl 0)
  | cons x l =>
    rw [List.getLastD_cons]
    exact List.getLastD_mem_cons

theorem gives_shedEvaluation (ig : BitVec 32) (hstart : (grp s g.toNat).started = true) (hen : gcfg s g.toNat 3 (VP_GRP_LL_SHED_EN g.toNat) ≠ 0) : let k := g.toNat
    Gives (.shedEvaluation g ig) s fun t => (grp t k).tgt = shedTarget s k ig.toInt 1 ∧ (grp t k).cur = ig.toInt ∧
    (shedTarget s k ig.toInt 1 < (actOf s k).length → stSt t ((actOf s k).getLastD 0) = 3 ∧ ∀ n, n < 48 → n ≠ (actOf s k).getLastD 0 → stSt t n = stSt s n) ∧
    ((actOf s k).length ≤ shedTarget s k ig.toInt 1 → t.regs = s.regs) := by
  have hx : exec (.shedEvaluation g ig) s = nextOf s (shedEval s g.toNat ig.toInt 1) := rfl
  rw [shedEval_eq ig.toInt hstart hen] at hx
  have hgrp : grp (updGrp s g.toNat fun x => { x with tgt := shedTarget s g.toNat ig.toInt 1, cur := rne ig.toInt 1 }) g.toNat =
    { grp s g.toNat with tgt := shedTarget s g.toNat ig.toInt 1, cur := ig.toInt } := by rw [grp_updGrp_same, rne_one]
  by_cases hlt : shedTarget s g.toNat ig.toInt 1 < (actOf s g.toNat).length
  · have hn : (actOf s g.toNat).getLastD 0 < 48 := lt_of_mem_actOf (getLastD_mem (Nat.zero_lt_of_lt hlt))
    rw [if_pos hlt] at hx
    have hstep := StageStep.setSt (updGrp s g.toNat fun x => { x with tgt := shedTarget s g.toNat ig.toInt 1, cur := rne ig.toInt 1 }) hn 3
    have hst := stSt_setSt (updGrp s g.toNat fun x => { x with tgt := shedTarget s g.toNat ig.toInt 1, cur := rne ig.toInt 1 }) hn 3 (by decide)
    refine gives_of_exec hx hstep.on.member hstep.on.pending ⟨?_, ?_, fun _ => ⟨(hst _).trans (if_pos rfl), fun n _ hne => (hst n).trans (if_neg hne)⟩, fun hle => absurd hlt (Nat.not_lt.mpr hle)⟩
    · rw [hstep.grp, hgrp]
    · rw [hstep.grp, hgrp]
  · rw [if_neg hlt] at hx
    exact gives_of_exec hx rfl rfl ⟨congrArg (·.tgt) hgrp, congrArg (·.cur) hgrp, fun h => absurd h hlt, fun _ => rfl⟩

theorem gives_nminUpdate (n : BitVec 6) (hs : Quiet s) : Gives (.nminUpdate n) s fun t => Journalled (.nmin n.toNat) false s t ∧ t.regs = s.regs ∧ t.fronds = s.fronds := by
  have hsync := inSync_of_quiet hs
  have ⟨hready, _⟩ := hs
  have hj := onJournal_journal hsync (.nmin n.toNat) false
  have hsent := journalled_journal (s := s) rfl rfl hsync hready (.nmin n.toNat) false
  have hx : exec (.nminUpdate n) s = nextOf s (pmStep (journal s (.nmin n.toNat) false)) := congrArg (nextOf s) (rzEvent_quiet hs rfl hj.ready hj.queue)
  exact gives_of_exec hx hj.member hj.pending ⟨hsent, hj.regs, hj.fronds⟩

/-- An evaluation leaves NMIN alone. -/
theorem nmin_shedEval (s : State) {k : Nat} (hk : k < 8) (ig : Int) (n : Nat) : fget (shedEval s k ig n) (VP_GRP_STAT_NMIN k) = fget s (VP_GRP_STAT_NMIN k) := by
  unfold shedEval
  dsimp only
  split
  · rfl
  · split
    next hlt => exact (StageStep.setSt _ (lt_of_mem_actOf (getLastD_mem (Nat.zero_lt_of_lt hlt))) 3).nmin k hk
    next => rfl

theorem nmin_takeNmin (s : State) (n : BitVec 6) : fget (takeNmin s n.toNat) (VP_GRP_STAT_NMIN 0) = n.toNat := by
  have hset : fget (fset s (VP_GRP_STAT_NMIN 0) n.toNat) (VP_GRP_STAT_NMIN 0) = n.toNat :=
    (fget_fset_same s (VP_GRP_STAT_NMIN 0) n.toNat (by decide) (by decide)).trans (Nat.mod_eq_of_lt n.isLt)
  unfold takeNmin
  dsimp only
  split
  · exact hset
  · exact (nmin_shedEval _ (by decide) _ _).trans hset

/-! #### All-stage firing (R203) -/

/-- The level of a stage in service whose fault line is high and whose group fires, unless a trip holds it low (Table 9-5). -/
theorem stageLines_firing {t : State} {n tt : Nat} (hst : stSt t n = 2 ∨ stSt t n = 3) (hflt : (stg t n).flt = false) (hheld : (stg t n).held ≠ some (stagePeriod t n tt))
    (hfire : (grp t (fget t (VP_STAGE_GROUP n))).firing = true) : stageLines t n tt = (true, .high) := by
  have hno : ∀ m, m ≠ 2 → m ≠ 3 → stSt t n ≠ m := fun m h2 h3 he => by omega
  unfold stageLines
  dsimp only
  rw [if_neg (by rw [hflt]; simp [hno]), if_neg (hno 4 (by decide) (by decide)), if_neg (hno 1 (by decide) (by decide)), if_neg (by simpa using hheld), if_pos hfire]

/-- A stage in service that an ended firing drives low, or that a trip holds low (Table 9-5). -/
theorem stageLines_low {t : State} {n tt : Nat} (hst : stSt t n = 2 ∨ stSt t n = 3) (hflt : (stg t n).flt = false) (hfire : (grp t (fget t (VP_STAGE_GROUP n))).firing = false)
    (hlow : (stg t n).low = some (stagePeriod t n tt)) : stageLines t n tt = (true, .low) := by
  have hno : ∀ m, m ≠ 2 → m ≠ 3 → stSt t n ≠ m := fun m h2 h3 he => by omega
  unfold stageLines
  dsimp only
  rw [if_neg (by rw [hflt]; simp [hno]), if_neg (hno 4 (by decide) (by decide)), if_neg (hno 1 (by decide) (by decide)), hfire, hlow]
  simp

theorem gives_allStageFiring {rose : Bool} (tt : Nat) (hstart : (grp s g.toNat).started = true) (hen : gcfg s g.toNat 3 (VP_GRP_LL_AF_EN g.toNat) = 1) (hfire : (grp s g.toNat).firing = false)
    (harm : (grp s g.toNat).armed = true) (hrose : (grp s g.toNat).rose = true ∨ rose = true) : let k := g.toNat
    Gives (.allStageFiring ⟨g, rose⟩) s fun t => flag t (VP_GRP_STAT_AF k) = true ∧ fget t (VP_GRP_STAT_AF_COUNT k) = min (fget s (VP_GRP_STAT_AF_COUNT k) + 1) (fmax (VP_GRP_STAT_AF_COUNT k)) ∧
    (∀ n ∈ servOf s k, (stg s n).flt = false → (stg s n).held ≠ some (stagePeriod s n tt) → stageLines t n tt = (true, .high)) ∧ ∀ n, stSt t n = stSt s n := by
  have hk := g.isLt
  have hgo : ((grp s g.toNat).started && gcfg s g.toNat 3 (VP_GRP_LL_AF_EN g.toNat) == 1 && !(grp s g.toNat).firing && (grp s g.toNat).armed && ((grp s g.toNat).rose || rose)) = true := by
    rw [hstart, hen, hfire, harm, (Bool.or_eq_true _ _).mpr hrose]
    rfl
  have hx : exec (.allStageFiring ⟨g, rose⟩) s = nextOf s (updGrp (bump (fsetB s (VP_GRP_STAT_AF g.toNat) true) (VP_GRP_STAT_AF_COUNT g.toNat)) g.toNat fun y => { y with firing := true, armed := false, rose := false }) :=
    congrArg (nextOf s) (if_pos hgo)
  obtain ⟨t, ht⟩ : ∃ t, bump (fsetB s (VP_GRP_STAT_AF g.toNat) true) (VP_GRP_STAT_AF_COUNT g.toNat) = t := ⟨_, rfl⟩
  have haf : flag t (VP_GRP_STAT_AF g.toNat) = true := by
    rw [← ht]
    exact (flag_congr_fget (fget_fset_bits _ _ (by decide) (by decide))).trans (flag_fsetB_bit s true (grpStat_ne_id _) (by decide))
  have hcount : fget t (VP_GRP_STAT_AF_COUNT g.toNat) = min (fget s (VP_GRP_STAT_AF_COUNT g.toNat) + 1) (fmax (VP_GRP_STAT_AF_COUNT g.toNat)) := by
    rw [← ht, fget_bump_same _ (VP_GRP_STAT_AF_COUNT g.toNat) (grpStat_ne_id _) (show 63 < 64 by decide)]
    exact congrArg (fun v => min (v + 1) _) (fget_fset_bits s 1 (show 51 < 64 by decide) (.inr (show 51 < 56 by decide)))
  have hstage : ∀ n, n < 48 → ∀ hi lo, fget t ⟨VP_STAGE n, hi, lo⟩ = fget s ⟨VP_STAGE n, hi, lo⟩ := fun n hn hi lo => by
    rw [← ht]
    exact (fget_fset_addr _ (VP_GRP_STAT_AF_COUNT g.toNat) ⟨VP_STAGE n, hi, lo⟩ _ (stage_ne_grpStat hn _).symm).trans (fget_fset_addr s (VP_GRP_STAT_AF g.toNat) ⟨VP_STAGE n, hi, lo⟩ _ (stage_ne_grpStat hn _).symm)
  have hstg : ∀ n, stg t n = stg s n := fun n => by
    rw [← ht]
    rfl
  have hmember : t.member = s.member ∧ t.pending = s.pending := by
    rw [← ht]
    exact ⟨rfl, rfl⟩
  rw [ht] at hx
  obtain ⟨u, hu⟩ : ∃ u, updGrp t g.toNat (fun y => { y with firing := true, armed := false, rose := false }) = u := ⟨_, rfl⟩
  have hst : ∀ n, stSt u n = stSt s n := fun n => by
    rw [← hu]
    show stSt t n = _
    unfold stSt
    split
    next hn => exact hstage n hn 6 4
    next => rfl
  have hustg : ∀ n, stg u n = stg s n := fun n => by
    rw [← hu]
    exact hstg n
  have hperiod : ∀ n, stagePeriod u n tt = stagePeriod s n tt := fun n => by
    unfold stagePeriod
    rw [hustg, hst]
  have hgroup : ∀ n ∈ servOf s g.toNat, (grp u (fget u (VP_STAGE_GROUP n))).firing = true := fun n hn => by
    obtain ⟨hmem, -⟩ := mem_servOf hn
    have hg : fget u (VP_STAGE_GROUP n) = g.toNat := by
      rw [← hu]
      exact (hstage n (lt_of_mem_stagesOf hmem) 2 0).trans (group_of_mem_stagesOf hmem)
    rw [hg, ← hu, grp_updGrp_same]
  refine gives_of_exec hx hmember.1 hmember.2 ⟨haf, hcount, fun n hn hflt hheld => ?_, fun n => ?_⟩
  · rw [hu]
    exact stageLines_firing (by rw [hst]; exact (mem_servOf hn).2) (by rw [hustg, hflt]) (by rw [hustg, hperiod]; exact hheld) (hgroup n hn)
  · rw [hu]
    exact hst n

/-- Each listed stage drives low for the rest of the period that it is in. -/
def drivenLow (s : State) (tt : Nat) (l : List Nat) (e : State) : State := l.foldl (fun u n => updStg u n fun x => { x with low := some (stagePeriod s n tt) }) e

theorem stages_drivenLow (s : State) (tt : Nat) (l : List Nat) (e : State) : StagesOnly e (drivenLow s tt l e) := .foldl (fun t n => .updStg t n _) l e

theorem stg_drivenLow (s : State) (tt : Nat) {l : List Nat} (hnd : l.Nodup) (e : State) {n : Nat} (hn : n ∈ l) : stg (drivenLow s tt l e) n = { stg e n with low := some (stagePeriod s n tt) } :=
  (stg_foldl_updStg (fun n x => { x with low := some (stagePeriod s n tt) }) hnd e n).trans (if_pos hn)

theorem gives_firingEnd (tt : BitVec 16) (rec : Bool) (hfire : (grp s g.toNat).firing = true) : let k := g.toNat
    Gives (.firingEnd ⟨g, tt⟩ rec) s fun t => (grp t k).firing = false ∧ (grp t k).afHold = true ∧ (grp t k).rose = rec ∧ t.regs = s.regs ∧
    (∀ n ∈ servOf s k, (stg s n).flt = false → stageLines t n tt.toNat = (true, .low)) := by
  obtain ⟨e, he⟩ : ∃ e, updGrp s g.toNat (fun y => { y with firing := false, afHold := true, rose := rec }) = e := ⟨_, rfl⟩
  have hegrp : grp e g.toNat = { grp s g.toNat with firing := false, afHold := true, rose := rec } := by rw [← he, grp_updGrp_same]
  have hx : exec (.firingEnd ⟨g, tt⟩ rec) s = nextOf s (drivenLow s tt.toNat (servOf s g.toNat) e) := by
    rw [← he]
    exact congrArg (nextOf s) (if_pos hfire)
  have hrest := stages_drivenLow s tt.toNat (servOf s g.toNat) e
  have hlow := fun n hn => stg_drivenLow s tt.toNat (nodup_servOf s g.toNat) e (n := n) hn
  obtain ⟨t, ht⟩ : ∃ t, drivenLow s tt.toNat (servOf s g.toNat) e = t := ⟨_, rfl⟩
  rw [ht] at hx hrest hlow
  have hfget : ∀ x, fget t x = fget s x := fun x => by
    rw [hrest.fget, ← he]
    rfl
  have hst : ∀ n, stSt t n = stSt s n := fun n => stSt_congr (hfget _)
  have hgrp : grp t g.toNat = { grp s g.toNat with firing := false, afHold := true, rose := rec } := by rw [hrest.grp, hegrp]
  refine gives_of_exec hx (by rw [hrest, ← he]; rfl) (by rw [hrest, ← he]; rfl) ⟨by rw [hgrp], by rw [hgrp], by rw [hgrp], by rw [hrest, ← he]; rfl, fun n hn hflt => ?_⟩
  obtain ⟨hmem, hstate⟩ := mem_servOf hn
  have hstg : stg t n = { stg s n with low := some (stagePeriod s n tt.toNat) } := by
    rw [hlow n hn, ← he]
    rfl
  refine stageLines_low (by rw [hst]; exact hstate) (by rw [hstg]; exact hflt) ?_ ?_
  · rw [hfget, group_of_mem_stagesOf hmem, hgrp]
  · unfold stagePeriod
    rw [hst, hstg]
    rfl

theorem gives_afHoldExpiry (h : (grp s g.toNat).afHold = true) : let k := g.toNat
    Gives (.afHoldExpiry g) s fun t => (grp t k).afHold = false ∧ flag t (VP_GRP_STAT_AF k) = (grp s k).firing ∧ ∀ n, stSt t n = stSt s n := by
  have hx : exec (.afHoldExpiry g) s = nextOf s (fsetB (updGrp s g.toNat fun y => { y with afHold := false }) (VP_GRP_STAT_AF g.toNat) (grp s g.toNat).firing) := congrArg (nextOf s) (if_pos h)
  refine gives_of_exec hx rfl rfl ⟨?_, flag_fsetB_bit _ _ (grpStat_ne_id _) (by decide), fun n => ?_⟩
  · rw [grp_fsetB, grp_updGrp_same]
  · exact stSt_congr (fget_fset_above (updGrp s g.toNat fun y => { y with afHold := false }) _ _ _ (by decide) (by decide))

end

/-- Settles O47: each event of a group by its own lemma; a period start by what is in force when the duty is formed, and a fold over the groups by what it does at group k (R194 to R203, R211). -/
theorem vpmGroups : Obligations.VpmGroups := by
  intro s g
  have hk := g.isLt
  exact ⟨fun _ v cur hstart hdue hvin => gives_groupPeriodStart v cur hstart hdue hvin, fun h tt => startDue_of_free h tt, fun h tt v cur => gives_groupPeriodStart_off h tt v cur,
    fun p offs => ⟨gives_syncInEdge_held hk offs, gives_syncInEdge_lost offs, gives_syncInEdge_unlocked p offs⟩, gives_syncLock hk, gives_syncLoss, gives_vrefSlewTick s hk,
    gives_powerGoodRise, gives_powerGoodLoss, fun ig => gives_shedEvaluation ig, fun n => ⟨gives_nminUpdate n, nmin_takeNmin s n⟩,
    fun _ tt hstart hen hfire harm hrose => gives_allStageFiring tt hstart hen hfire harm hrose, gives_firingEnd, gives_afHoldExpiry⟩

end Sys2Proof.Machine
end

section
/-! A stage's fault line goes high (R199, R209): the raise that a count of the stages in service can bring. -/
namespace Sys2Proof.Machine
open Sys2Proof.Claims

/-- Stage 0 of G0 is off behind its low fault line while the group runs at 700 mV, and VP_GRP_STAT_0 shows four stages in service where there are none. -/
def overcounted : State :=
  let s := setReg (setReg (setReg (setReg State.reset (VP_STAGE 0) (8 + 6 * 2 ^ 4)) (VP_VID 0) 2800) (VP_GRP_STAT 0) (4 * 2 ^ 32)) VP_VIN_STAT 12000
  setGrp (setStg s 0 { flt := true }) 0 { started := true }

theorem overcounted_waits : (stg overcounted 0).flt = true ∧ stSt overcounted 0 = 6 ∧ (grp overcounted (fget overcounted (VP_STAGE_GROUP 0))).started = true ∧ overcounted.flt.raises = [] := by
  decide +kernel

/-- The check begins, the count of the stages in service falls below the least of Table 2-2, and source 0xA0 is raised (R209). -/
theorem raises_of_overcounted : (match exec (.stageFaultLine ⟨0, 0⟩ false) overcounted with | .next t => t.flt.raises | _ => []) = [⟨0xA0, some 0, 0, 0x43, false⟩] := by
  decide +kernel

/-- Refutes O48: its clause on a fault line that goes high asks for no raise in any state. The check that begins counts the stages in service anew (R209), and where VP_GRP_STAT_g showed more of them
than there are, as in `overcounted`, the fall of the count raises group capacity. The statement has no hypothesis that N_SERV counts the stages in service. -/
theorem not_vpmStages : ¬ Obligations.VpmStages := by
  intro h
  obtain ⟨-, -, -, -, -, -, -, hhigh, -⟩ := h overcounted 0 (by decide)
  obtain ⟨hflt, hstate, hstart, hnone⟩ := overcounted_waits
  obtain ⟨t, hexec, -, -, hsame⟩ := hhigh 0 hflt hstate hstart
  have hraised := raises_of_overcounted
  rw [show exec (.stageFaultLine ⟨0, 0⟩ false) overcounted = .next t from hexec] at hraised
  change t.flt.raises = _ at hraised
  rw [hsame, hnone] at hraised
  cases hraised

end Sys2Proof.Machine
end
